-- ==== Sys2Proof/Word.lean ====
section
/-! DEFINITION. The word types of the block and nothing else. -/

namespace Sys2Proof

/-- A 64-bit word of the word engine, of a descriptor, of a row. -/
abbrev Word := BitVec 64
/-- One byte. -/
abbrev Byte := BitVec 8
/-- A 32-bit register of BAR 0 (R13). -/
abbrev Reg := BitVec 32
/-- A stored codeword of the (72,64) code: data in bits 63..0, check bits in 71..64 (R457). -/
abbrev Code := BitVec 72

end Sys2Proof
end

