-- ==== Sys2Proof/Types/Base.lean ====
section
/-! DEFINITION. Plain data types shared by all parts of the state: sparse tables and tags. -/

namespace Sys2Proof.Machine

/-- A sparse table: entries in strictly rising key order, none equal to what an unlisted key reads as. -/
abbrev Tab (α : Type) := List (Nat × α)

/-- A tag: a context 0..15, or NONE (R98). -/
abbrev Tag := Option (BitVec 4)

end Sys2Proof.Machine
end

