-- ==== Sys2Proof/Types/Fabric.lean ====
section
/-! DEFINITION. The state of the fabric: crystals, planes, basins, ports (02, 03, 04, 05, 06). -/

namespace Sys2Proof.Machine

/-- The opcodes of the word engine (R76). -/
inductive WeOp where
  | nop | pass | add | addc | sub | subb | acc | and | or | xor | andn | shl | shr | sar | rol | cmpeq | cmpltu | cmplts
  | minu | mins | maxu | maxs | popcnt | clz | bswap | extr | ins | sel | mul32u | mul32s | crc | hmix | ldr | str | fence
  deriving DecidableEq, Repr

/-- The fields of an instruction beside OP (R70). -/
structure WeFields where
  dst  : BitVec 2
  srcA : BitVec 3
  srcB : BitVec 3
  sh   : BitVec 6
  cond : BitVec 4
  imm8 : BitVec 8
  deriving DecidableEq, Repr

/-- A crystal of the device: physical basin 0..33 and the 9-bit pan-and-crystal address (R30). -/
structure CrystalAddr where
  basin : Nat
  addr  : BitVec 9
  deriving DecidableEq, Repr

/-- A multiply in flight: its destination, issuing context, product and the cycles left until its third stage ends (R86). -/
structure Mul where
  dst  : BitVec 2
  ctx  : BitVec 4
  prod : Word
  left : Nat
  deriving DecidableEq, Repr

/-- The live copy of a plane in a crystal (R99). -/
structure Live where
  plane : BitVec 4
  bits  : BitVec 2304
  deriving DecidableEq, Repr

/-- The state of a crystal outside the guarded codewords (R43, R64, R86, R99, R101, R112). -/
structure Crystal where
  oq    : BitVec 16
  out   : Word
  muls  : List Mul
  live  : Option Live
  tag   : Tag
  frame : BitVec 26
  deriving DecidableEq, Repr

/-- A crystal after the hardware fill. -/
def Crystal.zero : Crystal := ⟨0, 0, [], none, none, 0⟩

/-- The state of a plane (R108). -/
inductive PlaneState where
  | blank | loading | pending | valid | failed
  deriving DecidableEq, Repr

/-- A plane's state, the cause of its last entry into BLANK or FAILED, and the engine (0, 1) whose stream writes it (R111). -/
structure PlaneInfo where
  st    : PlaneState
  cause : BitVec 16
  eng   : Option Nat
  deriving DecidableEq, Repr

/-- BLANK with cause 0. -/
def PlaneInfo.zero : PlaneInfo := ⟨.blank, 0, none⟩

/-- A pan-edge or riser lane's data registers (R133). -/
structure LaneReg where
  bits : BitVec 8
  word : Word
  deriving DecidableEq, Repr

/-- A lane settings entry (R136): the latched share, or poisoned. -/
structure LaneSet where
  cfg      : BitVec 96
  poisoned : Bool
  deriving DecidableEq, Repr

/-- A beat of an intake port (R152): eight words, whether it is the descriptor beat, whether it is the item's last. -/
structure Beat where
  words : BitVec 512
  desc  : Bool
  last  : Bool
  deriving DecidableEq, Repr

/-- A descriptor beat on its way to an intake port with the payload beats that follow it (R155). `service` is twice the number of a
service of this device, or 1 more than twice (65536 times the port + SERVICE) of an Enrus peer's. -/
structure Delivery where
  handle  : BitVec 20
  tag     : BitVec 4
  group   : BitVec 8
  bank    : BitVec 7
  row     : BitVec 12
  rows    : Nat
  service : Nat
  error   : Option (BitVec 16)
  beats   : List Beat
  deriving DecidableEq, Repr

/-- An intake port: waiting deliveries, the beat presented in the present cycle, the beats of the item still to present and the
port tag (R102, R152). -/
structure Intake where
  waiting : List Delivery
  beat    : Option Beat
  rest    : List Beat
  tag     : Tag
  deriving DecidableEq, Repr

/-- An output of an item in outlet staging (R165, R166). -/
structure Output where
  port    : Nat
  opened  : Bool
  dest    : Bool
  partner : BitVec 12
  cls     : BitVec 3
  flow    : BitVec 16
  mtag    : BitVec 32
  delay   : BitVec 32
  meta0   : Word
  len     : Nat
  beats   : List (BitVec 512)
  deriving DecidableEq, Repr

/-- A posted fence: scope, the acceptance number of the first access that it does not cover, whether it was posted in the present cycle
(it then covers every access so far and those that the cycle still accepts), and, of scope SYSTEM, for VC 0 and 1 of each Enrus port the
acknowledgement count that it waits for (R172, R173). -/
structure Fence where
  scope : BitVec 2
  upto  : Nat
  fresh : Bool
  marks : List Nat
  deriving DecidableEq, Repr

/-- An item in flight in a basin, bound to a staging slot (R109, R155, R166, R168). `len` is its LENGTH, `endSeq` the place of its COMMIT
or ABORT beat in the acceptance order of the device. -/
structure Flight where
  port    : Nat
  handle  : BitVec 20
  tag     : BitVec 4
  group   : BitVec 8
  bank    : BitVec 7
  row     : BitVec 12
  rows    : Nat
  len     : Nat
  service : Nat
  error   : Option (BitVec 16)
  ended   : Option Bool
  endSeq  : Nat
  fence   : Option Fence
  bound   : Bool
  outs    : List Output
  deriving DecidableEq, Repr

/-- An accepted row or far command (R157, R158, R530). `fault` is the cause with which it will end in error where acceptance found one. `seq` is its place in the acceptance order of the device, `data` the stage
at acceptance, `race` the stage lines that another unordered command also changes, `done` the lines that a far command has moved, `failed` the
cause of its first line that failed. -/
structure RowCmd where
  kind  : BitVec 2
  fault : Option (BitVec 16)
  word  : Word
  seq   : Nat
  data  : BitVec 8192
  race  : BitVec 16
  done  : Nat
  failed : Option (BitVec 16)
  reset : Bool
  deriving DecidableEq, Repr

/-- A row port (R147, R150, R159): its stage, its commands, ERR, and, once it took a command in the present cycle, the values of
PR0 to PR2 in that cycle. -/
structure RowPort where
  stage : BitVec 8192
  cmds  : List RowCmd
  err   : Bool
  taken : Option (BitVec 3)
  deriving DecidableEq, Repr

/-- A row port with nothing in it. -/
def RowPort.zero : RowPort := ⟨0, [], false, none⟩

/-- The power state of a basin (R119, R425). -/
inductive BasinPower where
  | run | doze | deep
  deriving DecidableEq, Repr

/-- What the basin's commands and resets are about (R52, R110, R116-R122, R425). `taken0`, `taken1` hold PR0 and PR1 of OUT_0, OUT_1 in a
cycle in which the port took a beat; `early` the port traps of the present cycle where BSN_FAULT records one of them (R116). -/
structure Basin where
  fixedCtx : Tag
  mode     : Bool
  frame    : PlaneInfo
  clearing : Option Nat
  mapClear : Bool
  window   : Nat
  stopped  : Bool
  trapped  : Bool
  power    : BasinPower
  waking   : Bool
  in0      : Intake
  in1      : Intake
  taken0   : Option (BitVec 2)
  taken1   : Option (BitVec 2)
  items    : List Flight
  early    : List (Nat × Nat × Nat)
  deriving DecidableEq, Repr

/-- An intake port with nothing in it. -/
def Intake.zero : Intake := ⟨[], none, [], none⟩

/-- A basin after reset and the hardware fill. -/
def Basin.zero : Basin :=
  ⟨none, false, .zero, none, false, 0, false, false, .run, false, .zero, .zero, none, none, [], []⟩

/-- The partial-load holds of R304 and the phases still to come (R306). -/
structure Hold where
  out : Bool
  we  : Bool
  sr  : Bool
  deriving DecidableEq, Repr

/-- The fabric. Keys: crystal `x = 512 * basin + address`; planes `64 * (16 * x + plane) + codeword`; state banks `4 * x + k`; X, Y
`16 * x + context`; flags and frame planes `x`; lanes and tag registers `24 * (16 * basin + pan) + 8 * set + lane` with sets UP 0,
DN 1, RS 2; lane settings `16 * lane + plane`; spine receive registers `4 * (16 * basin + pan) + s`; plane states `16 * basin + plane`;
row ports `4 * basin + r`; fences `8 * basin + port` with IN_0, IN_1, OUT_0, OUT_1, ROW_0..3. -/
structure Fabric where
  crystals : Tab Crystal
  planes   : Tab Code
  frames   : Tab Code
  banks    : Tab Code
  xs       : Tab Code
  ys       : Tab Code
  flags    : Tab Code
  lanes    : Tab LaneReg
  tagRegs  : Tab Tag
  laneSets : Tab LaneSet
  spines   : Tab Word
  planeSt  : Tab PlaneInfo
  rows     : Tab RowPort
  fences   : Tab (List Fence)
  basins   : Tab Basin
  seq      : Nat
  hold     : Hold
  deriving DecidableEq, Repr

end Sys2Proof.Machine
end

