-- ==== Sys2Proof/Syntax.lean ====
section
/-! DEFINITION. The commands of the block: one constructor per row of the spec's table of operations and events, in its order. -/

namespace Sys2Proof

open Sys2Proof.Machine

/-- The commands. An operand carries what the outside world, a partner, a sensor or a timer contributes to the event; everything
else the event needs is in the state. -/
inductive Instr where
  -- Registers and the common header (00, 19)
  | registerWrite (addr : Nat) (val : Reg) (full : Bool)
  | stagedWrite (addr : Nat) (val : Reg)
  | sysUpdate (mask : BitVec 16)
  | stagedUpdateApply
  | irqStatWrite (page : Nat) (val : Reg)
  | msixUnmask (vec : BitVec 6)
  | sysNmaWrite (val : Reg) (alert : Option (BitVec 16))
  | clrFault (page : Nat)
  | clrDropped (page : Nat)
  | freeze (page : Nat) (on : Bool)
  | softReset (page : Nat)
  | enable (page : Nat) (resource : BitVec 16)
  | clkEnWrite (page : Nat) (val : Reg)
  | gateClose (page : Nat)
  | gateForced (page : Nat)
  | gateOpen (page : Nat)
  -- The fabric (02, 03, 04)
  | crystalCycle (basin : Nat) (rise fall : BitVec 96)
  | nop (x : CrystalAddr) (f : WeFields)
  | pass (x : CrystalAddr) (f : WeFields)
  | add (x : CrystalAddr) (f : WeFields)
  | addc (x : CrystalAddr) (f : WeFields)
  | sub (x : CrystalAddr) (f : WeFields)
  | subb (x : CrystalAddr) (f : WeFields)
  | acc (x : CrystalAddr) (f : WeFields)
  | and (x : CrystalAddr) (f : WeFields)
  | or (x : CrystalAddr) (f : WeFields)
  | xor (x : CrystalAddr) (f : WeFields)
  | andn (x : CrystalAddr) (f : WeFields)
  | shl (x : CrystalAddr) (f : WeFields)
  | shr (x : CrystalAddr) (f : WeFields)
  | sar (x : CrystalAddr) (f : WeFields)
  | rol (x : CrystalAddr) (f : WeFields)
  | cmpeq (x : CrystalAddr) (f : WeFields)
  | cmpltu (x : CrystalAddr) (f : WeFields)
  | cmplts (x : CrystalAddr) (f : WeFields)
  | minu (x : CrystalAddr) (f : WeFields)
  | mins (x : CrystalAddr) (f : WeFields)
  | maxu (x : CrystalAddr) (f : WeFields)
  | maxs (x : CrystalAddr) (f : WeFields)
  | popcnt (x : CrystalAddr) (f : WeFields)
  | clz (x : CrystalAddr) (f : WeFields)
  | bswap (x : CrystalAddr) (f : WeFields)
  | extr (x : CrystalAddr) (f : WeFields)
  | ins (x : CrystalAddr) (f : WeFields)
  | sel (x : CrystalAddr) (f : WeFields)
  | mul32u (x : CrystalAddr) (f : WeFields)
  | mul32s (x : CrystalAddr) (f : WeFields)
  | crc (x : CrystalAddr) (f : WeFields)
  | hmix (x : CrystalAddr) (f : WeFields)
  | ldr (x : CrystalAddr) (f : WeFields)
  | str (x : CrystalAddr) (f : WeFields)
  | fence (x : CrystalAddr) (f : WeFields)
  | mulCompletion (x : CrystalAddr)
  | fenceComplete (basin port : Nat)
  | bsnModeWrite (basin : Nat) (val : Reg)
  | bsnSwBudgetWrite (basin : Nat) (val : Reg)
  | clear (basin : Nat) (frame : Bool) (plane : BitVec 4)
  | planeClearDone (basin : Nat)
  | budgetLimitReached (basin : Nat)
  | budgetWindowEnd (basin : Nat)
  | dozeEntry (basin : Nat)
  | deepEntry (basin : Nat)
  | deepExit (basin : Nat)
  | basinWakeDone (basin : Nat)
  | cfgBasinMapWrite (k : BitVec 3) (val : Reg)
  | basinStorageClearDone (basin : Nat)
  -- Ports (06)
  | descriptorBeatDelivery (basin port : Nat)
  | descriptorBeatAccept (basin port : Nat)
  | readRow (basin row : Nat)
  | writeRow (basin row : Nat)
  | farRead (basin row : Nat)
  | farWrite (basin row : Nat)
  | readRowComplete (basin row index : Nat)
  | writeRowComplete (basin row index : Nat)
  | farReadLine (basin row index : Nat)
  | farWriteComplete (basin row index : Nat)
  | outletDescriptor (basin port : Nat)
  | outletPayload (basin port : Nat)
  | commit (basin port : Nat)
  | abort (basin port : Nat)
  | commitPoint (basin : Nat) (handle : BitVec 20)
  | abortPoint (basin : Nat) (handle : BitVec 20)
  -- Sluice (07)
  | tableLowerWrite (addr : Nat) (val : Reg)
  | tableUpperWrite (addr : Nat) (val : Reg)
  | tableLowerRead (addr : Nat)
  | tableUpperRead (addr : Nat)
  | itemArrival (flow : BitVec 16) (len : BitVec 13) (mtag delay : BitVec 32) (meta0 : Word) (bank : BitVec 7) (row : BitVec 12)
  | dispatch (slot : Bool)
  | delayExpiry (list : Bool)
  | matchTimeout (flow : BitVec 16) (mtag : BitVec 32)
  | serviceTimeout (service : Nat)
  | drainTimeout (service : Nat)
  | stagedOutputDiscard (basin : Nat)
  | failoverReissue (basin : Nat)
  | sluOfflineWrite (val : Reg)
  | sluCtrlWrite (val : Reg)
  | tick
  | flowReset (flow : BitVec 16)
  | flowResetDone (flow : BitVec 16)
  | quarantine (flow : BitVec 16)
  | ringTailWrite (ring : Nat) (val : Reg)
  | windowClose (counter : BitVec 2)
  -- Lanes (08)
  | quadCfgWrite (quad : Nat) (val : Reg)
  | laneCtrlWrite (lane : Nat) (val : Reg)
  | dwellExpiry (lane : Nat)
  | laneLock (lane : Nat)
  | lockLost (lane : Nat) (reason : BitVec 4)
  | polarityTest (lane : Nat) (inverted : BitVec 7)
  | markerReceive (lane : Nat) (payload : Word) (good : Bool) (skewNs : Nat)
  | frameReceive (lane : Nat) (bytes : List Byte) (decodeError : Bool) (symbols codewords : Nat) (ends : Bool)
  | segmentFlush (lane : Nat) (sub : BitVec 6)
  | egressSend (lane : Nat)
  | berWindowClose (lane : Nat)
  | forceProtect (lane : Nat)
  | forceWorking (lane : Nat)
  | switchBlockReceive (lane : Nat) (block : Word)
  | wtrExpiry (lane : Nat)
  | laneProtWrite (lane : Nat) (val : Reg)
  | lifelineBlockReceive (lane : Nat) (payload : Word) (sync : BitVec 2) (pclk : BitVec 32)
  | lifelineRecordSend
  -- Enrus (09)
  | enrCtrlWrite (port : Nat) (val : Reg)
  | retrain (port : Nat)
  | rekey (port : Nat)
  | trainTimeout (port : Nat)
  | handshakeTimeout (port : Nat)
  | idle (port : Nat) (flit : BitVec 2048)
  | data (port : Nat) (flit : BitVec 2048)
  | nak (port : Nat) (flit : BitVec 2048)
  | hello (port : Nat) (flit : BitVec 2048)
  | keyshare (port : Nat) (flit : BitVec 2048)
  | finished (port : Nat) (flit : BitVec 2048)
  | retryTimer (port : Nat)
  | widthBlockReceive (port : Nat) (block : Word)
  | rekeyTrigger (port : Nat)
  | nonceEnd (port : Nat)
  | dispatchMsg (port : Nat)
  | arrive (port : Nat)
  | output (port : Nat)
  | endMsg (port : Nat)
  | creditReport (port : Nat)
  | creditReportSend
  | faultNotice (port : Nat)
  | noticeAck (port : Nat)
  | timeSync (port : Nat)
  | timeSyncSend
  | delayReq (port : Nat)
  | delayReqSend (port : Nat)
  | delayResp (port : Nat)
  | keyUpdate (port : Nat)
  | cfgData (port : Nat)
  | cfgEnd (port : Nat)
  | broadcastStart
  -- Streams and boot (10)
  | engStart (eng : Bool) (src : BitVec 2)
  | engEnd (eng : Bool)
  | engAbort (eng : Bool)
  | irpDataWrite (val : Reg)
  | irpMasterWrite (val : Reg)
  | streamHeader (eng : Bool)
  | planeSection (eng : Bool)
  | frameSection (eng : Bool)
  | regSection (eng : Bool)
  | storeImageSection (eng : Bool)
  | trailer (eng : Bool)
  | signatureVerified (eng : Bool)
  | streamStall (eng : Bool)
  | bootLoad
  | releaseLockTimeout
  | releasePhase
  -- The memory die (11)
  | handover (bank : BitVec 7) (val : Reg)
  | handoverDone (bank : BitVec 7)
  | drainWrite (bank : BitVec 7) (val : Reg)
  | retentionEntry (bank : BitVec 7)
  | bankRetWrite (k : BitVec 2) (val : Reg)
  | bankWakeDone (bank : BitVec 7)
  | bar2Read (offset : BitVec 29) (len : Nat)
  | bar2Write (offset : BitVec 29) (bytes : List (Option Byte))
  | mbistStart (bank : BitVec 7)
  | mbistDone (fails : List (Nat × List Nat))
  | spareRow (bank : BitVec 7) (spare : BitVec 3) (addr : BitVec 14)
  | spareColumn (bank : BitVec 7) (spare : BitVec 3) (addr : BitVec 14)
  | repairClearDone (bank : BitVec 7)
  | patrolSweep (kind : BitVec 4) (addr : BitVec 40)
  -- DRAM (12)
  | init
  | dramInitDone
  | fill
  | fillDone
  | resume
  | resilver
  | resilverDone
  | mrw (sub : BitVec 3) (val : Reg)
  | mrr (sub : BitVec 3) (val : Reg) (read : Byte)
  | mpc (sub : BitVec 3) (val : Reg)
  | compareBurst (sub : BitVec 3) (val : Reg)
  | compareBurstDone (sub : BitVec 3) (beats : List (BitVec 40))
  | dramRead (source : BitVec 4) (dpa : BitVec 40)
  | dramWrite (source : BitVec 4) (dpa : BitVec 40) (mask : Word) (line : BitVec 512)
  | refresh (sub : BitVec 3) (rank : BitVec 1) (busy : Bool)
  | mr4Poll (sub : BitVec 3) (rank : BitVec 1) (mr4 : Byte)
  | zqCalibration
  | dqsOscRead (sub : BitVec 3) (counts : List Nat)
  | powerDownEntry (sub : BitVec 3) (rank : BitVec 1)
  | readTimeout (sub : BitVec 3) (dpa : BitVec 40)
  | retireCopyDone (entry : BitVec 10)
  | bar4Read (offset : BitVec 36) (len : Nat)
  | bar4Write (offset : BitVec 36) (bytes : List (Option Byte))
  -- IME (13)
  | imeEnable (val : Reg)
  | imeInit (region : BitVec 4)
  | imeInitDone (region : BitVec 4)
  | imeOff (region : BitVec 4)
  | initRange (region : BitVec 4)
  | initRangeDone (region : BitVec 4)
  | imeRekey (region : BitVec 4)
  | flush (region : BitVec 4)
  | flushDone (region : BitVec 4)
  | rekeyPage
  | pageReencryptDone (region : BitVec 4) (page : BitVec 26)
  -- Root of trust (14)
  | read (val : Reg)
  | challenge (val : Reg)
  | programGen (val : Reg)
  | voidGen (val : Reg)
  | version (val : Reg)
  | provision (val : Reg)
  | otpWordProgrammed (verified : Bool)
  | attest (val : Reg)
  | attestDone
  | seal (val : Reg)
  | glitchVoltage
  | glitchClock
  | sealLogWrite (inRange : Bool)
  | entropyTestFail
  | drbgReseed
  -- Clocks (15)
  | itoJudged (stable : Bool)
  | xoJudged
  | xoJudgeTimeout
  | refJudged (b : Bool)
  | monitorWindowClose (monitor : BitVec 2) (countA countB : Nat)
  | lossOfEdges (source : BitVec 2)
  | refWtrExpiry (b : Bool)
  | pllLock (pll : Nat)
  | pllLockTimeout (pll : Nat)
  | clkFabPllWrite (val : Reg)
  | clkBasePllWrite (val : Reg)
  -- Modes (16)
  | powerGood (bootSel : BitVec 2) (devId : BitVec 3) (testMode : Bool)
  | dieRampDone (die : Nat)
  | dieRampTimeout (die : Nat)
  | otpResolve
  | selfCalibration (readings : List (Option Int)) (badLanes : List Nat)
  | hardwareFill
  | bootLbist (basins : List (Nat × BitVec 16))
  | simmer
  | simmerDrainDone
  | simmerDrainTimeout
  | wake
  | laneWakeSignal (lane : Nat)
  | simmerWakeDone
  | dormant (val : Reg)
  | exitEmber
  | lateStagesDone
  | warmReset (val : Reg)
  | warmResetApply
  | wakeN
  | resetN
  | mgmtWake (pecOk : Bool)
  | mgmtReset (confirm : BitVec 16) (pecOk : Bool)
  | mgmtDormant (confirm : BitVec 16) (pecOk : Bool)
  | throttleLimit
  | pwrDieReset (val : Reg)
  | dieResetDone (die : Nat)
  -- Housekeeping (17)
  | housekeepingRound (readings : List (Option Int))
  | analogTrip (site : Nat)
  | thmLimitWrite (val : Reg)
  -- Errors and self-test (18)
  | rewrite (val : Reg)
  | rewriteDone
  | eccTrackClr
  | lbist (val : Reg)
  | lbistDrainDone
  | lbistDrainTimeout
  | lbistSaveDone
  | lbistTestDone (signatures : List (BitVec 64))
  | lbistRestoreDone
  | mbistD2 (val : Reg)
  | mbistD2Done (fails : List (BitVec 32))
  -- Host (19)
  | flr
  | pciePerstN
  | d3hotEntry
  | hifApertureWrite (val : Reg)
  | hdmaCfgWrite (ch : BitVec 4) (val : Reg)
  | hdmaTailWrite (ch : BitVec 4) (val : Reg)
  | descriptorComplete (ch : BitVec 4) (ringB : Bool) (desc : BitVec 256) (data : List Byte) (hostErr : Bool)
  | hdmaResume (ch : BitVec 4)
  | hdmaSkip (ch : BitVec 4)
  | lifelineBufferTimeout (desc : BitVec 256)
  | read32 (addr : Nat) (pecOk : Bool)
  | write32 (addr : Nat) (val : Reg) (pecOk : Bool)
  | status (pecOk : Bool)
  -- Pins (20)
  | uioClkWrite (bank : BitVec 2) (val : Reg)
  | clockLoopLock (bank : BitVec 2)
  | uioPinWrite (pin : Nat) (val : Reg)
  | dbgTraceWrite (val : Reg)
  -- The rows that the table adds at its end
  | powerRemoval
  | resetNRelease
  | refCheckTimeout
  | prbsCheckerLock (lane : Nat) (symbols : List (BitVec 2))
  | registerRead (addr : Nat) (full : Bool)
  | d3hotExit
  | pcieLinkChange (speed width : BitVec 4)
  | jtagInstruction (ir : BitVec 8)
  deriving DecidableEq, Repr

end Sys2Proof
end

