-- ==== Sys2Proof/Decode.lean ====
section
/-! DEFINITION. The commands that a table word spells: none, because no row of the table of operations has bits. -/

namespace Sys2Proof

/-- The command of a word. The spec gives its operations and events no encoding, so no word spells one. -/
def decodeTableWord (_nbits _w : Nat) : Option Instr := none

end Sys2Proof
end

