-- ==== Sys2Proof/Machine/Bits.lean ====
section
/-! DEFINITION. Bit fields, byte order and the (72,64) code. -/

namespace Sys2Proof.Machine

/-- Field `[lo+n-1:lo]` of a vector as a number (R9). -/
def fld {w : Nat} (v : BitVec w) (lo n : Nat) : Nat := (v.toNat >>> lo) % 2 ^ n

/-- The vector with field `[lo+n-1:lo]` replaced by `x`. -/
def setFld {w : Nat} (v : BitVec w) (lo n x : Nat) : BitVec w :=
  BitVec.ofNat w (v.toNat % 2 ^ lo + (x % 2 ^ n) * 2 ^ lo + (v.toNat >>> (lo + n)) * 2 ^ (lo + n))

/-- One bit of a vector. -/
def bit {w : Nat} (v : BitVec w) (i : Nat) : Bool := v.getLsbD i

/-- A number from a truth value. -/
def b2n (b : Bool) : Nat := if b then 1 else 0

/-- Byte `k` of a vector, little-endian (R9). -/
def byteOf {w : Nat} (v : BitVec w) (k : Nat) : Byte := BitVec.ofNat 8 (v.toNat >>> (8 * k))

/-- The vector whose byte `k` is the `k`-th of the list. -/
def ofBytes (w : Nat) : List Byte → BitVec w
  | [] => 0
  | b :: t => BitVec.ofNat w (b.toNat + 256 * (ofBytes w t).toNat)

/-- The first `n` bytes of a vector. -/
def toBytes {w : Nat} (n : Nat) (v : BitVec w) : List Byte := (List.range n).map (byteOf v)

/-- A saturating count of `n` more, at most `m`. -/
def satAdd (x n m : Nat) : Nat := if m < x + n then m else x + n

/-- Exclusive or of a list of bytes. -/
def xorAll : List Nat → Nat
  | [] => 0
  | x :: t => x ^^^ xorAll t

/-- The columns of the H-matrix, data bits 0 to 63 (R457). -/
def hColumns : List Nat :=
  [0x07, 0x0B, 0x0D, 0x0E, 0x13, 0x15, 0x16, 0x19, 0x1A, 0x1C, 0x23, 0x25, 0x26, 0x29, 0x2A, 0x2C] ++
  [0x31, 0x32, 0x34, 0x38, 0x43, 0x45, 0x46, 0x49, 0x4A, 0x4C, 0x51, 0x52, 0x54, 0x58, 0x61, 0x62] ++
  [0x64, 0x68, 0x70, 0x83, 0x85, 0x86, 0x89, 0x8A, 0x8C, 0x91, 0x92, 0x94, 0x98, 0xA1, 0xA2, 0xA4] ++
  [0xA8, 0xB0, 0xC1, 0xC2, 0xC4, 0xC8, 0xD0, 0xE0, 0x1F, 0x3E, 0x7C, 0xF8, 0xF1, 0xE3, 0xC7, 0x8F]

/-- The xor of the columns of the bits of `n` that are set, lowest bit first. -/
def foldColumns : List Nat → Nat → Nat
  | [], _ => 0
  | h :: t, n => (if n % 2 = 1 then h else 0) ^^^ foldColumns t (n / 2)

/-- The check bits of a data word (R457). -/
def checkBits (d : Word) : Nat := foldColumns hColumns d.toNat

/-- A data word with its check bits in 71..64 (R457). -/
def encCode (d : Word) : Code := BitVec.ofNat 72 (d.toNat + checkBits d * 2 ^ 64)

/-- The data bits of a codeword. -/
def codeData (c : Code) : Word := BitVec.ofNat 64 c.toNat

/-- The syndrome S of a stored codeword (R458). -/
def syndrome (c : Code) : Nat := (c.toNat >>> 64) ^^^ checkBits (codeData c)

/-- How a read decodes (R458). -/
inductive Decoded where
  | clean (d : Word)
  | corrected (d : Word) (syn : Nat)
  | uncorrectable (syn : Nat)
  deriving DecidableEq, Repr

/-- The decoding of a stored codeword (R458): a syndrome equal to a column inverts that bit. -/
def decode72 (c : Code) : Decoded :=
  let s := syndrome c
  let d := codeData c
  if s = 0 then .clean d
  else match hColumns.idxOf? s with
    | some i => .corrected (d ^^^ BitVec.ofNat 64 (2 ^ i)) s
    | none => if s = 1 || s = 2 || s = 4 || s = 8 || s = 16 || s = 32 || s = 64 || s = 128
        then .corrected d s else .uncorrectable s

/-- The decoded data, or the stored data where uncorrectable. -/
def decodedData : Decoded → Option Word
  | .clean d => some d
  | .corrected d _ => some d
  | .uncorrectable _ => none

end Sys2Proof.Machine
end

