-- ==== Sys2Proof/Machine/Flags.lean ====
section
/-! DEFINITION. The results and flags of the word engine's opcodes (R76 to R90), each from its operands alone. -/

namespace Sys2Proof.Machine

/-- The flags of one context (R67). -/
structure WeFlags where
  z : Bool
  n : Bool
  c : Bool
  v : Bool
  deriving DecidableEq, Repr

/-- What an opcode computes: the result, and C and V where it writes them (R76). -/
structure WeRes where
  r : Word
  c : Option Bool
  v : Option Bool
  deriving DecidableEq, Repr

/-- A result that writes neither C nor V. -/
def plain (r : Word) : WeRes := ⟨r, none, none⟩

/-- A result that writes C and leaves V. -/
def withC (r : Word) (c : Bool) : WeRes := ⟨r, some c, none⟩

/-- The two's-complement sum fits in 64 bits or not (R78). -/
def outOfRange (x : Int) : Bool := x < -(2 ^ 63) || 2 ^ 63 ≤ x

/-- ADD and ADDC: the sum with carry in, the carry out of bit 63 and signed overflow (R78). -/
def resAdd (a b : Word) (cin : Bool) : WeRes :=
  ⟨a + b + BitVec.ofNat 64 (b2n cin), some (2 ^ 64 ≤ a.toNat + b.toNat + b2n cin),
    some (outOfRange (a.toInt + b.toInt + (b2n cin : Int)))⟩

/-- SUB and SUBB: the difference with borrow in, the borrow and signed overflow (R78). -/
def resSub (a b : Word) (bin : Bool) : WeRes :=
  ⟨a - b - BitVec.ofNat 64 (b2n bin), some (a.toNat < b.toNat + b2n bin),
    some (outOfRange (a.toInt - b.toInt - (b2n bin : Int)))⟩

/-- ACC: the saturating sum, unsigned for SH[0] = 0 and signed for SH[0] = 1; V is 1 when clamped (R81). -/
def resAcc (a b : Word) (signed : Bool) : WeRes :=
  if signed then
    let x := a.toInt + b.toInt
    if 2 ^ 63 ≤ x then ⟨BitVec.ofNat 64 (2 ^ 63 - 1), none, some true⟩
    else if x < -(2 ^ 63) then ⟨BitVec.ofNat 64 (2 ^ 63), none, some true⟩
    else ⟨a + b, none, some false⟩
  else if 2 ^ 64 ≤ a.toNat + b.toNat then ⟨BitVec.allOnes 64, none, some true⟩
  else ⟨a + b, none, some false⟩

/-- The amount of a shift: (B[5:0] + SH) mod 64 (R79). -/
def shAmount (b : Word) (sh : BitVec 6) : Nat := (fld b 0 6 + sh.toNat) % 64

/-- SHL: C is the last bit out, and keeps its value for amount 0 (R79). -/
def resShl (a : Word) (n : Nat) : WeRes :=
  ⟨a <<< n, if n = 0 then none else some (bit a (64 - n)), none⟩

/-- SHR (R79). -/
def resShr (a : Word) (n : Nat) : WeRes :=
  ⟨a >>> n, if n = 0 then none else some (bit a (n - 1)), none⟩

/-- SAR (R79). -/
def resSar (a : Word) (n : Nat) : WeRes :=
  ⟨a.sshiftRight n, if n = 0 then none else some (bit a (n - 1)), none⟩

/-- ROL: C is always written with r[0] (R79). -/
def resRol (a : Word) (n : Nat) : WeRes :=
  let r := a.rotateLeft n
  ⟨r, some (bit r 0), none⟩

/-- A comparison writes 1 or 0, and C with the same truth value (R76). -/
def resCmp (p : Bool) : WeRes := withC (BitVec.ofNat 64 (b2n p)) p

/-- MINU to MAXS: A when `takeA`, with C saying so (R76). -/
def resPick (a b : Word) (takeA : Bool) : WeRes := withC (if takeA then a else b) takeA

/-- The number of 1 bits (R76). -/
def popcnt64 (a : Word) : Nat := (List.range 64).foldl (fun k i => k + b2n (bit a i)) 0

/-- The number of leading zeros (R76). -/
def clz64 (a : Word) : Nat := if a = 0 then 64 else 63 - Nat.log2 a.toNat

/-- The word with its bytes reversed (R76). -/
def bswap64 (a : Word) : Word := ofBytes 64 (toBytes 8 a).reverse

/-- EXTR: field [SH+W-1:SH] of A, zero- or sign-extended (R80). -/
def resExtr (a : Word) (sh w : Nat) (signed : Bool) : WeRes :=
  let x := (a.toNat >>> sh) % 2 ^ w
  plain (if signed && x.testBit (w - 1) then BitVec.ofInt 64 ((x : Int) - 2 ^ w) else BitVec.ofNat 64 x)

/-- INS: B with bits SH to min(SH+W-1, 63) replaced by the low bits of A (R80). -/
def resIns (a b : Word) (sh w : Nat) : WeRes := plain (setFld b sh (min w (64 - sh)) a.toNat)

/-- The width, polynomial (reflected form for the reflected codes) and bit order of a CRC code (R83). -/
def crcCode (poly : Nat) : Nat × Nat × Bool :=
  match poly with
  | 0 => (32, 0xEDB88320, true)
  | 1 => (32, 0x82F63B78, true)
  | 2 => (16, 0x1021, false)
  | _ => (24, 0x864CFB, false)

/-- Eight steps of a CRC state, reflected form or not (R83). -/
def crcBits (w p : Nat) (refl : Bool) : Nat → Nat → Nat
  | 0, s => s
  | k + 1, s =>
    crcBits w p refl k
      (if refl then (s >>> 1) ^^^ (if s % 2 = 1 then p else 0)
       else ((s <<< 1) ^^^ (if s.testBit (w - 1) then p else 0)) % 2 ^ w)

/-- One byte of a CRC (R83). -/
def crcByte (w p : Nat) (refl : Bool) (s d : Nat) : Nat :=
  crcBits w p refl 8 (if refl then s ^^^ d else s ^^^ (d <<< (w - 8)))

/-- A CRC over bytes in ascending order from a starting state (R82). -/
def crcRun (poly : Nat) (s : Nat) (ds : List Byte) : Nat :=
  let c := crcCode poly
  ds.foldl (fun s d => crcByte c.1 c.2.1 c.2.2 s d.toNat) s

/-- CRC: NB bytes of A from byte S, from all ones or from B, with the final complement (R82). -/
def resCrc (a b : Word) (sh : BitVec 6) (imm : BitVec 8) : WeRes :=
  let w := (crcCode (fld imm 0 2)).1
  let s0 := if bit imm 7 then 2 ^ w - 1 else b.toNat % 2 ^ w
  let nb := fld imm 2 3 + 1
  let r := crcRun (fld imm 0 2) s0 ((List.range nb).map fun k => byteOf a (fld sh 0 3 + k))
  plain (BitVec.ofNat 64 (if bit imm 6 then 2 ^ w - 1 - r else r))

/-- HMIX (R85). -/
def hmix (a b : Word) : Word :=
  let t := a ^^^ b.rotateLeft 32
  let t := t ^^^ t.rotateLeft 13 ^^^ t.rotateLeft 37
  let t := t ^^^ (t.rotateLeft 7 &&& ~~~ (t.rotateLeft 43))
  t ^^^ t.rotateLeft 29

/-- The eight stage bytes from an offset on, wrapping at 1,024 (R89). -/
def stageRead (stage : BitVec 8192) (o : Nat) : Word :=
  ofBytes 64 ((List.range 8).map fun k => byteOf stage ((o + k) % 1024))

/-- The stage with one byte replaced. -/
def stageByte (stage : BitVec 8192) (o : Nat) (b : Byte) : BitVec 8192 := setFld stage (8 * o) 8 b.toNat

/-- The stage with the masked bytes of a word written from an offset on, wrapping at 1,024 (R90). -/
def stageWrite (stage : BitVec 8192) (o : Nat) (mask : BitVec 8) (v : Word) : BitVec 8192 :=
  (List.range 8).foldl (fun st k => if bit mask k then stageByte st ((o + k) % 1024) (byteOf v k) else st) stage

/-- The offset of LDR and STR: (A[9:0] + SH) mod 1024 (R89, R90). -/
def stageOffset (a : Word) (sh : BitVec 6) : Nat := (fld a 0 10 + sh.toNat) % 1024

/-- The product of MUL32U and MUL32S (R76). -/
def mulProduct (a b : Word) (signed : Bool) : Word :=
  if signed then BitVec.ofInt 64 ((a.truncate 32).toInt * (b.truncate 32).toInt)
  else BitVec.ofNat 64 ((a.truncate 32).toNat * (b.truncate 32).toNat)

/-- COND holds (R72); values 12 to 15 are reserved. -/
def condHolds (cond : BitVec 4) (f : WeFlags) (p0 p1 : Bool) : Bool :=
  match cond.toNat with
  | 0 => true
  | 1 => f.z
  | 2 => !f.z
  | 3 => f.c
  | 4 => !f.c
  | 5 => f.n
  | 6 => !f.n
  | 7 => f.v
  | 8 => p0
  | 9 => p1
  | 10 => !p0
  | 11 => !p1
  | _ => false

/-- The result of an opcode that writes a destination in one cycle (R76); `none` for NOP, the multiplies, STR and FENCE. -/
def weResult (op : WeOp) (f : WeFields) (a b : Word) (fl : WeFlags) (holds : Bool) (stage : BitVec 8192) : Option WeRes :=
  match op with
  | .pass => some (plain a)
  | .add => some (resAdd a b false)
  | .addc => some (resAdd a b fl.c)
  | .sub => some (resSub a b false)
  | .subb => some (resSub a b fl.c)
  | .acc => some (resAcc a b (bit f.sh 0))
  | .and => some (plain (a &&& b))
  | .or => some (plain (a ||| b))
  | .xor => some (plain (a ^^^ b))
  | .andn => some (plain (a &&& ~~~ b))
  | .shl => some (resShl a (shAmount b f.sh))
  | .shr => some (resShr a (shAmount b f.sh))
  | .sar => some (resSar a (shAmount b f.sh))
  | .rol => some (resRol a (shAmount b f.sh))
  | .cmpeq => some (resCmp (a = b))
  | .cmpltu => some (resCmp (a.ult b))
  | .cmplts => some (resCmp (a.slt b))
  | .minu => some (resPick a b (a.ule b))
  | .mins => some (resPick a b (a.sle b))
  | .maxu => some (resPick a b (b.ule a))
  | .maxs => some (resPick a b (b.sle a))
  | .popcnt => some (plain (BitVec.ofNat 64 (popcnt64 a)))
  | .clz => some (plain (BitVec.ofNat 64 (clz64 a)))
  | .bswap => some (plain (bswap64 a))
  | .extr => some (resExtr a f.sh.toNat (fld f.imm8 0 6 + 1) (bit f.imm8 6))
  | .ins => some (resIns a b f.sh.toNat (fld f.imm8 0 6 + 1))
  | .sel => some (plain (if holds then a else b))
  | .crc => some (resCrc a b f.sh f.imm8)
  | .hmix => some (plain (hmix a b))
  | .ldr => some (plain (stageRead stage (stageOffset a f.sh)))
  | .nop => none
  | .mul32u => none
  | .mul32s => none
  | .str => none
  | .fence => none

/-- Whether an opcode names a destination (R76). -/
def hasDst (op : WeOp) : Bool :=
  match op with
  | .nop => false
  | .str => false
  | .fence => false
  | _ => true

/-- Whether a destination field includes OUT, X, Y (R71). -/
def dstOut (d : BitVec 2) : Bool := d = 0 || d = 3
/-- The destination includes X (R71). -/
def dstX (d : BitVec 2) : Bool := d = 1 || d = 3
/-- The destination includes Y (R71). -/
def dstY (d : BitVec 2) : Bool := d = 2

/-- The flags after a result, with the held flags kept (R77). -/
def flagsAfter (fl : WeFlags) (hold : Nat) (w : WeRes) : WeFlags :=
  ⟨if hold.testBit 0 then fl.z else w.r = 0,
   if hold.testBit 1 then fl.n else bit w.r 63,
   if hold.testBit 2 then fl.c else w.c.getD fl.c,
   if hold.testBit 3 then fl.v else w.v.getD fl.v⟩

/-- The opcode of a 6-bit OP value; every other value is reserved (R76). -/
def weDecodeOp (op : Nat) : Option WeOp :=
  match op with
  | 0x00 => some .nop
  | 0x01 => some .pass
  | 0x02 => some .add
  | 0x03 => some .addc
  | 0x04 => some .sub
  | 0x05 => some .subb
  | 0x06 => some .acc
  | 0x08 => some .and
  | 0x09 => some .or
  | 0x0A => some .xor
  | 0x0B => some .andn
  | 0x0C => some .shl
  | 0x0D => some .shr
  | 0x0E => some .sar
  | 0x0F => some .rol
  | 0x10 => some .cmpeq
  | 0x11 => some .cmpltu
  | 0x12 => some .cmplts
  | 0x14 => some .minu
  | 0x15 => some .mins
  | 0x16 => some .maxu
  | 0x17 => some .maxs
  | 0x18 => some .popcnt
  | 0x19 => some .clz
  | 0x1A => some .bswap
  | 0x1C => some .extr
  | 0x1D => some .ins
  | 0x1E => some .sel
  | 0x20 => some .mul32u
  | 0x21 => some .mul32s
  | 0x24 => some .crc
  | 0x25 => some .hmix
  | 0x28 => some .ldr
  | 0x29 => some .str
  | 0x2C => some .fence
  | _ => none

/-- The fields of a 32-bit instruction (R70). -/
def weFields (w : BitVec 32) : WeFields :=
  ⟨BitVec.ofNat 2 (fld w 24 2), BitVec.ofNat 3 (fld w 21 3), BitVec.ofNat 3 (fld w 18 3), BitVec.ofNat 6 (fld w 12 6),
    BitVec.ofNat 4 (fld w 8 4), BitVec.ofNat 8 (fld w 0 8)⟩

/-- The fault of an instruction that does not depend on a completing multiply (R92, R95), in the order of the cause codes.
`rowPort` and `anyPort` say which ports the crystal's PORT_CFG names; `xLock`, `yLock` are the locks of WE_CTL. -/
def weFault (op : Option WeOp) (f : WeFields) (rowPort anyPort xLock yLock : Bool) : Option (BitVec 16) :=
  match op with
  | none => some 0x0520
  | some op =>
    if 12 ≤ f.cond.toNat then some 0x0521
    else if (match op with
        | .extr => bit f.imm8 7
        | .ins => bit f.imm8 7 || bit f.imm8 6
        | .acc => fld f.sh 1 5 ≠ 0
        | .crc => bit f.imm8 5 || fld f.sh 3 3 ≠ 0 || 8 < fld f.sh 0 3 + fld f.imm8 2 3 + 1
        | .fence => fld f.imm8 2 6 ≠ 0
        | _ => false) then some 0x0522
    else if (match op with
        | .ldr => !rowPort
        | .str => !rowPort
        | .fence => !anyPort
        | _ => false) then some 0x0523
    else if hasDst op && ((dstX f.dst && xLock) || (dstY f.dst && yLock)) then some 0x0524
    else none

end Sys2Proof.Machine
end

