-- ==== Sys2Proof/Machine/Operands.lean ====
section
/-! DEFINITION. The operands of a word-engine instruction and what one instruction does with them (R62, R71 to R75, R87, R94). -/

namespace Sys2Proof.Machine

/-- What the instruction of one cycle sees (R62, R64, R69): the buses, the accumulators and flags of its context at the start of the
cycle, the row-stage word, the intake word, the stage of its row port, P0 and P1, the locks and FLAG_HOLD of its plane, and which
ports its PORT_CFG names. -/
structure WeEnv where
  busA    : Word
  busB    : Word
  x       : Word
  y       : Word
  stageW  : Word
  intakeW : Word
  stage   : BitVec 8192
  fl      : WeFlags
  p0      : Bool
  p1      : Bool
  xLock   : Bool
  yLock   : Bool
  hold    : Nat
  rowPort : Bool
  anyPort : Bool

/-- The value of an operand source (R62); source 6 is IMM8 sign-extended. -/
def operandValue (e : WeEnv) (imm : BitVec 8) (src : BitVec 3) : Word :=
  match src.toNat with
  | 0 => e.busA
  | 1 => e.busB
  | 2 => e.x
  | 3 => e.y
  | 4 => e.stageW
  | 5 => e.intakeW
  | 6 => imm.signExtend 64
  | _ => 0

/-- What an instruction does at the end of its cycle: the cause of its fault, or its writes, the multiply it issues, the stage bytes
it writes (offset, mask, word) and the scope of the fence it posts. -/
structure WeEffect where
  fault : Option (BitVec 16)
  out   : Option Word
  x     : Option Word
  y     : Option Word
  fl    : WeFlags
  mul   : Option (BitVec 2 × Word)
  stage : Option (Nat × BitVec 8 × Word)
  fence : Option (BitVec 2)

/-- An instruction that does nothing. -/
def WeEffect.idle (fl : WeFlags) : WeEffect := ⟨none, none, none, none, fl, none, none, none⟩

/-- A write of destination `dst` under context `ctx` meets the completing multiply (R87). -/
def collides (dst : BitVec 2) (ctx : BitVec 4) (done : Option Mul) : Bool :=
  match done with
  | none => false
  | some m => (dstOut dst && dstOut m.dst)
      || (ctx = m.ctx && ((dstX dst && dstX m.dst) || (dstY dst && dstY m.dst)))

/-- One instruction of context `ctx` (R73): its faults first, then its condition, then its effect; `done` is the multiply that
completes in the same cycle. -/
def weIssue (op : Option WeOp) (f : WeFields) (e : WeEnv) (ctx : BitVec 4) (done : Option Mul) : WeEffect :=
  let idle := WeEffect.idle e.fl
  match weFault op f e.rowPort e.anyPort e.xLock e.yLock with
  | some c => { idle with fault := some c }
  | none =>
    match op with
    | none => idle
    | some op =>
      let holds := condHolds f.cond e.fl e.p0 e.p1
      let a := operandValue e f.imm8 f.srcA
      let b := operandValue e f.imm8 f.srcB
      if op ≠ .sel && !holds then idle
      else match weResult op f a b e.fl holds e.stage with
        | some w =>
          if collides f.dst ctx done then { idle with fault := some 0x0525 }
          else
            { idle with
              out := if dstOut f.dst then some w.r else none
              x := if dstX f.dst then some w.r else none
              y := if dstY f.dst then some w.r else none
              fl := flagsAfter e.fl e.hold w }
        | none =>
          match op with
          | .mul32u => { idle with mul := some (f.dst, mulProduct a b false) }
          | .mul32s => { idle with mul := some (f.dst, mulProduct a b true) }
          | .str => { idle with stage := some (stageOffset a f.sh, f.imm8, b) }
          | .fence => { idle with fence := some (BitVec.ofNat 2 (fld f.imm8 0 2)) }
          | _ => idle

end Sys2Proof.Machine
end

