-- ==== Sys2Proof/Config.lean ====
section
/-! DEFINITION. Constants fixed by an implementation and the free values of the model. Nothing here has a body: no proof can
see a value of them (log entries 11 and 12). -/

namespace Sys2Proof.Config

/-- Free values (log entry 12): the value the spec leaves open for the `n`-th time. -/
opaque freeValue : Nat → Nat

/-- The built-in transmit taps c(-2) to c(+3), by index (R221, R389): the spec gives no value. -/
opaque builtinTap : Nat → BitVec 8
/-- SHA-384 over a byte sequence (FIPS 180-4; R295, R384, R397): 384 bits, byte 0 in the lowest bits. -/
opaque sha384 : List (BitVec 8) → BitVec 384
/-- The AES-256 block cipher (FIPS 197): key and block with byte 0 as the most significant. -/
opaque aes256 : BitVec 256 → BitVec 128 → BitVec 128
/-- The public point of a P-384 private key. -/
opaque ecPublic : BitVec 384 → BitVec 768
/-- ECDSA P-384 verification (FIPS 186-5): public key, hash, signature. -/
opaque ecdsaVerify : BitVec 768 → BitVec 384 → BitVec 768 → Bool
/-- ECDSA P-384 signature with deterministic k: private key, hash. -/
opaque ecdsaSign : BitVec 384 → BitVec 384 → BitVec 768
/-- The x-coordinate of the ECDH shared point (SP 800-56A): private key, the peer's point. -/
opaque ecdh : BitVec 384 → BitVec 768 → BitVec 384
/-- The `n`-th 32 bits that the random bit generator gives (R399). -/
opaque drbg : Nat → BitVec 32
/-- Byte `n` of the certificate area written at test (R386). -/
opaque certificate : Nat → BitVec 8
/-- The device certificate and its issuer, as a chain that a peer accepts under a root hash: chain bytes, root hash (R267, R386). -/
opaque chainKey : List (BitVec 8) → BitVec 384 → Option (BitVec 768)
/-- FREE VALUE: the data that an uncorrectable OTP codeword reads as (R388, R397, R458 give none, log entry 342). -/
opaque otpUnread : BitVec 72 → BitVec 64
/-- The golden signature of a pan for a pattern count (R469). -/
opaque goldenSignature : Nat → BitVec 64

/-- FREE VALUE: the start of the PRBS31 generator of a bit lane for a seed register (R347 leaves it open, log entry 329). -/
opaque laneSeed : BitVec 32 → Nat → BitVec 31

end Sys2Proof.Config
end

