-- ==== Sys2Proof/Machine/Crypto.lean ====
section
/-! DEFINITION. AES-256-GCM, the keyed hash and the key derivation, over the opaque block cipher and hash (R263, R288, R366, R384). -/

namespace Sys2Proof.Machine

/-- A block from 16 bytes, byte 0 most significant. -/
def beBlock (bs : List Byte) : BitVec 128 := BitVec.ofNat 128 ((bs.take 16 ++ List.replicate (16 - bs.length) 0).foldl (fun (a : Nat) (b : Byte) => 256 * a + b.toNat) 0)

/-- The `n` bytes of a vector, most significant first. -/
def beBytes {w : Nat} (n : Nat) (v : BitVec w) : List Byte := (toBytes n v).reverse

/-- A vector from bytes, the first most significant. -/
def ofBe (w : Nat) (bs : List Byte) : BitVec w := ofBytes w bs.reverse

/-- A number as `n` bytes, most significant first. -/
def beNat (n x : Nat) : List Byte := beBytes n (BitVec.ofNat (8 * n) x)

/-- The multiplication of GHASH; `k` bits of `x` are still to be taken, the most significant first. -/
def gfMulAux (x : BitVec 128) : Nat → BitVec 128 → BitVec 128 → BitVec 128
  | 0, z, _ => z
  | k + 1, z, v =>
    gfMulAux x k (if x.getLsbD k then z ^^^ v else z)
      (if v.getLsbD 0 then (v >>> 1) ^^^ BitVec.ofNat 128 (0xE1 * 2 ^ 120) else v >>> 1)

/-- The product of two blocks in the field of GHASH. -/
def gfMul (x y : BitVec 128) : BitVec 128 := gfMulAux x 128 0 y

/-- GHASH over blocks. -/
def ghash (h : BitVec 128) (bs : List (BitVec 128)) : BitVec 128 := bs.foldl (fun a b => gfMul (a ^^^ b) h) 0

/-- The blocks of a byte sequence, the last padded with zeros; `n` bounds them. -/
def blocksOf : Nat → List Byte → List (BitVec 128)
  | 0, _ => []
  | n + 1, bs => if bs.isEmpty then [] else beBlock bs :: blocksOf n (bs.drop 16)

/-- Every block of a byte sequence. -/
def allBlocks (bs : List Byte) : List (BitVec 128) := blocksOf ((bs.length + 15) / 16) bs

/-- The counter blocks' key stream of GCM, as bytes: counters 2, 3, ... over a 12-byte nonce. -/
def gcmStream (key : BitVec 256) (nonce : List Byte) (n : Nat) : List Byte :=
  (List.range ((n + 15) / 16)).flatMap fun i => beBytes 16 (Config.aes256 key (beBlock (nonce ++ beNat 4 (i + 2))))

/-- Byte-wise exclusive or with a key stream. -/
def xorBytes (a b : List Byte) : List Byte := (a.zip b).map fun p => p.1 ^^^ p.2

/-- The tag of GCM over associated data and cipher text. -/
def gcmTag (key : BitVec 256) (nonce aad c : List Byte) : BitVec 128 :=
  let h := Config.aes256 key 0
  let len := beBlock (beNat 8 (8 * aad.length) ++ beNat 8 (8 * c.length))
  ghash h (allBlocks aad ++ allBlocks c ++ [len]) ^^^ Config.aes256 key (beBlock (nonce ++ beNat 4 1))

/-- AES-256-GCM encryption: cipher text and the 16 bytes of the tag. -/
def gcmSeal (key : BitVec 256) (nonce aad data : List Byte) : List Byte × List Byte :=
  let c := xorBytes data (gcmStream key nonce data.length)
  (c, beBytes 16 (gcmTag key nonce aad c))

/-- AES-256-GCM decryption: the plain text where the tag holds. -/
def gcmOpen (key : BitVec 256) (nonce aad c tag : List Byte) : Option (List Byte) :=
  if beBytes 16 (gcmTag key nonce aad c) = tag then some (xorBytes c (gcmStream key nonce c.length)) else none

/-- The bytes of a hash. -/
def hashBytes (bs : List Byte) : List Byte := toBytes 48 (Config.sha384 bs)

/-- HMAC with SHA-384 under a key of at most 128 bytes. -/
def hmac384 (key msg : List Byte) : List Byte :=
  let k := key ++ List.replicate (128 - key.length) 0
  hashBytes ((k.map fun b => b ^^^ 0x5C) ++ hashBytes ((k.map fun b => b ^^^ 0x36) ++ msg))

/-- The KDF of R384: `n` bytes from a key, a label and a context. -/
def kdf (key label context : List Byte) (n : Nat) : List Byte :=
  ((List.range ((n + 47) / 48)).flatMap fun i =>
    hmac384 key (beNat 4 (i + 1) ++ label ++ [0] ++ context ++ beNat 4 (8 * n))).take n

/-- The bytes of an ASCII label. -/
def ascii (t : String) : List Byte := t.toList.map fun (c : Char) => BitVec.ofNat 8 c.val.toNat

/-- The order of P-384. -/
def p384Order : Nat :=
  0xFFFFFFFFFFFFFFFFFFFFFFFFFFFFFFFFFFFFFFFFFFFFFFFFC7634D81F4372DDF581A0DB248B0A77AECEC196ACCC52973

/-- A private key from the 448-bit output of the KDF (R384). -/
def privateKey (c : List Byte) : BitVec 384 := BitVec.ofNat 384 ((ofBe 448 c).toNat % (p384Order - 1) + 1)

end Sys2Proof.Machine
end

