-- ==== Sys2Proof/Machine/RegMap.lean ====
section
/-! DEFINITION. The registers of BAR 0: pages, offsets, fields, access kinds, reset values and legal encodings, as the register
tables of the chapters give them (R13, R15, R487, R490, R505). -/

namespace Sys2Proof.Machine

/-- The access kinds (R13). -/
inductive Access where
  | rw | ro | w1c | wo | rws | m16 | rwp
  deriving DecidableEq, Repr

/-- The encodings of a field that are not reserved (R15). `upTo hi lo` is 1 up to the value that the same write leaves in [hi:lo]. -/
inductive Legal where
  | any
  | range (lo hi : Nat)
  | among (vs : List Nat)
  | even (lo hi : Nat)
  | upTo (hi lo : Nat)
  deriving DecidableEq, Repr

/-- A register field [hi:lo]. -/
structure RegField where
  hi    : Nat
  lo    : Nat
  kind  : Access
  reset : Nat
  legal : Legal
  deriving DecidableEq, Repr

/-- A register, or `count` registers `stride` bytes apart, at a page offset. -/
structure RegRow where
  off    : Nat
  count  : Nat
  stride : Nat
  fields : List RegField
  deriving DecidableEq, Repr

/-- The block type of a page index (R490, R505); 0 where the index holds no page. -/
def pageType (i : Nat) : Nat :=
  if i < 16 then i + 1
  else if i = 0x10 then 17
  else if i < 0x11 then 0
  else if i < 0x15 then 18
  else if i = 0x18 then 19
  else if i < 0x20 then 0
  else if i < 0x44 then 20
  else if i < 0x50 then 0
  else if i < 0x57 then 21
  else if i = 0x57 then 22
  else if i < 0x60 then 0
  else if i < 0x82 then 23
  else if i < 0x88 then 0
  else if i < 0x90 then 24
  else if i < 0x98 then 25
  else 0

/-- The instance of a page (R490). -/
def pageInstance (i : Nat) : Nat :=
  match pageType i with
  | 18 => i - 0x11
  | 20 => i - 0x20
  | 21 => i - 0x50
  | 23 => i - 0x60
  | 24 => i - 0x88
  | 25 => i - 0x90
  | _ => 0

/-- The registers of SYS pages. -/
def regsSYS : List RegRow :=
  [⟨0x40, 1, 4, [⟨10, 8, .ro, 0, .any⟩, ⟨1, 1, .ro, 0, .any⟩, ⟨0, 0, .ro, 0, .any⟩]⟩] ++ -- SYS_STAT, R496
  [⟨0x44, 1, 4, [⟨15, 0, .wo, 0, .any⟩]⟩] ++ -- SYS_UPDATE, R495
  [⟨0x48, 1, 4, [⟨31, 31, .ro, 0, .any⟩, ⟨15, 0, .ro, 0, .any⟩]⟩] ++ -- SYS_UPDATE_STAT, R495
  [⟨0x4C, 1, 4, [⟨31, 31, .w1c, 0, .any⟩, ⟨30, 30, .ro, 0, .any⟩, ⟨15, 0, .ro, 0, .any⟩]⟩] ++ -- SYS_CONFLICT, R497
  [⟨0x50, 1, 4, [⟨31, 16, .ro, 0, .any⟩, ⟨15, 0, .ro, 0, .any⟩]⟩] ++ -- SYS_CONFLICT_BLK, R497
  [⟨0x54, 1, 4, [⟨31, 31, .w1c, 0, .any⟩, ⟨30, 30, .ro, 0, .any⟩, ⟨15, 0, .ro, 0, .any⟩]⟩] ++ -- SYS_NMA, R498
  [⟨0x60, 1, 4, [⟨31, 0, .rw, 0, .any⟩]⟩] -- SYS_SCRATCH, R496

/-- The registers of MODE pages. -/
def regsMODE : List RegRow :=
  [⟨0x40, 1, 4, [⟨31, 16, .ro, 0, .any⟩, ⟨7, 4, .ro, 0, .any⟩, ⟨2, 0, .ro, 1, .any⟩]⟩] ++ -- MODE_STAT, R442
  [⟨0x44, 1, 4, [⟨31, 16, .rwp, 0, .any⟩, ⟨2, 0, .rwp, 0, (.range 0 5)⟩]⟩] ++ -- MODE_CMD, R442
  [⟨0x48, 1, 4, [⟨16, 16, .rw, 1, .any⟩, ⟨15, 0, .rw, 10, (.range 1 65535)⟩]⟩] ++ -- MODE_EMBER_CFG, R442
  [⟨0x4C, 1, 4, [⟨16, 16, .rw, 1, .any⟩, ⟨15, 0, .rw, 100, (.range 1 65535)⟩]⟩] ++ -- MODE_SIMMER_CFG, R442
  [⟨0x50, 1, 4, [⟨31, 0, .ro, 0, .any⟩]⟩] -- MODE_BOOT_TIME, R442

/-- The registers of CLK pages. -/
def regsCLK : List RegRow :=
  [⟨0x40, 1, 4, [⟨31, 16, .ro, 0, .any⟩, ⟨9, 8, .ro, 0, .any⟩, ⟨7, 7, .ro, 0, .any⟩, ⟨6, 6, .ro, 0, .any⟩, ⟨5, 5, .ro, 0, .any⟩, ⟨4, 4, .ro, 0, .any⟩, ⟨3, 3, .ro, 0, .any⟩, ⟨2, 0, .ro, 0, .any⟩]⟩] ++ -- CLK_SRC_STAT, R426
  [⟨0x44, 1, 4, [⟨17, 17, .rw, 1, .any⟩, ⟨16, 16, .rw, 0, .any⟩, ⟨15, 0, .rw, 100, (.range 1 65535)⟩]⟩] ++ -- CLK_SRC_CTRL, R426
  [⟨0x48, 1, 4, [⟨15, 0, .rw, 200, (.range 20 1000)⟩]⟩] ++ -- CLK_MON_CFG, R426
  [⟨0x4C, 1, 4, [⟨5, 0, .rw, 32, (.range 20 32)⟩]⟩] ++ -- CLK_FAB_PLL, R426
  [⟨0x50, 1, 4, [⟨1, 0, .rw, 0, (.range 0 2)⟩]⟩] ++ -- CLK_BASE_PLL, R426
  [⟨0x54, 1, 4, [⟨31, 31, .ro, 0, .any⟩, ⟨30, 30, .ro, 0, .any⟩, ⟨29, 29, .ro, 0, .any⟩, ⟨28, 28, .ro, 0, .any⟩]⟩] ++ -- CLK_PLL_STAT, R426
  [⟨0x58, 1, 4, [⟨5, 0, .rw, 4, (.range 1 63)⟩]⟩] ++ -- CLK_GATE_TIMEOUT, R426
  [⟨0x5C, 1, 4, [⟨31, 16, .rw, 0, .any⟩, ⟨15, 0, .rw, 256, (.range 16 65535)⟩]⟩] -- CLK_BASIN_IDLE, R426

/-- The registers of PWR pages. -/
def regsPWR : List RegRow :=
  [⟨0x40, 1, 4, [⟨11, 8, .ro, 0, .any⟩, ⟨7, 4, .ro, 0, .any⟩, ⟨3, 0, .ro, 0, .any⟩]⟩] ++ -- PWR_DIE_STAT, R442
  [⟨0x44, 1, 4, [⟨3, 0, .rwp, 0, (.among [0, 1, 2, 4, 8])⟩]⟩] -- PWR_DIE_RESET, R442

/-- The registers of THM pages. -/
def regsTHM : List RegRow :=
  [⟨0x40, 1, 4, [⟨19, 19, .ro, 0, .any⟩, ⟨18, 18, .ro, 0, .any⟩, ⟨17, 17, .ro, 0, .any⟩, ⟨16, 16, .ro, 0, .any⟩, ⟨15, 0, .ro, 0, .any⟩]⟩] ++ -- THM_STAT, R455
  [⟨0x44, 1, 4, [⟨23, 16, .rw, 115, .any⟩, ⟨15, 8, .rw, 105, .any⟩, ⟨7, 0, .rw, 98, .any⟩]⟩] ++ -- THM_LIMIT, R455
  [⟨0x48, 1, 4, [⟨4, 0, .rw, 8, (.range 1 16)⟩]⟩] ++ -- THM_THROTTLE, R455
  [⟨0x4C, 1, 4, [⟨31, 16, .rw, 12, (.range 4 40)⟩, ⟨15, 8, .rw, 8, (.range 1 16)⟩, ⟨7, 0, .rw, 3, (.upTo 15 8)⟩]⟩] ++ -- THM_CHECK_CFG, R455
  [⟨0x50, 1, 4, [⟨31, 16, .rw, 5, (.range 1 10)⟩, ⟨15, 8, .rw, 8, (.range 1 16)⟩, ⟨7, 0, .rw, 4, (.upTo 15 8)⟩]⟩] ++ -- THM_VMON_CFG, R455
  [⟨0x54, 1, 4, [⟨31, 0, .ro, 0, .any⟩]⟩] ++ -- THM_SUSPECT_0, R455
  [⟨0x58, 1, 4, [⟨19, 0, .ro, 0, .any⟩]⟩] ++ -- THM_SUSPECT_1, R455
  [⟨0x5C, 1, 4, [⟨23, 0, .ro, 0, .any⟩]⟩] ++ -- THM_BREACH, R455
  [⟨0x60, 1, 4, [⟨31, 0, .ro, 0, .any⟩]⟩] ++ -- THM_ROUND, R455
  [⟨0x70, 1, 4, [⟨31, 16, .w1c, 0, .any⟩, ⟨15, 0, .ro, 0, .any⟩]⟩] ++ -- THM_TRIP, R455
  [⟨0x100, 96, 4, [⟨31, 16, .ro, 0, .any⟩, ⟨15, 0, .ro, 0, .any⟩]⟩] -- THM_CH, R455

/-- The registers of OTP pages. -/
def regsOTP : List RegRow :=
  [⟨0x40, 1, 4, [⟨31, 28, .rwp, 0, (.range 0 6)⟩, ⟨27, 24, .rwp, 0, (.range 0 9)⟩, ⟨23, 22, .rwp, 0, .any⟩, ⟨20, 19, .rwp, 0, .any⟩, ⟨9, 0, .rwp, 0, .any⟩]⟩] ++ -- OTP_CMD, R405
  [⟨0x44, 1, 4, [⟨29, 0, .ro, 0, .any⟩]⟩] ++ -- OTP_RESOLVED, R405
  [⟨0x48, 1, 4, [⟨31, 0, .ro, 0, .any⟩]⟩] ++ -- OTP_READ_LO, R405
  [⟨0x4C, 1, 4, [⟨31, 0, .ro, 0, .any⟩]⟩] ++ -- OTP_READ_HI, R405
  [⟨0x50, 1, 4, [⟨1, 1, .ro, 0, .any⟩, ⟨0, 0, .ro, 0, .any⟩]⟩] ++ -- OTP_READ_ECC, R405
  [⟨0x80, 72, 4, [⟨31, 0, .rw, 0, .any⟩]⟩] ++ -- OTP_STAGE, R405
  [⟨0x200, 8, 4, [⟨31, 0, .ro, 0, .any⟩]⟩] ++ -- OTP_CHALLENGE, R405
  [⟨0x240, 48, 4, [⟨31, 0, .wo, 0, .any⟩]⟩] -- OTP_AUTH, R405

/-- The registers of SEC pages. -/
def regsSEC : List RegRow :=
  [⟨0x40, 1, 4, [⟨31, 23, .ro, 0, .any⟩, ⟨22, 16, .ro, 0, .any⟩, ⟨7, 7, .ro, 0, .any⟩, ⟨6, 6, .ro, 0, .any⟩, ⟨5, 5, .ro, 0, .any⟩, ⟨4, 4, .ro, 0, .any⟩, ⟨3, 3, .ro, 0, .any⟩, ⟨2, 2, .ro, 0, .any⟩, ⟨1, 1, .ro, 0, .any⟩, ⟨0, 0, .ro, 0, .any⟩]⟩] ++ -- SEC_STAT, R405
  [⟨0x44, 1, 4, [⟨31, 16, .rwp, 0, .any⟩, ⟨1, 0, .rwp, 0, (.range 0 2)⟩]⟩] ++ -- SEC_CMD, R405
  [⟨0x48, 1, 4, [⟨31, 31, .w1c, 0, .any⟩, ⟨30, 30, .ro, 0, .any⟩, ⟨15, 0, .ro, 0, .any⟩]⟩] ++ -- SEC_ALARM, R405
  [⟨0x4C, 1, 4, [⟨31, 28, .ro, 0, .any⟩, ⟨15, 0, .ro, 0, .any⟩]⟩] ++ -- SEC_ALARM_COUNT, R405
  [⟨0x50, 1, 4, [⟨15, 0, .ro, 0, .any⟩]⟩] ++ -- SEC_SEAL_CAUSE, R405
  [⟨0x54, 1, 4, [⟨31, 0, .ro, 0, .any⟩]⟩] ++ -- SEC_RNG, R405
  [⟨0x60, 8, 4, [⟨31, 0, .rw, 0, .any⟩]⟩] ++ -- SEC_NONCE, R405
  [⟨0x80, 24, 4, [⟨31, 0, .ro, 0, .any⟩]⟩] ++ -- SEC_PROV_PUB, R405
  [⟨0x400, 128, 4, [⟨31, 0, .ro, 0, .any⟩]⟩] -- SEC_SEAL_LOG, R405

/-- The registers of CFG pages. -/
def regsCFG : List RegRow :=
  [⟨0x40, 1, 4, [⟨1, 0, .rwp, 0, (.among [0, 2, 3])⟩]⟩] ++ -- CFG_ENG_CMD, R313
  [⟨0x44, 1, 4, [⟨31, 16, .ro, 0, .any⟩, ⟨7, 5, .ro, 0, .any⟩, ⟨4, 4, .ro, 0, .any⟩, ⟨2, 0, .ro, 0, .any⟩]⟩] ++ -- CFG_ENG_STAT, R314
  [⟨0x48, 1, 4, [⟨31, 0, .ro, 0, .any⟩]⟩] ++ -- CFG_ENG_BYTES, R313
  [⟨0x4C, 1, 4, [⟨31, 16, .ro, 0, .any⟩, ⟨15, 0, .ro, 0, .any⟩]⟩] ++ -- CFG_ENG_STREAM, R313
  [⟨0x50, 1, 4, [⟨31, 22, .ro, 0, .any⟩, ⟨21, 12, .ro, 0, .any⟩, ⟨11, 0, .ro, 0, .any⟩]⟩] ++ -- CFG_ENG_RESULT, R314
  [⟨0x60, 1, 4, [⟨31, 16, .ro, 0, .any⟩, ⟨15, 15, .ro, 0, .any⟩, ⟨14, 14, .ro, 0, .any⟩, ⟨13, 12, .ro, 0, .any⟩, ⟨11, 11, .ro, 0, .any⟩, ⟨10, 10, .ro, 0, .any⟩, ⟨9, 8, .ro, 0, .any⟩, ⟨3, 3, .ro, 0, .any⟩, ⟨2, 2, .ro, 0, .any⟩, ⟨1, 1, .ro, 0, .any⟩, ⟨0, 0, .ro, 0, .any⟩]⟩] ++ -- CFG_BOOT_STAT, R314
  [⟨0x64, 1, 4, [⟨15, 8, .ro, 0, .any⟩, ⟨7, 0, .ro, 0, .any⟩]⟩] ++ -- CFG_BCAST_STAT, R314
  [⟨0x200, 8, 4, [⟨29, 24, .rw, 0, (.range 0 33)⟩, ⟨21, 16, .rw, 0, (.range 0 33)⟩, ⟨13, 8, .rw, 0, (.range 0 33)⟩, ⟨5, 0, .rw, 0, (.range 0 33)⟩]⟩] -- CFG_BASIN_MAP, R144

/-- The registers of IRP pages. -/
def regsIRP : List RegRow :=
  [⟨0x40, 1, 4, [⟨3, 2, .rwp, 0, (.range 0 1)⟩, ⟨1, 0, .rwp, 0, .any⟩]⟩] ++ -- IRP_ENG_CMD, R313
  [⟨0x44, 1, 4, [⟨31, 16, .ro, 0, .any⟩, ⟨15, 8, .ro, 0, .any⟩, ⟨7, 5, .ro, 0, .any⟩, ⟨4, 4, .ro, 0, .any⟩, ⟨2, 0, .ro, 0, .any⟩]⟩] ++ -- IRP_ENG_STAT, R314
  [⟨0x48, 1, 4, [⟨31, 0, .ro, 0, .any⟩]⟩] ++ -- IRP_ENG_BYTES, R313
  [⟨0x4C, 1, 4, [⟨31, 16, .ro, 0, .any⟩, ⟨15, 0, .ro, 0, .any⟩]⟩] ++ -- IRP_ENG_STREAM, R313
  [⟨0x50, 1, 4, [⟨31, 22, .ro, 0, .any⟩, ⟨21, 12, .ro, 0, .any⟩, ⟨11, 0, .ro, 0, .any⟩]⟩] ++ -- IRP_ENG_RESULT, R314
  [⟨0x60, 1, 4, [⟨31, 0, .rwp, 0, .any⟩]⟩] ++ -- IRP_DATA, R314
  [⟨0x64, 1, 4, [⟨31, 31, .rw, 0, .any⟩, ⟨4, 0, .rw, 0, .any⟩]⟩] -- IRP_MASTER, R314

/-- The registers of BIST pages. -/
def regsBIST : List RegRow :=
  [⟨0x40, 1, 4, [⟨31, 30, .rwp, 0, (.range 0 2)⟩, ⟨29, 29, .rwp, 0, .any⟩, ⟨13, 7, .rwp, 0, .any⟩, ⟨5, 0, .rwp, 0, .any⟩]⟩] ++ -- BIST_CMD, R475
  [⟨0x44, 1, 4, [⟨31, 16, .ro, 0, .any⟩, ⟨15, 15, .ro, 0, .any⟩, ⟨11, 8, .ro, 0, .any⟩, ⟨5, 0, .ro, 0, .any⟩]⟩] ++ -- BIST_STAT, R475
  [⟨0x48, 1, 4, [⟨15, 0, .rw, 200, (.range 1 65535)⟩]⟩] ++ -- BIST_CFG, R475
  [⟨0x50, 4, 4, [⟨31, 0, .ro, 0, .any⟩]⟩] ++ -- BIST_GOLDEN, R475
  [⟨0x60, 1, 4, [⟨31, 0, .ro, 0, .any⟩]⟩] ++ -- BIST_BOOT_FAIL_0, R475
  [⟨0x64, 1, 4, [⟨1, 0, .ro, 0, .any⟩]⟩] ++ -- BIST_BOOT_FAIL_1, R475
  [⟨0x80, 16, 4, [⟨31, 31, .ro, 0, .any⟩, ⟨30, 30, .ro, 0, .any⟩, ⟨29, 26, .ro, 0, .any⟩, ⟨25, 25, .ro, 0, .any⟩, ⟨24, 16, .ro, 0, .any⟩, ⟨15, 10, .ro, 0, .any⟩, ⟨9, 3, .ro, 0, .any⟩]⟩] -- BIST_D2_FAIL, R475

/-- The registers of ECC pages. -/
def regsECC : List RegRow :=
  [⟨0x40, 1, 4, [⟨31, 31, .rw, 1, .any⟩, ⟨30, 30, .rw, 1, .any⟩, ⟨29, 29, .rw, 1, .any⟩, ⟨15, 0, .rw, 24, (.range 1 65535)⟩]⟩] ++ -- ECC_SWEEP_CFG, R475
  [⟨0x44, 1, 4, [⟨31, 16, .rw, 1000, (.range 1 65535)⟩, ⟨15, 12, .rw, 8, (.range 1 15)⟩, ⟨11, 8, .rw, 3, (.upTo 15 12)⟩, ⟨7, 0, .rw, 2, (.range 1 255)⟩]⟩] ++ -- ECC_WIN_CFG, R475
  [⟨0x48, 1, 4, [⟨31, 30, .rwp, 0, (.range 0 1)⟩, ⟨29, 26, .rwp, 0, .any⟩]⟩] ++ -- ECC_REWRITE_CMD, R475
  [⟨0x4C, 1, 4, [⟨31, 0, .rw, 0, .any⟩]⟩] ++ -- ECC_REWRITE_ADDR_LO, R475
  [⟨0x50, 1, 4, [⟨7, 0, .rw, 0, .any⟩]⟩] ++ -- ECC_REWRITE_ADDR_HI, R475
  [⟨0x54, 1, 4, [⟨0, 0, .wo, 0, .any⟩]⟩] ++ -- ECC_TRACK_CLR, R475
  [⟨0x60, 4, 4, [⟨31, 0, .ro, 0, .any⟩]⟩] ++ -- ECC_FIRST, R475
  [⟨0x100, 5, 16, [⟨8, 8, .ro, 0, .any⟩, ⟨7, 0, .ro, 0, .any⟩]⟩] ++ -- ECC_HEAD, R475
  [⟨0x104, 5, 16, [⟨7, 0, .rw, 0, .any⟩]⟩] ++ -- ECC_TAIL, R475
  [⟨0x108, 5, 16, [⟨31, 0, .ro, 0, .any⟩]⟩] ++ -- ECC_LOST, R475
  [⟨0x200, 9, 4, [⟨31, 16, .ro, 0, .any⟩, ⟨15, 0, .ro, 0, .any⟩]⟩] -- ECC_SUM, R475

/-- The registers of SLU pages. -/
def regsSLU : List RegRow :=
  [⟨0x40, 1, 4, [⟨5, 1, .rw, 2, (.range 0 17)⟩, ⟨0, 0, .rw, 0, .any⟩]⟩] ++ -- SLU_CTRL, R215
  [⟨0x44, 1, 4, [⟨31, 0, .ro, 258048, .any⟩]⟩] ++ -- SLU_FREE, R215
  [⟨0x48, 1, 4, [⟨11, 0, .rw, 256, .any⟩]⟩] ++ -- SLU_FREE_WM, R215
  [⟨0x4C, 2, 4, [⟨31, 24, .rw, 1, (.range 1 255)⟩, ⟨23, 16, .rw, 1, (.range 1 255)⟩, ⟨15, 8, .rw, 1, (.range 1 255)⟩, ⟨7, 0, .rw, 1, (.range 1 255)⟩]⟩] ++ -- SLU_WEIGHT, R215
  [⟨0x54, 1, 4, [⟨31, 0, .rw, 0, .any⟩]⟩] ++ -- SLU_OFFLINE, R215
  [⟨0x58, 1, 4, [⟨23, 20, .rw, 4, (.range 1 15)⟩, ⟨19, 16, .rw, 3, (.upTo 23 20)⟩, ⟨15, 0, .rw, 1000, (.range 1 65535)⟩]⟩] ++ -- SLU_TO_WINDOW, R215
  [⟨0x5C, 1, 4, [⟨31, 0, .ro, 0, .any⟩]⟩] ++ -- SLU_TICK_LO, R215
  [⟨0x60, 1, 4, [⟨15, 0, .ro, 0, .any⟩]⟩] ++ -- SLU_TICK_HI, R215
  [⟨0x64, 1, 4, [⟨31, 30, .rwp, 0, (.range 0 2)⟩, ⟨15, 0, .rwp, 0, .any⟩]⟩] ++ -- SLU_FLOW_CMD, R215
  [⟨0x68, 1, 4, [⟨31, 0, .ro, 0, .any⟩]⟩] ++ -- SLU_LATE, R215
  [⟨0x6C, 1, 4, [⟨14, 0, .ro, 0, .any⟩]⟩] ++ -- SLU_MATCH_STAT, R215
  [⟨0x70, 1, 4, [⟨31, 17, .ro, 0, .any⟩, ⟨16, 0, .ro, 0, .any⟩]⟩] ++ -- SLU_DELAY_STAT, R215
  [⟨0x74, 1, 4, [⟨7, 0, .ro, 0, .any⟩]⟩] ++ -- SLU_GROUP_EMPTY, R215
  [⟨0x78, 1, 4, [⟨31, 0, .ro, 0, .any⟩]⟩] ++ -- SLU_NO_PARTNER, R215
  [⟨0x80, 32, 4, [⟨31, 16, .ro, 0, .any⟩, ⟨15, 15, .ro, 0, .any⟩, ⟨4, 0, .ro, 0, .any⟩]⟩] -- SLU_BASIN, R215

/-- The registers of SLU_X pages. -/
def regsSLUX : List RegRow :=
  [⟨0x40, 1, 4, [⟨10, 10, .ro, 0, .any⟩, ⟨9, 0, .ro, 0, .any⟩]⟩] ++ -- SLU_EXC_HEAD, R215
  [⟨0x44, 1, 4, [⟨9, 0, .rw, 0, .any⟩]⟩] ++ -- SLU_EXC_TAIL, R215
  [⟨0x48, 1, 4, [⟨31, 0, .ro, 0, .any⟩]⟩] -- SLU_EXC_LOST, R215

/-- The registers of IME pages. -/
def regsIME : List RegRow :=
  [⟨0x40, 1, 4, [⟨15, 8, .rw, 16, (.range 1 32)⟩, ⟨0, 0, .rw, 0, .any⟩]⟩] ++ -- IME_CTRL, R380
  [⟨0x44, 1, 4, [⟨31, 16, .ro, 0, .any⟩, ⟨4, 4, .ro, 0, .any⟩, ⟨3, 0, .ro, 0, .any⟩]⟩] ++ -- IME_STAT, R380
  [⟨0x48, 1, 4, [⟨31, 28, .rwp, 0, (.range 0 5)⟩, ⟨3, 0, .rwp, 0, .any⟩]⟩] ++ -- IME_CMD, R380
  [⟨0x4C, 1, 4, [⟨31, 28, .rw, 0, (.range 0 7)⟩, ⟨25, 0, .rw, 0, .any⟩]⟩] ++ -- IME_CMD_ARG, R380
  [⟨0x50, 1, 4, [⟨31, 0, .ro, 0, .any⟩]⟩] ++ -- IME_REKEY_BOUND, R380
  [⟨0x54, 1, 4, [⟨31, 31, .w1c, 0, .any⟩, ⟨30, 30, .ro, 0, .any⟩, ⟨19, 16, .ro, 0, .any⟩, ⟨15, 0, .ro, 0, .any⟩]⟩] ++ -- IME_ERR, R380
  [⟨0x58, 1, 4, [⟨31, 0, .ro, 0, .any⟩]⟩] ++ -- IME_ERR_ADDR, R380
  [⟨0x5C, 1, 4, [⟨31, 16, .ro, 0, .any⟩, ⟨15, 0, .ro, 0, .any⟩]⟩] ++ -- IME_COUNT, R380
  [⟨0x200, 16, 32, [⟨31, 16, .ro, 0, .any⟩, ⟨15, 13, .ro, 0, .any⟩, ⟨12, 12, .ro, 0, .any⟩, ⟨9, 8, .rw, 0, (.range 0 2)⟩, ⟨1, 0, .rw, 0, (.range 0 2)⟩]⟩] ++ -- IME_REG_MODE, R381
  [⟨0x204, 16, 32, [⟨25, 0, .rw, 0, .any⟩]⟩] ++ -- IME_REG_BASE, R380
  [⟨0x208, 16, 32, [⟨26, 0, .rw, 0, (.range 0 67108864)⟩]⟩] ++ -- IME_REG_PAGES, R380
  [⟨0x20C, 16, 32, [⟨25, 0, .rw, 0, .any⟩]⟩] ++ -- IME_REG_CTR, R380
  [⟨0x210, 16, 32, [⟨25, 0, .rw, 0, .any⟩]⟩] ++ -- IME_REG_TREE, R380
  [⟨0x214, 16, 32, [⟨25, 0, .rw, 0, .any⟩]⟩] -- IME_REG_TAG, R380

/-- The registers of HIF pages. -/
def regsHIF : List RegRow :=
  [⟨0x40, 1, 4, [⟨7, 4, .ro, 0, .any⟩, ⟨3, 0, .ro, 0, .any⟩]⟩] ++ -- HIF_LINK, R505
  [⟨0x44, 1, 4, [⟨7, 0, .rw, 0, (.range 0 192)⟩]⟩] ++ -- HIF_APERTURE, R505
  [⟨0x48, 1, 4, [⟨0, 0, .rw, 0, .any⟩]⟩] -- HIF_MGMT, R505

/-- The registers of HDMA pages. -/
def regsHDMA : List RegRow :=
  [⟨0x100, 16, 64, [⟨31, 31, .rw, 0, .any⟩, ⟨19, 16, .rw, 4, (.range 4 15)⟩, ⟨2, 0, .rw, 0, (.range 0 5)⟩]⟩] ++ -- HDMA_CFG, R502
  [⟨0x104, 16, 64, [⟨31, 5, .rw, 0, .any⟩]⟩] ++ -- HDMA_BASE_LO, R502
  [⟨0x108, 16, 64, [⟨31, 0, .rw, 0, .any⟩]⟩] ++ -- HDMA_BASE_HI, R502
  [⟨0x10C, 16, 64, [⟨15, 0, .rw, 0, .any⟩]⟩] ++ -- HDMA_TAIL, R502
  [⟨0x110, 16, 64, [⟨15, 0, .ro, 0, .any⟩]⟩] ++ -- HDMA_HEAD, R502
  [⟨0x114, 16, 64, [⟨31, 31, .ro, 0, .any⟩, ⟨30, 30, .ro, 0, .any⟩, ⟨15, 0, .ro, 0, .any⟩]⟩] ++ -- HDMA_STAT, R502
  [⟨0x118, 16, 64, [⟨1, 0, .rwp, 0, (.range 0 2)⟩]⟩] ++ -- HDMA_CMD, R502
  [⟨0x4DC, 1, 4, [⟨31, 5, .rw, 0, .any⟩]⟩] ++ -- HDMA_RX_BASE_LO, R502
  [⟨0x4E0, 1, 4, [⟨31, 0, .rw, 0, .any⟩]⟩] ++ -- HDMA_RX_BASE_HI, R502
  [⟨0x4E4, 1, 4, [⟨15, 0, .rw, 0, .any⟩]⟩] ++ -- HDMA_RX_TAIL, R502
  [⟨0x4E8, 1, 4, [⟨15, 0, .ro, 0, .any⟩]⟩] -- HDMA_RX_HEAD, R502

/-- The registers of DBG pages. -/
def regsDBG : List RegRow :=
  [⟨0x40, 1, 4, [⟨31, 31, .rw, 0, .any⟩, ⟨15, 8, .ro, 0, .any⟩, ⟨3, 2, .rw, 0, (.range 0 2)⟩, ⟨1, 0, .rw, 0, (.range 0 2)⟩]⟩] -- DBG_TRACE, R523

/-- The registers of UIO pages. -/
def regsUIO : List RegRow :=
  [⟨0x40, 1, 4, [⟨31, 31, .rws, 0, .any⟩, ⟨4, 0, .rws, 0, .any⟩]⟩] ++ -- UIO_OWNER, R522
  [⟨0x44, 1, 4, [⟨31, 31, .rw, 0, .any⟩, ⟨5, 0, .rw, 8, (.even 4 64)⟩]⟩] ++ -- UIO_CLK, R522
  [⟨0x48, 1, 4, [⟨1, 1, .ro, 0, .any⟩, ⟨0, 0, .ro, 0, .any⟩]⟩] ++ -- UIO_STAT, R522
  [⟨0x100, 24, 4, [⟨31, 31, .rw, 0, .any⟩, ⟨30, 29, .rw, 0, .any⟩, ⟨26, 25, .rw, 0, (.range 0 2)⟩, ⟨23, 23, .rw, 0, .any⟩, ⟨22, 16, .rw, 0, .any⟩, ⟨9, 8, .rw, 1, (.range 0 2)⟩, ⟨7, 7, .rw, 0, .any⟩, ⟨6, 6, .rw, 0, .any⟩, ⟨5, 5, .rw, 0, .any⟩, ⟨3, 2, .rw, 0, .any⟩]⟩] -- UIO_PIN, R522

/-- The registers of BANK pages. -/
def regsBANK : List RegRow :=
  [⟨0x40, 1, 4, [⟨31, 31, .w1c, 0, .any⟩, ⟨30, 30, .ro, 0, .any⟩, ⟨29, 26, .ro, 0, .any⟩, ⟨25, 21, .ro, 0, .any⟩, ⟨18, 12, .ro, 0, .any⟩, ⟨11, 0, .ro, 0, .any⟩]⟩] ++ -- BANK_REFUSE, R332
  [⟨0x44, 1, 4, [⟨31, 0, .ro, 0, .any⟩]⟩] ++ -- BANK_REFUSE_COUNT, R332
  [⟨0x48, 1, 4, [⟨15, 0, .rw, 10, (.range 1 65535)⟩]⟩] ++ -- BANK_RET_IDLE, R332
  [⟨0x50, 4, 4, [⟨31, 0, .rw, 0, .any⟩]⟩] ++ -- BANK_RET, R332
  [⟨0x60, 4, 4, [⟨31, 0, .ro, 0, .any⟩]⟩] ++ -- BANK_RET_STAT, R332
  [⟨0x70, 1, 4, [⟨9, 8, .rwp, 0, (.range 0 1)⟩, ⟨6, 0, .rwp, 0, .any⟩]⟩] ++ -- BANK_MBIST_CMD, R332
  [⟨0x74, 1, 4, [⟨31, 24, .ro, 0, .any⟩, ⟨23, 23, .ro, 0, .any⟩, ⟨22, 22, .ro, 0, .any⟩, ⟨19, 12, .ro, 0, .any⟩, ⟨11, 8, .ro, 0, .any⟩, ⟨6, 0, .ro, 0, .any⟩]⟩] ++ -- BANK_MBIST_STAT, R332
  [⟨0x80, 16, 4, [⟨31, 31, .ro, 0, .any⟩, ⟨30, 30, .ro, 0, .any⟩, ⟨25, 14, .ro, 0, .any⟩, ⟨13, 0, .ro, 0, .any⟩]⟩] ++ -- BANK_MBIST_FAIL, R332
  [⟨0xC0, 1, 4, [⟨31, 30, .rwp, 0, (.range 0 2)⟩, ⟨29, 27, .rwp, 0, .any⟩, ⟨26, 20, .rwp, 0, .any⟩, ⟨13, 0, .rwp, 0, .any⟩]⟩] ++ -- BANK_REPAIR_CMD, R332
  [⟨0x200, 128, 4, [⟨31, 31, .ro, 0, .any⟩, ⟨30, 30, .rwp, 0, .any⟩, ⟨29, 29, .rwp, 0, .any⟩, ⟨26, 16, .ro, 0, .any⟩, ⟨12, 8, .rwp, 0, .any⟩, ⟨3, 0, .rwp, 0, (.among [0, 1, 2, 3, 4, 5, 6, 7, 8, 15])⟩]⟩] -- BANK_OWNER, R332

/-- The registers of QUAD pages. -/
def regsQUAD : List RegRow :=
  [⟨0x40, 1, 4, [⟨31, 24, .rw, 0, .any⟩, ⟨23, 16, .rw, 20, (.range 1 255)⟩, ⟨15, 8, .rw, 32, .any⟩, ⟨3, 2, .rw, 0, .any⟩, ⟨0, 0, .rw, 0, .any⟩]⟩] ++ -- QUAD_CFG, R257
  [⟨0x100, 4, 64, [⟨31, 28, .rw, 0, .any⟩, ⟨27, 27, .rw, 0, .any⟩, ⟨26, 24, .rw, 0, (.range 0 6)⟩, ⟨22, 20, .rw, 0, (.range 0 6)⟩, ⟨19, 18, .rw, 0, .any⟩, ⟨17, 17, .rw, 0, .any⟩, ⟨16, 16, .rw, 0, .any⟩, ⟨0, 0, .rw, 0, .any⟩]⟩] ++ -- LANE_CTRL, R257
  [⟨0x104, 4, 64, [⟨31, 29, .ro, 0, .any⟩, ⟨28, 25, .ro, 0, .any⟩, ⟨24, 24, .ro, 0, .any⟩, ⟨23, 23, .ro, 0, .any⟩, ⟨22, 22, .ro, 0, .any⟩, ⟨21, 21, .ro, 1, .any⟩, ⟨20, 20, .ro, 0, .any⟩, ⟨19, 17, .ro, 0, .any⟩, ⟨16, 16, .ro, 0, .any⟩, ⟨15, 15, .ro, 0, .any⟩, ⟨11, 0, .ro, 0, .any⟩]⟩] ++ -- LANE_STAT, R257
  [⟨0x108, 4, 64, [⟨27, 16, .rw, 0, .any⟩, ⟨15, 0, .rw, 0, .any⟩]⟩] ++ -- LANE_MARK_TX, R257
  [⟨0x10C, 4, 64, [⟨27, 16, .ro, 0, .any⟩, ⟨15, 0, .ro, 0, .any⟩]⟩] ++ -- LANE_MARK_RX, R257
  [⟨0x110, 4, 64, [⟨31, 16, .rw, 1000, (.range 1 65535)⟩, ⟨15, 12, .rw, 4, (.range 1 15)⟩, ⟨11, 8, .rw, 3, (.upTo 15 12)⟩, ⟨7, 0, .rw, 10, (.range 1 255)⟩]⟩] ++ -- LANE_BER_CFG, R257
  [⟨0x114, 4, 64, [⟨31, 16, .ro, 0, .any⟩, ⟨15, 0, .ro, 0, .any⟩]⟩] ++ -- LANE_BER_STAT, R257
  [⟨0x118, 4, 64, [⟨31, 0, .ro, 0, .any⟩]⟩] ++ -- LANE_FEC_CORR, R257
  [⟨0x11C, 4, 64, [⟨31, 0, .ro, 0, .any⟩]⟩] ++ -- LANE_FEC_UNCORR, R257
  [⟨0x120, 4, 64, [⟨31, 0, .ro, 0, .any⟩]⟩] ++ -- LANE_PRBS_ERR, R257
  [⟨0x124, 4, 64, [⟨31, 31, .rw, 0, .any⟩, ⟨30, 30, .rw, 0, .any⟩, ⟨29, 29, .rw, 0, .any⟩, ⟨28, 28, .rw, 0, .any⟩, ⟨25, 24, .wo, 0, (.range 0 2)⟩, ⟨23, 16, .rw, 0, .any⟩, ⟨15, 0, .rw, 0, .any⟩]⟩] ++ -- LANE_PROT, R257
  [⟨0x128, 4, 64, [⟨31, 31, .ro, 0, .any⟩, ⟨27, 24, .ro, 0, .any⟩, ⟨23, 16, .ro, 0, .any⟩, ⟨15, 0, .ro, 0, .any⟩]⟩] ++ -- LANE_PROT_STAT, R257
  [⟨0x12C, 4, 64, [⟨31, 16, .ro, 0, .any⟩, ⟨15, 0, .ro, 0, .any⟩]⟩] ++ -- LANE_DROP, R257
  [⟨0x800, 4, 0x200, [⟨7, 0, .rw, 0, .any⟩]⟩] ++ -- LANE_DETAIL, R257: the offsets within the window are log entry 302. c(-2)
  [⟨0x804, 4, 0x200, [⟨7, 0, .rw, 0, .any⟩]⟩] ++ -- c(-1)
  [⟨0x808, 4, 0x200, [⟨7, 0, .rw, 0, .any⟩]⟩] ++ -- c(0)
  [⟨0x80C, 4, 0x200, [⟨7, 0, .rw, 0, .any⟩]⟩] ++ -- c(+1)
  [⟨0x810, 4, 0x200, [⟨7, 0, .rw, 0, .any⟩]⟩] ++ -- c(+2)
  [⟨0x814, 4, 0x200, [⟨7, 0, .rw, 0, .any⟩]⟩] ++ -- c(+3)
  [⟨0x820, 4, 0x200, [⟨31, 0, .ro, 0, .any⟩]⟩] ++ -- CTLE adaptation state
  [⟨0x824, 4, 0x200, [⟨31, 0, .ro, 0, .any⟩]⟩] ++ -- DSP adaptation state
  [⟨0x828, 4, 0x200, [⟨31, 0, .ro, 0, .any⟩]⟩] ++ -- eye margin
  [⟨0x82C, 4, 0x200, [⟨31, 0, .ro, 0, .any⟩]⟩] -- calibration result

/-- The registers of ENR pages. -/
def regsENR : List RegRow :=
  [⟨0x40, 1, 4, [⟨17, 16, .wo, 0, (.range 0 2)⟩, ⟨12, 12, .rw, 1, .any⟩, ⟨11, 11, .rw, 0, .any⟩, ⟨10, 8, .rw, 0, .any⟩, ⟨6, 1, .rw, 0, (.range 0 35)⟩, ⟨0, 0, .rw, 0, .any⟩]⟩] ++ -- ENR_CTRL, R284
  [⟨0x44, 1, 4, [⟨31, 16, .ro, 0, .any⟩, ⟨15, 12, .ro, 0, .any⟩, ⟨11, 11, .ro, 0, .any⟩, ⟨10, 10, .ro, 0, .any⟩, ⟨9, 9, .ro, 0, .any⟩, ⟨8, 6, .ro, 0, .any⟩, ⟨5, 3, .ro, 0, .any⟩, ⟨2, 0, .ro, 0, .any⟩]⟩] ++ -- ENR_STAT, R284
  [⟨0x48, 1, 4, [⟨31, 24, .ro, 0, .any⟩, ⟨23, 12, .ro, 0, .any⟩, ⟨11, 0, .ro, 0, .any⟩]⟩] ++ -- ENR_ERR, R284
  [⟨0x4C, 1, 4, [⟨31, 0, .ro, 0, .any⟩]⟩] ++ -- ENR_TX_CTR, R284
  [⟨0x50, 1, 4, [⟨31, 0, .ro, 0, .any⟩]⟩] -- ENR_DELAY, R284

/-- The registers of ENR_G pages. -/
def regsENRG : List RegRow :=
  [⟨0x40, 1, 4, [⟨6, 6, .rw, 1, .any⟩, ⟨5, 3, .rw, 0, .any⟩, ⟨2, 0, .rw, 0, .any⟩]⟩] ++ -- ENR_G_CTRL, R284
  [⟨0x44, 1, 4, [⟨31, 16, .ro, 0, .any⟩, ⟨8, 8, .ro, 0, .any⟩, ⟨7, 7, .ro, 0, .any⟩, ⟨6, 6, .ro, 0, .any⟩, ⟨5, 3, .ro, 0, .any⟩, ⟨2, 0, .ro, 0, .any⟩]⟩] ++ -- ENR_G_STAT, R284
  [⟨0x48, 1, 4, [⟨31, 0, .ro, 0, .any⟩]⟩] -- ENR_G_OFFSET, R284

/-- The registers of BSN pages. -/
def regsBSN : List RegRow :=
  [⟨0x40, 1, 4, [⟨3, 3, .rw, 1, .any⟩, ⟨2, 2, .rw, 0, .any⟩, ⟨1, 1, .rw, 0, .any⟩, ⟨0, 0, .rw, 1, .any⟩]⟩] ++ -- BSN_MODE, R121
  [⟨0x44, 1, 4, [⟨9, 9, .ro, 0, .any⟩, ⟨8, 7, .ro, 0, .any⟩, ⟨6, 6, .ro, 1, .any⟩, ⟨5, 2, .ro, 0, .any⟩, ⟨1, 1, .ro, 0, .any⟩, ⟨0, 0, .ro, 1, .any⟩]⟩] ++ -- BSN_MODE_STAT, R122
  [⟨0x48, 1, 4, [⟨5, 0, .rw, 20, (.range 1 40)⟩]⟩] ++ -- BSN_SW_BUDGET, R122
  [⟨0x4C, 1, 4, [⟨31, 21, .ro, 0, .any⟩, ⟨20, 0, .ro, 0, .any⟩]⟩] ++ -- BSN_SW_COUNT, R122
  [⟨0x50, 1, 4, [⟨31, 31, .w1c, 0, .any⟩, ⟨30, 30, .ro, 0, .any⟩, ⟨29, 26, .ro, 0, .any⟩, ⟨24, 16, .ro, 0, .any⟩, ⟨15, 0, .ro, 0, .any⟩]⟩] ++ -- BSN_FAULT, R122
  [⟨0x54, 1, 4, [⟨31, 31, .w1c, 0, .any⟩, ⟨30, 30, .ro, 0, .any⟩, ⟨29, 26, .ro, 0, .any⟩, ⟨25, 23, .ro, 0, .any⟩, ⟨17, 9, .ro, 0, .any⟩]⟩] ++ -- BSN_TNV, R122
  [⟨0x58, 1, 4, [⟨31, 0, .ro, 0, .any⟩]⟩] ++ -- BSN_TNV_COUNT, R122
  [⟨0x5C, 1, 4, [⟨9, 8, .rwp, 0, (.range 0 1)⟩, ⟨4, 4, .rwp, 0, .any⟩, ⟨3, 0, .rwp, 0, .any⟩]⟩] ++ -- BSN_PLANE_CMD, R122
  [⟨0x80, 16, 4, [⟨31, 16, .ro, 0, .any⟩, ⟨12, 8, .ro, 0, .any⟩, ⟨2, 0, .ro, 0, .any⟩]⟩] ++ -- BSN_PLANE, R123
  [⟨0xC0, 1, 4, [⟨31, 16, .ro, 0, .any⟩, ⟨2, 0, .ro, 0, .any⟩]⟩] ++ -- BSN_FRAME, R123
  [⟨0xD0, 1, 4, [⟨31, 31, .w1c, 0, .any⟩, ⟨30, 30, .ro, 0, .any⟩, ⟨29, 27, .ro, 0, .any⟩, ⟨26, 23, .ro, 0, .any⟩, ⟨22, 19, .ro, 0, .any⟩, ⟨18, 15, .ro, 0, .any⟩, ⟨14, 11, .ro, 0, .any⟩]⟩] ++ -- BSN_SPINE_GUARD, R142
  [⟨0xD4, 1, 4, [⟨31, 0, .ro, 0, .any⟩]⟩] ++ -- BSN_SPINE_COUNT, R142
  [⟨0xD8, 2, 4, [⟨28, 28, .ro, 0, .any⟩, ⟨27, 24, .ro, 0, .any⟩, ⟨20, 20, .ro, 0, .any⟩, ⟨19, 16, .ro, 0, .any⟩, ⟨12, 12, .ro, 0, .any⟩, ⟨11, 8, .ro, 0, .any⟩, ⟨4, 4, .ro, 0, .any⟩, ⟨3, 0, .ro, 0, .any⟩]⟩] ++ -- BSN_SPINE_CLAIM, R142
  [⟨0xE0, 1, 4, [⟨20, 16, .ro, 0, .any⟩, ⟨15, 12, .ro, 0, .any⟩, ⟨11, 8, .ro, 15, .any⟩, ⟨7, 7, .ro, 1, .any⟩, ⟨6, 6, .ro, 0, .any⟩, ⟨5, 5, .ro, 0, .any⟩]⟩] ++ -- BSN_PORT_STAT, R170
  [⟨0xE4, 1, 4, [⟨31, 31, .w1c, 0, .any⟩, ⟨30, 30, .ro, 0, .any⟩, ⟨29, 26, .ro, 0, .any⟩, ⟨19, 0, .ro, 0, .any⟩]⟩] ++ -- BSN_PORT_ERR, R170
  [⟨0xE8, 1, 4, [⟨15, 0, .ro, 0, .any⟩]⟩] ++ -- BSN_PORT_ERR_CAUSE, R170
  [⟨0xEC, 1, 4, [⟨31, 16, .ro, 0, .any⟩, ⟨15, 0, .ro, 0, .any⟩]⟩] -- BSN_ITEM_COUNT, R170

/-- The registers of DRC pages. -/
def regsDRC : List RegRow :=
  [⟨0x40, 1, 4, [⟨11, 11, .rw, 0, .any⟩, ⟨10, 9, .rw, 2, (.range 0 2)⟩, ⟨8, 8, .rw, 0, .any⟩, ⟨7, 7, .rw, 0, .any⟩, ⟨6, 6, .rw, 0, .any⟩, ⟨2, 0, .rw, 0, (.range 0 4)⟩]⟩] ++ -- DRC_CFG, R356
  [⟨0x44, 1, 4, [⟨2, 0, .rwp, 0, (.range 0 4)⟩]⟩] ++ -- DRC_CTRL, R356
  [⟨0x48, 1, 4, [⟨31, 24, .ro, 0, .any⟩, ⟨23, 20, .ro, 0, .any⟩, ⟨13, 8, .ro, 0, .any⟩, ⟨7, 7, .ro, 0, .any⟩, ⟨2, 0, .ro, 0, .any⟩]⟩] ++ -- DRC_STAT, R356
  [⟨0x4C, 1, 4, [⟨21, 16, .rw, 0, .any⟩, ⟨13, 8, .rw, 0, .any⟩, ⟨5, 0, .rw, 0, .any⟩]⟩] ++ -- DRC_GEOM, R356
  [⟨0x50, 9, 4, [⟨31, 0, .rw, 0, .any⟩]⟩] ++ -- DRC_XMAP, R356
  [⟨0x80, 1, 4, [⟨0, 0, .rw, 0, .any⟩]⟩] ++ -- DRC_REF, R356
  [⟨0x90, 1, 4, [⟨25, 0, .rw, 0, .any⟩]⟩] ++ -- DRC_SPARE_BASE, R356
  [⟨0x94, 1, 4, [⟨10, 0, .rw, 0, (.range 0 1024)⟩]⟩] ++ -- DRC_SPARE_PAGES, R356
  [⟨0xA0, 1, 4, [⟨31, 16, .ro, 0, .any⟩, ⟨15, 0, .ro, 0, .any⟩]⟩] -- DRC_SUB_STAT, R356

/-- The registers of DPH pages. -/
def regsDPH : List RegRow :=
  [⟨0x40, 1, 4, [⟨31, 30, .rwp, 0, .any⟩, ⟨29, 29, .rwp, 0, .any⟩, ⟨28, 25, .rwp, 0, (.range 0 9)⟩, ⟨24, 24, .rwp, 0, .any⟩, ⟨23, 16, .rwp, 0, .any⟩, ⟨7, 0, .rwp, 0, .any⟩]⟩] ++ -- DPH_CMD, R356
  [⟨0x44, 1, 4, [⟨7, 0, .ro, 0, .any⟩]⟩] ++ -- DPH_MR_DATA, R356
  [⟨0x48, 1, 4, [⟨31, 0, .rw, 0, .any⟩]⟩] ++ -- DPH_PAT, R356
  [⟨0x4C, 1, 4, [⟨31, 0, .rw, 0, .any⟩]⟩] ++ -- DPH_PAT_SEED, R356
  [⟨0x50, 2, 4, [⟨31, 0, .rw, 0, .any⟩]⟩] ++ -- DPH_PAT_USER, R356
  [⟨0x58, 1, 4, [⟨31, 31, .rwp, 0, .any⟩, ⟨30, 30, .rwp, 0, .any⟩, ⟨23, 0, .rwp, 0, .any⟩]⟩] ++ -- DPH_CMP, R356
  [⟨0x5C, 1, 4, [⟨31, 0, .rw, 0, .any⟩]⟩] ++ -- DPH_CMP_ADDR, R356
  [⟨0x60, 1, 4, [⟨6, 0, .rw, 0, .any⟩]⟩] ++ -- DPH_VREF, R356
  [⟨0x100, 40, 4, [⟨15, 0, .ro, 0, .any⟩]⟩] ++ -- DPH_ERR, R347
  [⟨0x200, 40, 4, [⟨23, 16, .rw, 0, .any⟩, ⟨7, 0, .rw, 0, .any⟩]⟩] ++ -- DPH_DQ_DLY, R347
  [⟨0x300, 10, 4, [⟨25, 16, .rw, 0, .any⟩, ⟨9, 0, .rw, 0, .any⟩]⟩] ++ -- DPH_DQS_DLY, R347
  [⟨0x380, 16, 4, [⟨7, 0, .rw, 0, .any⟩]⟩] -- DPH_CA_DLY, R347

/-- The registers of a block type (R490). -/
def regRows (t : Nat) : List RegRow :=
  match t with
  | 1 => regsSYS
  | 2 => regsMODE
  | 3 => regsCLK
  | 4 => regsPWR
  | 5 => regsTHM
  | 6 => regsOTP
  | 7 => regsSEC
  | 8 => regsCFG
  | 9 => regsIRP
  | 10 => regsBIST
  | 11 => regsECC
  | 12 => regsSLU
  | 13 => regsSLUX
  | 14 => regsIME
  | 15 => regsHIF
  | 16 => regsHDMA
  | 17 => regsDBG
  | 18 => regsUIO
  | 19 => regsBANK
  | 20 => regsQUAD
  | 21 => regsENR
  | 22 => regsENRG
  | 23 => regsBSN
  | 24 => regsDRC
  | 25 => regsDPH
  | _ => []

/-- A row names a page offset. -/
def RegRow.hits (r : RegRow) (o : Nat) : Bool :=
  r.off ≤ o && (o - r.off) % r.stride = 0 && (o - r.off) / r.stride < r.count

/-- The fields of the register at a BAR 0 address; none where the address holds no block-specific register (R16). DRC_1 to DRC_7 hold
DRC_SUB_STAT only (R356). -/
def regFields (a : Nat) : Option (List RegField) :=
  if 0x89000 ≤ a && a < 0x90000 && a % 0x1000 ≠ 0xA0 then none
  else ((regRows (pageType (a / 0x1000))).find? fun r => r.hits (a % 0x1000)).map RegRow.fields

/-- The reset value that the fields of a register give. -/
def fieldsReset : List RegField → Nat
  | [] => 0
  | f :: t => f.reset * 2 ^ f.lo + fieldsReset t

/-- A value without the bits of a register that no field of its table defines: they read 0 (R14). -/
def definedBits (a : Nat) (v : Reg) : Reg :=
  match regFields a with
  | some fs => fs.foldl (fun r f => setFld r f.lo (f.hi - f.lo + 1) (fld v f.lo (f.hi - f.lo + 1))) 0
  | none => 0

/-- Entry `4k` to `4k+3` of the identity basin map (R143). -/
def mapIdentity (k : Nat) : Nat := 4 * k + (4 * k + 1) * 0x100 + (4 * k + 2) * 0x10000 + (4 * k + 3) * 0x1000000

/-- The value of a register after reset. The basin map is the identity, which is what a device without a programmed generation
loads (R143); SYS_VER and `CLK_FAB_PLL.FREQ` are those of grade S3 (R491, log entry 2); CLK_EN of every page enables RUN and SIMMER (log entry 30). -/
def regReset (a : Nat) : Reg :=
  if a = 0x004 then 0x00012101
  else if 0x7200 ≤ a && a < 0x7220 then BitVec.ofNat 32 (mapIdentity ((a - 0x7200) / 4))
  else if a % 0x1000 = 0x20 && pageType (a / 0x1000) ≠ 0 then 3
  else match regFields a with
    | some fs => BitVec.ofNat 32 (fieldsReset fs)
    | none => 0

/-- An encoding that the table of a field does not call reserved; `w` is the register as the write has
changed it so far. -/
def Legal.ok (l : Legal) (x : Nat) (w : Reg) : Bool :=
  match l with
  | .any => true
  | .range lo hi => lo ≤ x && x ≤ hi
  | .among vs => vs.contains x
  | .even lo hi => lo ≤ x && x ≤ hi && x % 2 = 0
  | .upTo hi lo => 1 ≤ x && x ≤ fld w lo (hi - lo + 1)

end Sys2Proof.Machine
end

