-- ==== Sys2Proof/Types/Cfg.lean ====
section
/-! DEFINITION. The state of the configuration controller and of the boot store (10, 14). -/

namespace Sys2Proof.Machine

/-- The states of a stream engine (R313), encoded 0 to 5 as in ENG_STAT. -/
inductive EngSt where
  | idle | header | sections | verify | apply | discard
  deriving DecidableEq, Repr

/-- A stream engine (R296 to R300). Sources: 0 slot A, 1 slot B, 2 host feed, 3 Enrus leader, 4 IRP_DATA, 5 master basin. `started` is set
while ENG_1's source is open; `seen` holds the bytes of the stream so far, `pos` is the end of the sections taken, `begun` says that the
section at `pos` has begun to fill; `count` the sections and `regs` the REG records met, `recs` the REG records held, `planes` the physical basins and planes (16 the frame plane) that the
stream has written; `into` the physical basin of the section that has begun; `verdict` the first failure of R297; `left` the bytes after which a discarded stream is over; `held` bytes that wait
for the engine; `ended` that the source has no more. -/
structure Engine where
  st      : EngSt
  src     : Nat
  started : Bool
  seen    : List Byte
  pos     : Nat
  begun   : Bool
  count   : Nat
  key     : Option (BitVec 256)
  regs    : Nat
  recs    : List (Nat × Reg)
  planes  : List (Nat × Nat)
  into    : Nat
  verdict : Option Nat
  left    : Option Nat
  held    : List Byte
  ended   : Bool
  deriving DecidableEq, Repr

/-- An engine with nothing in it. -/
def Engine.zero : Engine := ⟨.idle, 0, false, [], 256, false, 0, none, 0, [], [], 0, none, none, [], false⟩

/-- A 4 KiB block of the boot store (R385): cipher text and tag. -/
structure StoreBlock where
  cipher : List Byte
  tag    : List Byte
  deriving DecidableEq, Repr

/-- The boot load (R303): the source being loaded, those still to be tried, whether it is the first, whether it waits for the clock
loops, the cause with which it has failed, and whether ENG_0 has turned to it. -/
structure BootRun where
  cur      : Nat
  rest     : List Nat
  first    : Bool
  lockWait : Bool
  failed   : Option Nat
  begun    : Bool
  deriving DecidableEq, Repr

/-- The configuration controller. Boot-store blocks are keyed `8192 * slot + block`, an unlisted block is erased; `counts` holds each
slot's write count, `valid` whether it holds a verified image, `storeBad` the damaged codewords by byte address (R463) with the syndrome
and whether each is uncorrectable; `applied` the records applied from the boot source in progress; `phases` the release phases
still to come; `dispatch` FLAGS.DISPATCH of the boot stream. -/
structure Cfc where
  eng0     : Engine
  eng1     : Engine
  blocks   : Tab StoreBlock
  counts   : Tab Nat
  valid    : Tab Bool
  storeBad : List (Nat × BitVec 8 × Bool)
  boot     : Option BootRun
  booted   : Bool
  applied  : List (Nat × Reg)
  phases   : List Nat
  dispatch : Bool
  deriving DecidableEq, Repr

/-- After reset: an empty boot store (log entry 2). -/
def Cfc.zero : Cfc :=
  { eng0 := .zero, eng1 := .zero, blocks := [], counts := [], valid := [], storeBad := [], boot := none, booted := false, applied := [],
    phases := [], dispatch := false }

end Sys2Proof.Machine
end

