-- ==== Sys2Proof/Types/Clk.lean ====
section
/-! DEFINITION. The state of the clock monitors (15) and of the housekeeping round (17) that no register holds. -/

namespace Sys2Proof.Machine

/-- The clock monitors. `refA`, `refB` are the counts of the last windows of REFA and REFB, newest first, at most 64 (R416); `xoHeld` is set
while a failed XO window waits for the ITO test (R417). PLLs are numbered 0 fabric, 1 base, 2 DRAM, 3 PCIe, 4 + quad: `tries` counts
the unsuccessful starts of each, `failed` lists those that have failed (R412). -/
structure Clk where
  refA   : List Nat
  refB   : List Nat
  xoHeld : Bool
  tries  : Tab Nat
  failed : List Nat
  deriving DecidableEq, Repr

/-- After reset. -/
def Clk.zero : Clk := ⟨[], [], false, [], []⟩

/-- The housekeeping round. `charges` and `events` say of each temperature channel and of each rail which of the last rounds, newest first,
charged it (R448, R454); `grads` holds the gradient of each vertical pair, keyed `12 * pair + site` (R450), measured at stack power
`power0` in µW; `power` is the stack power of the last round; `trip` is set while THERM_TRIP_N is asserted, `tripped` while the device is in
DORMANT after a thermal trip (R452, R498); `slots` says which of the last 31 dispatch slots were used, newest first (R451). -/
structure Thm where
  charges : Tab (List Bool)
  events  : Tab (List Bool)
  grads   : Tab Int
  power0  : Nat
  power   : Nat
  trip    : Bool
  tripped : Bool
  slots   : List Bool
  deriving DecidableEq, Repr

/-- After reset. -/
def Thm.zero : Thm := ⟨[], [], [], 0, 0, false, false, []⟩

end Sys2Proof.Machine
end

