-- ==== Sys2Proof/Types/Dram.lean ====
section
/-! DEFINITION. The state of the DRAM controller (12) and of inline memory encryption (13) that no register holds. -/

namespace Sys2Proof.Machine

/-- A mode-register command or another command that the controller gives to the DRAM (log entry 18). -/
inductive DramCmd where
  | mrw (rank : Nat) (dev : Option Nat) (mr op : Nat)
  | mrr (rank dev mr : Nat)
  | mpc (rank op : Nat)
  | refresh (rank : Nat) (sameBank : Bool)
  | zq (rank : Nat)
  | oscRead (rank : Nat)
  | mr4Read (rank : Nat)
  | powerDown (rank : Nat)
  | selfRefresh (enter : Bool)
  | reset (held : Bool)
  | bursts (write : Bool) (count : Nat) (place : BitVec 32)
  deriving DecidableEq, Repr

/-- What a request asks of the DRAM: a line, a masked write of one, or `len` bytes for a read of BAR 4 at an offset. -/
inductive DramAsk where
  | line
  | write (mask : Word) (data : BitVec 512)
  | bytes (off len : Nat)
  deriving DecidableEq, Repr

/-- A DRAM request that waits (R344, R355, R372): source, address, and the time at which it was accepted. -/
structure DramReq where
  src  : Nat
  dpa  : Nat
  ask  : DramAsk
  time : BitVec 64
  deriving DecidableEq, Repr

/-- The DRAM and its controller. `words` is keyed `2 * (word address / 8) + copy`, an entry being the 72-bit codeword and, above it, the
exclusive or of the stored seal with the seal that the address gives (R336, R337): an unlisted word is 0 with valid check bits and
seal (log entry 4). `retire` holds the retirement words by entry, `copying` the entries whose page is being copied (R355). `debt` is the
refreshes postponed (or, below 0, pulled in) by rank, keyed `2 * subchannel + rank`; `hot` the ranks that need the double rate. `warm`
is set in SR after a warm reset, `bursting` lists subchannels with compare bursts running, `resilver` the subchannels being copied,
`timeouts` the lines of which an outstanding read gets no data. `queue` holds the requests that wait, oldest first; `rows` the open row of
each bank (R344), keyed `32 * (2 * subchannel + rank) + 4 * bank group + bank`; `nextSb` the bank that REFsb takes next by rank; `osc` the
first and the last count of the DQS oscillator of each rank since training (R345). -/
structure Dram where
  words    : Tab (BitVec 80)
  retire   : Tab Word
  copying  : List Nat
  debt     : Tab Int
  hot      : List Nat
  asleep   : List Nat
  warm     : Bool
  bursting : List Nat
  resilver : List Nat
  timeouts : List Nat
  queue    : List DramReq
  rows     : Tab (Option Nat)
  nextSb   : Tab Nat
  osc      : Tab (Option (Nat × Nat))
  deriving DecidableEq, Repr

/-- After a power-on reset. -/
def Dram.zero : Dram :=
  { words := [], retire := [], copying := [], debt := [], hot := [], asleep := [], warm := false, bursting := [], resilver := [], timeouts := [],
    queue := [], rows := [], nextSb := [], osc := [] }

/-- The states of an IME region (R381), encoded 0 to 5. -/
inductive ImeSt where
  | off | init | active | rekey | exhausted | fault
  deriving DecidableEq, Repr

/-- A region's state on chip (R367, R368, R374, R377): epoch, pending rekey, keys, root counters, high-water major, rekey bound. -/
structure ImeRegion where
  st     : ImeSt
  epoch  : Nat
  pend   : Bool
  master : BitVec 256
  key    : BitVec 256
  next   : BitVec 256
  tree   : BitVec 256
  root   : Tab Nat
  high   : Nat
  bound  : Nat
  deriving DecidableEq, Repr

/-- A region that is OFF. -/
def ImeRegion.zero : ImeRegion := ⟨.off, 0, false, 0, 0, 0, 0, [], 0, 0⟩

/-- An entry of the metadata cache (R363): the block, whether it is dirty, and whether its row has become uncorrectable (R375). -/
structure CacheLine where
  block : BitVec 512
  dirty : Bool
  bad   : Bool
  deriving DecidableEq, Repr

/-- A page being re-encrypted (R373). -/
structure Reenc where
  region : Nat
  page   : Nat
  deriving DecidableEq, Repr

/-- Inline memory encryption. The cache is keyed `2 ^ 36 * (16 * region + level) + index` with level 0 for
counter blocks and 8 for lines of tags; `lost` lists the
UNVERIFIABLE blocks by the same key; `running` is the command that BUSY stands for, with its region, level and index. -/
structure Ime where
  regions : Tab ImeRegion
  cache   : Tab CacheLine
  lost    : List Nat
  reenc   : List Reenc
  running : Option (Nat × Nat × Nat × Nat)
  serving : Option Nat
  filling : List Nat
  deriving DecidableEq, Repr

/-- After reset. -/
def Ime.zero : Ime := { regions := [], cache := [], lost := [], reenc := [], running := none, serving := none, filling := [] }

end Sys2Proof.Machine
end

