-- ==== Sys2Proof/Types/Sluice.lean ====
section
/-! DEFINITION. The state of the Sluice dispatcher (07). -/

namespace Sys2Proof.Machine

/-- A window counter (R465): the events of the open window and whether each earlier window, newest first, was an event window. -/
structure Win where
  count : Nat
  hist  : List Bool
  deriving DecidableEq, Repr

/-- A window counter with every window empty. -/
def Win.zero : Win := ⟨0, []⟩

/-- Where a descriptor slot's item is (R181, R187, R197, R201). -/
inductive SlotPlace where
  | free | queued | matching | delayed | service | fusedInto
  deriving DecidableEq, Repr

/-- Who wrote the payload rows of an item (R187, R320): intake, the outlet, an Enrus port, or nobody (an item without payload). -/
inductive RowOwner where
  | intake | outlet | enrus | none
  deriving DecidableEq, Repr

/-- A descriptor slot (R186): generation, the stored descriptor, the operands of a fused item (handle, length), its reissue
counts, its place and the number of its current service. -/
structure Slot where
  gen      : BitVec 2
  place    : SlotPlace
  flow     : BitVec 16
  len      : Nat
  mtag     : BitVec 32
  bank     : BitVec 7
  row      : BitVec 12
  rows     : Nat
  meta0    : Word
  delay    : Nat
  owner    : RowOwner
  fused    : Bool
  operands : Nat
  ops      : List (BitVec 20 × Nat)
  reissue  : Bool
  errTries : Nat
  failTries : Nat
  service  : Option Nat
  deriving DecidableEq, Repr

/-- A free slot with the generation that the hardware fill gives it (R186). -/
def Slot.filled : Slot :=
  ⟨3, .free, 0, 0, 0, 0, 0, 0, 0, 0, .none, false, 0, [], false, 0, 0, none⟩

/-- The kept state of a flow (R179, R181, R196): quarantine, queue, what words 2 and 3 keep, and whether GROUP_EMPTY is raised. -/
structure FlowDyn where
  quarantined : Bool
  queue       : List Nat
  head        : Nat
  tail        : Nat
  svcDev      : BitVec 3
  svcBasin    : BitVec 5
  timeouts    : Nat
  errors      : Nat
  done        : Nat
  emptyRaised : Bool
  resetting   : Bool
  deriving DecidableEq, Repr

/-- A flow after the hardware fill. -/
def FlowDyn.zero : FlowDyn := ⟨false, [], 0, 0, 0, 0, 0, 0, 0, false, false⟩

/-- A service (R194, R205): which slot it serves, where, and its timeout; `draining` once its timeout ended it in an atomic flow;
`current` while it is the current service of its item. -/
structure Service where
  id       : Nat
  slot     : Nat
  flow     : BitVec 16
  dev      : BitVec 3
  basin    : BitVec 5
  plane    : BitVec 4
  port     : Nat
  deadline : Option Nat
  draining : Bool
  current  : Bool
  deriving DecidableEq, Repr

/-- A matching-store entry (R197). -/
structure MatchEntry where
  flow     : BitVec 16
  mtag     : BitVec 32
  slots    : List Nat
  deadline : Option Nat
  deriving DecidableEq, Repr

/-- An entry of delay list 0 or 1 (R201): the list, the expiry tick and the slot that becomes ready. -/
structure DelayEntry where
  high   : Bool
  expiry : Nat
  slot   : Nat
  deriving DecidableEq, Repr

/-- A damaged word of a Sluice structure (R175, R213): structure, entry and word as R463 numbers them, and whether it is
uncorrectable. -/
structure Damage where
  struct : Nat
  entry  : Nat
  word   : Nat
  syn    : BitVec 8
  ue     : Bool
  deriving DecidableEq, Repr

/-- Sluice. Keys: partner words by partner, flow words by flow, group words `8 * group + word`, ready lists by priority, slots by
number, exception ring words `2 * entry + word`, window counters and failover steps by logical basin, table windows 0 partner,
1 flow, 2 group, 3 exception, 4 rung, 5 retirement, 6 to 10 log rings. -/
structure Sluice where
  partners  : Tab Word
  pFault    : Tab Bool
  flow0     : Tab Word
  flow1     : Tab Word
  flows     : Tab FlowDyn
  groups    : Tab Word
  groupsSt  : Tab (Option Word)
  groupFix  : Tab Bool
  slots     : Tab Slot
  ready     : Tab (List Nat)
  services  : List Service
  nextSvc   : Nat
  matching  : List MatchEntry
  delays    : List DelayEntry
  refused   : Nat
  deficit   : Tab Int
  rrPtr     : Nat
  rotor     : Tab Nat
  tickLatch : BitVec 16
  windows   : Tab Win
  failover  : Tab Nat
  cause     : Tab (BitVec 16)
  bpPartner : Tab Bool
  bpDevice  : Bool
  bpTold    : Tab Bool
  ctlWant   : Tab (Option Bool)
  damage    : List Damage
  transit   : List (Nat × Nat × Delivery)
  winBuf    : Tab (Option (Nat × Reg))
  winLatch  : Tab (Option (Nat × Reg))
  excRing   : Tab Word
  deriving DecidableEq, Repr

/-- Sluice after the hardware fill: every table word is 0 but COMMIT_FENCE, which is 1 (R175). -/
def Sluice.zero : Sluice :=
  { partners := [], pFault := [], flow0 := [], flow1 := [], flows := [], groups := [], groupsSt := [], groupFix := [], slots := [],
    ready := [], services := [], nextSvc := 0, matching := [], delays := [], refused := 0, deficit := [], rrPtr := 0, rotor := [],
    tickLatch := 0, windows := [], failover := [], cause := [], bpPartner := [], bpDevice := false, bpTold := [], ctlWant := [],
    damage := [], transit := [], winBuf := [], winLatch := [], excRing := [] }

end Sys2Proof.Machine
end

