-- ==== Sys2Proof/Types/Enrus.lean ====
section
/-! DEFINITION. The state of the Enrus link (09). -/

namespace Sys2Proof.Machine

/-- The states of a port (R266), encoded 0 to 6 as in ENR_STAT. -/
inductive EnrState where
  | down | train | hello | keyx | confirm | up | fault
  deriving DecidableEq, Repr

/-- A message (R275): MSG, REF and the bytes after the message header, and how many flits carried it. -/
structure Msg where
  kind  : Nat
  ref   : BitVec 20
  body  : List Byte
  flits : Nat
  deriving DecidableEq, Repr

/-- The keys of a slot (R268): keys and salts of both directions. -/
structure KeySet where
  txKey  : BitVec 256
  rxKey  : BitVec 256
  txSalt : BitVec 64
  rxSalt : BitVec 64
  deriving DecidableEq, Repr

/-- A DATA flit in the retry buffer (R269, R271): sequence number, virtual channel, plaintext payload, times sent, the time base at its first
resend. -/
structure Kept where
  seq     : Nat
  vc      : Nat
  payload : List Byte
  sends   : Nat
  since   : Option (BitVec 64)
  deriving DecidableEq, Repr

/-- A key slot: its keys, the transmit counter, the counter of the last flit accepted (R263, R264). -/
structure KeySlot where
  keys   : Option KeySet
  txCtr  : Nat
  rxLast : Option Nat
  deriving DecidableEq, Repr

/-- An empty key slot. -/
def KeySlot.zero : KeySlot := ⟨none, 0, none⟩

/-- A virtual channel of a port (R272, R275): messages waiting to be sent, payloads of their flits not yet sent, transmit
credits, credits to return, the message being received, the complete messages not yet acted on, and how many of its flits have been
acknowledged or lost since reset (R173). -/
structure Channel where
  txq     : List (List Byte)
  credits : Nat
  owed    : Nat
  part    : Option Msg
  ready   : List Msg
  acks    : Nat
  deriving DecidableEq, Repr

/-- An empty channel. -/
def Channel.zero : Channel := ⟨[], 0, 0, none, [], 0⟩

/-- An Enrus port (R266 to R274). `hello`, `share` are own and peer's handshake payloads; `upd` the own and peer's KEY_UPDATE;
`eph` the ephemeral private key; `acked` the last DATA SEQ accepted in order; `narrow` the surviving-lane mask of a width change that has been sent
and not yet received. -/
structure EnrPort where
  st       : EnrState
  slow     : Bool
  lanes    : BitVec 4
  narrow   : Option (BitVec 4)
  peer     : BitVec 3
  peerPort : BitVec 3
  cause    : BitVec 16
  fails    : Nat
  hello    : List Byte
  peerHello : List Byte
  share    : List Byte
  peerShare : List Byte
  eph      : BitVec 384
  slot0    : KeySlot
  slot1    : KeySlot
  slot     : Bool
  epoch    : Nat
  upd      : Option (List Byte)
  peerUpd  : Option (List Byte)
  seqTx    : Nat
  seqRx    : Nat
  acked    : Option Nat
  nakSent  : Bool
  resend   : Bool
  kept     : List Kept
  vc0      : Channel
  vc1      : Channel
  vc2      : Channel
  vc3      : Channel
  waiting  : List Msg
  reqTime  : BitVec 64
  deriving DecidableEq, Repr

/-- A port after reset: DOWN. -/
def EnrPort.zero : EnrPort :=
  { st := .down, slow := false, lanes := 0xF, narrow := none, peer := 0, peerPort := 0, cause := 0, fails := 0, hello := [], peerHello := [],
    share := [], peerShare := [], eph := 0, slot0 := .zero, slot1 := .zero, slot := false, epoch := 0, upd := none,
    peerUpd := none, seqTx := 0, seqRx := 0, acked := none, nakSent := false, resend := false, kept := [], vc0 := .zero,
    vc1 := .zero, vc2 := .zero, vc3 := .zero, waiting := [], reqTime := 0 }

/-- The last credit report of a peer's basin (R276): credits, OFFLINE, VALID planes. -/
structure PeerBasin where
  credits : Nat
  offline : Bool
  valid   : BitVec 16
  deriving DecidableEq, Repr

/-- A remote item that this device serves for a peer (R277, R278): port, the home's SERVICE number, handle, physical basin. -/
structure Guest where
  port    : Nat
  service : Nat
  handle  : BitVec 20
  basin   : Nat
  deriving DecidableEq, Repr

/-- An output held at home for a remote service (R278): port, SERVICE, the outlet descriptor words 0 to 3, the payload and the row group
that it takes (R325). -/
structure HeldOut where
  port    : Nat
  service : Nat
  words   : BitVec 256
  bytes   : List Byte
  group   : Option Nat
  deriving DecidableEq, Repr

/-- A message that waits for the bank of its payload to wake (R327): its target device, for a DISPATCH its service, REF, the body before the
payload, the payload's place and length, and whether its row group returns once it is read. -/
structure Stalled where
  dev   : BitVec 3
  svc   : Option Nat
  ref   : BitVec 20
  front : List Byte
  bank  : Nat
  row   : Nat
  len   : Nat
  owned : Bool
  deriving DecidableEq, Repr

/-- A broadcast (R283, R311): the followers still reached and those wanted, whether it has started, its stream's source, identity and
length, the bytes known of it and how many are sent. -/
structure Bcast where
  reached : BitVec 8
  target  : BitVec 8
  started : Bool
  src     : Nat
  id      : Nat
  total   : Nat
  bytes   : List Byte
  sent    : Nat
  deriving DecidableEq, Repr

/-- The Enrus link. Keys: ports 0 to 6; peers' basins `32 * device + basin`. `noticeNo` numbers fault notices; `notices` are those
not yet acknowledged (port, basin, number); `lost` counts ENR_ARRIVE_LOST; `stalled` lists the messages that wait for a bank. -/
structure Enrus where
  ports    : Tab EnrPort
  peers    : Tab PeerBasin
  guests   : List Guest
  held     : List HeldOut
  noticeNo : Nat
  notices  : List (Nat × Nat × Nat)
  lost     : Nat
  bcast    : Option Bcast
  stalled  : List Stalled
  deriving DecidableEq, Repr

/-- After reset. -/
def Enrus.zero : Enrus :=
  { ports := [], peers := [], guests := [], held := [], noticeNo := 0, notices := [], lost := 0, bcast := none, stalled := [] }

end Sys2Proof.Machine
end

