-- ==== Sys2Proof/Types/Host.lean ====
section
/-! DEFINITION. The state of host access and of error logging (18, 19), and what the block sends out. -/

namespace Sys2Proof.Machine

/-- What the block sends to the outside (log entry 25). -/
inductive Out where
  | msix (vec : Nat)
  | readData (addr : Nat) (val : Reg)
  | readBytes (addr : Nat) (bytes : List Byte)
  | readPoisoned (addr : Nat)
  | completerAbort (addr : Nat)
  | unsupported (addr : Nat)
  | frame (lane : Nat) (bytes : List Byte)
  | raw (lane : Nat) (bytes : List Byte)
  | block (lane : Nat) (sync : BitVec 2) (payload : Word)
  | symbols (lane : Nat) (syms : List (BitVec 2))
  | retimed (lane : Nat) (bytes : List Byte)
  | message (port : Nat) (msg : List Byte)
  | hostWrite (addr : Nat) (bytes : List Byte)
  | mgmt (bytes : List Byte)
  | dramCommand (sub : Nat) (cmd : DramCmd)
  | lifeline (rec : BitVec 128)
  | trace (bits : BitVec 192)
  deriving DecidableEq, Repr

/-- What a user I/O cell holds beside its register (R309, R519, R521): the setting in force while a written one waits for the next UIO rising
edge, the steps of the delay line, the rise and fall data that the crossing has taken and those that the pin shows, and the level that
the pin had at the last UIO rising edge, none where it was high-impedance. -/
structure UioCell where
  force    : Option Reg
  dly      : Nat
  nextRise : Bool
  nextFall : Bool
  rise     : Bool
  fall     : Bool
  last     : Option Bool
  deriving DecidableEq, Repr

/-- A cell with nothing pending. -/
def UioCell.zero : UioCell := ⟨none, 0, false, false, false, false, none⟩

/-- The host interface (R486, R488, R494 to R497, R499, R503). Keys: staged and frozen registers by address. `holders` lists each held
resource with the page index of its holder; `updMask` and `updActive` are the requested update; `chIrq` two interrupt bits per DMA
channel; `rxHalt` says that channel 15 halted at a descriptor of ring B; `jtagIr` is the instruction
in force at the test access port (R516, log entry 15); `uioOwner` is the physical basin that each attached user I/O bank's owner was
resolved to (R517); `uioCells` the cells of the pins, `uioPhase` the FCLK cycles of each bank since its last UIO rising edge (R519). -/
structure HostIf where
  msixMask  : BitVec 64
  msixPend  : BitVec 64
  staged    : Tab (Option Reg)
  frozen    : Tab (Option Reg)
  updMask   : BitVec 16
  updActive : Bool
  holders   : List (BitVec 16 × Nat)
  chIrq     : BitVec 32
  d3        : Bool
  mgmtStat  : Byte
  rxHalt    : Bool
  jtagIr    : Byte
  uioOwner  : Tab (Option Nat)
  uioCells  : Tab UioCell
  uioPhase  : Tab Nat
  deriving DecidableEq, Repr

/-- After reset: every MSI-X vector masked (log entry 14), nothing staged, frozen or held. -/
def HostIf.zero : HostIf :=
  { msixMask := BitVec.allOnes 64, msixPend := 0, staged := [], frozen := [], updMask := 0, updActive := false, holders := [], chIrq := 0,
    d3 := false, mgmtStat := 0, rxHalt := false, jtagIr := 1, uioOwner := [], uioCells := [], uioPhase := [] }

/-- An entry of the address tracker (R467): the unit charged (KIND and granule), its window counter and the order of its latest
event. -/
structure Track where
  kind   : Nat
  unit   : Nat
  win    : Win
  last   : Nat
  active : Bool
  deriving DecidableEq, Repr

/-- The phases of an in-service LBIST run (R471). -/
inductive BistPhase where
  | none | drain | save | test | restore | d2
  deriving DecidableEq, Repr

/-- Error logging and self-test (18). Ring words are keyed `512 * die + 2 * entry + word`. `saved` holds the crystals and guarded
words that an LBIST run saves, `results` the pans that failed, `wasOff` the basin's offline bit before the run. -/
structure Ecc where
  rings   : Tab Word
  track   : List Track
  trackNo : Nat
  phase   : BistPhase
  bistL   : Nat
  bistP   : Nat
  patterns : Bool
  passed  : BitVec 16
  wasOff  : Bool
  rewrite : Option (Nat × Nat)
  deriving DecidableEq, Repr

/-- After reset. -/
def Ecc.zero : Ecc :=
  { rings := [], track := [], trackNo := 0, phase := .none, bistL := 0, bistP := 0, patterns := false, passed := 0, wasOff := false,
    rewrite := none }

end Sys2Proof.Machine
end

