-- ==== Sys2Proof/Types/Lanes.lean ====
section
/-! DEFINITION. The state of the backplane lanes, the intake and the outlet (08). -/

namespace Sys2Proof.Machine

/-- The lane machine's states (R229), encoded 0 to 5 as in LANE_STAT. -/
inductive LaneState where
  | disabled | seek | locked | diag | noRung | lifeline
  deriving DecidableEq, Repr

/-- A lane (R226, R228, R229, R230, R243, R252). `rung0`, `rung1` are the copy of the rung entered; `mkGood`, `mkBad` count markers;
`corr` and `unc` count the open BER window and `hist` says which earlier windows were events, newest first; `skewed` is set while a
group's skew is above its limit, `rxProt` while a working lane receives from its protect lane. -/
structure Lane where
  state    : LaneState
  rung     : Nat
  rung0    : Word
  rung1    : Word
  cdr      : Bool
  blk      : Bool
  fec      : Bool
  mkr      : Bool
  los      : Bool
  polInv   : Bool
  polDone  : Bool
  logical  : Nat
  mkGood   : Nat
  mkBad    : Nat
  degraded : Bool
  prbsLock : Bool
  walks    : Nat
  corr     : Nat
  unc      : Nat
  hist     : List Bool
  skewed   : Bool
  rxProt   : Bool
  deriving DecidableEq, Repr

/-- A lane after reset: DISABLED with loss of signal (LANE_STAT). -/
def Lane.zero : Lane := ⟨.disabled, 0, 0, 0, false, false, false, false, true, false, false, 0, 0, 0, false, false, 0, 0, 0, [], false, false⟩

/-- A segment of the intake (R237, R238): lane, sub-channel, partner, its row group, its form and marks, the bytes written. -/
structure Segment where
  lane    : Nat
  sub     : BitVec 6
  partner : Nat
  bank    : Nat
  row     : Nat
  records : Bool
  first   : Bool
  last    : Bool
  errCode : Bool
  errTrunc : Bool
  arrival : BitVec 32
  rung    : Nat
  bytes   : List Byte
  deriving DecidableEq, Repr

/-- A frame in progress on a lane (R236 to R238): its bytes not yet in a segment, its sub-channel and partner once known, whether it
holds a decode error, whether a plain segment holds a part of it, and whether its rest is dropped. -/
structure Incoming where
  lane    : Nat
  bytes   : List Byte
  arrival : BitVec 32
  dest    : Option (BitVec 6 × Nat)
  err     : Bool
  started : Bool
  dropped : Bool
  deriving DecidableEq, Repr

/-- An output waiting in an egress class (R241, R242). -/
structure Egress where
  partner : Nat
  meta0   : Word
  bytes   : List Byte
  deriving DecidableEq, Repr

/-- The PRBS generator and checker of a lane (R252): their registers, the bits that the checker has seen, and its run of error-free bits. -/
structure Prbs where
  gen  : BitVec 31
  chk  : BitVec 31
  seen : Nat
  run  : Nat
  deriving DecidableEq, Repr

/-- A generator and checker at their start. -/
def Prbs.zero : Prbs := ⟨BitVec.allOnes 31, 0, 0, 0⟩

/-- Lanes, intake and outlet. Keys: lanes and LANE numbers 0..143; rung words `32 * quad + 2 * rung + word`; egress classes
`8 * lane + class`. `incoming` lists the frames in progress, `groups` the row groups in use as `1024 * bank + row / 4`, `dead` the lanes
that failed self-calibration, which stay DISABLED (R432). `txNext` is the index of a group's next block since its last marker (R223, R232), by
the lowest lane; `prbs` the PRBS units by lane; `drops` the cause of the last intake drop of a lane (`2 * lane`) and of its last egress drop
(`2 * lane + 1`, R258), which no register shows. -/
structure Lanes where
  lanes     : Tab Lane
  rungs     : Tab Word
  egress    : Tab (List Egress)
  openSegs  : List Segment
  held      : List Segment
  incoming  : List Incoming
  groups    : List Nat
  lifelines : List Nat
  dead      : List Nat
  lifeIn    : List (BitVec 128)
  lifeOut   : List (BitVec 128)
  txNext    : Tab Nat
  prbs      : Tab Prbs
  drops     : Tab (BitVec 16)
  deriving DecidableEq, Repr

/-- After the hardware fill: every rung 0, every lane DISABLED (R224, R229). -/
def Lanes.zero : Lanes :=
  { lanes := [], rungs := [], egress := [], openSegs := [], held := [], incoming := [], groups := [], lifelines := [], dead := [], lifeIn := [],
    lifeOut := [], txNext := [], prbs := [], drops := [] }

end Sys2Proof.Machine
end

