-- ==== Sys2Proof/Types/MemDie.lean ====
section
/-! DEFINITION. The state of the memory die (11). -/

namespace Sys2Proof.Machine

/-- A bank of the memory die (R320, R323, R325, R326, R330): owner type and basin, DRAIN, the handover in progress (type, basin,
CLEAR), retention, a wake in progress, a repair clear in progress, and the spares assigned (spare number, address). -/
structure Bank where
  typ      : Nat
  basin    : Nat
  drain    : Bool
  target   : Option (Nat × Nat × Bool)
  ret      : Bool
  waking   : Bool
  clearing : Bool
  rows     : List (Nat × Nat)
  cols     : List (Nat × Nat)
  deriving DecidableEq, Repr

/-- A bank as R322 gives it where nothing is retired and IME is off: SLUICE owns 112 to 119, nobody the others. -/
def Bank.initial (n : Nat) : Bank :=
  { typ := if 112 ≤ n ∧ n < 120 then 4 else 0, basin := 0, drain := false, target := none, ret := false, waking := false,
    clearing := false, rows := [], cols := [] }

/-- A host request that waits for a bank to wake (R327, R328): a read of `len` bytes at a window offset, or the bytes of a masked write. -/
inductive HostReq where
  | read (off len : Nat)
  | write (off : Nat) (bytes : List (Option Byte))
  deriving DecidableEq, Repr

/-- The memory die. Codewords are keyed `128 * (4096 * bank + row) + codeword` (R316); `mbist` is the bank under test, `saved` the
bank that holds saved basin state of an LBIST run, `host` the host requests that wait for a bank, oldest first. -/
structure MemDie where
  rows  : Tab Code
  banks : Tab Bank
  mbist : Option Nat
  saved : Option Nat
  host  : List HostReq
  deriving DecidableEq, Repr

/-- After the hardware fill. -/
def MemDie.zero : MemDie := { rows := [], banks := [], mbist := none, saved := none, host := [] }

end Sys2Proof.Machine
end

