-- ==== Sys2Proof/Types/Modes.lean ====
section
/-! DEFINITION. The state of the mode machine and of the supplies (16) that no register holds. -/

namespace Sys2Proof.Machine

/-- A mode transition in progress (R429, R434, R435, R438, R440). -/
inductive ModeStep where
  | none | simmerDrain | simmerWake | lateStages | warmReset
  deriving DecidableEq, Repr

/-- The mode machine. `emberAt` is the bring-up step at which EMBER was entered, 0 where it was not entered during bring-up; `retried`
lists the dies whose ramp has failed once; the straps are those sampled at power good (R514); `marked` lists the physical basins that
failed the boot LBIST with the pans that passed (R433); `warmBoot` is set while bring-up
follows a warm reset, `resetHeld` while RESET_N is low; `laneWake` is LANE_WAKE at the last entry into SIMMER (R435); `wakeFault` is set
in DORMANT after WAKE_CLOCK_FAULT (R498). -/
structure Modes where
  step     : ModeStep
  emberAt  : Nat
  retried  : List Nat
  bootSel  : BitVec 2
  devId    : BitVec 3
  testMode : Bool
  marked   : List (Nat × BitVec 16)
  warmBoot : Bool
  throttle : Nat
  dieReset : Option Nat
  power    : Bool
  resetHeld : Bool
  laneWake : Bool
  wakeFault : Bool
  deriving DecidableEq, Repr

/-- Before power good. -/
def Modes.zero : Modes :=
  { step := .none, emberAt := 0, retried := [], bootSel := 0, devId := 0, testMode := false, marked := [], warmBoot := false, throttle := 0,
    dieReset := none, power := false, resetHeld := false, laneWake := false, wakeFault := false }

end Sys2Proof.Machine
end

