-- ==== Sys2Proof/Types/Sec.lean ====
section
/-! DEFINITION. The state of the root of trust (14) that no register holds. -/

namespace Sys2Proof.Machine

/-- An OTP command that programs words (R392): the words still to be written with their data, the version count in force until a VERSION
command ends, the hidden key that a PROVISION programs, and whether SEALED cuts it off. -/
structure OtpJob where
  words   : List (Nat × Word)
  version : Option Nat
  key     : Option Nat
  cut     : Bool
  deriving DecidableEq, Repr

/-- The root of trust. OTP words are keyed by number; an unlisted one is blank (R388). `measured` holds plane measurements keyed
`16 * logical basin + plane`; `report` is the window of R398, `snapshot` the report that ATTEST will write; `sealPend` the seal-log entry
not yet written; `alarmCts` counts the alarms of the closed windows, newest first; `seeded` says that the keys and the DRBG stand. -/
structure Sec where
  otp       : Tab Code
  challenge : Bool
  drbgNo    : Nat
  entFails  : Nat
  drbgFail  : Bool
  alarms    : Win
  alarmCts  : List Nat
  job       : Option OtpJob
  snapshot  : Option (List Byte)
  report    : List Byte
  measured  : Tab (BitVec 384)
  sealPend  : Option Word
  logFull   : Bool
  seeded    : Bool
  otpHash   : BitVec 384
  deriving DecidableEq, Repr

/-- Before bring-up: a blank OTP (log entry 2) and no keys. -/
def Sec.zero : Sec :=
  { otp := [], challenge := false, drbgNo := 0, entFails := 0, drbgFail := false, alarms := .zero, alarmCts := [], job := none, snapshot := none,
    report := [], measured := [], sealPend := none, logFull := false, seeded := false, otpHash := 0 }

end Sys2Proof.Machine
end

