-- ==== Sys2Proof/Machine/State.lean ====
section
/-! DEFINITION. The state of the block, its faults and refusals, and the state after reset. -/

namespace Sys2Proof.Machine

/-- The state of the block as plain data. -/
structure State where
  /-- Commands that wait, first in first out. -/
  pending : List Instr
  /-- The model's own counter of free values (log entry 12). -/
  free    : Nat
  /-- What the block has sent, newest first (log entry 25). -/
  outbox  : List Out
  /-- The registers of BAR 0 by address; an unlisted register holds its reset value. -/
  regs    : Tab Reg
  /-- The fabric (02 to 06). -/
  fab     : Fabric
  /-- Sluice (07). -/
  slu     : Sluice
  /-- Lanes, intake and outlet (08). -/
  lan     : Lanes
  /-- The Enrus link (09). -/
  enr     : Enrus
  /-- The configuration controller and the boot store (10). -/
  cfc     : Cfc
  /-- The memory die (11). -/
  mem     : MemDie
  /-- The DRAM and its controller (12). -/
  drm     : Dram
  /-- Inline memory encryption (13). -/
  ime     : Ime
  /-- The root of trust (14). -/
  sec     : Sec
  /-- Clock sources and monitors (15). -/
  clk     : Clk
  /-- The mode machine (16). -/
  mod     : Modes
  /-- The housekeeping round (17). -/
  thm     : Thm
  /-- Error logging and self-test (18). -/
  ecc     : Ecc
  /-- Host access (19). -/
  hst     : HostIf
  /-- The time base in units of 1/16 ns (R281). -/
  time    : BitVec 64
  deriving DecidableEq, Repr

/-- Why a step stops. -/
inductive Fault where
  /-- Raised by the commands that can break a clock ratio: CLK_FAB_PLL_WRITE, CLK_BASE_PLL_WRITE, UIO_CLK_WRITE, INIT, and REGISTER_WRITE,
  WRITE32, DESCRIPTOR_COMPLETE and SIGNATURE_VERIFIED where they write such a register. The spec calls the outcome undefined (R4, R6, R415).
  Safe: the model stops where the device may do anything. -/
  | undefinedClock
  deriving DecidableEq, Repr

/-- Why a step has no meaning. -/
inductive Refusal where
  /-- Raised by the arms of Dispatch whose command has no meaning yet. Safe: nothing is claimed of it. -/
  | notModelled (mnemonic : String)
  deriving DecidableEq, Repr

/-- The fabric after the hardware fill, under every hold of R304. -/
def Fabric.zero : Fabric :=
  { crystals := [], planes := [], frames := [], banks := [], xs := [], ys := [], flags := [], lanes := [], tagRegs := [],
    laneSets := [], spines := [], planeSt := [], rows := [], fences := [], basins := [], seq := 0, hold := ⟨true, true, true⟩ }

/-- The block right after reset. -/
def State.reset : State :=
  { pending := [], free := 0, outbox := [], regs := [], fab := .zero, slu := .zero, lan := .zero, enr := .zero, cfc := .zero, mem := .zero, drm := .zero, ime := .zero,
    sec := .zero, clk := .zero, mod := .zero, thm := .zero, ecc := .zero, hst := .zero,
    time := 0 }

end Sys2Proof.Machine
end

