-- ==== Sys2Proof/Machine/Tab.lean ====
section
/-! DEFINITION. Reading and writing sparse tables. Every store of the model goes through `tget` and `tput`, so that
equal contents are equal data. -/

namespace Sys2Proof.Machine

/-- The entry of key `k`, or the default `d` where none is listed. -/
def tget {α : Type} (d : α) (k : Nat) : Tab α → α
  | [] => d
  | (j, w) :: t => if k = j then w else tget d k t

/-- The table without key `k`. -/
def terase {α : Type} (k : Nat) : Tab α → Tab α
  | [] => []
  | (j, w) :: t => if k = j then terase k t else (j, w) :: terase k t

/-- The table with `(k, v)` put before the first larger key. -/
def tins {α : Type} (k : Nat) (v : α) : Tab α → Tab α
  | [] => [(k, v)]
  | (j, w) :: t => if k < j then (k, v) :: (j, w) :: t else (j, w) :: tins k v t

/-- Write `v` at key `k`; writing the default removes the entry. -/
def tput {α : Type} [DecidableEq α] (d : α) (k : Nat) (v : α) (t : Tab α) : Tab α :=
  if v = d then terase k t else tins k v (terase k t)

/-- Every entry whose key lies in `lo ≤ key < hi` removed. -/
def tclear {α : Type} (lo hi : Nat) (t : Tab α) : Tab α :=
  t.filter fun p => p.1 < lo || hi ≤ p.1

/-- Strictly rising keys. -/
def tsorted {α : Type} : Tab α → Bool
  | [] => true
  | (j, _) :: t => t.all (fun p => decide (j < p.1)) && tsorted t

/-- The canonical form of a table with default `d`: rising keys and no entry equal to the default. -/
def twf {α : Type} [DecidableEq α] (d : α) (t : Tab α) : Bool :=
  tsorted t && t.all fun p => decide (p.2 ≠ d)

end Sys2Proof.Machine
end

