-- ==== Sys2Proof/Machine/Ops.lean ====
section
/-! DEFINITION. The shared operations: registers, the common page header, interrupts, the non-maskable alert, free values,
window counters and the error log. -/

namespace Sys2Proof.Machine

/-- The value that register address `a` holds. -/
def rd (s : State) (a : Nat) : Reg := tget (regReset a) a s.regs

/-- The state with register address `a` holding `v`. -/
def wr (a : Nat) (v : Reg) (s : State) : State := { s with regs := tput (regReset a) a v s.regs }

/-- Field `[lo+n-1:lo]` of the register at `a`. -/
def rdF (s : State) (a lo n : Nat) : Nat := fld (rd s a) lo n

/-- One bit of the register at `a`. -/
def rdB (s : State) (a i : Nat) : Bool := bit (rd s a) i

/-- Write field `[lo+n-1:lo]` of the register at `a`. -/
def wrF (a lo n x : Nat) (s : State) : State := wr a (setFld (rd s a) lo n x) s

/-- Add to a counter field, saturating at its largest value. -/
def incF (a lo n k : Nat) (s : State) : State := wrF a lo n (satAdd (rdF s a lo n) k (2 ^ n - 1)) s

/-- The next free value of `w` bits (log entry 12). -/
def takeFree (w : Nat) (s : State) : BitVec w × State :=
  (BitVec.ofNat w (Config.freeValue s.free), { s with free := s.free + 1 })

/-- Something leaves the block. -/
def send (o : Out) (s : State) : State := { s with outbox := o :: s.outbox }

/-- The register addresses of a page's header (R487). -/
def statA (p : Nat) : Nat := 0x1000 * p + 0x008
/-- CTRL. -/
def ctrlA (p : Nat) : Nat := 0x1000 * p + 0x00C
/-- STAGE. -/
def stageA (p : Nat) : Nat := 0x1000 * p + 0x010
/-- IRQ_STAT. -/
def irqA (p : Nat) : Nat := 0x1000 * p + 0x014
/-- IRQ_EN. -/
def irqEnA (p : Nat) : Nat := 0x1000 * p + 0x018
/-- ERR_CAUSE. -/
def errA (p : Nat) : Nat := 0x1000 * p + 0x01C
/-- CLK_EN. -/
def clkEnA (p : Nat) : Nat := 0x1000 * p + 0x020

/-- The page indices that the model names. -/
def pgSYS : Nat := 0x0
/-- MODE. -/
def pgMODE : Nat := 0x1
/-- CLK. -/
def pgCLK : Nat := 0x2
/-- PWR. -/
def pgPWR : Nat := 0x3
/-- THM. -/
def pgTHM : Nat := 0x4
/-- OTP. -/
def pgOTP : Nat := 0x5
/-- SEC. -/
def pgSEC : Nat := 0x6
/-- CFG. -/
def pgCFG : Nat := 0x7
/-- IRP. -/
def pgIRP : Nat := 0x8
/-- BIST. -/
def pgBIST : Nat := 0x9
/-- ECC. -/
def pgECC : Nat := 0xA
/-- SLU. -/
def pgSLU : Nat := 0xB
/-- SLU_X. -/
def pgSLUX : Nat := 0xC
/-- IME. -/
def pgIME : Nat := 0xD
/-- HIF. -/
def pgHIF : Nat := 0xE
/-- HDMA. -/
def pgHDMA : Nat := 0xF
/-- DBG. -/
def pgDBG : Nat := 0x10
/-- UIO bank `k`. -/
def pgUIO (k : Nat) : Nat := 0x11 + k
/-- BANK. -/
def pgBANK : Nat := 0x18
/-- Quad `q`. -/
def pgQUAD (q : Nat) : Nat := 0x20 + q
/-- Enrus port `p`. -/
def pgENR (p : Nat) : Nat := 0x50 + p
/-- ENR_G. -/
def pgENRG : Nat := 0x57
/-- Physical basin `n`. -/
def pgBSN (n : Nat) : Nat := 0x60 + n
/-- Subchannel `k` of the DRAM controller. -/
def pgDRC (k : Nat) : Nat := 0x88 + k
/-- Subchannel `k` of the DRAM PHY. -/
def pgDPH (k : Nat) : Nat := 0x90 + k

/-- A register of page `p` at offset `o`. -/
def at' (p o : Nat) : Nat := 0x1000 * p + o

/-- The summary of a page (R486): (IRQ_STAT AND IRQ_EN)[15:0] is not 0. -/
def pageSummary (s : State) (p : Nat) : Bool := rdF s (irqA p) 0 16 &&& rdF s (irqEnA p) 0 16 ≠ 0

/-- The MSI-X vector of a page (R486); the host DMA channels have one each (log entry 26). -/
def pageVector (p : Nat) : Nat :=
  if p = pgSYS then 1
  else if p = pgMODE || p = pgPWR then 2
  else if p = pgCLK then 3
  else if p = pgTHM then 4
  else if p = pgOTP || p = pgSEC then 5
  else if p = pgCFG || p = pgIRP then 6
  else if p = pgBIST || p = pgECC then 7
  else if p = pgSLU || p = pgSLUX then 8
  else if p = pgIME then 9
  else if p = pgBANK then 10
  else if 0x88 ≤ p && p < 0x98 then 11
  else if 0x50 ≤ p && p < 0x58 then 12
  else if 0x10 ≤ p && p < 0x15 then 13
  else if p = pgHIF then 14
  else if 0x20 ≤ p && p < 0x44 then 32 + (p - 0x20) / 4
  else if 0x60 ≤ p && p < 0x82 then 41 + (p - 0x60) / 2
  else 63

/-- The pages of a vector (R486). -/
def vectorPages (v : Nat) : List Nat :=
  match v with
  | 1 => [pgSYS]
  | 2 => [pgMODE, pgPWR]
  | 3 => [pgCLK]
  | 4 => [pgTHM]
  | 5 => [pgOTP, pgSEC]
  | 6 => [pgCFG, pgIRP]
  | 7 => [pgBIST, pgECC]
  | 8 => [pgSLU, pgSLUX]
  | 9 => [pgIME]
  | 10 => [pgBANK]
  | 11 => (List.range 16).map (0x88 + ·)
  | 12 => (List.range 8).map (0x50 + ·)
  | 13 => (List.range 5).map (0x10 + ·)
  | 14 => [pgHIF]
  | _ =>
    if 32 ≤ v && v < 41 then (List.range 4).map fun k => 0x20 + 4 * (v - 32) + k
    else if 41 ≤ v && v < 58 then (List.range 2).map fun k => 0x60 + 2 * (v - 41) + k
    else []

/-- The summary of a vector (R486); channel `c`'s vector 16 + `c` sums its own two bits under the HDMA page's enables. -/
def vectorSummary (s : State) (v : Nat) : Bool :=
  if 16 ≤ v && v < 32 then fld s.hst.chIrq (2 * (v - 16)) 2 &&& rdF s (irqEnA pgHDMA) 0 2 ≠ 0
  else (vectorPages v).any (pageSummary s)

/-- Send a vector's message, or hold it pending while it is masked (R486). -/
def sendVector (v : Nat) (s : State) : State :=
  if bit s.hst.msixMask v then { s with hst := { s.hst with msixPend := s.hst.msixPend ||| BitVec.ofNat 64 (2 ^ v) } }
  else send (.msix v) s

/-- After a change of `s` into `t`, the vector's message where its summary rises (R486). -/
def risen (v : Nat) (s t : State) : State :=
  if !vectorSummary s v && vectorSummary t v then sendVector v t else t

/-- Set an IRQ_STAT bit of a page; its vector sends its message where its summary rises (R486, R487). -/
def setIrq (p b : Nat) (s : State) : State := risen (pageVector p) s (wrF (irqA p) b 1 1 s)

/-- Set an interrupt bit of a host DMA channel (R486, R499, R502). -/
def setChIrq (c b : Nat) (s : State) : State :=
  risen (16 + c) s
    { wrF (irqA pgHDMA) b 1 1 s with hst := { s.hst with chIrq := s.hst.chIrq ||| BitVec.ofNat 32 (2 ^ (2 * c + b)) } }

/-- A refusal or fault of a block: FAULT and ERR_CAUSE (R487). -/
def setFault (p cause : Nat) (s : State) : State := wr (errA p) (BitVec.ofNat 32 cause) (wrF (statA p) 2 1 1 s)

/-- RESERVED_VALUE (R15). -/
def reservedValue : Nat := 0x0F01

/-- BUSY of a page. -/
def busy (s : State) (p : Nat) : Bool := rdB s (statA p) 0

/-- Replace the host-interface record. -/
def withHst (u : HostIf → HostIf) (s : State) : State := { s with hst := u s.hst }
/-- Set or clear BUSY of a page (R492). -/
def setBusy (p : Nat) (b : Bool) (s : State) : State := wrF (statA p) 0 1 (b2n b) s

/-- A posted write arriving while BUSY is 1 is dropped: DROPPED and WRITE_DROPPED (R492). -/
def dropWrite (p : Nat) (s : State) : State := wr (errA p) 0x0F02 (wrF (statA p) 4 1 1 s)

/-- The modes of MODE_STAT (R442). -/
def modeOf (s : State) : Nat := rdF s 0x1040 0 3
/-- DORMANT. -/
def mDORMANT : Nat := 0
/-- BRINGUP. -/
def mBRINGUP : Nat := 1
/-- SERVICE. -/
def mSERVICE : Nat := 2
/-- SIMMER. -/
def mSIMMER : Nat := 3
/-- EMBER. -/
def mEMBER : Nat := 4
/-- SEALED. -/
def mSEALED : Nat := 5

/-- The clock enable of a page in the present mode (R421): SIMMER_EN in SIMMER, else RUN_EN. -/
def clkEnabled (s : State) (p : Nat) : Bool := rdB s (clkEnA p) (if modeOf s = mSIMMER then 1 else 0)

/-- The block's clock is stopped, or a close has been requested, so that a request ends with BLOCK_GATED (R423, R424; log entry 37). -/
def gated (s : State) (p : Nat) : Bool := rdB s (statA p) 6 || !clkEnabled s p

/-- Intake and dispatch are stopped by the mode or by a transition in progress (R428, R434, R437, R440). -/
def workHeld (s : State) : Bool :=
  !(modeOf s = mSERVICE || modeOf s = mBRINGUP) || s.mod.step ≠ .none

/-- Writes reach page `p` (R403, R504): none in DORMANT, and in SEALED those of the SEC page and the OTP commands, which R392 refuses
(log entry 83). -/
def reaches (s : State) (p : Nat) : Bool := modeOf s ≠ mDORMANT && (modeOf s ≠ mSEALED || p = pgSEC || p = pgOTP)

/-- A write that the mode lets reach page `p`. -/
def reaching (p : Nat) (f : State → State) (s : State) : State := if reaches s p then f s else s

/-- A write to a block-specific register of page `p`: dropped with BLOCK_GATED while the block is gated (R424). -/
def guarded (p : Nat) (f : State → State) : State → State := reaching p fun s => if gated s p then setFault p 0x010A s else f s

/-- A write to an RWP register of page `p`: gated as every other, and dropped while BUSY is 1 (R492). -/
def posted (p : Nat) (f : State → State) (s : State) : State := guarded p (fun t => if busy t p then dropWrite p t else f t) s

/-- One field of a register write: the new value, and whether a reserved encoding was met (R13, R15). A K field is tested against the M
that the write leaves. What a posted (RWP) field reads as is the model's choice (log entry 300): it keeps its reset value. -/
def writeField (v : Reg) (a : Reg × Bool) (f : RegField) : Reg × Bool :=
  let n := f.hi - f.lo + 1
  let x := fld v f.lo n
  match f.kind with
  | .rw => if f.legal.ok x a.1 then (setFld a.1 f.lo n x, a.2) else (a.1, true)
  | .w1c => (setFld a.1 f.lo n (fld a.1 f.lo n &&& (2 ^ n - 1 - x)), a.2)
  | _ => a

/-- The value that a write leaves in the RW and W1C fields of the register at `a`, and whether a reserved encoding was met. -/
def writtenValue (s : State) (a : Nat) (v : Reg) : Reg × Bool :=
  match regFields a with
  | some fs => fs.foldl (writeField v) (rd s a, false)
  | none => (rd s a, false)

/-- Note a reserved encoding in a write of page `p` (R15). -/
def noteReserved (p : Nat) (bad : Bool) (s : State) : State := if bad then setFault p reservedValue s else s

/-- A write of a register whose fields are only RW and W1C (R13, R15). -/
def writeReg (a : Nat) (v : Reg) (s : State) : State :=
  noteReserved (a / 0x1000) (writtenValue s a v).2 (wr a (writtenValue s a v).1 s)

/-- The non-maskable alert (R420, R498): SYS_NMA records the first cause, and vector 0 is sent whatever the masks. -/
def nmAlert (cause : Nat) (s : State) : State :=
  let t := if rdB s 0x054 31 then wrF 0x054 30 1 1 s else wr 0x054 (BitVec.ofNat 32 (0x80000000 + cause % 65536)) s
  send (.msix 0) t

/-- A first-event record whose bit 31 is VALID and bit 30 MORE: the first event is written, a later one sets MORE. -/
def recordFirst (a : Nat) (v : Nat) (s : State) : State :=
  if rdB s a 31 then wrF a 30 1 1 s else wr a (BitVec.ofNat 32 (0x80000000 + v % 0x40000000)) s

/-- Whether the open window of a counter is an event window (R465). -/
def Win.eventful (w : Win) (e : Nat) : Bool := e ≤ w.count

/-- A window counter is active: at least K of the open window and the M-1 before it are event windows (R465). -/
def Win.activeNow (w : Win) (e k m : Nat) : Bool :=
  k ≤ ((w.eventful e :: w.hist.take (m - 1)).filter (fun b => b)).length

/-- An event in the open window. -/
def Win.event (w : Win) : Win := { w with count := w.count + 1 }

/-- The open window closes (R465). -/
def Win.close (w : Win) (e : Nat) : Win := { count := 0, hist := (w.eventful e :: w.hist).take 15 }

/-- A trace record of source `src` (R523): sent while DBG_TRACE.EN is set for that source; whether it finds the port busy, and is
then dropped and counted, is a free value (log entry 29). -/
def traceOut (src : Nat) (v : BitVec 192) (s : State) : State :=
  if rdB s (at' pgDBG 0x40) 31 && rdF s (at' pgDBG 0x40) 0 2 = src then
    let (b, s) := takeFree 1 s
    if b = 1 then incF (at' pgDBG 0x40) 8 8 1 s else send (.trace v) s
  else s

/-- The die of the ring that takes a log entry (R463). -/
def logDie (kind addr : Nat) : Nat :=
  match kind with
  | 0 => 2
  | 1 => 2
  | 2 => if (addr >>> 10) % 512 < 256 then 1 else 3
  | 3 => 4
  | _ => 0

/-- The unit that the address tracker charges for an address (R467). -/
def trackUnit (kind addr : Nat) : Nat :=
  match kind with
  | 0 => addr / 64
  | 1 => addr / 1024
  | 2 => addr / 1024
  | 3 => addr / 128
  | 4 => addr % 2 ^ 32 + (addr >>> 36) % 16 * 2 ^ 32
  | 5 => addr / 512
  | 7 => addr / 4096
  | _ => addr

/-- Charge a read to its address (R467): the tracker after it, and whether an entry became active at this event. -/
def chargeTrack (kind unit : Nat) (s : State) : State × Bool :=
  let e := rdF s 0xA044 0 8
  let k := rdF s 0xA044 8 4
  let m := rdF s 0xA044 12 4
  let no := s.ecc.trackNo
  let upd (t : Track) : Track :=
    let w := t.win.event
    { t with win := w, last := no, active := w.activeNow e k m }
  let put (l : List Track) (b : Bool) : State × Bool := ({ s with ecc := { s.ecc with track := l, trackNo := no + 1 } }, b)
  let isHit (t : Track) : Bool := t.kind = kind && t.unit = unit
  match s.ecc.track.find? isHit with
  | some t => put (s.ecc.track.map fun u => if isHit u then upd u else u) (!t.active && (upd t).active)
  | none =>
    let n := upd ⟨kind, unit, Win.zero, no, false⟩
    if s.ecc.track.length < 64 then put (s.ecc.track ++ [n]) n.active
    else
      match (s.ecc.track.filter fun t => !t.active).foldl
          (fun (o : Option Track) t => match o with
            | none => some t
            | some u => if t.last < u.last then some t else some u) none with
      | none => (s, false)
      | some old => put (s.ecc.track.filter (fun t => decide (t ≠ old)) ++ [n]) n.active

/-- Write an entry into the log ring of a die, or count it as lost while the ring is full (R463). -/
def ringEntry (d : Nat) (w0 w1 : Word) (s : State) : State :=
  let h := 0xA100 + 16 * d
  if rdB s h 8 then setIrq pgECC 2 (incF (h + 8) 0 32 1 s)
  else
    let i := rdF s h 0 8
    let i' := (i + 1) % 256
    let rs := tput 0 (512 * d + 2 * i + 1) w1 (tput 0 (512 * d + 2 * i) w0 s.ecc.rings)
    let s := traceOut 2 (BitVec.ofNat 192 (w0.toNat + w1.toNat * 2 ^ 64)) { s with ecc := { s.ecc with rings := rs } }
    wr h (BitVec.ofNat 32 (i' + 256 * b2n (i' = rdF s (h + 4) 0 8))) s

/-- A log entry (R463, R464, R467): tracker, ring, summary counters and the copy of the first uncorrectable entry. -/
def logErr (kind addr syn cause : Nat) (ue sweep : Bool) (s : State) : State :=
  let (s, rep) := chargeTrack kind (trackUnit kind addr) s
  let w0 := BitVec.ofNat 64 (cause % 2 ^ 16 + syn % 256 * 2 ^ 16 + addr % 2 ^ 40 * 2 ^ 24)
  let w1 := BitVec.ofNat 64
    (fld s.time 4 48 + kind % 16 * 2 ^ 52 + b2n sweep * 2 ^ 61 + b2n rep * 2 ^ 62 + b2n ue * 2 ^ 63)
  let s := ringEntry (logDie kind addr) w0 w1 s
  let s := incF (0xA200 + 4 * kind) (if ue then 16 else 0) 16 1 s
  let s := if ue && !rdB s 0xA06C 31 then
      wr 0xA060 (BitVec.ofNat 32 (fld w0 0 32)) (wr 0xA064 (BitVec.ofNat 32 (fld w0 32 32))
        (wr 0xA068 (BitVec.ofNat 32 (fld w1 0 32)) (wr 0xA06C (BitVec.ofNat 32 (fld w1 32 32)) s)))
    else s
  let s := if ue then setIrq pgECC 0 s else s
  if rep then setIrq pgECC 1 s else s

/-- Log an event that is no read of a store in the ring of D0: its ADDR, SYNDROME and KIND are free values. -/
def logNote (cause : Nat) (s : State) : State :=
  let a := takeFree 40 s
  let y := takeFree 8 a.2
  let k := takeFree 4 y.2
  ringEntry 0 (BitVec.ofNat 64 (cause % 2 ^ 16 + y.1.toNat * 2 ^ 16 + a.1.toNat * 2 ^ 24))
    (BitVec.ofNat 64 (fld k.2.time 4 48 + k.1.toNat * 2 ^ 52)) k.2

/-- Log an event that is no read of a memory: an entry of a KIND at an address, which no counter takes. -/
def logEvent (kind addr cause : Nat) (s : State) : State :=
  ringEntry (logDie kind addr) (BitVec.ofNat 64 (cause % 2 ^ 16 + addr % 2 ^ 40 * 2 ^ 24))
    (BitVec.ofNat 64 (fld s.time 4 48 + kind % 16 * 2 ^ 52)) s

/-- Log an event of the resolution of the OTP (R331, R391): an entry of KIND 6 at an OTP word. -/
def logOtpNote (w cause : Nat) (s : State) : State := logEvent 6 (w % 1024) cause s

/-- Log what a decoded read found (R459, R462): nothing where it is clean. -/
def logDecoded (kind addr cause : Nat) (d : Decoded) (sweep : Bool) (s : State) : State :=
  match d with
  | .clean _ => s
  | .corrected _ syn => logErr kind addr syn cause false sweep s
  | .uncorrectable syn => logErr kind addr syn cause true sweep s

/-- Physical basin of logical basin `l` (R143). -/
def physOf (s : State) (l : Nat) : Nat := rdF s (0x7200 + 4 * (l / 4)) (8 * (l % 4)) 6

/-- The logical basin that maps to physical basin `n`, if any (R143). -/
def logicalOf (s : State) (n : Nat) : Option Nat := (List.range 32).find? fun l => physOf s l = n

/-- The device index (SYS_STAT.INDEX, R259). -/
def devIndex (s : State) : Nat := rdF s 0x040 8 3

/-- The time base units of a tick: 160 * 2^TICK_EXP (R200, R281). -/
def tickLen (s : State) : Nat := 160 * 2 ^ rdF s (at' pgSLU 0x40) 1 5

/-- The tick counter: the time base divided by the length of a tick (R200, R281). -/
def tickNow (s : State) : BitVec 48 := BitVec.ofNat 48 (s.time.toNat / tickLen s)

-- Clock ratios (R415)

/-- FCLK in MHz. -/
def fclkMhz (s : State) : Nat := 100 * rdF s 0x204C 0 6
/-- BCLK in MHz (R414). -/
def bclkMhz (s : State) : Nat :=
  match rdF s 0x2050 0 2 with
  | 0 => 1000
  | 1 => 1200
  | _ => 1600
/-- DCLK in MHz, of DRC_CFG.RATE (R333, R335). -/
def dclkMhz (s : State) : Nat := 600 + 100 * min (rdF s (at' (pgDRC 0) 0x40) 0 3) 4
/-- The part is of fabric speed grade S2, fused at test (R1, R3). -/
def gradeS2 (s : State) : Bool := !rdB s 0x004 16

/-- The limits that hardware does not check hold (R4, R415). -/
def clockOk (s : State) : Bool :=
  (!gradeS2 s || fclkMhz s ≤ 2800) && 2 * bclkMhz s ≤ fclkMhz s
    && (rdF s (at' (pgDRC 0) 0x48) 0 3 = 0 || 125 * dclkMhz s ≤ 100 * bclkMhz s)
    && (List.range 4).all fun k => !rdB s (at' (pgUIO k) 0x44) 31 || fclkMhz s ≤ 800 * rdF s (at' (pgUIO k) 0x44) 0 6

/-- The outcome of a command that leads from `s` to `t`: breaking a clock ratio has no defined effect (R6, R415, log entry 16). -/
def clocked (s t : State) : Host.Outcome State Fault Refusal :=
  if clockOk s && !clockOk t then .fault .undefinedClock else .next t

end Sys2Proof.Machine
end

