-- ==== Sys2Proof/Machine/Pcs.lean ====
section
/-! DEFINITION. The transmit side of the lanes: 66-bit blocks, their distribution over a group's lanes, markers, PRBS patterns (08, 09). -/

namespace Sys2Proof.Machine

-- Blocks (R222, R262)

/-- A 66-bit block as it stands before the scrambler and the FEC encoder: its sync header and its payload. -/
abbrev Block := BitVec 2 × Word

/-- The type bytes of the terminate blocks that hold 0 to 7 data bytes (IEEE 802.3 Clause 49, log entry 317). -/
def termTypes : List Nat := [0x87, 0x99, 0xAA, 0xB4, 0xCC, 0xD2, 0xE1, 0xFF]

/-- The data blocks and the terminate block of a list of bytes; `n` bounds them. -/
def dataBlocks : Nat → List Byte → List Block
  | 0, _ => []
  | n + 1, bs =>
    if bs.length < 8 then [(2, BitVec.ofNat 64 (termTypes.getD bs.length 0 + 256 * (ofBytes 64 bs).toNat))]
    else (1, ofBytes 64 (bs.take 8)) :: dataBlocks n (bs.drop 8)

/-- The blocks of a frame or a flit: a start block of type 0x78 whose other bytes are 0, its bytes in data blocks, a terminate block (R222,
R262; for frames log entry 317). -/
def frameBlocks (bs : List Byte) : List Block := (2, 0x78) :: dataBlocks (bs.length / 8 + 1) bs

-- Markers (R233 to R235)

/-- The fixed bytes 0 to 2 of the alignment markers of PCS lanes 0 to 7 (R233; IEEE 802.3 Clause 82, log entry 32). -/
def ieeeMarkers : List Nat := [0x2168C1, 0x8E719D, 0xE84B59, 0x7B954D, 0x0907F5, 0xC214DD, 0x264A9A, 0x66457B]

/-- The IEEE marker of PCS lane `i` with a BIP byte (R233). -/
def ieeeMarker (i : Nat) (bip : Byte) : Word :=
  let m := ieeeMarkers.getD i 0
  BitVec.ofNat 64 (m + bip.toNat * 2 ^ 24 + (2 ^ 24 - 1 - m) * 2 ^ 32 + (255 - bip.toNat) * 2 ^ 56)

/-- A Rytis control block: its bits [39:0] and the CRC over bits [39:8] (R235, R248, R273). -/
def rytisBlock (v : Nat) : Word := BitVec.ofNat 64 (v + crcRun 3 0xB704CE (toBytes 4 (BitVec.ofNat 32 (v / 256))) * 2 ^ 40)

/-- The Rytis marker of logical lane `i` with the BUNDLE and GEN of a LANE_MARK_TX value (R234, R235). -/
def rytisMarker (i : Nat) (tx : Reg) : Word := rytisBlock (0x5A + i % 8 * 2 ^ 8 + fld tx 16 12 * 2 ^ 12 + fld tx 0 16 * 2 ^ 24)

-- Distribution (R223, R232)

/-- How a group transmits: its lanes in logical order, the marker format and the marker period in blocks per lane, BUNDLE and GEN. -/
structure TxForm where
  lanes  : List Nat
  fmt    : Nat
  period : Nat
  mark   : Reg

/-- The index of the group's next block since its last marker. -/
def txIndex (s : State) (g : Nat) : Nat := tget 0 g s.lan.txNext

/-- Keep the index of the group's next block. -/
def setTxIndex (g i : Nat) (s : State) : State := { s with lan := { s.lan with txNext := tput 0 g i s.lan.txNext } }

/-- One marker on every lane of a group, at the same block index on each (R223). The BIP of an IEEE marker is a free value: the model lists no
idle blocks and no scrambled bits (log entry 318). -/
def sendMarkers (f : TxForm) (s : State) : State :=
  f.lanes.zipIdx.foldl (fun t p =>
    if f.fmt = 1 then
      let b := takeFree 8 t
      send (.block p.1 2 (ieeeMarker p.2 b.1)) b.2
    else send (.block p.1 2 (rytisMarker p.2 f.mark)) t) s

/-- The blocks between two markers of a group; without markers, one rotation. -/
def txSpan (f : TxForm) : Nat := if f.fmt = 0 then f.lanes.length else f.lanes.length * f.period

/-- `k` block slots of a group pass: the rotation goes on, and at each end of a marker period the markers are sent and it starts again at
logical lane 0 (R223, R232). -/
def txPass (f : TxForm) (g k : Nat) (s : State) : State :=
  let j := txIndex s g + k
  let s := if f.fmt = 0 then s else (List.range (j / txSpan f)).foldl (fun t _ => sendMarkers f t) s
  setTxIndex g (j % txSpan f) s

/-- Send one block on the logical lane whose turn it is (R232). -/
def sendBlock (f : TxForm) (g : Nat) (s : State) (b : Block) : State :=
  txPass f g 1 (send (.block (f.lanes.getD (txIndex s g % f.lanes.length) 0) b.1 b.2) s)

/-- Send the blocks of a list of bytes without a gap. -/
def sendBytes (f : TxForm) (g : Nat) (bs : List Byte) (s : State) : State := (frameBlocks bs).foldl (sendBlock f g) s

/-- Idle blocks pass before a frame: how many is a free value (log entry 318). -/
def txIdle (f : TxForm) (g : Nat) (s : State) : State :=
  let k := takeFree 20 s
  txPass f g k.1.toNat k.2

/-- The number of 64-block stretches of 1 µs at a rung's rate, at least one (R248, R273). -/
def blocksPerUs (rung0 : Word) : Nat := max 1 (fld rung0 0 20 / 264 / 64)

/-- Send a control block on every lane of a group in place of every 64th block for 1 µs (R248, R273). -/
def sendEvery64 (f : TxForm) (g : Nat) (rung0 : Word) (v : Word) (s : State) : State :=
  (List.range (blocksPerUs rung0)).foldl (fun t _ =>
    txPass f g (64 * f.lanes.length) (f.lanes.foldl (fun u l => send (.block l 2 v) u) t)) s

-- PRBS (R252)

/-- The taps of the polynomials of patterns 1 to 6. -/
def prbsTaps (k : Nat) : List Nat :=
  match k with
  | 1 => [7, 6]
  | 2 => [9, 5]
  | 3 => [13, 12, 2, 1]
  | 4 => [15, 14]
  | 5 => [23, 18]
  | _ => [31, 28]

/-- The degree of a pattern. -/
def prbsLen (k : Nat) : Nat := (prbsTaps k).headD 31

/-- The bit of a pattern that follows the bits in a register, the latest in bit 0. -/
def prbsNext (k : Nat) (r : BitVec 31) : Bool := (prbsTaps k).foldl (fun a t => a ^^ bit r (t - 1)) false

/-- Shift a bit into a register. -/
def prbsShift (r : BitVec 31) (b : Bool) : BitVec 31 := (r <<< 1) ||| BitVec.ofNat 31 (b2n b)

/-- The next `n` bits of the generator, and its register after them. -/
def prbsBits (k : Nat) : Nat → BitVec 31 → List Bool × BitVec 31
  | 0, r => ([], r)
  | n + 1, r =>
    let b := prbsNext k r
    let q := prbsBits k n (prbsShift r b)
    (b :: q.1, q.2)

/-- The bits of a received symbol: in PAM4 two, the first the more significant. -/
def symbolBits (pam4 : Bool) (v : BitVec 2) : List Bool := if pam4 then [bit v 1, bit v 0] else [bit v 0]

/-- The symbols of a list of bits. -/
def bitSymbols (pam4 : Bool) : List Bool → List (BitVec 2)
  | [] => []
  | a :: rest => if pam4 then
      match rest with
      | [] => [BitVec.ofNat 2 (2 * b2n a)]
      | b :: more => BitVec.ofNat 2 (2 * b2n a + b2n b) :: bitSymbols pam4 more
    else BitVec.ofNat 2 (b2n a) :: bitSymbols pam4 rest

/-- The checker takes a bit: 64 consecutive error-free bits lock it; from then on its own pattern runs on and each differing bit counts (log
entry 319). -/
def prbsCheck (k : Nat) (a : Prbs × Nat) (b : Bool) : Prbs × Nat :=
  let v := a.1
  let e := prbsNext k v.chk
  if 64 ≤ v.run then ({ v with chk := prbsShift v.chk e }, a.2 + b2n (b != e))
  else
    let ok := decide (prbsLen k ≤ v.seen) && b == e && decide (fld v.chk 0 (prbsLen k) ≠ 0)
    ({ v with chk := prbsShift v.chk b, seen := min 31 (v.seen + 1), run := if ok then v.run + 1 else 0 }, a.2)

end Sys2Proof.Machine
end

