-- ==== Sys2Proof/Machine/EnrusOps.lean ====
section
/-! DEFINITION. Flits and messages of the Enrus link: building, sealing, sending within credits and the retry buffer (R262 to R275).
The byte places of a message's fields are log entry 27. -/

namespace Sys2Proof.Machine

/-- Port `p`. -/
def enrPort (s : State) (p : Nat) : EnrPort := tget .zero p s.enr.ports

/-- Write port `p`. -/
def setEnrPort (p : Nat) (v : EnrPort) (s : State) : State := { s with enr := { s.enr with ports := tput .zero p v s.enr.ports } }

/-- Virtual channel `v` of a port. -/
def chan (e : EnrPort) (v : Nat) : Channel :=
  match v with
  | 0 => e.vc0
  | 1 => e.vc1
  | 2 => e.vc2
  | _ => e.vc3

/-- Write virtual channel `v` of a port. -/
def setChan (e : EnrPort) (v : Nat) (c : Channel) : EnrPort :=
  match v with
  | 0 => { e with vc0 := c }
  | 1 => { e with vc1 := c }
  | 2 => { e with vc2 := c }
  | _ => { e with vc3 := c }

/-- The acknowledgement count that a channel reaches once every flit given to it so far has been acknowledged (R173). -/
def chanMark (e : EnrPort) (v : Nat) : Nat :=
  (chan e v).acks + (chan e v).txq.length + (e.kept.filter fun k => k.vc = v).length

/-- An empty channel in which nothing given to it before is still to come (R173, R280). -/
def spentChan (e : EnrPort) (v : Nat) : Channel := { Channel.zero with acks := chanMark e v }

/-- The receive buffer of a virtual channel in flits (R272). -/
def vcCredits (v : Nat) : Nat :=
  match v with
  | 0 => 128
  | 1 => 64
  | _ => 32

/-- The virtual channel of a message (R275). -/
def msgVc (kind : Nat) : Nat :=
  if kind ≤ 1 then 0 else if kind ≤ 3 then 1 else if kind = 11 || kind = 12 then 2 else 3

/-- Key slot of a port. -/
def keySlot (e : EnrPort) (k : Bool) : KeySlot := if k then e.slot1 else e.slot0

/-- Write a key slot of a port. -/
def setKeySlot (e : EnrPort) (k : Bool) (v : KeySlot) : EnrPort := if k then { e with slot1 := v } else { e with slot0 := v }

/-- A little-endian field of at most 8 bytes. -/
def leField (bs : List Byte) (off len : Nat) : Nat := (ofBytes 64 ((bs.drop off).take len)).toNat

/-- A flit header (R262). -/
def flitHeader (typ vc key seq ack crVc crCnt ctr : Nat) : Word :=
  BitVec.ofNat 64 (ctr % 65536 + crCnt % 64 * 2 ^ 16 + crVc % 4 * 2 ^ 22 + ack % 65536 * 2 ^ 24 + seq % 65536 * 2 ^ 40
    + key % 2 * 2 ^ 57 + vc % 4 * 2 ^ 58 + typ % 16 * 2 ^ 60)

/-- A list cut or padded with zeros to `n` bytes. -/
def padBytes (n : Nat) (bs : List Byte) : List Byte := (bs ++ List.replicate (n - bs.length) 0).take n

/-- A flit from its header, payload and tag, with its CRC (R262). -/
def mkFlit (h : Word) (payload tag : List Byte) : BitVec 2048 :=
  let bs := toBytes 8 h ++ padBytes 228 payload ++ padBytes 16 tag
  ofBytes 2048 (bs ++ toBytes 4 (BitVec.ofNat 32 (2 ^ 32 - 1 - crcRun 0 (2 ^ 32 - 1) bs)))

/-- The CRC of a received flit holds (R262, R265). -/
def flitCrcOk (f : BitVec 2048) : Bool :=
  crcRun 0 (2 ^ 32 - 1) (toBytes 252 f) = 2 ^ 32 - 1 - fld f (8 * 252) 32

/-- The 96-bit nonce: the salt, then the counter most significant byte first (R263). -/
def flitNonce (salt : BitVec 64) (ctr : Nat) : List Byte := toBytes 8 salt ++ beNat 4 ctr

/-- The acknowledgement field: the last DATA SEQ accepted in order, 0xFFFF before the first (R262). -/
def ackField (e : EnrPort) : Nat := e.acked.getD 0xFFFF

/-- The virtual channel whose credits are returned next, and how many (R262, R272). -/
def creditReturn (e : EnrPort) : Nat × Nat :=
  match (List.range 4).find? fun v => 0 < (chan e v).owed with
  | some v => (v, min 63 (chan e v).owed)
  | none => (0, 0)

/-- ENR_CTRL of a port. -/
def enrCtrlA (p : Nat) : Nat := at' (pgENR p) 0x40
/-- QUAD of a port. -/
def enrQuadOf (s : State) (p : Nat) : Nat := rdF s (enrCtrlA p) 1 6

/-- How a port transmits (R232, R261, R273): over the lanes that it uses in ascending order, with Rytis markers of period 16, BUNDLE
0x800 + 8 * (device index) + port and GEN 0x0001. -/
def enrTx (s : State) (p : Nat) : TxForm :=
  { lanes := ((List.range 4).filter fun i => bit (enrPort s p).lanes i).map (4 * enrQuadOf s p + ·), fmt := 2, period := 1024 * 16
    mark := BitVec.ofNat 32 (1 + (0x800 + 8 * devIndex s + p) * 2 ^ 16) }

/-- A flit goes out over the port's lanes as 34 blocks, with no idle block before it (R262). -/
def putFlit (p : Nat) (f : BitVec 2048) (s : State) : State := sendBytes (enrTx s p) (4 * enrQuadOf s p) (toBytes 256 f) s

/-- Seal and send one flit under the current key slot: the counter advances, credits are returned (R263, R272). -/
def sendFlit (p typ vc seq ack : Nat) (payload : List Byte) (s : State) : State :=
  let e := enrPort s p
  let k := keySlot e e.slot
  let cr := creditReturn e
  let h := flitHeader typ vc (b2n e.slot) seq ack cr.1 cr.2 k.txCtr
  match k.keys with
  | none => s
  | some ks =>
    let c := gcmSeal ks.txKey (flitNonce ks.txSalt k.txCtr) (toBytes 8 h) (padBytes 228 payload)
    let ch := chan e cr.1
    let e := setChan e cr.1 { ch with owed := ch.owed - cr.2 }
    putFlit p (mkFlit h c.1 c.2) (setEnrPort p (setKeySlot e e.slot { k with txCtr := k.txCtr + 1 }) s)

/-- Send a plaintext handshake message in consecutive flits of its type (R267). -/
def sendPlain (p typ : Nat) (msg : List Byte) (s : State) : State :=
  (List.range ((msg.length + 227) / 228)).foldl (fun t i =>
    putFlit p (mkFlit (flitHeader typ 0 0 0 0xFFFF 0 0 0) ((msg.drop (228 * i)).take 228) []) t) s

/-- The flit payloads of a message (R275): 4-byte header and 224 bytes of body each, FIRST on the first, LAST on the last. -/
def msgPayloads (m : Msg) : List (List Byte) :=
  let n := max 1 ((m.body.length + 223) / 224)
  (List.range n).map fun i =>
    toBytes 4 (BitVec.ofNat 32 (m.ref.toNat + b2n (i + 1 = n) * 2 ^ 25 + b2n (i = 0) * 2 ^ 26 + m.kind % 32 * 2 ^ 27))
      ++ (m.body.drop (224 * i)).take 224

/-- Send the next waiting flit of channel `v` where the port is UP, a credit is left and the retry buffer is not full (R269, R272). -/
def pumpOne (p v : Nat) (s : State) : State :=
  let e := enrPort s p
  let c := chan e v
  match c.txq with
  | [] => s
  | pl :: rest =>
    if e.st = .up && 0 < c.credits && e.kept.length < 256 then
      let e' := setChan e v { c with txq := rest, credits := c.credits - 1 }
      let e' := { e' with seqTx := (e.seqTx + 1) % 65536, kept := e.kept ++ [⟨e.seqTx, v, pl, 1, none⟩] }
      sendFlit p 1 v e.seqTx (ackField e) pl (setEnrPort p e' s)
    else s

/-- Send up to `n` waiting flits, the channels in turn, flit by flit (R272). -/
def pump (p : Nat) : Nat → State → State
  | 0, s => s
  | n + 1, s => pump p n ((List.range 4).foldl (fun t v => pumpOne p v t) s)

/-- Everything that credits and the retry buffer allow of a port is sent. -/
def pumpAll (p : Nat) (s : State) : State :=
  let e := enrPort s p
  pump p (e.vc0.txq.length + e.vc1.txq.length + e.vc2.txq.length + e.vc3.txq.length) s

/-- Queue a message on its channel and send what can be sent. -/
def sendMsg (p : Nat) (m : Msg) (s : State) : State :=
  let e := enrPort s p
  let c := chan e (msgVc m.kind)
  pumpAll p (setEnrPort p (setChan e (msgVc m.kind) { c with txq := c.txq ++ msgPayloads m }) s)

/-- The UP port whose peer is device `d`, if any. -/
def portTo (s : State) (d : BitVec 3) : Option Nat :=
  (List.range 7).find? fun p => (enrPort s p).st = .up && (enrPort s p).peer = d

/-- TIME_MASTER. -/
def timeMaster (s : State) : Nat := rdF s (at' pgENRG 0x40) 0 3

/-- No port to the time master is UP (TIME_HOLDOVER, R281). -/
def holdover (s : State) : Bool := timeMaster s ≠ devIndex s && (portTo s (BitVec.ofNat 3 (timeMaster s))).isNone

/-- Send a fault notice on a port for a local basin (R279). -/
def noticeOne (l p : Nat) (s : State) : State :=
  let k := s.enr.noticeNo
  let s := { s with enr := { s.enr with noticeNo := (k + 1) % 65536, notices := s.enr.notices ++ [(p, l, k)] } }
  sendMsg p { kind := 5, ref := 0, body := [BitVec.ofNat 8 l] ++ toBytes 2 (BitVec.ofNat 16 k), flits := 0 } s

/-- The logical basin that a DISPATCH names (R275, log entry 27). -/
def dispatchLogical (m : Msg) : Nat := leField m.body 66 1 % 32

end Sys2Proof.Machine
end

