-- ==== Sys2Proof/Machine/MemOps.lean ====
section
/-! DEFINITION. The rows and banks of the memory die: reading, masked writing, ownership, retention (11). -/

namespace Sys2Proof.Machine

/-- Bank `n`. -/
def bankOf (s : State) (n : Nat) : Bank := tget (Bank.initial n) n s.mem.banks

/-- Write bank `n`. -/
def setBank (n : Nat) (b : Bank) (s : State) : State :=
  { s with mem := { s.mem with banks := tput (Bank.initial n) n b s.mem.banks } }

/-- The key of codeword 0 of a row (R316). -/
def rowKey (bank row : Nat) : Nat := 128 * (4096 * bank + row)

/-- The listed codewords of a row; an unlisted one is 0 with valid check bits. -/
def rowCodes (s : State) (bank row : Nat) : List (Nat × Code) :=
  (s.mem.rows.filter fun p => rowKey bank row ≤ p.1 && p.1 < rowKey bank row + 128).map fun p => (p.1 % 128, p.2)

/-- The ADDR of a log entry of KIND 3 (R463). -/
def rowLogAddr (bank row w : Nat) : Nat := bank * 2 ^ 19 + row * 2 ^ 7 + w

/-- What reading a row gives (R319): the corrected data with 0 in uncorrectable codewords, and those codewords. -/
def rowData (s : State) (bank row : Nat) : BitVec 8192 × List Nat :=
  (rowCodes s bank row).foldl (fun (a : BitVec 8192 × List Nat) p =>
    match decodedData (decode72 p.2) with
    | some d => (setFld a.1 (64 * p.1) 64 d.toNat, a.2)
    | none => (a.1, a.2 ++ [p.1])) (0, [])

/-- Log a decoded codeword of a row; ROW_UE sets IRQ_STAT bit 3 of the BANK page (R319, R332). -/
def rowLogOne (bank row w : Nat) (d : Decoded) (s : State) : State :=
  let t := logDecoded 3 (rowLogAddr bank row w) 0x0903 d false s
  match d with
  | .uncorrectable _ => setIrq pgBANK 3 t
  | _ => t

/-- Log every error of a row read (R319). -/
def rowLog (bank row : Nat) (s : State) : State :=
  (rowCodes s bank row).foldl (fun t p => rowLogOne bank row p.1 (decode72 p.2) t) s

/-- The uncorrectable codewords of a row that hold a byte of `lo ≤ byte < hi` (R319). -/
def rowUe (s : State) (bank row lo hi : Nat) : Bool := (rowData s bank row).2.any fun w => lo < 8 * w + 8 && 8 * w < hi

/-- Write codeword `w` of a row. -/
def putRowCode (bank row w : Nat) (c : Code) (s : State) : State :=
  { s with mem := { s.mem with rows := tput 0 (rowKey bank row + w) c s.mem.rows } }

/-- The stored codeword `w` of a row. -/
def rowCode (s : State) (bank row w : Nat) : Code := tget 0 (rowKey bank row + w) s.mem.rows

/-- A word with the bytes of `v` where the mask has a 1. -/
def mergeBytes (old v : Word) (mask : Nat) : Word :=
  (List.range 8).foldl (fun a k => if mask.testBit k then setFld a (8 * k) 8 (byteOf v k).toNat else a) old

/-- A masked write of one codeword (R317): whole, merged, or left as it is where the merge reads uncorrectable. -/
def writeCode (bank row w mask : Nat) (v : Word) (s : State) : State :=
  if mask = 0 then s
  else if mask = 255 then putRowCode bank row w (encCode v) s
  else match decodedData (decode72 (rowCode s bank row w)) with
    | some old => putRowCode bank row w (encCode (mergeBytes old v mask)) s
    | none => s

/-- A byte mask covers part of some codeword, so that the row is read first (R317). -/
def maskMerges (mask : BitVec 1024) : Bool := (List.range 128).any fun w => fld mask (8 * w) 8 ≠ 0 && fld mask (8 * w) 8 ≠ 255

/-- A masked write of a row (R317, R319): where it merges, every codeword of the row is read, and its errors logged. The error that a merge
gives the intake, the outlet or an Enrus port has no effect of its own: the codeword stays uncorrectable, and whoever reads the item meets it
(log entry 315). -/
def rowWrite (bank row : Nat) (mask : BitVec 1024) (data : BitVec 8192) (s : State) : State :=
  (List.range 128).foldl (fun t w => writeCode bank row w (fld mask (8 * w) 8) (BitVec.ofNat 64 (fld data (64 * w) 64)) t)
    (if maskMerges mask then rowLog bank row s else s)

/-- Some codeword that a masked write would merge is uncorrectable (R317). -/
def rowWriteErr (s : State) (bank row : Nat) (mask : BitVec 1024) : Bool :=
  (rowData s bank row).2.any fun w => fld mask (8 * w) 8 ≠ 0 && fld mask (8 * w) 8 ≠ 255

/-- A mask of `n` bytes from byte `o` on. -/
def byteMask (o n : Nat) : BitVec 1024 := BitVec.ofNat 1024 ((2 ^ n - 1) * 2 ^ o)

/-- Every row of a bank zero with valid check bits (R323, R329, R330). -/
def clearBank (bank : Nat) (s : State) : State :=
  { s with mem := { s.mem with rows := tclear (rowKey bank 0) (rowKey (bank + 1) 0) s.mem.rows } }

/-- The row groups of a bank that its owner holds (R325). -/
def heldGroups (s : State) (bank : Nat) : Nat := (s.lan.groups.filter fun g => g / 1024 = bank).length

/-- A refused request: counted, and the first recorded with IRQ_STAT bit 1 (R321, R332). -/
def bankRefuse (req basin bank row : Nat) (s : State) : State :=
  let a := at' pgBANK 0x40
  let v := row % 4096 + bank % 128 * 2 ^ 12 + basin % 32 * 2 ^ 21 + req % 16 * 2 ^ 26
  let t := incF (at' pgBANK 0x44) 0 32 1 (recordFirst a v s)
  if rdB s a 31 then t else setIrq pgBANK 1 t

/-- The owner of a bank is the given type, for type BASIN that basin, and no handover is in progress (R321, R323). -/
def bankOwned (s : State) (bank typ basin : Nat) : Bool :=
  let b := bankOf s bank
  b.target.isNone && b.typ = typ && (typ ≠ 1 || b.basin = basin)

/-- An accepted request to a bank in retention starts its wake (R327). -/
def bankTouch (bank : Nat) (s : State) : State :=
  let b := bankOf s bank
  if b.ret then setBank bank { b with ret := false, waking := true } s else s

/-- A bank takes part in no access until its wake ends (R327). -/
def bankAwake (s : State) (bank : Nat) : Bool := !(bankOf s bank).ret && !(bankOf s bank).waking

/-- The first row group that an owner may take (R237, R325): in a bank of the type, not draining, no handover, not held; none while D4 is in
reset (R441). -/
def freeGroup (s : State) (typ : Nat) : Option Nat :=
  if s.mod.dieReset = some 4 then none
  else (List.range 128).findSome? fun n =>
    let b := bankOf s n
    if b.typ = typ && !b.drain && b.target.isNone then
      (List.range 1024).findSome? fun j => if s.lan.groups.contains (1024 * n + j) then none else some (1024 * n + j)
    else none

/-- The banks that an owner asks for a row group before bank `lim` and that a handover is taking from it refuse the request (R321, R323). -/
def refuseHanded (typ lim : Nat) (s : State) : State :=
  ((List.range lim).filter fun n =>
    let b := bankOf s n
    b.typ = typ && !b.drain && b.target.isSome && heldGroups s n < 1024).foldl (fun t n => bankRefuse typ 0 n 0 t) s

/-- Take a row group (R325). -/
def takeGroup (g : Nat) (s : State) : State := { s with lan := { s.lan with groups := g :: s.lan.groups } }

/-- Return the row group that holds a row (R187). -/
def returnGroup (bank row : Nat) (s : State) : State :=
  { s with lan := { s.lan with groups := s.lan.groups.filter fun g => decide (g ≠ 1024 * bank + row / 4) } }

/-- The payload rows that a dispatch by a peer (an odd service) took return to INTAKE (R187, R277, R325). -/
def returnGuest (svc bank row : Nat) (s : State) : State := if svc % 2 = 1 then returnGroup bank row s else s

/-- Write a list of bytes into a bank from a row on, byte 0 at offset `o` of the row (R154). -/
def writeBytes (bank row o : Nat) (bs : List Byte) (s : State) : State :=
  let n := o + bs.length
  (List.range ((n + 1023) / 1024)).foldl (fun t r =>
    let lo := max o (1024 * r)
    let hi := min n (1024 * r + 1024)
    rowWrite bank (row + r) (byteMask (lo - 1024 * r) (hi - lo))
      (ofBytes 8192 (List.replicate (lo - 1024 * r) 0 ++ (bs.drop (lo - o)).take (hi - lo))) t) s

/-- Read `n` bytes from a row on (R154): the bytes, and whether an uncorrectable codeword holds one of them. -/
def readBytes (s : State) (bank row n : Nat) : List Byte × Bool :=
  let rs := (List.range ((n + 1023) / 1024)).map fun r =>
    let k := min 1024 (n - 1024 * r)
    (toBytes k (rowData s bank (row + r)).1, rowUe s bank (row + r) 0 k)
  (rs.flatMap (·.1), rs.any (·.2))

/-- Log the errors of the rows that `n` bytes from a row on lie in. -/
def logRows (bank row n : Nat) (s : State) : State :=
  (List.range ((n + 1023) / 1024)).foldl (fun t r => rowLog bank (row + r) t) s

end Sys2Proof.Machine
end

