-- ==== Sys2Proof/Machine/SluiceOps.lean ====
section
/-! DEFINITION. The operations of the Sluice dispatcher: tables, slots, queues, arrival, matching, back-pressure, dispatch,
completion, reissue and failover (07). -/

namespace Sys2Proof.Machine

/-- Replace the Sluice record. -/
def withSlu (u : Sluice → Sluice) (s : State) : State := { s with slu := u s.slu }

-- Damage of Sluice's own words

/-- The cause of an uncorrectable word by structure and word (R213, R216): a slot's word 7 holds its queue link. -/
def structCause (k w : Nat) : Nat :=
  match k with
  | 0 => 0x0631
  | 1 => 0x0630
  | 2 => 0x0632
  | 3 => if w = 7 then 0x0630 else 0x0633
  | 4 => 0x0634
  | _ => 0x0635

/-- The damaged words `lo ≤ word < hi` of an entry. -/
def damageOf (s : State) (k e lo hi : Nat) : List Damage :=
  s.slu.damage.filter fun d => d.struct = k && d.entry = e && lo ≤ d.word && d.word < hi

/-- A read of those words meets an uncorrectable one (R213). -/
def sluUe (s : State) (k e lo hi : Nat) : Bool := (damageOf s k e lo hi).any (·.ue)

/-- Read those words: correctable ones are corrected, logged and written back, uncorrectable ones logged with IRQ_STAT bit 6 (R213). -/
def sluTouch (k e lo hi : Nat) (s : State) : State :=
  let ds := damageOf s k e lo hi
  let s := ds.foldl (fun t d =>
    let t := logErr 4 (k * 2 ^ 36 + d.word % 16 * 2 ^ 32 + e) d.syn.toNat (structCause k d.word) d.ue false t
    if d.ue then setIrq pgSLU 6 t else t) s
  withSlu (fun u => { u with damage := u.damage.filter fun d => !(ds.contains d && !d.ue) }) s

/-- Those words are written: they hold valid check bits. -/
def sluMend (k e lo hi : Nat) (s : State) : State :=
  let ds := damageOf s k e lo hi
  withSlu (fun u => { u with damage := u.damage.filter fun d => !ds.contains d }) s

-- Table words

/-- Word 0 of a partner entry (R178). -/
def partner0 (s : State) (p : Nat) : Word := tget 0 p s.slu.partners
/-- Word 0 of a flow entry (R179). -/
def flowW0 (s : State) (f : Nat) : Word := tget 0 f s.slu.flow0
/-- Word 1 of a flow entry. -/
def flowW1 (s : State) (f : Nat) : Word := tget 0 f s.slu.flow1
/-- The fill value of a group word: COMMIT_FENCE is 1 (R175). -/
def groupFill (k : Nat) : Word := if k % 8 = 0 then 1 else 0
/-- Word `w` of the active copy of a group (R182). -/
def groupW (s : State) (g w : Nat) : Word := tget (groupFill (8 * g + w)) (8 * g + w) s.slu.groups
/-- The kept state of a flow. -/
def flowDyn (s : State) (f : Nat) : FlowDyn := tget .zero f s.slu.flows
/-- What word 2 of a flow entry keeps (R179). -/
def FlowDyn.part2 (d : FlowDyn) : Bool × List Nat × Nat × Nat × BitVec 3 × BitVec 5 :=
  (d.quarantined, d.queue, d.head, d.tail, d.svcDev, d.svcBasin)
/-- What word 3 of a flow entry keeps (R179). -/
def FlowDyn.part3 (d : FlowDyn) : Nat × Nat × Nat := (d.timeouts, d.errors, d.done)
/-- Write the kept state of a flow: a word of its entry that changes holds valid check bits (R175). -/
def setFlowDyn (f : Nat) (d : FlowDyn) (s : State) : State :=
  let o := flowDyn s f
  let t := withSlu (fun u => { u with flows := tput .zero f d u.flows }) s
  let t := if o.part2 = d.part2 then t else sluMend 1 f 2 3 t
  if o.part3 = d.part3 then t else sluMend 1 f 3 4 t

/-- EN of a flow. -/
def fEn (s : State) (f : Nat) : Bool := bit (flowW0 s f) 27
/-- OPERANDS of a flow. -/
def fOperands (s : State) (f : Nat) : Nat := fld (flowW0 s f) 25 2
/-- ATOMIC of a flow. -/
def fAtomic (s : State) (f : Nat) : Bool := bit (flowW0 s f) 24
/-- PRIORITY of a flow. -/
def fPriority (s : State) (f : Nat) : Nat := fld (flowW0 s f) 20 4
/-- GROUP of a flow. -/
def fGroup (s : State) (f : Nat) : Nat := fld (flowW0 s f) 12 8
/-- PARTNER of a flow. -/
def fPartner (s : State) (f : Nat) : Nat := fld (flowW0 s f) 0 12
/-- HOME of a flow. -/
def fHome (s : State) (f : Nat) : Nat := fld (flowW0 s f) 28 3
/-- SVC_TO of a flow. -/
def fSvcTo (s : State) (f : Nat) : Nat := fld (flowW0 s f) 32 16
/-- MATCH_TO of a flow. -/
def fMatchTo (s : State) (f : Nat) : Nat := fld (flowW0 s f) 48 16
/-- DEFER of a flow. -/
def fDefer (s : State) (f : Nat) : Nat := fld (flowW1 s f) 0 16
/-- ERR_RETRY of a flow. -/
def fRetry (s : State) (f : Nat) : Nat := fld (flowW1 s f) 16 2

-- Slots

/-- Control slots begin here (R186). -/
def ctlBase : Nat := 258048
/-- Slot `n`. -/
def slotOf (s : State) (n : Nat) : Slot := tget .filled n s.slu.slots
/-- Write slot `n`. -/
def setSlot (n : Nat) (v : Slot) (s : State) : State := withSlu (fun u => { u with slots := tput .filled n v u.slots }) s
/-- Slots of the free pool that are free (SLU_FREE). -/
def freeSlots (s : State) : Nat := ctlBase - (s.slu.slots.filter fun p => p.1 < ctlBase && decide (p.2.place ≠ .free)).length
/-- The free slot that is taken next: the lowest (log entry 17). -/
def nextFree (s : State) : Option Nat :=
  if freeSlots s = 0 then none else (List.range (s.slu.slots.length + 1)).find? fun n => (slotOf s n).place = .free
/-- The handle of slot `n` (R186). -/
def handleOf (s : State) (n : Nat) : BitVec 20 := BitVec.ofNat 20 (n % 2 ^ 18 + (slotOf s n).gen.toNat * 2 ^ 18)
/-- The slot that a handle names, where its generation is the slot's and the slot is in use (R187). -/
def slotOfHandle (s : State) (h : BitVec 20) : Option Nat :=
  let n := fld h 0 18
  if (slotOf s n).gen.toNat = fld h 18 2 && (slotOf s n).place ≠ .free then some n else none

-- Flows and ready lists

/-- Services of a flow that count as in service (R181, R205). -/
def flowServices (s : State) (f : Nat) : Nat := (s.slu.services.filter fun v => v.flow.toNat = f).length

/-- STATE of a flow (R181): 0 IDLE, 1 QUEUED, 2 IN_SERVICE, 3 QUARANTINED. -/
def flowState (s : State) (f : Nat) : Nat :=
  let d := flowDyn s f
  if d.quarantined then 3
  else if fAtomic s f && 0 < flowServices s f then 2
  else if d.queue ≠ [] then 1
  else if 0 < flowServices s f then 2
  else 0

/-- The ready list of a priority. -/
def readyList (s : State) (p : Nat) : List Nat := tget [] p s.slu.ready
/-- Write the ready list of a priority. -/
def setReady (p : Nat) (l : List Nat) (s : State) : State := withSlu (fun u => { u with ready := tput [] p l u.ready }) s

/-- A flow is on the ready list of its priority exactly when it is QUEUED (R181). -/
def reeval (f : Nat) (s : State) : State :=
  let p := fPriority s f
  let l := readyList s p
  if flowState s f = 1 then (if l.contains f then s else setReady p (l ++ [f]) s)
  else setReady p (l.filter fun g => decide (g ≠ f)) s

/-- A queue with its HEAD and TAIL (R179); an empty queue keeps the last values (log entry 28). -/
def FlowDyn.withQueue (d : FlowDyn) (q : List Nat) : FlowDyn :=
  { d with queue := q, head := q.head?.getD d.head, tail := q.getLast?.getD d.tail }

/-- META of a back-pressure control item (R208, R239). -/
def controlMeta (s : State) (p : Nat) (on : Bool) : Word :=
  BitVec.ofNat 64 (2 ^ 62 + fld (partner0 s p) 24 6 * 2 ^ 50 + fld (partner0 s p) 16 8 * 2 ^ 42 + b2n on * 2 ^ 37)

/-- The queue links of slots are written (R175, R186). -/
def mendLinks (l : List Nat) (s : State) : State := l.foldl (fun t n => sluMend 3 n 7 8 t) s

/-- A slot joins the tail of its flow's queue. -/
def pushTail (f n : Nat) (s : State) : State :=
  let d := flowDyn s f
  let s := mendLinks (n :: d.queue.getLast?.toList) s
  reeval f (setFlowDyn f (d.withQueue (d.queue ++ [n])) (setSlot n { slotOf s n with place := .queued } s))

/-- The control state that waits for a partner's control slot becomes the META of that slot, which is queued again (R208). -/
def takeWant (n : Nat) (s : State) : State :=
  if ctlBase ≤ n then
    match tget none (n - ctlBase) s.slu.ctlWant with
    | some on =>
      withSlu (fun u => { u with ctlWant := tput none (n - ctlBase) none u.ctlWant })
        (sluMend 3 n 3 4 (setSlot n { slotOf s n with meta0 := controlMeta s (n - ctlBase) on } s))
    | none => s
  else s

/-- A slot returns to the head of its flow's queue. -/
def pushHead (f n : Nat) (s : State) : State :=
  let s := mendLinks [n] (takeWant n s)
  let d := flowDyn s f
  reeval f (setFlowDyn f (d.withQueue (n :: d.queue)) (setSlot n { slotOf s n with place := .queued } s))

/-- A slot leaves its flow's queue. -/
def unqueue (f n : Nat) (s : State) : State :=
  let d := flowDyn s f
  reeval f (setFlowDyn f (d.withQueue (d.queue.filter fun m => decide (m ≠ n))) s)

/-- A flow becomes QUARANTINED: off its ready list, IRQ_STAT bit 3 (R181). -/
def quarantineFlow (f : Nat) (s : State) : State :=
  if (flowDyn s f).quarantined then s
  else setIrq pgSLU 3 (reeval f (setFlowDyn f { flowDyn s f with quarantined := true } s))

/-- Items queued in all flows of a partner (R178). -/
def queuedOf (s : State) (p : Nat) : Nat :=
  s.slu.flows.foldl (fun a q => if fPartner s q.1 = p then a + q.2.queue.length else a) 0

-- Exceptions and release

/-- An exception entry (R206): written at HEAD, or counted while the ring is full; IRQ_STAT bit 1. -/
def excEntry (flow cause : Nat) (h : BitVec 20) (s : State) : State :=
  let a := at' pgSLUX 0x40
  if rdB s a 10 then incF (at' pgSLUX 0x48) 0 32 1 s
  else
    let i := rdF s a 0 10
    let j := (i + 1) % 1024
    let w0 := BitVec.ofNat 64 (h.toNat * 2 ^ 8 + cause % 65536 * 2 ^ 32 + flow % 65536 * 2 ^ 48)
    let w1 := BitVec.ofNat 64 (tickNow s).toNat
    let s := sluMend 6 i 0 2 (withSlu (fun u => { u with excRing := tput 0 (2 * i + 1) w1 (tput 0 (2 * i) w0 u.excRing) }) s)
    setIrq pgSLU 1 (wr a (BitVec.ofNat 32 (j + 1024 * b2n (j = rdF s (at' pgSLUX 0x44) 0 10))) s)

/-- Free one slot; its payload rows return to the owner that wrote them (R187). -/
def freeOne (n : Nat) (s : State) : State :=
  let v := slotOf s n
  let s := if v.owner = .none then s else returnGroup v.bank.toNat v.row.toNat s
  sluMend 3 n 0 16 (setSlot n { Slot.filled with gen := v.gen } s)

/-- Enter a control item of a partner (R208): at the head of its LP_FLOW; a queued one has its META updated; one in service is
followed by the new state when its slot is released. -/
def controlItem (p : Nat) (on : Bool) (s : State) : State :=
  let n := ctlBase + p
  let f := fld (partner0 s p) 0 16
  match (slotOf s n).place with
  | .free => pushHead f n (setSlot n { slotOf s n with flow := BitVec.ofNat 16 f, len := 0, meta0 := controlMeta s p on } s)
  | .queued => sluMend 3 n 3 4 (setSlot n { slotOf s n with meta0 := controlMeta s p on } s)
  | _ => withSlu (fun u => { u with ctlWant := tput none p (some on) u.ctlWant }) s

/-- Release a slot with the operand slots of a fused item; a control state that waits is then entered (R187, R208). -/
def releaseSlot (n : Nat) (s : State) : State :=
  let ops := (slotOf s n).ops.map fun o => fld o.1 0 18
  let s := freeOne n (ops.foldl (fun t m => freeOne m t) s)
  if ctlBase ≤ n then
    match tget none (n - ctlBase) s.slu.ctlWant with
    | some on => controlItem (n - ctlBase) on (withSlu (fun u => { u with ctlWant := tput none (n - ctlBase) none u.ctlWant }) s)
    | none => s
  else s

/-- An item goes to the exception ring and its slot is released (R187, R206). -/
def toException (n cause : Nat) (s : State) : State :=
  releaseSlot n (excEntry (slotOf s n).flow.toNat cause (handleOf s n) s)

-- Back-pressure

/-- The partner rule of R207 with its hysteresis. -/
def bpRule (s : State) (p : Nat) : Bool :=
  let w := partner0 s p
  let q := queuedOf s p
  if fld w 32 12 = 0 then false
  else if 16 * fld w 32 12 ≤ q then true
  else if q ≤ 16 * fld w 44 12 then false
  else tget false p s.slu.bpPartner

/-- The device rule of R207 with its hysteresis. -/
def bpDeviceRule (s : State) : Bool :=
  let lwm := 64 * rdF s (at' pgSLU 0x48) 0 12
  if freeSlots s < lwm then true else if lwm + 1024 ≤ freeSlots s then false else s.slu.bpDevice

/-- BP of a partner (R207): either rule holds; the device rule acts on enabled partners. -/
def bpOf (s : State) (p : Nat) : Bool := tget false p s.slu.bpPartner || (s.slu.bpDevice && bit (partner0 s p) 30)

/-- Intake stops accepting a partner's sub-channel (R207): by the partner rule, or by the device rule, which stops every sub-channel. -/
def intakeStops (s : State) (p : Nat) : Bool := tget false p s.slu.bpPartner || s.slu.bpDevice

/-- The partners that the rules can act on: those with an entry, and those with a BP. -/
def bpPartners (s : State) : List Nat :=
  s.slu.partners.map (·.1) ++ ((s.slu.bpPartner.map (·.1)) ++ (s.slu.bpTold.map (·.1))).dedup.filter fun p => !s.slu.partners.any fun q => q.1 = p

/-- A partner whose BP differs from the one last told gets a control item (R208). -/
def tellBp (t : State) (r : State) (p : Nat) : State :=
  if tget false p t.slu.bpTold ≠ bpOf t p then
    controlItem p (bpOf t p) (withSlu (fun u => { u with bpTold := tput false p (bpOf t p) u.bpTold }) r)
  else r

/-- Re-evaluate back-pressure: the rules, IRQ_STAT bit 2, and a control item for every partner whose BP changes (R207, R208). -/
def bpEval (s : State) : State :=
  let ps := bpPartners s
  let t := withSlu (fun u => { u with
    bpDevice := bpDeviceRule s
    bpPartner := ps.foldl (fun m p => tput false p (bpRule s p) m) u.bpPartner }) s
  let t := if !s.slu.bpDevice && t.slu.bpDevice then setIrq pgSLU 2 t else t
  ps.foldl (tellBp t) t

-- Delay entries

/-- Delay entries in use on the four lists (R201). -/
def delayUsed (s : State) : Nat :=
  s.slu.delays.length + (s.slu.services.filter fun v => v.deadline.isSome).length
    + (s.slu.matching.filter fun m => m.deadline.isSome).length

/-- A delay entry for lists 0, 1 and 3 is free: the last 1,024 are kept for list 2 (R201). -/
def delayFree (s : State) : Bool := delayUsed s < 65536 - 1024

/-- The entries of a delay list as expiry tick and slot, in the order in which they were inserted (R201). -/
def delayList (s : State) (k : Nat) : List (Nat × Nat) :=
  match k with
  | 0 => (s.slu.delays.filter (·.high)).map fun d => (d.expiry, d.slot)
  | 1 => (s.slu.delays.filter fun d => !d.high).map fun d => (d.expiry, d.slot)
  | 2 => s.slu.services.filterMap fun v => v.deadline.map fun t => (t, v.slot)
  | _ => s.slu.matching.filterMap fun m => m.deadline.map fun t => (t, m.slots.head?.getD 0)

/-- The entry of a slot is due at once (R201, R213). -/
def expireNow (n : Nat) (s : State) : State :=
  withSlu (fun u => { u with
    delays := u.delays.map fun d => if d.slot = n then { d with expiry := 0 } else d
    services := u.services.map fun v => if v.slot = n then { v with deadline := v.deadline.map fun _ => 0 } else v
    matching := u.matching.map fun m => if m.slots.head? = some n then { m with deadline := m.deadline.map fun _ => 0 } else m }) s

/-- Read the delay entry of a slot: an uncorrectable one is due at once (R201, R213). -/
def readDelay (n : Nat) (s : State) : State :=
  if sluUe s 5 n 0 2 then sluMend 5 n 0 2 (expireNow n (sluTouch 5 n 0 2 s)) else sluTouch 5 n 0 2 s

/-- The entries before and after an entry of list `k` with expiry `x` are read, as their links to it change (R201). -/
def delayLinks (k x : Nat) (s : State) : State :=
  let l := delayList s k
  let before := l.foldl (fun (o : Option (Nat × Nat)) e =>
    if e.1 ≤ x then (match o with
      | some m => if m.1 ≤ e.1 then some e else o
      | none => some e) else o) none
  let after := l.foldl (fun (o : Option (Nat × Nat)) e =>
    if x < e.1 then (match o with
      | some m => if e.1 < m.1 then some e else o
      | none => some e) else o) none
  (before.toList ++ after.toList).foldl (fun t e => readDelay e.2 t) s

/-- A delay entry of a slot is written (R175). -/
def putDelay (k x n : Nat) (s : State) : State := sluMend 5 n 0 2 (delayLinks k x s)

/-- An item becomes ready `d` ticks later, or at once where no entry is free (R189, R201). -/
def delayOrQueue (f n d : Nat) (s : State) : State :=
  if d = 0 then pushTail f n s
  else if delayFree s then
    let hi := 8 ≤ fPriority s f
    withSlu (fun u => { u with delays := u.delays ++ [⟨hi, (tickNow s).toNat + d, n⟩] })
      (setSlot n { slotOf s n with place := .delayed } (putDelay (if hi then 0 else 1) ((tickNow s).toNat + d) n s))
  else
    setIrq pgSLU 4 (withSlu (fun u => { u with refused := satAdd u.refused 1 32767 }) (pushTail f n s))

-- Matching

/-- Fuse the items of an operand set, in order of arrival (R197): the first carries the others; it then follows R189 from step 3. -/
def fuseItems (f : Nat) (ns : List Nat) (s : State) : State :=
  match ns with
  | [] => s
  | n :: rest =>
    let d := ns.foldl (fun a m => max a (slotOf s m).delay) 0
    let ops := rest.map fun m => (handleOf s m, (slotOf s m).len)
    let s := rest.foldl (fun t m => setSlot m { slotOf t m with place := .fusedInto } t) s
    let s := if rest.isEmpty then s else
      setSlot n { slotOf s n with fused := true, operands := rest.length, ops := ops } s
    delayOrQueue f n (max d (fDefer s f)) s

/-- An entry leaves the matching store, and its delay entry with it (R197, R201). -/
def dropMatch (m : MatchEntry) (s : State) : State :=
  let s := withSlu (fun u => { u with matching := u.matching.filter fun k => decide (k ≠ m) }) s
  match m.deadline with
  | some t => delayLinks 3 t s
  | none => s

/-- Read a matching-store entry: the items of an uncorrectable one go to the exception ring (R213). The result says whether it stays. -/
def readMatch (m : MatchEntry) (s : State) : State × Bool :=
  let k := m.slots.head?.getD 0
  let ue := sluUe s 4 k 0 4
  let s := sluTouch 4 k 0 4 s
  if ue then (m.slots.foldl (fun t n => toException n 0x0634 t) (dropMatch m (sluMend 4 k 0 4 s)), false) else (s, true)

/-- An item enters the matching store (R197, R199). -/
def matchArrive (f n : Nat) (s : State) : State :=
  let tag := (slotOf s n).mtag
  let isKey (m : MatchEntry) : Bool := m.flow.toNat = f && m.mtag = tag
  let s := match s.slu.matching.find? isKey with
    | some m => (readMatch m s).1
    | none => s
  match s.slu.matching.find? isKey with
  | some m =>
    let ns := m.slots ++ [n]
    if fOperands s f + 1 ≤ ns.length then
      fuseItems f ns (dropMatch m s)
    else
      let m' := { m with slots := ns }
      withSlu (fun u => { u with matching := u.matching.map fun k => if isKey k then m' else k })
        (setSlot n { slotOf s n with place := .matching } s)
  | none =>
    let mto := fMatchTo s f
    if 16384 ≤ s.slu.matching.length || (0 < mto && !delayFree s) then setIrq pgSLU 4 (toException n 0x0623 s)
    else
      let e : MatchEntry := ⟨BitVec.ofNat 16 f, tag, [n], if mto = 0 then none else some ((tickNow s).toNat + mto)⟩
      let s := sluMend 4 n 0 4 (if mto = 0 then s else putDelay 3 ((tickNow s).toNat + mto) n s)
      withSlu (fun u => { u with matching := u.matching ++ [e] }) (setSlot n { slotOf s n with place := .matching } s)

/-- Place an item that holds slot `n` (R189). A flow entry that reads uncorrectable quarantines its flow first (R213). -/
def arriveSlot (n : Nat) (s : State) : State :=
  let f := (slotOf s n).flow.toNat
  let s := sluTouch 1 f 0 4 s
  let s := if sluUe s 1 f 0 4 then quarantineFlow f s else s
  if !fEn s f then toException n 0x0624 s
  else if (flowDyn s f).quarantined then toException n 0x0625 s
  else if 0 < fOperands s f then matchArrive f n s
  else delayOrQueue f n (max (slotOf s n).delay (fDefer s f)) s

/-- An item as its source hands it over. -/
structure Arrival where
  flow  : BitVec 16
  len   : Nat
  mtag  : BitVec 32
  delay : Nat
  meta0 : Word
  bank  : BitVec 7
  row   : BitVec 12
  owner : RowOwner

/-- An item takes a slot from the free pool, with the next generation (R186, R187): its words 0 to 7 are written. -/
def fillSlot (n : Nat) (a : Arrival) (s : State) : State :=
  sluMend 3 n 0 8 <| setSlot n { Slot.filled with
    gen := (slotOf s n).gen + 1, place := .queued, flow := a.flow, len := a.len, mtag := a.mtag, bank := a.bank, row := a.row,
    rows := (a.len + 1023) / 1024 - 1, meta0 := a.meta0, delay := a.delay, owner := a.owner } s

/-- Words 0 to 3 of a stored descriptor (R153, R186). -/
def storedWords (a : Arrival) : List Nat :=
  [a.len % 8192 * 2 ^ 32 + a.flow.toNat * 2 ^ 48, a.mtag.toNat * 2 ^ 32,
    a.bank.toNat + a.row.toNat * 2 ^ 7 + ((a.len + 1023) / 1024 - 1) % 4 * 2 ^ 19, a.meta0.toNat]

/-- The payload of a message cannot be read yet (R327): its bank is not awake, or an earlier arrival for the same device waits. -/
def payloadWaits (x : Stalled) (s : State) : Bool :=
  (0 < x.len && !bankAwake s x.bank) || (x.svc.isNone && s.enr.stalled.any fun y => y.svc.isNone && y.dev = x.dev)

/-- A message waits for the bank of its payload, whose wake it starts (R327). -/
def stallPayload (x : Stalled) (s : State) : State :=
  let t := if 0 < x.len then bankTouch x.bank s else s
  { t with enr := { t.enr with stalled := t.enr.stalled ++ [x] } }

/-- Read the payload of a message, with its errors logged (R319): the bytes; none where a byte is uncorrectable or D4 is in reset (R441). -/
def payloadRead (x : Stalled) (s : State) : Option (List Byte) × State :=
  if x.len = 0 then (some [], s)
  else if s.mod.dieReset = some 4 then (none, s)
  else
    let r := readBytes s x.bank x.row x.len
    (if r.2 then none else some r.1, logRows x.bank x.row x.len s)

/-- Send an ARRIVE message with its payload (R188, R275); lost where no port to the home is UP (R280) or its payload cannot be read (log
entry 316). The payload rows return to their owner. -/
def sendArrive (x : Stalled) (s : State) : State :=
  let r := payloadRead x s
  let s := if x.owned then returnGroup x.bank x.row r.2 else r.2
  match r.1, portTo s x.dev with
  | some bs, some p => sendMsg p { kind := 1, ref := x.ref, body := x.front ++ bs, flits := 0 } s
  | _, _ => { s with enr := { s.enr with lost := s.enr.lost + 1 } }

/-- Forward an arrival to the home device of its flow: an ARRIVE message with the payload, once its bank is awake (R188, R275, R327). -/
def forwardArrival (a : Arrival) (s : State) : State :=
  let x : Stalled :=
    { dev := BitVec.ofNat 3 (fHome s a.flow.toNat), svc := none, ref := 0
      front := (storedWords a).flatMap (fun w => toBytes 8 (BitVec.ofNat 64 w)) ++ toBytes 4 (BitVec.ofNat 32 a.delay)
      bank := a.bank.toNat, row := a.row.toNat, len := a.len, owned := a.owner ≠ .none }
  if payloadWaits x s then stallPayload x s else sendArrive x s

/-- An item arrives (R188, R189): forwarded to its home, or placed in the slot that it takes; `false` where no slot is free. -/
def itemArrive (a : Arrival) (s : State) : State × Bool :=
  if fHome s a.flow.toNat ≠ devIndex s then (forwardArrival a s, true)
  else match nextFree s with
    | none => (s, false)
    | some n => (arriveSlot n (fillSlot n a s), true)

-- Segments of the intake

/-- META of a data segment (R239). -/
def segMeta (g : Segment) : Word :=
  let m := g.arrival.toNat + g.rung % 16 * 2 ^ 38 + g.lane % 256 * 2 ^ 42 + g.sub.toNat * 2 ^ 50
  BitVec.ofNat 64 (if g.records then m + 2 ^ 61
    else m + b2n g.errTrunc * 2 ^ 57 + b2n g.errCode * 2 ^ 58 + b2n g.last * 2 ^ 59 + b2n g.first * 2 ^ 60)

/-- Keep the cause of the last drop of a lane (R258): at `2 * lane` of its intake, at `2 * lane + 1` of its egress. -/
def noteDrop (k cause : Nat) (s : State) : State := { s with lan := { s.lan with drops := tput 0 k (BitVec.ofNat 16 cause) s.lan.drops } }

/-- Count a dropped segment or frame of a lane with its cause: LANE_DROP.INTAKE and IRQ_STAT bit 3 (R236, R240, R257, R258). -/
def intakeDrop (lane cause : Nat) (s : State) : State :=
  setIrq (pgQUAD (lane / 4)) 3 (incF (at' (pgQUAD (lane / 4)) (0x12C + 0x40 * (lane % 4))) 16 16 1 (noteDrop (2 * lane) cause s))

/-- The item of a closed segment (R238). -/
def segArrival (s : State) (g : Segment) : Arrival :=
  { flow := BitVec.ofNat 16 (fld (partner0 s g.partner) 0 16), len := g.bytes.length, mtag := 0, delay := 0, meta0 := segMeta g,
    bank := BitVec.ofNat 7 g.bank, row := BitVec.ofNat 12 g.row, owner := .intake }

/-- A closed segment may enter Sluice now: no back-pressure, and a slot or a forward (R190, R240). -/
def segMayEnter (s : State) (g : Segment) : Bool :=
  !intakeStops s g.partner && (0 < freeSlots s || fHome s (fld (partner0 s g.partner) 0 16) ≠ devIndex s)

/-- Enter the held segments that may be entered, in arrival order per partner (R190, R240); `n` bounds the work. -/
def releaseHeld : Nat → State → State
  | 0, s => s
  | n + 1, s =>
    match s.lan.held.zipIdx.find? fun p =>
        segMayEnter s p.1 && !(s.lan.held.take p.2).any fun h => h.partner = p.1.partner with
    | none => s
    | some (g, i) =>
      let s := { s with lan := { s.lan with held := s.lan.held.eraseIdx i } }
      releaseHeld n (bpEval (itemArrive (segArrival s g) s).1)

/-- Back-pressure and the held segments after a change of the queues or slots. -/
def settle (s : State) : State :=
  let s := bpEval s
  releaseHeld s.lan.held.length s

/-- A segment closes (R238, R240): entered, held within the partner's SKID, or dropped and counted. -/
def closeSegment (g : Segment) (s : State) : State :=
  let behind := s.lan.held.any fun h => h.partner = g.partner
  if segMayEnter s g && !behind then settle (itemArrive (segArrival s g) s).1
  else if (s.lan.held.filter fun h => h.partner = g.partner).length < rdF s (at' (pgQUAD (g.lane / 4)) 0x40) 8 8 then
    { s with lan := { s.lan with held := s.lan.held ++ [g] } }
  else intakeDrop g.lane 0x0712 (returnGroup g.bank g.row s)

-- Pairs, credits, selection

/-- Pair `i` of a group (R182). -/
def pairOf (s : State) (g i : Nat) : Nat := fld (groupW s g (1 + i / 4)) (16 * (i % 4)) 16
/-- V. -/
def pairV (p : Nat) : Bool := p.testBit 15
/-- DEV. -/
def pairDev (p : Nat) : Nat := (p >>> 12) % 8
/-- BASIN. -/
def pairBasin (p : Nat) : Nat := (p >>> 7) % 32
/-- PLANE. -/
def pairPlane (p : Nat) : Nat := (p >>> 3) % 16
/-- PORTS. -/
def pairPorts (p : Nat) : Nat := (p >>> 1) % 4
/-- The intake ports that PORTS permits (R182). -/
def portsOf (p : Nat) : List Nat := if pairPorts p = 0 then [0, 1] else if pairPorts p = 1 then [0] else [1]

/-- Basin `n`. -/
def basinOf (s : State) (n : Nat) : Basin := tget .zero n s.fab.basins
/-- Write basin `n`. -/
def setBasin (n : Nat) (b : Basin) (s : State) : State := { s with fab := { s.fab with basins := tput .zero n b s.fab.basins } }
/-- An intake port of a basin. -/
def intakeOf (b : Basin) (port : Nat) : Intake := if port = 0 then b.in0 else b.in1
/-- Write an intake port of a basin. -/
def setIntake (b : Basin) (port : Nat) (i : Intake) : Basin := if port = 0 then { b with in0 := i } else { b with in1 := i }
/-- The state of plane `p` of basin `n`. -/
def planeInfo (s : State) (n p : Nat) : PlaneInfo := tget .zero (16 * n + p) s.fab.planeSt

/-- Deliveries that will not be made return the rows that a peer's items took (R325). -/
def returnDeliveries (ds : List Delivery) (s : State) : State := ds.foldl (fun t d => returnGuest d.service d.bank.toNat d.row.toNat t) s
/-- Items in flight that are gone return the rows that a peer's items took (R325). -/
def returnFlights (is : List Flight) (s : State) : State := is.foldl (fun t i => returnGuest i.service i.bank.toNat i.row.toNat t) s

/-- Every plane and frame plane goes to BLANK at once: IRQ_STAT bit 3 of the basins in which one was not (R121). -/
def blankIrqs (s : State) : State :=
  (List.range 34).foldl (fun t n =>
    if (basinOf s n).frame.st ≠ .blank || (List.range 16).any fun p => (planeInfo s n p).st ≠ .blank then setIrq (pgBSN n) 3 t else t) s

/-- Free intake credits of a port (R185): 8 less the items dispatched to it whose time in flight has not ended. -/
def portCredits (s : State) (n port : Nat) : Nat :=
  8 - (s.slu.transit.filter fun t => t.1 = n && t.2.1 = port).length - (intakeOf (basinOf s n) port).waiting.length
    - ((basinOf s n).items.filter fun i => i.port = port).length

/-- SLU_OFFLINE of a logical basin (R184). -/
def offline (s : State) (l : Nat) : Bool := rdB s (at' pgSLU 0x54) l

/-- A pair is V, VALID and not offline, credits aside (R196). -/
def pairUsable (s : State) (p : Nat) : Bool :=
  pairV p &&
    if pairDev p = devIndex s then
      (planeInfo s (physOf s (pairBasin p)) (pairPlane p)).st = .valid && !offline s (pairBasin p)
    else
      let r := tget ⟨0, false, 0⟩ (32 * pairDev p + pairBasin p) s.enr.peers
      (portTo s (BitVec.ofNat 3 (pairDev p))).isSome && !r.offline && bit r.valid (pairPlane p)

/-- The free credits of a pair: of its permitted ports together, or of the peer's last report (R185). -/
def pairCredits (s : State) (p : Nat) : Nat :=
  if pairDev p = devIndex s then ((portsOf p).map (portCredits s (physOf s (pairBasin p)))).sum
  else (tget ⟨0, false, 0⟩ (32 * pairDev p + pairBasin p) s.enr.peers).credits

/-- A group's entry can be read (R213). -/
def groupOk (s : State) (g : Nat) : Bool := !sluUe s 2 g 0 8 && !tget false g s.slu.groupFix

/-- A pair is selectable (R185); a local pair is not while its basin is in DEEP (R425). -/
def pairSelectable (s : State) (p : Nat) : Bool :=
  pairUsable s p && 0 < pairCredits s p
    && (pairDev p ≠ devIndex s || (basinOf s (physOf s (pairBasin p))).power ≠ .deep)

/-- The pairs of a group with their indices. -/
def groupPairs (s : State) (g : Nat) : List (Nat × Nat) := (List.range 16).map fun i => (i, pairOf s g i)

/-- The selectable pairs of a group. -/
def selectable (s : State) (g : Nat) : List (Nat × Nat) :=
  if groupOk s g then (groupPairs s g).filter fun p => pairSelectable s p.2 else []

/-- ROTOR of a group. -/
def rotorOf (s : State) (g : Nat) : Nat := tget 0 g s.slu.rotor

/-- select_pair (R194): the most free credits, searching from the rotor upward. -/
def selectPair (s : State) (g : Nat) : Option (Nat × Nat) :=
  let c := (selectable s g).foldl (fun a p => max a (pairCredits s p.2)) 0
  let best := (selectable s g).filter fun p => pairCredits s p.2 = c
  (best.find? fun p => rotorOf s g ≤ p.1).orElse fun _ => best.head?

/-- The port of a local pair: the one with more free credits, IN_0 on a tie (R194). -/
def choosePort (s : State) (p : Nat) : Nat :=
  let n := physOf s (pairBasin p)
  match portsOf p with
  | [k] => k
  | _ => if portCredits s n 0 < portCredits s n 1 then 1 else 0

/-- A flow is eligible (R191). -/
def eligible (s : State) (f : Nat) : Bool := selectable s (fGroup s f) ≠ []

/-- The first eligible flow among the first 16 of a priority (R191). -/
def firstEligible (s : State) (p : Nat) : Option Nat := ((readyList s p).take 16).find? (eligible s)

/-- The cost of an item in units of 64 payload bytes (R193). -/
def itemCost (s : State) (n : Nat) : Nat :=
  max 1 (((slotOf s n).len + ((slotOf s n).ops.map (·.2)).sum + 63) / 64)

/-- WEIGHT of a priority 0 to 7 (R193). -/
def weightOf (s : State) (p : Nat) : Nat := rdF s (at' pgSLU (0x4C + 4 * (p / 4))) (8 * (p % 4)) 8

/-- DEFICIT of a priority. -/
def deficitOf (s : State) (p : Nat) : Int := tget 0 p s.slu.deficit

/-- A value clamped to -320 to +320 (R193). -/
def clampDef (x : Int) : Int := max (-320) (min 320 x)

/-- Assign a DEFICIT, clamped (R193). -/
def setDeficit (p : Nat) (x : Int) (s : State) : State :=
  withSlu (fun u => { u with deficit := tput 0 p (clampDef x) u.deficit }) s

/-- The rounds of top-up that make some eligible priority's deficit positive (R192). -/
def topUpRounds (s : State) (e : List Nat) : Nat :=
  (e.map fun p => if 0 < weightOf s p then ((-(deficitOf s p)).toNat / weightOf s p + 1) else 65536).foldl min 65536

/-- dwrr_pick (R192): the flow chosen among priorities 0 to 7, with the deficits topped up and charged. -/
def dwrrPick (s : State) : Option Nat × State :=
  let e := (List.range 8).filter fun p => (firstEligible s p).isSome
  let s := (List.range 8).foldl (fun t p => if readyList t p = [] then setDeficit p 0 t else t) s
  if e = [] then (none, s)
  else
    let s := if e.any fun p => 0 < deficitOf s p then s
      else
        let n := topUpRounds s e
        e.foldl (fun t p => setDeficit p (deficitOf t p + (n * weightOf t p : Nat)) t) s
    let order := (List.range 8).map fun k => (s.slu.rrPtr + 8 - k) % 8
    match order.find? fun p => e.contains p && 0 < deficitOf s p with
    | none => (none, s)
    | some p =>
      let f := firstEligible s p
      let cost := itemCost s (((flowDyn s (f.getD 0)).queue.head?).getD 0)
      let s := setDeficit p (deficitOf s p - (cost : Int)) s
      (f, withSlu (fun u => { u with rrPtr := if 0 < deficitOf s p then p else (p + 7) % 8 }) s)

/-- The flow of a dispatch slot (R192): strict priorities 15 to 8, then dwrr_pick. -/
def pickFlow (s : State) : Option Nat × State :=
  match (List.range 8).findSome? fun k => firstEligible s (15 - k) with
  | some f => (some f, s)
  | none => dwrrPick s

/-- MODEL of an item: descriptor only for a control item (R208), else the group's (R194). -/
def modelOf (s : State) (f n : Nat) : Nat := if ctlBase ≤ n then 2 else fld (groupW s (fGroup s f) 0) 1 2

/-- The descriptor beat of an item (R153). -/
def descriptorBeat (s : State) (f n plane : Nat) : BitVec 512 :=
  let v := slotOf s n
  let w0 := plane % 16 + modelOf s f n * 2 ^ 4 + b2n v.fused * 2 ^ 6 + b2n v.reissue * 2 ^ 7 + (handleOf s n).toNat * 2 ^ 8
    + v.len % 8192 * 2 ^ 32 + v.operands % 8 * 2 ^ 45 + f * 2 ^ 48
  let w1 := fPartner s f + fGroup s f * 2 ^ 12 + fPriority s f * 2 ^ 20 + (if v.fused then v.mtag.toNat * 2 ^ 32 else 0)
  let w2 := v.bank.toNat + v.row.toNat * 2 ^ 7 + v.rows % 4 * 2 ^ 19 + (tickNow s).toNat % 2 ^ 32 * 2 ^ 32
  let op (i : Nat) : Nat := match v.ops[i]? with
    | some o => o.1.toNat + o.2 % 8192 * 2 ^ 20
    | none => 0
  BitVec.ofNat 512 (w0 + w1 * 2 ^ 64 + w2 * 2 ^ 128 + v.meta0.toNat * 2 ^ 192 + op 0 * 2 ^ 256 + op 1 * 2 ^ 320 + op 2 * 2 ^ 384)

/-- A usable pair exists in a flow's group (R196). -/
def groupUsable (s : State) (f : Nat) : Bool :=
  groupOk s (fGroup s f) && (groupPairs s (fGroup s f)).any fun p => pairUsable s p.2

/-- GROUP_EMPTY is armed again for every flow whose group has a usable pair (R196). -/
def rearmEmpty (s : State) : State :=
  (s.slu.flows.filter fun q => q.2.emptyRaised).foldl
    (fun t q => if groupUsable t q.1 then setFlowDyn q.1 { flowDyn t q.1 with emptyRaised := false } t else t) s

/-- GROUP_EMPTY (R196): raised once for a flow at the head of its ready list without a usable pair. -/
def groupEmptyCheck (s : State) : State :=
  let s := rearmEmpty s
  (List.range 16).foldl (fun t p => match readyList t p with
    | [] => t
    | f :: _ =>
      if groupUsable t f || (flowDyn t f).emptyRaised then t
      else setIrq pgSLU 5 (wr (at' pgSLU 0x74) (BitVec.ofNat 32 (fGroup t f))
        (setFlowDyn f { flowDyn t f with emptyRaised := true } t))) s

-- Completion and reissue

/-- The service of a number. -/
def serviceOf (s : State) (id : Nat) : Option Service := s.slu.services.find? fun v => v.id = id

/-- Remove a service with its delay entry and re-evaluate its flow. -/
def endService (v : Service) (s : State) : State :=
  let s := withSlu (fun u => { u with services := u.services.filter fun w => decide (w.id ≠ v.id) }) s
  reeval v.flow.toNat (match v.deadline with
    | some t => delayLinks 2 t s
    | none => s)

/-- A late completion is counted; it ends a drain (R204, R205). -/
def lateCompletion (id : Nat) (s : State) : State :=
  let s := incF (at' pgSLU 0x68) 0 32 1 s
  match serviceOf s id with
  | some v => if v.draining then endService v s else s
  | none => s

/-- A flow's counters of words 3, saturating (R179). -/
def bumpDone (f : Nat) (s : State) : State :=
  setFlowDyn f { flowDyn s f with done := satAdd (flowDyn s f).done 1 (2 ^ 32 - 1) } s
/-- ERRORS. -/
def bumpErrors (f : Nat) (s : State) : State :=
  setFlowDyn f { flowDyn s f with errors := satAdd (flowDyn s f).errors 1 65535 } s
/-- TIMEOUTS. -/
def bumpTimeouts (f : Nat) (s : State) : State :=
  setFlowDyn f { flowDyn s f with timeouts := satAdd (flowDyn s f).timeouts 1 65535 } s

/-- A completion on the trace port (R523): the format of its record is not given (log entry 29). -/
def traceCompletion (s : State) : State :=
  if rdB s (at' pgDBG 0x40) 31 && rdF s (at' pgDBG 0x40) 0 2 = 1 then
    let r := takeFree 192 s
    traceOut 1 r.1 r.2
  else s

/-- A commit or abort of a service (R204): of the current one, the slot is released and DONE counts; else it is late. A service record
that reads uncorrectable sends the item to the exception ring (R213). -/
def finishService (id : Nat) (s : State) : State :=
  match serviceOf s id with
  | some v =>
    if v.current then
      let s := sluTouch 3 v.slot 8 16 s
      if sluUe s 3 v.slot 8 16 then endService v (toException v.slot 0x0633 s)
      else endService v (traceCompletion (bumpDone v.flow.toNat (releaseSlot v.slot s)))
    else lateCompletion id s
  | none => lateCompletion id s

/-- A commit or abort of a service, with the back-pressure that follows from it. -/
def completeService (id : Nat) (s : State) : State := settle (finishService id s)

/-- The outputs of a service are released when it commits: it is its item's current one, and its record can be read (R204, R213). -/
def mayRelease (s : State) (id : Nat) : Bool :=
  match serviceOf s id with
  | some v => v.current && !sluUe s 3 v.slot 8 16
  | none => false

/-- An item goes back to the head of its flow's queue with REISSUE = 1, or to the exception ring once its retries are spent (R205). -/
def retryItem (n cause : Nat) (s : State) : State :=
  let v := slotOf s n
  let f := v.flow.toNat
  if v.errTries < fRetry s f then
    pushHead f n (setSlot n { v with reissue := true, errTries := v.errTries + 1, service := none } s)
  else toException n cause s

/-- An item error ends the current service (R205); one of another service is late (R204). -/
def itemError (id cause : Nat) (s : State) : State :=
  match serviceOf s id with
  | some v =>
    if v.current then
      let s := endService v (bumpErrors v.flow.toNat (sluTouch 3 v.slot 8 16 s))
      settle (if sluUe s 3 v.slot 8 16 then toException v.slot 0x0633 s else retryItem v.slot cause s)
    else lateCompletion id s
  | none => lateCompletion id s

/-- A failover reissue (R210): to the head of the flow's queue, or to the exception ring at the third. -/
def failoverItem (v : Service) (s : State) : State :=
  let s := endService v s
  if v.current then
    let t := slotOf s v.slot
    if 2 ≤ t.failTries then toException v.slot 0x0621 s
    else pushHead v.flow.toNat v.slot (setSlot v.slot { t with reissue := true, failTries := t.failTries + 1, service := none } s)
  else s

/-- End and reissue every service that `p` picks, keeping the dispatch order within each flow (R210, R279, R280). -/
def reissueWhere (p : Service → Bool) (s : State) : State :=
  settle ((s.slu.services.filter p).reverse.foldl (fun t v => failoverItem v t) s)

-- Dispatch

/-- Send a DISPATCH with its whole payload (R277); nothing for a service that has ended, and an item error where the payload cannot be read
(R319, R441, log entry 316). -/
def sendDispatch (id : Nat) (x : Stalled) (s : State) : State :=
  if (serviceOf s id).isNone then s
  else
    let r := payloadRead x s
    match r.1 with
    | none => itemError id (if s.mod.dieReset = some 4 then 0x0201 else 0x0903) r.2
    | some bs => match portTo r.2 x.dev with
      | some p => sendMsg p { kind := 0, ref := x.ref, body := x.front ++ bs, flits := 0 } r.2
      | none => r.2

/-- A message with a payload is sent, or waits for its bank (R327). -/
def sendPayload (s : State) (x : Stalled) : State :=
  if payloadWaits x s then stallPayload x s
  else match x.svc with
    | some id => sendDispatch id x s
    | none => sendArrive x s

/-- The DISPATCH message of an item (R277). -/
def dispatchMessage (id f n pair : Nat) (s : State) : Stalled :=
  let v := slotOf s n
  { dev := BitVec.ofNat 3 (pairDev pair), svc := some id, ref := handleOf s n
    front := toBytes 64 (descriptorBeat s f n (pairPlane pair)) ++ toBytes 2 (BitVec.ofNat 16 id)
      ++ [BitVec.ofNat 8 (pairBasin pair), BitVec.ofNat 8 (pairPlane pair + 16 * pairPorts pair)]
    bank := v.bank.toNat, row := v.row.toNat, len := v.len, owned := false }

/-- dispatch(f) to a chosen pair (R194, R195): the service record, the timeout, the beat or message on its way, the flow's state. -/
def dispatchTo (f n : Nat) (pair : Nat × Nat) (s : State) : State :=
  let g := fGroup s f
  let p := pair.2
  let localPair := pairDev p = devIndex s
  let port := if localPair then choosePort s p else 0
  let id := s.slu.nextSvc
  let dl := if 0 < fSvcTo s f then some ((tickNow s).toNat + fSvcTo s f) else none
  let beat := descriptorBeat s f n (pairPlane p)
  let v := slotOf s n
  let svc : Service := ⟨id, n, BitVec.ofNat 16 f, BitVec.ofNat 3 (pairDev p), BitVec.ofNat 5 (pairBasin p),
    BitVec.ofNat 4 (pairPlane p), port, dl, false, true⟩
  let d : Delivery := ⟨handleOf s n, BitVec.ofNat 4 (pairPlane p), BitVec.ofNat 8 g, v.bank, v.row, v.rows, 2 * id, none,
    [⟨beat, true, true⟩]⟩
  let wasTail := (readyList s (fPriority s f)).filter fun h => decide (h ≠ f)
  let s := match dl with
    | some t => putDelay 2 t n s
    | none => s
  let s := withSlu (fun u => { u with services := u.services ++ [svc], nextSvc := id + 1, rotor := tput 0 g ((pair.1 + 1) % 16) u.rotor }) s
  let s := sluMend 3 n 8 16 (setSlot n { slotOf s n with place := .service, service := some id } s)
  let s := unqueue f n s
  let s := setFlowDyn f { flowDyn s f with svcDev := BitVec.ofNat 3 (pairDev p), svcBasin := BitVec.ofNat 5 (pairBasin p) } s
  let s := if flowState s f = 1 then setReady (fPriority s f) (wasTail ++ [f]) s else s
  if localPair then
    let ph := physOf s (pairBasin p)
    let b := basinOf s ph
    let s := if b.power = .run || !rdB s (clkEnA (pgBSN ph)) 0 then s else setBasin ph { b with waking := true } s
    withSlu (fun u => { u with transit := u.transit ++ [(ph, port, d)] }) s
  else
    let key := 32 * pairDev p + pairBasin p
    let r := tget (⟨0, false, 0⟩ : PeerBasin) key s.enr.peers
    let s := { s with enr := { s.enr with peers := tput ⟨0, false, 0⟩ key { r with credits := r.credits - 1 } s.enr.peers } }
    sendPayload s (dispatchMessage id f n p s)

-- Offline

/-- A logical basin goes offline (R209): bit and cause, IRQ_STAT bit 0; a fault starts the failover of R210. -/
def basinOffline (l cause : Nat) (isFault : Bool) (s : State) : State :=
  let s := if offline s l then s
    else withSlu (fun u => { u with cause := tput 0 l (BitVec.ofNat 16 cause) u.cause }) (wrF (at' pgSLU 0x54) l 1 1 s)
  let s := if isFault && tget 0 l s.slu.failover = 0 then
      withSlu (fun u => { u with failover := tput 0 l 2 u.failover }) s
    else s
  setIrq pgSLU 0 s

/-- A physical basin reports a fault: the logical basin that maps to it goes offline (R116, R209). -/
def physOffline (n cause : Nat) (s : State) : State :=
  match logicalOf s n with
  | some l => basinOffline l cause true s
  | none => s

end Sys2Proof.Machine
end

