-- ==== Sys2Proof/Machine/FabricOps.lean ====
section
/-! DEFINITION. The fabric's shared operations: places, plane fields, codeword reads, traps, the context that each crystal runs, the
tracks, the operands of its word engine, initial values, purge and reset (02 to 05). -/

namespace Sys2Proof.Machine

/-- Replace the fabric record. -/
def withFab (u : Fabric → Fabric) (s : State) : State := { s with fab := u s.fab }

-- Places

/-- The key of crystal `x` (0..511, R30) of physical basin `n`. -/
def xk (n x : Nat) : Nat := 512 * n + x
/-- The pan of a crystal address. -/
def panOf (x : Nat) : Nat := x / 32
/-- The row of a crystal in its pan (R28). -/
def rowOf (x : Nat) : Nat := x % 32 / 8
/-- The column of a crystal in its pan (R28). -/
def colOf (x : Nat) : Nat := x % 8
/-- The stacked partner of a pan. -/
def partnerPan (p : Nat) : Nat := (p + 8) % 16
/-- The crystal at a pan, row and column. -/
def xAt (p r c : Nat) : Nat := 32 * p + 8 * r + c

/-- The port that a crystal's position can serve (R147): KIND, index of the port in its kind, and its fence place. -/
def portPlace (x : Nat) : Option (Nat × Nat × Nat) :=
  match panOf x, rowOf x with
  | 0, 0 => some (1, 0, 0)
  | 8, 0 => some (1, 1, 1)
  | 7, 3 => some (2, 0, 2)
  | 15, 3 => some (2, 1, 3)
  | 11, 1 => some (3, 0, 4)
  | 12, 1 => some (3, 0, 4)
  | 11, 2 => some (3, 1, 5)
  | 12, 2 => some (3, 1, 5)
  | 3, 1 => some (3, 2, 6)
  | 4, 1 => some (3, 2, 6)
  | 3, 2 => some (3, 3, 7)
  | 4, 2 => some (3, 3, 7)
  | _, _ => none

-- Stored parts

/-- Crystal with key `k`. -/
def crystalOf (s : State) (k : Nat) : Crystal := tget .zero k s.fab.crystals
/-- Write a crystal. -/
def setCrystal (k : Nat) (v : Crystal) (s : State) : State := withFab (fun f => { f with crystals := tput .zero k v f.crystals }) s
/-- Codeword `w` of plane `p` of a crystal (R54). -/
def planeCode (s : State) (k p w : Nat) : Code := tget 0 (64 * (16 * k + p) + w) s.fab.planes
/-- Write a codeword of a plane. -/
def setPlaneCode (k p w : Nat) (c : Code) (s : State) : State :=
  withFab (fun f => { f with planes := tput 0 (64 * (16 * k + p) + w) c f.planes }) s
/-- Grain state-bank codeword `j` of a crystal (R56). -/
def bankCode (s : State) (k j : Nat) : Code := tget 0 (4 * k + j) s.fab.banks
/-- Write a state-bank codeword. -/
def setBankCode (k j : Nat) (c : Code) (s : State) : State := withFab (fun f => { f with banks := tput 0 (4 * k + j) c f.banks }) s
/-- X of context `c` (R67). -/
def xCode (s : State) (k c : Nat) : Code := tget 0 (16 * k + c) s.fab.xs
/-- Write X. -/
def setX (k c : Nat) (v : Code) (s : State) : State := withFab (fun f => { f with xs := tput 0 (16 * k + c) v f.xs }) s
/-- Y of context `c` (R67). -/
def yCode (s : State) (k c : Nat) : Code := tget 0 (16 * k + c) s.fab.ys
/-- Write Y. -/
def setY (k c : Nat) (v : Code) (s : State) : State := withFab (fun f => { f with ys := tput 0 (16 * k + c) v f.ys }) s
/-- The flag codeword (R67). -/
def flCode (s : State) (k : Nat) : Code := tget 0 k s.fab.flags
/-- Write the flag codeword. -/
def setFl (k : Nat) (v : Code) (s : State) : State := withFab (fun f => { f with flags := tput 0 k v f.flags }) s
/-- The lane registers of lane `j` of set `t` (UP 0, DN 1, RS 2) of a pan. -/
def laneReg (s : State) (n p t j : Nat) : LaneReg := tget ⟨0, 0⟩ (24 * (16 * n + p) + 8 * t + j) s.fab.lanes
/-- The settings entry of a lane under a plane (R136). -/
def laneSet (s : State) (n p t j c : Nat) : LaneSet := tget ⟨0, false⟩ (16 * (24 * (16 * n + p) + 8 * t + j) + c) s.fab.laneSets
/-- The receive register of spine `i` of a pan's die (R138). -/
def spineReg (s : State) (n p i : Nat) : Word := tget 0 (4 * (16 * n + p) + i) s.fab.spines
/-- Row port `r` of a basin. -/
def rowPort (s : State) (n r : Nat) : RowPort := tget .zero (4 * n + r) s.fab.rows
/-- Write a row port. -/
def setRowPort (n r : Nat) (v : RowPort) (s : State) : State := withFab (fun f => { f with rows := tput .zero (4 * n + r) v f.rows }) s
/-- The fences posted on a port of a basin. -/
def fencesOf (s : State) (n q : Nat) : List Fence := tget [] (8 * n + q) s.fab.fences
/-- Write the fences of a port. -/
def setFences (n q : Nat) (l : List Fence) (s : State) : State := withFab (fun f => { f with fences := tput [] (8 * n + q) l f.fences }) s
/-- Write the state of a plane; IRQ_STAT bit 3 where it enters BLANK, VALID or FAILED (R121). -/
def setPlaneInfo (n p : Nat) (v : PlaneInfo) (s : State) : State :=
  let old := (planeInfo s n p).st
  let s := withFab (fun f => { f with planeSt := tput .zero (16 * n + p) v f.planeSt }) s
  if old ≠ v.st && (v.st = .blank || v.st = .valid || v.st = .failed) then setIrq (pgBSN n) 3 s else s
/-- Write the state of a frame plane (R112, R121). -/
def setFrameInfo (n : Nat) (v : PlaneInfo) (s : State) : State :=
  let old := (basinOf s n).frame.st
  let s := setBasin n { basinOf s n with frame := v } s
  if old ≠ v.st && (v.st = .blank || v.st = .valid || v.st = .failed) then setIrq (pgBSN n) 3 s else s

/-- Items in flight in a basin (R109). -/
def inFlight (s : State) (n : Nat) : Nat := (basinOf s n).items.length
/-- INFLIGHT of a plane (R109). -/
def inFlightOf (s : State) (n p : Nat) : Nat := ((basinOf s n).items.filter fun i => i.tag.toNat = p).length
/-- HALT of BSN_MODE. -/
def haltBit (s : State) (n : Nat) : Bool := rdB s (at' (pgBSN n) 0x40) 0
/-- HALTED: HALT is 1 and no item is in flight (R122). -/
def halted (s : State) (n : Nat) : Bool := haltBit s n && (basinOf s n).items.isEmpty
/-- A basin is at its border while its frame plane is not VALID (R309). -/
def atBorder (s : State) (n : Nat) : Bool := (basinOf s n).frame.st ≠ .valid

/-- A self-test runs on the logic of a basin (R469, R471, R474): its crystals take no cycle. -/
def underTest (s : State) (n : Nat) : Bool :=
  s.ecc.bistP = n && match s.ecc.phase with
    | .none => false
    | .drain => false
    | _ => true

-- Traps

/-- A context fault trap: crystal address, cause, context. -/
abbrev Trap := Nat × Nat × Nat

/-- The trap that is recorded: lowest crystal address, then lowest cause code (R116). -/
def firstTrap : List Trap → Option Trap
  | [] => none
  | t :: r => match firstTrap r with
    | none => some t
    | some u => if u.1 < t.1 || (u.1 = t.1 && u.2.1 < t.2.1) then some u else some t

/-- Record a trap in BSN_FAULT (R116). -/
def recordTrap (n : Nat) (t : Trap) (more : Bool) (s : State) : State :=
  let a := at' (pgBSN n) 0x50
  if rdB s a 31 then wrF a 30 1 1 s
  else wr a (BitVec.ofNat 32 (2 ^ 31 + b2n more * 2 ^ 30 + t.2.2 % 16 * 2 ^ 26 + t.1 % 512 * 2 ^ 16 + t.2.1 % 2 ^ 16)) s

/-- Record the traps of a cycle: where BSN_FAULT records one that a port command raised earlier in the same cycle, the choice is made
anew among all of them. -/
def recordTraps (n : Nat) (ts : List Trap) (s : State) : State :=
  let early := (basinOf s n).early
  match firstTrap (early ++ ts) with
  | none => s
  | some t =>
    recordTrap n t (1 < (early ++ ts).length) (if early = [] then s else wrF (at' (pgBSN n) 0x50) 31 1 0 s)

/-- The context fault traps of one cycle (R116): the record, IRQ_STAT bit 0, the outlet's stop and the report to Sluice. -/
def raiseTraps (n : Nat) (ts : List Trap) (s : State) : State :=
  if ts = [] then s
  else
    let s := setIrq (pgBSN n) 0 (recordTraps n ts s)
    physOffline n 0x0610 (setBasin n { basinOf s n with trapped := true } s)

/-- The traps that a port command raises before the rest of its cycle (R116, R156): they stand in for the cycle's choice until it ends. -/
def raiseEarly (n : Nat) (ts : List Trap) (s : State) : State :=
  let keep := decide (ts ≠ []) && ((basinOf s n).early ≠ [] || !rdB s (at' (pgBSN n) 0x50) 31)
  let t := raiseTraps n ts s
  if keep then setBasin n { basinOf t n with early := (basinOf s n).early ++ ts } t else t

-- Logs of the fabric's stores

/-- ADDR of a plane codeword (KIND 0, R463). -/
def planeLogAddr (n x p w : Nat) (frame : Bool) : Nat := b2n frame * 2 ^ 25 + n * 2 ^ 19 + x * 2 ^ 10 + p * 2 ^ 6 + w
/-- Log a decoded plane codeword: a correctable one with the cause of an uncorrectable one too (log entry 305). -/
def logPlane (n x p w : Nat) (d : Decoded) (s : State) : State := logDecoded 0 (planeLogAddr n x p w false) 0x0531 d false s
/-- Log a decoded word-engine state codeword (KIND 1). -/
def logWe (n x w : Nat) (d : Decoded) (s : State) : State := logDecoded 1 (n * 2 ^ 19 + x * 2 ^ 10 + w) 0x0532 d false s
/-- Log a decoded state-bank codeword (KIND 2). -/
def logBank (n x w : Nat) (d : Decoded) (s : State) : State := logDecoded 2 (n * 2 ^ 19 + x * 2 ^ 10 + w) 0x0532 d false s

/-- A decoded codeword is uncorrectable. -/
def Decoded.isUe : Decoded → Bool
  | .uncorrectable _ => true
  | _ => false

/-- A decoded codeword was corrected. -/
def Decoded.isCorrected : Decoded → Bool
  | .corrected _ _ => true
  | _ => false

/-- The data of a decoded codeword, 0 where it is uncorrectable. -/
def Decoded.data (d : Decoded) : Word := (decodedData d).getD 0

-- What a crystal runs

/-- The 36 codewords of a plane, decoded (R54). -/
def planeRead (s : State) (k p : Nat) : List Decoded := (List.range 36).map fun w => decode72 (planeCode s k p w)

/-- The 2,304 bits of decoded codewords. -/
def planeBits (ds : List Decoded) : BitVec 2304 :=
  BitVec.ofNat 2304 (ds.foldr (fun d a => d.data.toNat + a * 2 ^ 64) 0)

/-- The tag presented on an intake port (R102, R121): the beat's tag, or of an idle port its last tag or NONE by IDLE_NONE. -/
def portTag (s : State) (n port : Nat) : Tag :=
  let i := intakeOf (basinOf s n) port
  if i.beat.isNone && rdB s (at' (pgBSN n) 0x40) 2 then none else i.tag

/-- The enable and source crystal of tag register `j` of set `t` (UP 0, DN 1, RS 2) in the latched frame of crystal `j` (R104). -/
def tagRegCfg (s : State) (n p t j : Nat) : Bool × Nat :=
  let f := (crystalOf s (xk n (32 * p + j))).frame
  match t with
  | 0 => (bit f 23, fld f 8 5)
  | 1 => (bit f 24, fld f 13 5)
  | _ => (bit f 25, fld f 18 5)

/-- What a tag register holds in the present cycle (R103): the tag that its source presented in the last one. -/
def tagRegNow (s : State) (n p t j : Nat) : Tag :=
  let c := tagRegCfg s n p t j
  if c.1 then (crystalOf s (xk n (32 * p + c.2))).tag else none

/-- What a tag register held in the last cycle. -/
def tagRegLast (s : State) (n p t j : Nat) : Tag := tget none (24 * (16 * n + p) + 8 * t + j) s.fab.tagRegs

/-- The tag that a crystal's tag source delivers (R102). -/
def deliveredTag (s : State) (n x : Nat) : Tag :=
  let f := (crystalOf s (xk n x)).frame
  let i := fld f 3 5
  let p := panOf x
  match fld f 0 3 with
  | 0 => (crystalOf s (xk n (32 * p + i))).tag
  | 1 => tagRegLast s n (p - 1) 0 i
  | 2 => tagRegLast s n (p + 1) 1 i
  | 3 => tagRegLast s n (partnerPan p) 2 i
  | 4 => portTag s n (if p = 0 then 0 else 1)
  | _ => none

/-- What a crystal does in the present cycle (R49, R57, R68, R99, R100): the plane named where it is not VALID, the VALID plane it
runs, whether a plane read takes place, what that read finds, the plane bits, and the state reads. -/
structure CyclePlan where
  named  : Option Nat
  ctx    : Option Nat
  change : Option Nat
  decs   : List Decoded
  bits   : BitVec 2304
  bank   : Decoded
  x      : Decoded
  y      : Decoded
  fl     : Decoded
  readWe : Bool
  quiet  : Bool

/-- A crystal on the quiet plane. -/
def CyclePlan.still : CyclePlan :=
  ⟨none, none, none, [], 0, .clean 0, .clean 0, .clean 0, .clean 0, false, true⟩

/-- The cycle of a crystal that runs plane `c` with the given bits. -/
def planRun (s : State) (k c : Nat) (change : Option Nat) (ds : List Decoded) (bits : BitVec 2304) : CyclePlan :=
  let bank := decode72 (bankCode s k (c / 4))
  let act := bit bits 2209 && !s.fab.hold.we
  let x := if act then decode72 (xCode s k c) else .clean 0
  let y := if act then decode72 (yCode s k c) else .clean 0
  let fl := if act then decode72 (flCode s k) else .clean 0
  ⟨none, some c, change, ds, bits, bank, x, y, fl, act, !act || bank.isUe || x.isUe || y.isUe || fl.isUe⟩

/-- Die `d` is in a die-level reset (R441). -/
def dieInReset (s : State) (d : Nat) : Bool := s.mod.dieReset = some d

/-- The die of a crystal address: D1 holds pans 0 to 7, D3 pans 8 to 15. -/
def dieOf (x : Nat) : Nat := if x % 512 < 256 then 1 else 3

/-- The plan of crystal `x` of basin `n` (R100): quiet while its die is in reset (R441). -/
def planOf (s : State) (n x : Nat) : CyclePlan :=
  let b := basinOf s n
  let k := xk n x
  match if dieInReset s (dieOf x) then none else if b.mode then deliveredTag s n x else b.fixedCtx with
  | none => .still
  | some t =>
    let c := t.toNat
    if (planeInfo s n c).st ≠ .valid then { CyclePlan.still with named := some c }
    else match (crystalOf s k).live.filter (fun l => l.plane = t) with
      | some l => planRun s k c none [] l.bits
      | none =>
        let ds := planeRead s k c
        if ds.any Decoded.isUe then { CyclePlan.still with change := some c, decs := ds }
        else planRun s k c (some c) ds (planeBits ds)

/-- The tag that a crystal presents (R101); in fixed mode TAG_NEXT is ignored (R106). -/
def presented (steered : Bool) (p : CyclePlan) : Tag :=
  p.ctx.map fun c => if steered && bit p.bits 2208 then BitVec.ofNat 4 (fld p.bits 2204 4) else BitVec.ofNat 4 c

/-- The plans of the crystals of a basin. -/
abbrev Plans := Nat → CyclePlan

/-- The plans of the 512 crystals of a basin in the present cycle. -/
def plansOf (s : State) (n : Nat) : Plans := planOf s n

/-- The plan of one crystal among them. -/
def planAt (ps : Plans) (x : Nat) : CyclePlan := ps x

-- Tracks

-- User I/O cells (R517 to R521)

/-- The cell of a user I/O pin. -/
def uioCellOf (s : State) (p : Nat) : UioCell := tget .zero p s.hst.uioCells
/-- Write the cell of a user I/O pin. -/
def setUioCell (p : Nat) (c : UioCell) (s : State) : State := withHst (fun h => { h with uioCells := tput .zero p c h.uioCells }) s
/-- UIO_PIN_j of device pin `p`. -/
def pinReg (s : State) (p : Nat) : Reg := rd s (at' (pgUIO (p / 24)) (0x100 + 4 * (p % 24)))
/-- The setting of a pin that is in force (R521), DLY aside. -/
def pinCell (s : State) (p : Nat) : Reg := (uioCellOf s p).force.getD (pinReg s p)
/-- OQ of grain `g` + `i` of a pin's crystal (R517). -/
def pinOq (s : State) (n p i : Nat) : Bool :=
  let j := p % 24
  bit (crystalOf s (512 * n + 32 * (2 * (p / 24) + 1) + 24 + j / 4)).oq (4 * (j % 4) + i)
/-- A delay line moves `n` steps toward its setting (R521). -/
def stepLine (n cur goal : Nat) : Nat := if cur < goal then min goal (cur + n) else max goal (cur - n)
/-- The loop of a bank runs (R519). -/
def loopRuns (s : State) (k : Nat) : Bool := rdB s (at' (pgUIO k) 0x44) 31 && rdB s (at' (pgUIO k) 0x48) 0
/-- The pins of a bank follow its owner's logic, not a hold or a fence (R520). -/
def pinsLive (s : State) (k n : Nat) : Bool :=
  (basinOf s n).frame.st = .valid && modeOf s ≠ mEMBER && modeOf s ≠ mSEALED && modeOf s ≠ mDORMANT && !s.fab.hold.out
    && rdB s (at' (pgUIO k) 0x40) 31
/-- The level of a pin, none where it is high-impedance (R520). -/
def pinLevel (s : State) (n p : Nat) : Option Bool :=
  let c := uioCellOf s p
  let dir := fld (pinCell s p) 2 2
  if dir = 2 || (dir = 3 && pinOq s n p 2) then some (if bit (pinCell s p) 6 then c.fall else c.rise) else none
/-- A pin at the last of `m` UIO rising edges (R519, R521): what was taken before reaches the pin, OQ is taken, a written setting takes
effect, and the delay line moves. -/
def pinEdge (m p : Nat) (s : State) : State :=
  let c := uioCellOf s p
  let n := tget none (p / 24) s.hst.uioOwner
  setUioCell p { force := none, dly := stepLine m c.dly (fld (pinReg s p) 16 7),
                 rise := c.nextRise, fall := c.nextFall, nextFall := c.nextFall
                 nextRise := n.any fun b => pinOq s b p 0
                 last := match n with
                   | some b => if pinsLive s (p / 24) b then pinLevel s b p else c.last
                   | none => c.last } s
/-- A pin at the fall instant (R519): the fall data is taken from OQ. -/
def pinFall (n p : Nat) (s : State) : State := setUioCell p { uioCellOf s p with nextFall := pinOq s n p 1 } s
/-- An FCLK cycle of a bank that basin `n` owns (R519): a UIO rising edge at the first cycle of a period, the fall instant DIV/2 later. -/
def bankCycle (n : Nat) (s : State) (k : Nat) : State :=
  if tget none k s.hst.uioOwner ≠ some n then s
  else if !loopRuns s k then (if tget 0 k s.hst.uioPhase = 0 then s else withHst (fun h => { h with uioPhase := tput 0 k 0 h.uioPhase }) s)
  else
    let d := rdF s (at' (pgUIO k) 0x44) 0 6
    let i := tget 0 k s.hst.uioPhase % d
    let ps := (List.range 24).map (24 * k + ·)
    let s := if i = 0 then ps.foldl (fun t p => pinEdge 1 p t) s else if i = d / 2 then ps.foldl (fun t p => pinFall n p t) s else s
    withHst (fun h => { h with uioPhase := tput 0 k ((i + 1) % d) h.uioPhase }) s
/-- The UIO clocks at an FCLK cycle of basin `n`. -/
def uioCycle (n : Nat) (s : State) : State := (List.range 4).foldl (bankCycle n) s
/-- The FCLK cycles up to a time of the time base. -/
def fclkCycles (s : State) (t : Nat) : Nat := t * fclkMhz s / 16000
/-- The UIO clocks of a bank whose owner takes no FCLK cycles in the model, as the time base moves on from `t` (log entry 323). -/
def bankTick (t : Nat) (s : State) (k : Nat) : State :=
  let runs : Bool := match tget none k s.hst.uioOwner with
    | some n => (basinOf s n).power = .run
    | none => false
  let d := rdF s (at' (pgUIO k) 0x44) 0 6
  let m := fclkCycles s s.time.toNat / d - fclkCycles s t / d
  if runs || !loopRuns s k || m = 0 then s else ((List.range 24).map (24 * k + ·)).foldl (fun u p => pinEdge m p u) s
/-- The UIO clocks as the time base moves on from `t`. -/
def uioTick (t : Nat) (s : State) : State := (List.range 4).foldl (bankTick t) s

/-- The values that enter tracks from user I/O (R518): pins' rise and fall samples. -/
structure UioIn where
  rise : BitVec 96
  fall : BitVec 96

/-- The value at the row 0 end of column bit-track `j` of a column (R127, R518); without IN_DDR no fall sample is captured (R519). -/
def trackBase (s : State) (n : Nat) (u : UioIn) (p c j : Nat) : Bool :=
  let k := (p - 1) / 2
  let pin := 4 * c + j / 4
  if p % 2 = 1 && p < 8 && j < 16 && c < 6 && j % 2 = 0 && tget none k s.hst.uioOwner = some n && !s.fab.hold.we
      && bit (pinCell s (24 * k + pin)) 2 then
    if j % 4 = 0 then bit u.rise (24 * k + pin) else bit (pinCell s (24 * k + pin)) 5 && bit u.fall (24 * k + pin)
  else false

/-- Edge-in bit `i` of a column: from pan `p`-1 (`up`) or `p`+1 (R132). -/
def edgeBit (s : State) (n p c i : Nat) (up : Bool) : Bool :=
  if up then p % 8 ≠ 0 && bit (laneReg s n (p - 1) 0 c).bits i else p % 8 ≠ 7 && bit (laneReg s n (p + 1) 1 c).bits i

/-- Edge-in word of a column. -/
def edgeWord (s : State) (n p c : Nat) (up : Bool) : Word :=
  if up then (if p % 8 ≠ 0 then (laneReg s n (p - 1) 0 c).word else 0)
  else if p % 8 ≠ 7 then (laneReg s n (p + 1) 1 c).word else 0

/-- Incoming bit-riser `i` (R132, R133). -/
def riserBit (s : State) (n p i : Nat) : Bool := bit (laneReg s n (partnerPan p) 2 (i / 2)).bits (i % 2)
/-- Incoming word-riser `i`. -/
def riserWord (s : State) (n p i : Nat) : Word := (laneReg s n (partnerPan p) 2 i).word

/-- What the segment of bit-track `j` at crystal `x` passes on (R128, R131); `turn` is the row track that a TURN takes. -/
def bitSeg (s : State) (n : Nat) (ps : Plans) (x j : Nat) (enter turn : Bool) : Bool :=
  let p := planAt ps x
  let v := fld p.bits (720 + 6 * j) 6
  if p.ctx.isNone || v = 0 then enter
  else if v ≤ 16 then bit (crystalOf s (xk n x)).oq (v - 1)
  else if v ≤ 24 then edgeBit s n (panOf x) (colOf x) (v - 17) true
  else if v ≤ 32 then edgeBit s n (panOf x) (colOf x) (v - 25) false
  else if v ≤ 48 then riserBit s n (panOf x) (v - 33)
  else v = 49 && 64 ≤ j && turn

/-- What the segment of word-track `j` at crystal `x` passes on (R129, R131). -/
def wordSeg (s : State) (n : Nat) (ps : Plans) (x j : Nat) (enter turn : Word) : Word :=
  let p := planAt ps x
  let v := fld p.bits (1488 + 8 * j) 8
  if p.ctx.isNone || v = 0 then enter
  else if v = 1 then (crystalOf s (xk n x)).out
  else if v = 2 then edgeWord s n (panOf x) (colOf x) true
  else if v = 3 then edgeWord s n (panOf x) (colOf x) false
  else if v = 4 then riserWord s n (panOf x) 0
  else if v = 5 then riserWord s n (panOf x) 1
  else if v = 6 && 8 ≤ j then turn
  else 0

/-- Row bit-track `j` of a pan's row after `k` crystals in its direction (R126, R127). -/
def rowBit (s : State) (n : Nat) (ps : Plans) (p r j : Nat) : Nat → Bool
  | 0 => false
  | k + 1 => bitSeg s n ps (xAt p r (if j % 2 = 0 then k else 7 - k)) j (rowBit s n ps p r j k) false

/-- Row bit-track `j` as it enters the crystal of column `c`. -/
def rowBitAt (s : State) (n : Nat) (ps : Plans) (p r c j : Nat) : Bool :=
  rowBit s n ps p r j (if j % 2 = 0 then c else 7 - c)

/-- Column bit-track 64+`j` of a pan's column after `k` crystals in its direction. -/
def colBit (s : State) (n : Nat) (ps : Plans) (u : UioIn) (p c j : Nat) : Nat → Bool
  | 0 => j % 2 = 0 && trackBase s n u p c j
  | k + 1 =>
    let r := if j % 2 = 0 then k else 3 - k
    bitSeg s n ps (xAt p r c) (64 + j) (colBit s n ps u p c j k) (rowBitAt s n ps p r c j)

/-- Column bit-track 64+`j` as it enters the crystal of row `r`. -/
def colBitAt (s : State) (n : Nat) (ps : Plans) (u : UioIn) (p r c j : Nat) : Bool :=
  colBit s n ps u p c j (if j % 2 = 0 then r else 3 - r)

/-- Row word-track `j` after `k` crystals. -/
def rowWord (s : State) (n : Nat) (ps : Plans) (p r j : Nat) : Nat → Word
  | 0 => 0
  | k + 1 => wordSeg s n ps (xAt p r (if j % 2 = 0 then k else 7 - k)) j (rowWord s n ps p r j k) 0

/-- Row word-track `j` as it enters the crystal of column `c`. -/
def rowWordAt (s : State) (n : Nat) (ps : Plans) (p r c j : Nat) : Word :=
  rowWord s n ps p r j (if j % 2 = 0 then c else 7 - c)

/-- Column word-track 8+`j` after `k` crystals. -/
def colWord (s : State) (n : Nat) (ps : Plans) (p c j : Nat) : Nat → Word
  | 0 => 0
  | k + 1 =>
    let r := if j % 2 = 0 then k else 3 - k
    wordSeg s n ps (xAt p r c) (8 + j) (colWord s n ps p c j k) (rowWordAt s n ps p r c j)

/-- Column word-track 8+`j` as it enters the crystal of row `r`. -/
def colWordAt (s : State) (n : Nat) (ps : Plans) (p r c j : Nat) : Word :=
  colWord s n ps p c j (if j % 2 = 0 then r else 3 - r)

/-- Cluster bit-input `i` of a crystal (R132). -/
def clusterBit (s : State) (n : Nat) (ps : Plans) (u : UioIn) (x i : Nat) : Bool :=
  let v := fld (planAt ps x).bits (640 + 8 * i) 8
  let p := panOf x
  let c := colOf x
  if v < 64 then rowBitAt s n ps p (rowOf x) c v
  else if v < 128 then colBitAt s n ps u p (rowOf x) c (v - 64)
  else if v < 136 then edgeBit s n p c (v - 128) true
  else if v < 144 then edgeBit s n p c (v - 136) false
  else if v < 160 then riserBit s n p (v - 144)
  else false

/-- A word bus of a crystal (R132, R138, R139): the lowest tapped spine, else the CWI_SEL source. -/
def busWord (s : State) (n : Nat) (ps : Plans) (x : Nat) (b : Bool) : Word :=
  let bits := (planAt ps x).bits
  let p := panOf x
  match (List.range 4).find? fun i => bit bits (1760 + 4 * i + 2 + b2n b) with
  | some i => spineReg s n p i
  | none =>
    let v := fld bits (704 + 8 * b2n b) 8
    if v < 8 then rowWordAt s n ps p (rowOf x) (colOf x) v
    else if v < 16 then colWordAt s n ps p (rowOf x) (colOf x) (v - 8)
    else if v = 16 then edgeWord s n p (colOf x) true
    else if v = 17 then edgeWord s n p (colOf x) false
    else if v = 18 then riserWord s n p 0
    else if v = 19 then riserWord s n p 1
    else 0

-- Ports as crystals see them

/-- The port that a crystal serves under the plane bits it runs (R147, R148). -/
def servedPort (bits : BitVec 2304) (x : Nat) : Option (Nat × Nat × Nat) :=
  (portPlace x).filter fun q => q.1 = fld bits 2212 3

/-- PR0 to PR2 of a row port in the present cycle (R150). -/
def rowPred (s : State) (n r : Nat) : BitVec 3 :=
  let p := rowPort s n r
  p.taken.getD (BitVec.ofNat 3 (b2n p.cmds.isEmpty + 2 * b2n (4 ≤ p.cmds.length) + 4 * b2n p.err))

/-- The item whose output is open on an outlet port. -/
def openItem (s : State) (n port : Nat) : Option Flight :=
  (basinOf s n).items.find? fun i => i.outs.any fun o => o.opened && o.port = port

/-- PR0 and PR1 of an outlet port in the present cycle (R150). -/
def outPred (s : State) (n port : Nat) : BitVec 2 :=
  let b := basinOf s n
  ((if port = 0 then b.taken0 else b.taken1)).getD (match openItem s n port with
    | some i => BitVec.ofNat 2 (1 + 2 * b2n i.error.isSome)
    | none => 0)

/-- A port predicate bit of a crystal (R46, R150, R151). -/
def portPred (s : State) (n x : Nat) (bits : BitVec 2304) (i : Nat) : Bool :=
  match servedPort bits x with
  | none => false
  | some (kind, k, q) =>
    if i = 3 then (fencesOf s n q).isEmpty
    else match kind with
      | 1 => match (intakeOf (basinOf s n) k).beat with
        | none => false
        | some b => match i with
          | 0 => true
          | 1 => b.desc
          | _ => b.last
      | 2 => bit (outPred s n k) i
      | _ => bit (rowPred s n k) i

-- The sources of a crystal

/-- The flags of a context in the flag word (R67). -/
def ctxFlags (w : Word) (c : Nat) : WeFlags := ⟨bit w (4 * c), bit w (4 * c + 1), bit w (4 * c + 2), bit w (4 * c + 3)⟩

/-- The four bits of a context's flags. -/
def flagBits (f : WeFlags) : Nat := b2n f.z + 2 * b2n f.n + 4 * b2n f.c + 8 * b2n f.v

/-- A crystal source (R45). -/
def sourceBit (s : State) (n : Nat) (ps : Plans) (u : UioIn) (x c i : Nat) : Bool :=
  let p := planAt ps x
  let f := ctxFlags p.fl.data c
  if i < 16 then bit p.bank.data (16 * (c % 4) + i)
  else if i < 24 then clusterBit s n ps u x (i - 16)
  else match i with
    | 24 => f.z
    | 25 => f.n
    | 26 => f.c
    | 27 => f.v
    | _ => portPred s n x p.bits (i - 28)

/-- The CE or SR net of a crystal (R48): `d` where it takes no source. -/
def netBit (s : State) (n : Nat) (ps : Plans) (u : UioIn) (x c lo : Nat) (d : Bool) : Bool :=
  let v := fld (planAt ps x).bits lo 6
  if v < 32 then d else sourceBit s n ps u x c (v - 32)

/-- The value that grain `g` produces (R39 to R41). -/
def grainValue (s : State) (n : Nat) (ps : Plans) (u : UioIn) (x c g : Nat) : Bool :=
  let p := planAt ps x
  let src (o : Nat) : Nat := b2n (sourceBit s n ps u x c (fld p.bits (40 * g + o) 5))
  let i := src 20 + 2 * src 25 + 4 * src 30 + 8 * src 35
  let ctl (j : Nat) : Bool := bit p.bits (40 * g + 16 + j)
  let ce := !ctl 0 || netBit s n ps u x c 2192 true
  let sr := ctl 1 && netBit s n ps u x c 2198 false && (!ctl 3 || ce)
  if sr then ctl 2 else if ce then bit p.bits (40 * g + i) else bit p.bank.data (16 * (c % 4) + g)

/-- The 16 values that a crystal's grains produce. -/
def grainWord (s : State) (n : Nat) (ps : Plans) (u : UioIn) (x c : Nat) : Nat :=
  (List.range 16).foldl (fun a g => a + b2n (grainValue s n ps u x c g) * 2 ^ g) 0

/-- What the word engine of a crystal sees (R62 to R66, R164). -/
def envOf (s : State) (n : Nat) (ps : Plans) (u : UioIn) (x c : Nat) : WeEnv :=
  let p := planAt ps x
  let port := servedPort p.bits x
  let row := (port.filter fun q => q.1 = 3).map (·.2.1)
  let inp := (port.filter fun q => q.1 = 1).map (·.2.1)
  let stage := match row with
    | some r => (rowPort s n r).stage
    | none => 0
  { busA := busWord s n ps x false
    busB := busWord s n ps x true
    x := p.x.data
    y := p.y.data
    stageW := match row with
      | some r => if bit (rowPred s n r) 0 then BitVec.ofNat 64 (fld stage (64 * fld p.bits 2218 7) 64) else 0
      | none => 0
    intakeW := match inp with
      | some k => match (intakeOf (basinOf s n) k).beat with
        | some b => BitVec.ofNat 64 (fld b.words (64 * colOf x) 64)
        | none => 0
      | none => 0
    stage := stage
    fl := ctxFlags p.fl.data c
    p0 := sourceBit s n ps u x c (fld p.bits 1920 5)
    p1 := sourceBit s n ps u x c (fld p.bits 1925 5)
    xLock := bit p.bits 1944
    yLock := bit p.bits 1945
    hold := fld p.bits 1940 4
    rowPort := row.isSome
    anyPort := port.isSome }

/-- The instruction that the slot select names (R65, R73). -/
def slotIns (s : State) (n : Nat) (ps : Plans) (u : UioIn) (x c : Nat) : BitVec 32 :=
  let bits := (planAt ps x).bits
  let i := if bit bits 1946 then fld bits 1947 2
    else b2n (sourceBit s n ps u x c (fld bits 1930 5)) + 2 * b2n (sourceBit s n ps u x c (fld bits 1935 5))
  BitVec.ofNat 32 (fld bits (1792 + 32 * i) 32)

-- Effects of the word engine

/-- Write the bytes of an STR into the row stage that a crystal serves (R90, R91). -/
def storeStage (n x : Nat) (w : Nat × BitVec 8 × Word) (s : State) : State :=
  match portPlace x with
  | some (3, r, _) =>
    let p := rowPort s n r
    setRowPort n r { p with stage := stageWrite p.stage w.1 w.2.1 w.2.2 } s
  | _ => s

/-- What a fence of scope SYSTEM waits for at each Enrus port (R173): the acknowledgement counts of VC 0 and 1. -/
def fenceMarks (s : State) (scope : BitVec 2) : List Nat :=
  if scope = 3 then (List.range 14).map fun i => chanMark (enrPort s (i / 2)) (i % 2) else []

/-- A fence posted in the present cycle (R172). -/
def newFence (s : State) (scope : BitVec 2) : Fence := ⟨scope, s.fab.seq, true, fenceMarks s scope⟩

/-- The acceptance number of the first access that a fence does not cover (R172). -/
def Fence.limit (f : Fence) (s : State) : Nat := if f.fresh then s.fab.seq else f.upto

/-- A fence at the end of the cycle in which it was posted. -/
def Fence.close (s : State) (f : Fence) : Fence := { f with upto := f.limit s, fresh := false }

/-- Post a fence on the port that a crystal serves (R93, R172): it covers every access accepted in or before this cycle. -/
def postFence (n x : Nat) (scope : BitVec 2) (s : State) : State :=
  match portPlace x with
  | some (_, _, q) => setFences n q (fencesOf s n q ++ [newFence s scope]) s
  | none => s

/-- Carry out what an instruction of context `c` does (R69, R71); `flagWord` is the flag word it started from. -/
def applyEffect (n x c : Nat) (flagWord : Word) (e : WeEffect) (s : State) : State :=
  let k := xk n x
  let s := match e.out with
    | some v => setCrystal k { crystalOf s k with out := v } s
    | none => s
  let s := match e.x with
    | some v => setX k c (encCode v) s
    | none => s
  let s := match e.y with
    | some v => setY k c (encCode v) s
    | none => s
  let s := if e.fl = ctxFlags flagWord c then s else setFl k (encCode (setFld flagWord (4 * c) 4 (flagBits e.fl))) s
  let s := match e.mul with
    | some m => setCrystal k { crystalOf s k with muls := (crystalOf s k).muls ++ [⟨m.1, BitVec.ofNat 4 c, m.2, 2⟩] } s
    | none => s
  let s := match e.stage with
    | some w => storeStage n x w s
    | none => s
  match e.fence with
  | some sc => postFence n x sc s
  | none => s

/-- A completing multiply writes its destination under its issuing context (R86). -/
def writeMul (n x : Nat) (m : Mul) (s : State) : State :=
  let k := xk n x
  let s := if dstOut m.dst then setCrystal k { crystalOf s k with out := m.prod } s else s
  let s := if dstX m.dst then setX k m.ctx.toNat (encCode m.prod) s else s
  if dstY m.dst then setY k m.ctx.toNat (encCode m.prod) s else s

-- Initial values, purge, reset

/-- Load the initial values of plane `p` in one crystal (R52): what is written, what is logged, and whether codeword 32, 33 or 34 is
uncorrectable. -/
def loadInitialAt (n x p : Nat) (s : State) : State × Bool :=
  let k := xk n x
  let d (w : Nat) : Decoded := decode72 (planeCode s k p w)
  let d32 := d 32
  let d33 := d 33
  let d34 := d 34
  let s := logPlane n x p 34 d34 (logPlane n x p 33 d33 (logPlane n x p 32 d32 s))
  let s := if d32.isUe then s else setX k p (encCode d32.data) s
  let s := if d33.isUe then s else setY k p (encCode d33.data) s
  let bank := decode72 (bankCode s k (p / 4))
  let s := if d34.isUe then s else
    let s := logBank n x (p / 4) bank s
    if bank.isUe then s else setBankCode k (p / 4) (encCode (setFld bank.data (16 * (p % 4)) 16 (fld d34.data 0 16))) s
  let fl := decode72 (flCode s k)
  let s := logWe n x 32 fl s
  let s := if fl.isUe then s else setFl k (encCode (setFld fl.data (4 * p) 4 0)) s
  (s, d32.isUe || d33.isUe || d34.isUe)

/-- Load the initial values of plane `p` in every crystal of a basin: the state, and the crystals whose codewords were
uncorrectable (R52). -/
def loadInitial (n p : Nat) (s : State) : State × List Nat :=
  (List.range 512).foldl (fun (a : State × List Nat) x =>
    let r := loadInitialAt n x p a.1
    (r.1, if r.2 then a.2 ++ [x] else a.2)) (s, [])

/-- Apply a function to every listed crystal of a basin. -/
def mapCrystals (n : Nat) (u : Crystal → Crystal) (s : State) : State :=
  (s.fab.crystals.filter fun q => 512 * n ≤ q.1 && q.1 < 512 * n + 512).foldl (fun t q => setCrystal q.1 (u q.2) t) s

/-- Drop a tag that names plane `p`. -/
def dropTag (p : Nat) (t : Tag) : Tag := t.filter fun c => c.toNat ≠ p

/-- Purge a plane that leaves VALID (R88, R110): tags, live copies, lane settings entries, multiplies of its context, spine claims with
its state. -/
def purge (n p : Nat) (s : State) : State :=
  let b := basinOf s n
  let s := setBasin n { b with fixedCtx := dropTag p b.fixedCtx, in0 := { b.in0 with tag := dropTag p b.in0.tag },
                               in1 := { b.in1 with tag := dropTag p b.in1.tag } } s
  let s := mapCrystals n (fun c => { c with
    tag := dropTag p c.tag, live := c.live.filter (fun l => l.plane.toNat ≠ p), muls := c.muls.filter fun m => m.ctx.toNat ≠ p }) s
  withFab (fun f => { f with
    tagRegs := f.tagRegs.filter fun q => !(24 * 16 * n ≤ q.1 && q.1 < 24 * 16 * (n + 1) && q.2 = some (BitVec.ofNat 4 p))
    laneSets := f.laneSets.filter fun q => !(24 * 16 * n ≤ q.1 / 16 && q.1 / 16 < 24 * 16 * (n + 1) && q.1 % 16 = p) }) s

/-- Every tag of a basin becomes NONE (R112, R119). -/
def noTags (n : Nat) (s : State) : State :=
  let b := basinOf s n
  let s := setBasin n { b with fixedCtx := none, in0 := { b.in0 with tag := none }, in1 := { b.in1 with tag := none } } s
  let s := mapCrystals n (fun c => { c with tag := none }) s
  withFab (fun f => { f with tagRegs := tclear (24 * 16 * n) (24 * 16 * (n + 1)) f.tagRegs }) s

/-- The data and check bits of a plane become 0 in every crystal of a basin (R111). -/
def clearPlane (n p : Nat) (s : State) : State :=
  withFab (fun f => { f with
    planes := f.planes.filter fun q => !(512 * n ≤ q.1 / 1024 && q.1 / 1024 < 512 * n + 512 && q.1 / 64 % 16 = p) }) s

/-- The frame codewords of a basin become 0. -/
def clearFrame (n : Nat) (s : State) : State := withFab (fun f => { f with frames := tclear (512 * n) (512 * n + 512) f.frames }) s

/-- Live copies, OQ, OUT, tags, lane and receive registers and row stages after an exit from DEEP (R119, R137), and the window count
restarted; multiplies in flight are kept (log entry 309). -/
def coldFabric (n : Nat) (s : State) : State :=
  let s := noTags n s
  let s := mapCrystals n (fun c => { c with oq := 0, out := 0, live := none }) s
  let s := withFab (fun f => { f with
    lanes := tclear (24 * 16 * n) (24 * 16 * (n + 1)) f.lanes, spines := tclear (4 * 16 * n) (4 * 16 * (n + 1)) f.spines }) s
  let s := (List.range 4).foldl (fun t r => setRowPort n r { rowPort t n r with stage := 0 } t) s
  setBasin n { basinOf s n with window := 0, stopped := false } s

/-- The VALID planes of a basin. -/
def validPlanes (s : State) (n : Nat) : List Nat := (List.range 16).filter fun p => (planeInfo s n p).st = .valid

/-- A basin soft reset (R52, R88, R119, R150, R151, R489, R530): items end, initial values load, everything else goes as R119 gives;
accepted commands stay and write no stage. -/
def basinSoftReset (n : Nat) (s : State) : State :=
  let s := coldFabric n s
  let s := mapCrystals n (fun c => { c with muls := [] }) s
  let s := (List.range 4).foldl (fun t r =>
    let p := rowPort t n r
    setRowPort n r { p with err := false, taken := none, cmds := p.cmds.map fun c => { c with reset := true } } t) s
  let s := (List.range 8).foldl (fun t q => setFences n q [] t) s
  let s := returnFlights (basinOf s n).items s
  let b := basinOf s n
  let s := setBasin n { b with items := [], trapped := false, early := [], in0 := { b.in0 with beat := none, rest := [] },
                               in1 := { b.in1 with beat := none, rest := [] }, taken0 := none, taken1 := none } s
  let r := (validPlanes s n).foldl (fun (a : State × List Trap) p =>
    let l := loadInitial n p a.1
    (l.1, a.2 ++ l.2.map fun x => (x, 0x0531, p))) (s, [])
  raiseTraps n r.2 r.1

end Sys2Proof.Machine
end

