-- ==== Sys2Proof/Machine/Fabric.lean ====
section
/-! DEFINITION. One FCLK cycle of a basin: CRYSTAL_CYCLE and MUL_COMPLETION (02 to 05). -/

namespace Sys2Proof.Machine

/-- Nothing enters from user I/O. -/
def UioIn.quiet : UioIn := ⟨0, 0⟩

/-- The multiply whose third stage ends in this cycle (R86). -/
def doneMul (c : Crystal) : Option Mul := c.muls.find? fun m => m.left = 1

/-- The multiplies that stay in flight after this cycle. -/
def restMuls (c : Crystal) : List Mul := (c.muls.filter fun m => m.left ≠ 1).map fun m => { m with left := m.left - 1 }

/-- The traps of a crystal's plane read and state reads (R55, R57, R68): one trap for all uncorrectable state codewords of the crystal's
cycle (log entry 307). -/
def readTraps (x : Nat) (p : CyclePlan) : List Trap :=
  (match p.change with
    | some c => if p.decs.any Decoded.isUe then [(x, 0x0531, c)] else []
    | none => [])
  ++ (match p.ctx with
    | some c => if p.bank.isUe || p.x.isUe || p.y.isUe || p.fl.isUe then [(x, 0x0532, c)] else []
    | none => [])

/-- What a crystal's reads log (R55, R57, R68). -/
def readLogs (n x : Nat) (p : CyclePlan) (s : State) : State :=
  let s := p.decs.zipIdx.foldl (fun t d => logPlane n x (p.change.getD 0) d.2 d.1 t) s
  match p.ctx with
  | some c => logWe n x 32 p.fl (logWe n x (16 + c) p.y (logWe n x c p.x (logBank n x (c / 4) p.bank s)))
  | none => s

/-- The state elements of a crystal that hold a corrected codeword are written back (R57, R68). -/
def writeBack (k c : Nat) (p : CyclePlan) (s : State) : State :=
  let s := if p.x.isCorrected then setX k c (encCode p.x.data) s else s
  let s := if p.y.isCorrected then setY k c (encCode p.y.data) s else s
  if p.fl.isCorrected then setFl k (encCode p.fl.data) s else s

/-- The part of a cycle that is not quiet: grains, instruction, multiply completion (R41, R73). `s0` is the state at the start of the
cycle. -/
def runCrystal (s0 : State) (n : Nat) (ps : Plans) (u : UioIn) (x c : Nat) (s : State) : State × List Trap :=
  let p := planAt ps x
  let k := xk n x
  let done := doneMul (crystalOf s0 k)
  let w := grainWord s0 n ps u x c
  let s := writeBack k c p (setBankCode k (c / 4) (encCode (setFld p.bank.data (16 * (c % 4)) 16 w)) s)
  let s := setCrystal k { crystalOf s k with oq := BitVec.ofNat 16 w } s
  let ins := slotIns s0 n ps u x c
  let e := weIssue (weDecodeOp (fld ins 26 6)) (weFields ins) (envOf s0 n ps u x c) (BitVec.ofNat 4 c) done
  let s := applyEffect n x c p.fl.data e s
  let s := match done with
    | some m => writeMul n x m s
    | none => s
  (s, match e.fault with
    | some f => [(x, f.toNat, c)]
    | none => [])

/-- One crystal's cycle (R49, R88, R99 to R101). -/
def crystalStep (s0 : State) (n : Nat) (ps : Plans) (u : UioIn) (x : Nat) (a : State × List Trap) :
    State × List Trap :=
  let p := planAt ps x
  let k := xk n x
  let c0 := crystalOf s0 k
  let live := match p.change with
    | some c => if p.decs.any Decoded.isUe then none else some ⟨BitVec.ofNat 4 c, p.bits⟩
    | none => c0.live
  let s := setCrystal k { crystalOf a.1 k with live := live, tag := presented (basinOf s0 n).mode p, muls := restMuls c0 } a.1
  let ts := a.2 ++ readTraps x p
  match p.ctx, p.quiet with
  | some c, false =>
    let r := runCrystal s0 n ps u x c s
    (r.1, ts ++ r.2)
  | _, _ => match doneMul c0 with
    | some m => (s, ts ++ [(x, 0x0526, m.ctx.toNat)])
    | none => (s, ts)

/-- Every crystal's cycle: what the reads log, from the lowest address up, then what the cycle writes, from the highest address down,
so that the lowest crystal's stage byte is the one stored (R91). -/
def crystalSteps (s0 : State) (n : Nat) (ps : Plans) (u : UioIn) (s : State) : State × List Trap :=
  (List.range 512).foldl (fun a i => crystalStep s0 n ps u (511 - i) a)
    ((List.range 512).foldl (fun t x => readLogs n x (planAt ps x) t) s, [])

/-- What a lane captures under its settings (R133, R134): UP and DN lanes hold eight bits and a word, RS lanes two bits and, lanes 0
and 1, a word. -/
def capture (s0 : State) (n : Nat) (ps : Plans) (u : UioIn) (p t j : Nat) (cfg : BitVec 96) (old : LaneReg) : LaneReg :=
  if t = 2 then
    let b (i : Nat) : Bool :=
      if bit cfg (8 * i + 7) then colBit s0 n ps u p j (fld cfg (8 * i) 6) 4 else bit old.bits i
    ⟨BitVec.ofNat 8 (b2n (b 0) + 2 * b2n (b 1)),
      if j < 2 && bit cfg 23 then colWord s0 n ps p j (fld cfg 16 3) 4 else old.word⟩
  else
    let b (i : Nat) : Bool :=
      if bit cfg (8 * i + 7) then colBit s0 n ps u p j (2 * fld cfg (8 * i) 5 + t) 4 else bit old.bits i
    ⟨BitVec.ofNat 8 ((List.range 8).foldl (fun a i => a + b2n (b i) * 2 ^ i) 0),
      if bit cfg 71 then colWord s0 n ps p j (2 * fld cfg 64 2 + t) 4 else old.word⟩

/-- The crystal that carries the share of a lane (R134). -/
def shareCrystal (p t j : Nat) : Nat :=
  match t with
  | 0 => 32 * p + j
  | 1 => 32 * p + 8 + j
  | _ => 32 * p + j / 2

/-- The tag under which a lane captures (R135). -/
def laneTag (s0 : State) (n p t j : Nat) : Tag :=
  if (basinOf s0 n).mode then tagRegNow s0 n p t j else (basinOf s0 n).fixedCtx

/-- One lane at the end of a cycle (R135, R136). -/
def laneStep (s0 : State) (n : Nat) (ps : Plans) (u : UioIn) (l : Nat) (a : State × List Trap) : State × List Trap :=
  let p := l / 24
  let t := l % 24 / 8
  let j := l % 8
  match laneTag s0 n p t j with
  | none => a
  | some c =>
    if (planeInfo s0 n c.toNat).st ≠ .valid then a
    else
      let e := laneSet s0 n p t j c.toNat
      if e.poisoned then (a.1, a.2 ++ [(shareCrystal p t j, 0x0531, c.toNat)])
      else
        let v := capture s0 n ps u p t j e.cfg (laneReg s0 n p t j)
        (withFab (fun f => { f with lanes := tput ⟨0, 0⟩ (24 * (16 * n + p) + 8 * t + j) v f.lanes }) a.1, a.2)

/-- Every lane, and every tag register (R103, R135). -/
def laneSteps (s0 : State) (n : Nat) (ps : Plans) (u : UioIn) (a : State × List Trap) : State × List Trap :=
  let a := (List.range 384).foldl (fun b l => laneStep s0 n ps u l b) a
  (withFab (fun f => { f with tagRegs := (List.range 384).foldl (fun m l =>
    tput none (24 * 16 * n + l) (tagRegNow s0 n (l / 24) (l % 24 / 8) (l % 8)) m) f.tagRegs }) a.1, a.2)

/-- The enabled drivers of spine `i` of a die, lowest crystal first (R138). -/
def spineDrivers (s0 : State) (n : Nat) (ps : Plans) (u : UioIn) (d i : Nat) : List Nat :=
  ((List.range 256).map (256 * d + ·)).filter fun x =>
    let p := planAt ps x
    match p.ctx with
    | some c => !p.quiet && bit p.bits (1760 + 4 * i)
        && (!bit p.bits (1761 + 4 * i) || sourceBit s0 n ps u x c (fld p.bits 1920 5))
    | none => false

/-- Record run-time spine contention in BSN_SPINE_GUARD (R141). -/
def recordGuard (n i w l : Nat) (wc lc : Nat) (many : Bool) (s : State) : State :=
  let a := at' (pgBSN n) 0xD0
  if rdB s a 31 then wrF a 30 1 1 s
  else wr a (BitVec.ofNat 32 (2 ^ 31 + b2n many * 2 ^ 30 + i * 2 ^ 27 + w * 2 ^ 23 + wc * 2 ^ 19 + l * 2 ^ 15 + lc * 2 ^ 11)) s

/-- One spine of one die at the end of a cycle (R138, R141): capture, and the guard; the third part says whether it contended. -/
def spineStep (s0 : State) (n : Nat) (ps : Plans) (u : UioIn) (q : Nat) (a : State × List Trap × Bool) :
    State × List Trap × Bool :=
  let d := q / 4
  let i := q % 4
  let ctx (x : Nat) : Nat := (planAt ps x).ctx.getD 0
  match spineDrivers s0 n ps u d i with
  | [] => a
  | w :: ls =>
    let v := (crystalOf s0 (xk n w)).out
    let s := withFab (fun f => { f with spines := (List.range 8).foldl (fun m p =>
      tput 0 (4 * (16 * n + 8 * d + p) + i) v m) f.spines }) a.1
    match ls with
    | [] => (s, a.2.1, a.2.2)
    | l :: more =>
      (setIrq (pgBSN n) 4 (recordGuard n q (panOf w) (panOf l) (ctx w) (ctx l) (!more.isEmpty) s),
        a.2.1 ++ ls.map (fun x => (x, 0x0541, ctx x)), true)

/-- Every spine (R138, R141): of two that contend in one cycle the lower is recorded (log entry 312). -/
def spineSteps (s0 : State) (n : Nat) (ps : Plans) (u : UioIn) (a : State × List Trap) : State × List Trap :=
  let r := (List.range 8).foldl (fun b q => spineStep s0 n ps u q b) (a.1, a.2, false)
  (if r.2.2 then incF (at' (pgBSN n) 0xD4) 0 32 1 r.1 else r.1, r.2.1)

/-- The TAG_NOT_VALID event of a cycle (R115). -/
def tnvStep (s0 : State) (n : Nat) (ps : Plans) (a : State × List Trap) : State × List Trap :=
  match (List.range 512).find? fun x => (planAt ps x).named.isSome with
  | none => a
  | some x =>
    let c := (planAt ps x).named.getD 0
    let st := match (planeInfo s0 n c).st with
      | .blank => 0
      | .loading => 1
      | .pending => 2
      | .valid => 3
      | .failed => 4
    let s := incF (at' (pgBSN n) 0x58) 0 32 1 a.1
    let r := at' (pgBSN n) 0x54
    let s := if rdB s r 31 then wrF r 30 1 1 s
      else wr r (BitVec.ofNat 32 (2 ^ 31 + c * 2 ^ 26 + st * 2 ^ 23 + x * 2 ^ 9)) s
    (setIrq (pgBSN n) 1 s, if rdB s0 (at' (pgBSN n) 0x40) 3 then a.2 ++ [(x, 0x0530, c)] else a.2)

/-- The initial values that the SR hold forces at the end of a cycle (R306): an uncorrectable initial value is not loaded and raises no trap
(log entry 303); OQ is held on the quiet plane and 0 where the bank codeword is uncorrectable (log entry 304). -/
def srHoldStep (n : Nat) (ps : Plans) (s : State) : State :=
  if s.fab.hold.sr then
    let s := (validPlanes s n).foldl (fun t p => (loadInitial n p t).1) s
    (List.range 512).foldl (fun t x => match (planAt ps x).ctx with
      | some c =>
        let k := xk n x
        setCrystal k { crystalOf t k with
          oq := BitVec.ofNat 16 (fld (decode72 (bankCode t k (c / 4))).data (16 * (c % 4)) 16) } t
      | none => t) s
  else s

/-- The next beat of an intake port (R118, R152). -/
def nextBeat (stopped : Bool) (i : Intake) : Intake :=
  if stopped then { i with beat := none } else { i with beat := i.rest.head?, rest := i.rest.tail }

/-- The end of a cycle at the ports: the next beats, the ports free for the next cycle's commands, the cycle's fences complete in what
they cover (R152, R156, R165, R172). -/
def portStep (n : Nat) (s : State) : State :=
  let b := basinOf s n
  let s := setBasin n { b with in0 := nextBeat b.stopped b.in0, in1 := nextBeat b.stopped b.in1, taken0 := none, taken1 := none,
                               items := b.items.map fun i => { i with fence := i.fence.map (Fence.close s) } } s
  let s := (List.range 8).foldl (fun t q => setFences n q ((fencesOf t n q).map (Fence.close t)) t) s
  (List.range 4).foldl (fun t r => setRowPort n r { rowPort t n r with taken := none } t) s

/-- The cycle in which port traps were raised is over. -/
def endTraps (n : Nat) (s : State) : State := setBasin n { basinOf s n with early := [] } s

/-- One FCLK cycle of basin `n` (R100); nothing while the basin's clock is stopped or its logic is under test (R119, R471, log entry 6). -/
def cycleBasin (n : Nat) (u : UioIn) (s0 : State) : State :=
  if (basinOf s0 n).power ≠ .run || underTest s0 n then s0
  else
    let s0 := uioCycle n s0
    let ps := plansOf s0 n
    let a := tnvStep s0 n ps (spineSteps s0 n ps u (laneSteps s0 n ps u (crystalSteps s0 n ps u s0)))
    let changes := ((List.range 512).filter fun x => (planAt ps x).change.isSome).length
    let s := setBasin n { basinOf a.1 n with window := (basinOf a.1 n).window + changes } a.1
    endTraps n (raiseTraps n a.2 (portStep n (srHoldStep n ps s)))

/-- CRYSTAL_CYCLE (R100). -/
def execCrystalCycle (basin : Nat) (rise fall : BitVec 96) (s : State) : Host.Outcome State Fault Refusal :=
  .next (cycleBasin basin ⟨rise, fall⟩ s)

/-- The oldest multiply of a crystal ends its third stage (R86, R88): written, or lost in a quiet cycle. -/
def completeMul (a : CrystalAddr) (s : State) : State :=
  let n := a.basin
  let x := a.addr.toNat
  let c := crystalOf s (xk n x)
  match if underTest s n then [] else c.muls with
  | [] => s
  | m :: rest =>
    let p := planOf s n x
    let s := setCrystal (xk n x) { c with muls := rest } s
    if p.quiet then raiseTraps n [(x, 0x0526, m.ctx.toNat)] s else writeMul n x m s

/-- MUL_COMPLETION (R86 to R88). -/
def execMulCompletion (x : CrystalAddr) (s : State) : Host.Outcome State Fault Refusal := .next (completeMul x s)

end Sys2Proof.Machine
end

