-- ==== Sys2Proof/Machine/WordEngine.lean ====
section
/-! DEFINITION. The instructions of the word engine as commands: each runs as the instruction of the present cycle of one crystal in
the context that the crystal runs (R73, R94; log entry 5). -/

namespace Sys2Proof.Machine

/-- One instruction on one crystal in the present cycle (R73): nothing in a quiet cycle (R49) or under test (R471); a fault condition traps (R94).
The user I/O pins deliver 0 to P0 and P1 (log entry 306), and the power of the basin is not asked (log entry 308). -/
def weStep (op : WeOp) (a : CrystalAddr) (f : WeFields) (s : State) : State :=
  let n := a.basin
  let x := a.addr.toNat
  let ps := plansOf s n
  let p := planAt ps x
  match p.ctx, p.quiet || underTest s n with
  | some c, false =>
    let e := weIssue (some op) f (envOf s n ps UioIn.quiet x c) (BitVec.ofNat 4 c) (doneMul (crystalOf s (xk n x)))
    let s := applyEffect n x c p.fl.data e s
    match e.fault with
    | some cause => raiseTraps n [(x, cause.toNat, c)] s
    | none => s
  | _, _ => s

/-- NOP (R76: no write). -/
def execNop (x : CrystalAddr) (f : WeFields) (s : State) : Host.Outcome State Fault Refusal := .next (weStep .nop x f s)

/-- PASS (R76). -/
def execPass (x : CrystalAddr) (f : WeFields) (s : State) : Host.Outcome State Fault Refusal := .next (weStep .pass x f s)

/-- ADD (R76, R78). -/
def execAdd (x : CrystalAddr) (f : WeFields) (s : State) : Host.Outcome State Fault Refusal := .next (weStep .add x f s)

/-- ADDC (R76, R78). -/
def execAddc (x : CrystalAddr) (f : WeFields) (s : State) : Host.Outcome State Fault Refusal := .next (weStep .addc x f s)

/-- SUB (R76, R78). -/
def execSub (x : CrystalAddr) (f : WeFields) (s : State) : Host.Outcome State Fault Refusal := .next (weStep .sub x f s)

/-- SUBB (R76, R78). -/
def execSubb (x : CrystalAddr) (f : WeFields) (s : State) : Host.Outcome State Fault Refusal := .next (weStep .subb x f s)

/-- ACC (R76, R81). -/
def execAcc (x : CrystalAddr) (f : WeFields) (s : State) : Host.Outcome State Fault Refusal := .next (weStep .acc x f s)

/-- AND (R76). -/
def execAnd (x : CrystalAddr) (f : WeFields) (s : State) : Host.Outcome State Fault Refusal := .next (weStep .and x f s)

/-- OR (R76). -/
def execOr (x : CrystalAddr) (f : WeFields) (s : State) : Host.Outcome State Fault Refusal := .next (weStep .or x f s)

/-- XOR (R76). -/
def execXor (x : CrystalAddr) (f : WeFields) (s : State) : Host.Outcome State Fault Refusal := .next (weStep .xor x f s)

/-- ANDN (R76). -/
def execAndn (x : CrystalAddr) (f : WeFields) (s : State) : Host.Outcome State Fault Refusal := .next (weStep .andn x f s)

/-- SHL (R76, R79). -/
def execShl (x : CrystalAddr) (f : WeFields) (s : State) : Host.Outcome State Fault Refusal := .next (weStep .shl x f s)

/-- SHR (R76, R79). -/
def execShr (x : CrystalAddr) (f : WeFields) (s : State) : Host.Outcome State Fault Refusal := .next (weStep .shr x f s)

/-- SAR (R76, R79). -/
def execSar (x : CrystalAddr) (f : WeFields) (s : State) : Host.Outcome State Fault Refusal := .next (weStep .sar x f s)

/-- ROL (R76, R79). -/
def execRol (x : CrystalAddr) (f : WeFields) (s : State) : Host.Outcome State Fault Refusal := .next (weStep .rol x f s)

/-- CMPEQ (R76). -/
def execCmpeq (x : CrystalAddr) (f : WeFields) (s : State) : Host.Outcome State Fault Refusal := .next (weStep .cmpeq x f s)

/-- CMPLTU (R76). -/
def execCmpltu (x : CrystalAddr) (f : WeFields) (s : State) : Host.Outcome State Fault Refusal := .next (weStep .cmpltu x f s)

/-- CMPLTS (R76). -/
def execCmplts (x : CrystalAddr) (f : WeFields) (s : State) : Host.Outcome State Fault Refusal := .next (weStep .cmplts x f s)

/-- MINU (R76). -/
def execMinu (x : CrystalAddr) (f : WeFields) (s : State) : Host.Outcome State Fault Refusal := .next (weStep .minu x f s)

/-- MINS (R76). -/
def execMins (x : CrystalAddr) (f : WeFields) (s : State) : Host.Outcome State Fault Refusal := .next (weStep .mins x f s)

/-- MAXU (R76). -/
def execMaxu (x : CrystalAddr) (f : WeFields) (s : State) : Host.Outcome State Fault Refusal := .next (weStep .maxu x f s)

/-- MAXS (R76). -/
def execMaxs (x : CrystalAddr) (f : WeFields) (s : State) : Host.Outcome State Fault Refusal := .next (weStep .maxs x f s)

/-- POPCNT (R76). -/
def execPopcnt (x : CrystalAddr) (f : WeFields) (s : State) : Host.Outcome State Fault Refusal := .next (weStep .popcnt x f s)

/-- CLZ (R76). -/
def execClz (x : CrystalAddr) (f : WeFields) (s : State) : Host.Outcome State Fault Refusal := .next (weStep .clz x f s)

/-- BSWAP (R76). -/
def execBswap (x : CrystalAddr) (f : WeFields) (s : State) : Host.Outcome State Fault Refusal := .next (weStep .bswap x f s)

/-- EXTR (R80). -/
def execExtr (x : CrystalAddr) (f : WeFields) (s : State) : Host.Outcome State Fault Refusal := .next (weStep .extr x f s)

/-- INS (R80). -/
def execIns (x : CrystalAddr) (f : WeFields) (s : State) : Host.Outcome State Fault Refusal := .next (weStep .ins x f s)

/-- SEL (R74, R76). -/
def execSel (x : CrystalAddr) (f : WeFields) (s : State) : Host.Outcome State Fault Refusal := .next (weStep .sel x f s)

/-- MUL32U (R76, R86). -/
def execMul32u (x : CrystalAddr) (f : WeFields) (s : State) : Host.Outcome State Fault Refusal := .next (weStep .mul32u x f s)

/-- MUL32S (R76, R86). -/
def execMul32s (x : CrystalAddr) (f : WeFields) (s : State) : Host.Outcome State Fault Refusal := .next (weStep .mul32s x f s)

/-- CRC (R82, R83). -/
def execCrc (x : CrystalAddr) (f : WeFields) (s : State) : Host.Outcome State Fault Refusal := .next (weStep .crc x f s)

/-- HMIX (R85). -/
def execHmix (x : CrystalAddr) (f : WeFields) (s : State) : Host.Outcome State Fault Refusal := .next (weStep .hmix x f s)

/-- LDR (R89, R91). -/
def execLdr (x : CrystalAddr) (f : WeFields) (s : State) : Host.Outcome State Fault Refusal := .next (weStep .ldr x f s)

/-- STR (R90, R91). -/
def execStr (x : CrystalAddr) (f : WeFields) (s : State) : Host.Outcome State Fault Refusal := .next (weStep .str x f s)

/-- FENCE (R93). -/
def execFence (x : CrystalAddr) (f : WeFields) (s : State) : Host.Outcome State Fault Refusal := .next (weStep .fence x f s)

end Sys2Proof.Machine
end

