-- ==== Sys2Proof/Machine/Context.lean ====
section
/-! DEFINITION. The commands of basins and planes: modes, switch budget, clear, low power, the basin map (04, 05). -/

namespace Sys2Proof.Machine

/-- MODE_BUSY, PLANE_IN_USE, FRAME_NOT_VALID (R124). -/
def causeModeBusy : Nat := 0x0535
/-- PLANE_IN_USE. -/
def causePlaneInUse : Nat := 0x0536
/-- FRAME_NOT_VALID. -/
def causeFrameNotValid : Nat := 0x0537

/-- A write of BSN_MODE (R122): refused as a whole, or in force at once. -/
def bsnModeWrite (n : Nat) (v : Reg) : State → State := guarded (pgBSN n) fun s =>
  let a := at' (pgBSN n) 0x40
  let old := rd s a
  if (bit old 1 ≠ bit v 1 || bit old 2 ≠ bit v 2) && !halted s n then setFault (pgBSN n) causeModeBusy s
  else if bit old 0 && !bit v 0 && atBorder s n then setFault (pgBSN n) causeFrameNotValid s
  else setBasin n { basinOf s n with mode := bit v 1 } (wr a (BitVec.ofNat 32 (fld v 0 4)) s)

/-- BSN_MODE_WRITE (R122). -/
def execBsnModeWrite (basin : Nat) (val : Reg) (s : State) : Host.Outcome State Fault Refusal := .next (bsnModeWrite basin val s)

/-- BSN_SW_BUDGET_WRITE (R122): any write clears LIMITED_WINDOWS. -/
def execBsnSwBudgetWrite (basin : Nat) (val : Reg) (s : State) : Host.Outcome State Fault Refusal :=
  .next (guarded (pgBSN basin) (fun s =>
    wrF (at' (pgBSN basin) 0x4C) 21 11 0 (writeReg (at' (pgBSN basin) 0x48) val s)) s)

/-- The clear in progress: a plane, or 16 for the frame plane. -/
def startClear (n p : Nat) (s : State) : State := setBusy (pgBSN n) true (setBasin n { basinOf s n with clearing := some p } s)

/-- CLEAR of a context plane (R111, R123). -/
def clearCmd (n p : Nat) (s : State) : State :=
  let i := planeInfo s n p
  match i.st with
  | .blank => startClear n p s
  | .failed => startClear n p (setPlaneInfo n p .zero (clearPlane n p s))
  | .valid =>
    if inFlightOf s n p = 0 then startClear n p (setPlaneInfo n p .zero (clearPlane n p (purge n p s)))
    else setFault (pgBSN n) causePlaneInUse s
  | _ => setFault (pgBSN n) causePlaneInUse s

/-- CLEAR of the frame plane (R112, R123): only while HALTED; a basin at its border has only tags NONE (R309). -/
def clearFrameCmd (n : Nat) (s : State) : State :=
  if !halted s n then setFault (pgBSN n) causePlaneInUse s
  else match (basinOf s n).frame.st with
    | .blank => startClear n 16 s
    | .failed => startClear n 16 (setFrameInfo n .zero (clearFrame n s))
    | .valid => startClear n 16 (setFrameInfo n .zero (clearFrame n (noTags n s)))
    | _ => setFault (pgBSN n) causePlaneInUse s

/-- CLEAR (R123). -/
def execClear (basin : Nat) (frame : Bool) (plane : BitVec 4) (s : State) : Host.Outcome State Fault Refusal :=
  .next (posted (pgBSN basin) (fun s => if frame then clearFrameCmd basin s else clearCmd basin plane.toNat s) s)

/-- PLANE_CLEAR_DONE (R123): BUSY clears. -/
def execPlaneClearDone (basin : Nat) (s : State) : Host.Outcome State Fault Refusal :=
  let b := basinOf s basin
  .next (if b.clearing.isSome then setBusy (pgBSN basin) false (setBasin basin { b with clearing := none } s) else s)

/-- The limit T of a window (R117). N is the number of FCLK cycles in 1 µs: 100 times CLK_FAB_PLL.FREQ. -/
def switchLimit (s : State) (n : Nat) : Nat :=
  let cycles := 100 * rdF s (at' pgCLK 0x4C) 0 6
  rdF s (at' (pgBSN n) 0x48) 0 6 * 512 * cycles / (if rdB s (at' pgTHM 0x40) 17 then 200 else 100)

/-- BUDGET_LIMIT_REACHED (R118): both intake ports stop once the count has reached T. -/
def execBudgetLimitReached (basin : Nat) (s : State) : Host.Outcome State Fault Refusal :=
  let b := basinOf s basin
  .next (if switchLimit s basin ≤ b.window then setBasin basin { b with stopped := true } s else s)

/-- BUDGET_WINDOW_END (R118); the window count is frozen while the basin dozes (R117). -/
def execBudgetWindowEnd (basin : Nat) (s : State) : Host.Outcome State Fault Refusal :=
  let b := basinOf s basin
  let a := at' (pgBSN basin) 0x4C
  .next (if b.power ≠ .run then s
    else
      let s := wrF a 0 21 b.window s
      let s := if b.stopped then setIrq (pgBSN basin) 2 (incF a 21 11 1 s) else s
      setBasin basin { b with window := 0, stopped := false } s)

/-- No item is in flight and no dispatch in transit (R425). -/
def basinIdle (s : State) (n : Nat) : Bool :=
  let b := basinOf s n
  b.items.isEmpty && b.in0.waiting.isEmpty && b.in1.waiting.isEmpty && !s.slu.transit.any (fun t => t.1 = n)

/-- DOZE_ENTRY (R422, R425). -/
def execDozeEntry (basin : Nat) (s : State) : Host.Outcome State Fault Refusal :=
  let b := basinOf s basin
  .next (if b.power = .run && basinIdle s basin then setBasin basin { b with power := .doze, waking := false } s else s)

/-- DEEP_ENTRY (R425): from DOZE, unless DEEP_IDLE is 0. -/
def execDeepEntry (basin : Nat) (s : State) : Host.Outcome State Fault Refusal :=
  let b := basinOf s basin
  .next (if b.power = .doze && !b.waking && rdF s (at' pgCLK 0x5C) 16 16 ≠ 0 then setBasin basin { b with power := .deep } s else s)

/-- A group that holds a local pair of a physical basin has a flow at the head of a ready list (R425). -/
def wakeWanted (s : State) (n : Nat) : Bool :=
  (List.range 16).any fun p => match (readyList s p).head? with
    | none => false
    | some f => (groupPairs s (fGroup s f)).any fun q =>
        pairV q.2 && pairDev q.2 = devIndex s && physOf s (pairBasin q.2) = n

/-- DEEP_EXIT (R425): Sluice starts the exit, not of a basin whose RUN_EN is 0 (R422). -/
def execDeepExit (basin : Nat) (s : State) : Host.Outcome State Fault Refusal :=
  let b := basinOf s basin
  .next (if b.power = .deep && wakeWanted s basin && rdB s (clkEnA (pgBSN basin)) 0 && !workHeld s then
      setBasin basin { b with waking := true } s
    else s)

/-- A basin runs again (R119): from DEEP with everything that DEEP loses at its reset value. -/
def wakeBasin (n : Nat) (s : State) : State :=
  let s := if (basinOf s n).power = .deep then coldFabric n s else s
  setBasin n { basinOf s n with power := .run, waking := false } s

/-- BASIN_WAKE_DONE (R425). -/
def execBasinWakeDone (basin : Nat) (s : State) : Host.Outcome State Fault Refusal :=
  .next (if (basinOf s basin).waking then wakeBasin basin s else s)

-- The basin map

/-- The entries of CFG_BASIN_MAP_k that a write changes, with present and new physical basin. -/
def mapChanges (s : State) (k : Nat) (v : Reg) : List (Nat × Nat × Nat) :=
  ((List.range 4).map fun i => (4 * k + i, physOf s (4 * k + i), fld v (8 * i) 6)).filter fun e => e.2.1 ≠ e.2.2

/-- A plane or the frame plane of a basin is LOADING or PENDING. -/
def basinLoading (s : State) (n : Nat) : Bool :=
  let busyState (i : PlaneInfo) : Bool := i.st = .loading || i.st = .pending
  busyState (basinOf s n).frame || (List.range 16).any fun p => busyState (planeInfo s n p)

/-- A basin may take part in a map change (R144). -/
def mapBusy (s : State) (n : Nat) : Bool := !halted s n || basinLoading s n

/-- Every plane of a physical basin goes to BLANK with CAUSE 0 and is cleared (R111, R144). -/
def blankBasin (n : Nat) (s : State) : State :=
  let s := (List.range 16).foldl (fun t p => setPlaneInfo n p .zero (clearPlane n p (purge n p t))) s
  let s := setFrameInfo n .zero (clearFrame n (noTags n s))
  setBasin n { basinOf s n with mapClear := true } s

/-- A write of CFG_BASIN_MAP_k (R144): refused as a whole, or in force with the new basins' planes BLANK. -/
def basinMapWrite (k : Nat) (v : Reg) : State → State := guarded pgCFG fun s =>
  let a := 0x7200 + 4 * k
  let ch := mapChanges s k v
  let after (l : Nat) : Nat := if l / 4 = k then fld v (8 * (l % 4)) 6 else physOf s l
  if ch = [] then s
  else if (List.range 4).any (fun i => 33 < fld v (8 * i) 6) then setFault pgCFG reservedValue s
  else if ch.any (fun e => mapBusy s e.2.1 || mapBusy s e.2.2) then setFault pgCFG 0x0542 s
  else if (List.range 32).any (fun l => (List.range 32).any fun m => l < m && after l = after m) then setFault pgCFG 0x0543 s
  else ch.foldl (fun t e => blankBasin e.2.2 t) (wr a (v &&& 0x3F3F3F3F) s)

/-- CFG_BASIN_MAP_WRITE (R144). -/
def execCfgBasinMapWrite (k : BitVec 3) (val : Reg) (s : State) : Host.Outcome State Fault Refusal :=
  .next (basinMapWrite k.toNat val s)

/-- BASIN_STORAGE_CLEAR_DONE (R144): the storage of a newly mapped basin is clear, and sections addressed to it may be written. -/
def execBasinStorageClearDone (basin : Nat) (s : State) : Host.Outcome State Fault Refusal :=
  .next (setBasin basin { basinOf s basin with mapClear := false } s)

end Sys2Proof.Machine
end

