-- ==== Sys2Proof/Machine/PlaneOps.lean ====
section
/-! DEFINITION. The life of planes and frame planes under a stream: sections, admission, latching (02, 04, 05, 06, 10). -/

namespace Sys2Proof.Machine

-- Admission

/-- The codewords that admission decodes (R531): SPINE, X_INIT, Y_INIT, FF_INIT and the control fields, PORT_CFG. -/
def admitWords : List Nat := [27, 32, 33, 34, 35]

/-- Codeword `w` of plane `p` of crystal `x` decoded. -/
def planeDec (s : State) (n x p w : Nat) : Decoded := decode72 (planeCode s (xk n x) p w)

/-- PORT_CFG of a stored plane: plane bits 2212 to 2243 (R148). -/
def portCfg (s : State) (n x p : Nat) : BitVec 32 :=
  BitVec.ofNat 32 (fld (planeDec s n x p 34).data 36 28 + fld (planeDec s n x p 35).data 0 4 * 2 ^ 28)

/-- PORT_CFG of a crystal is refused (R149). -/
def badPortCfg (c : BitVec 32) (x : Nat) : Bool :=
  let k := fld c 0 3
  let served := match portPlace x with
    | some (j, _, _) => decide (j = k)
    | none => false
  4 ≤ k || (k ≠ 0 && !served) || fld c 13 19 ≠ 0 || (k ≤ 1 && bit c 3) || (k = 0 && (fld c 6 7 ≠ 0 || fld c 4 2 ≠ 0))

/-- A crystal's plane sets DRV for spine `i` of its die (R139). -/
def setsDrv (s : State) (n x p i : Nat) : Bool := bit (planeDec s n x p 27).data (32 + 4 * i)

/-- A plane claims basin spine `i` (R140): some crystal of the spine's die sets DRV for it. -/
def claims (s : State) (n p i : Nat) : Bool := (List.range 256).any fun x => setsDrv s n (256 * (i / 4) + x) p (i % 4)

/-- Two crystals of one pan set DRV for the same spine (R140). -/
def doubleDrive (s : State) (n p i : Nat) : Bool :=
  (List.range 8).any fun k => 1 < ((List.range 32).filter fun c => setsDrv s n (256 * (i / 4) + 32 * k + c) p (i % 4)).length

/-- The spine claims of a plane fail (R140). -/
def contends (s : State) (n p : Nat) : Bool :=
  (List.range 8).any fun i =>
    doubleDrive s n p i || (claims s n p i && (validPlanes s n).any fun q => q ≠ p && claims s n q i)

/-- The first failing admission check of a plane (R531): PLANE_UE, BAD_PORT_CFG, CONTEND. -/
def admission (s : State) (n p : Nat) : Option Nat :=
  if (List.range 512).any fun x => admitWords.any fun w => (planeDec s n x p w).isUe then some 0x0531
  else if (List.range 512).any fun x => badPortCfg (portCfg s n x p) x then some 0x0553
  else if contends s n p then some 0x0540
  else none

/-- Log what decoding some codewords of a plane met. -/
def logWords (n p : Nat) (xs ws : List Nat) (s : State) : State :=
  xs.foldl (fun t x => ws.foldl (fun t w => logPlane n x p w (planeDec s n x p w) t) t) s

-- Lane settings (R134, R136)

/-- Plane bits `lo` to `lo + n - 1` of decoded codewords. -/
def planeShare (s : State) (n x p lo len : Nat) : BitVec 96 :=
  let ws := (List.range 3).map fun i => (planeDec s n x p (lo / 64 + i)).data.toNat * 2 ^ (64 * i)
  BitVec.ofNat 96 (ws.sum / 2 ^ (lo % 64) % 2 ^ len)

/-- The sharing crystal of lane `j` of set `t` in a pan, with the first bit and the length of the share (R134). -/
def laneShare (t j : Nat) : Nat × Nat × Nat :=
  if t = 2 then (j / 2, 1712 + 24 * (j % 2), 24) else (8 * t + j, 1616, 96)

/-- The settings entry that lane `j` of set `t` latches from plane `c` (R136). -/
def latchedSet (s : State) (n p t j c : Nat) : LaneSet :=
  let sh := laneShare t j
  let x := 32 * p + sh.1
  let ws := (List.range 36).filter fun w => sh.2.1 / 64 ≤ w && w ≤ (sh.2.1 + sh.2.2 - 1) / 64
  if ws.any fun w => (planeDec s n x c w).isUe then ⟨0, true⟩ else ⟨planeShare s n x c sh.2.1 sh.2.2, false⟩

/-- Latch the settings entries of a plane, logging what the shares' codewords 25 and 26 met (R136). -/
def latchLanes (n c : Nat) (s : State) : State :=
  let keys := (List.range 16).flatMap fun p => (List.range 3).flatMap fun t => (List.range 8).map fun j => (p, t, j)
  let l := keys.foldl (fun m k =>
    tput ⟨0, false⟩ (16 * (24 * (16 * n + k.1) + 8 * k.2.1 + k.2.2) + c) (latchedSet s n k.1 k.2.1 k.2.2 c) m) s.fab.laneSets
  let xs := (List.range 16).flatMap fun p => (List.range 16).map (32 * p + ·)
  logWords n c xs [25, 26] (withFab (fun f => { f with laneSets := l }) s)

/-- A PENDING plane whose stream verified is admitted (R52, R111, R136, R531): VALID with its initial values, or FAILED. A
basin in DEEP wakes for the load and returns (R120), which leaves what a DEEP exit leaves (R119). -/
def admitPlane (n p : Nat) (s : State) : State :=
  let i := planeInfo s n p
  let all := List.range 512
  match admission s n p with
  | some c => setPlaneInfo n p ⟨.failed, BitVec.ofNat 16 c, none⟩ (logWords n p all admitWords s)
  | none =>
    let s := latchLanes n p (logWords n p all [27, 35] s)
    let s := if (basinOf s n).power = .deep then coldFabric n s else s
    rearmEmpty (setPlaneInfo n p ⟨.valid, i.cause, none⟩ (loadInitial n p s).1)

-- The frame plane

/-- A frame codeword decoded. -/
def frameDec (s : State) (n x : Nat) : Decoded := decode72 (tget 0 (xk n x) s.fab.frames)

/-- The fields of a crystal's frame plane are refused (R105). -/
def badFrame (w : Word) (x : Nat) : Bool :=
  let p := panOf x
  let c := x % 32
  let k := fld w 0 3
  let i := fld w 3 5
  let low := p % 8 = 0
  let high := p % 8 = 7
  4 < k || (k = 1 && low) || (k = 2 && high) || (k = 4 && !(low && c < 8))
    || (1 ≤ k && k ≤ 3 && 7 < i) || (k = 4 && i ≠ 0)
    || fld w 26 38 ≠ 0 || (8 ≤ c && fld w 8 18 ≠ 0) || (c < 8 && ((bit w 24 && low) || (bit w 23 && high)))

/-- A PENDING frame plane is read, checked and latched (R105, R112). -/
def admitFrame (n : Nat) (s : State) : State :=
  let i := (basinOf s n).frame
  let ds := (List.range 512).map fun x => frameDec s n x
  let s := ds.zipIdx.foldl (fun t q => logDecoded 0 (planeLogAddr n q.2 0 0 true) 0x0533 q.1 false t) s
  if ds.any Decoded.isUe then setFrameInfo n ⟨.failed, 0x0533, none⟩ s
  else if ds.zipIdx.any fun q => badFrame q.1.data q.2 then setFrameInfo n ⟨.failed, 0x0534, none⟩ s
  else
    let s := ds.zipIdx.foldl (fun t q =>
      setCrystal (xk n q.2) { crystalOf t (xk n q.2) with frame := BitVec.ofNat 26 q.1.data.toNat } t) s
    setFrameInfo n ⟨.valid, i.cause, none⟩ s

-- Sections

/-- A section of engine `e` enters plane `p` of physical basin `n` (R111), the frame plane where `p` is 16 (R112): the state, or
nothing where it is refused with PLANE_IN_USE. -/
def beginPlane (e n p : Nat) (s : State) : Option State :=
  let i := if p = 16 then (basinOf s n).frame else planeInfo s n p
  let put (v : PlaneInfo) (t : State) : State := if p = 16 then setFrameInfo n v t else setPlaneInfo n p v t
  let clr (t : State) : State := if p = 16 then clearFrame n (noTags n t) else clearPlane n p t
  let loading : PlaneInfo := ⟨.loading, i.cause, some e⟩
  if p = 16 && !halted s n then none
  else match i.st with
    | .blank => some (put loading (clr s))
    | .failed => some (put loading (clr s))
    | .valid =>
      if p = 16 then some (put loading (clr s))
      else if inFlightOf s n p = 0 then some (put loading (clr (purge n p s)))
      else none
    | _ => if i.st = .pending && i.eng = some e then some (put loading s) else none

/-- The crystals of a section's range, pan by pan (R290). -/
def sectionCrystals (h : List Byte) : List Nat :=
  let b (k : Nat) : Nat := (h.getD k 0).toNat
  (List.range 16).flatMap fun p =>
    if b 4 ≤ p && p ≤ b 5 then ((List.range 32).filter fun c => b 6 ≤ c && c ≤ b 7).map (32 * p + ·) else []

/-- Write one image into a crystal's plane, or its frame plane (R290): the check bits are computed. -/
def writeImage (n p x : Nat) (img : List Byte) (s : State) : State :=
  if p = 16 then withFab (fun f => { f with frames := tput 0 (xk n x) (encCode (ofBytes 64 (img.take 8))) f.frames }) s
  else (List.range 36).foldl (fun t w => setPlaneCode (xk n x) p w (encCode (ofBytes 64 ((img.drop (8 * w)).take 8))) t) s

/-- The bytes of an image. -/
def imageLen (p : Nat) : Nat := if p = 16 then 8 else 288

/-- The last word of a section is written: its images stand in its crystals, and the plane is PENDING (R111, R290, R291). -/
def finishPlane (n p : Nat) (h payload : List Byte) (s : State) : State :=
  let rep := bit (h.getD 1 0) 0
  let len := imageLen p
  let s := (sectionCrystals h).zipIdx.foldl (fun t q =>
    writeImage n p q.1 (if rep then payload else (payload.drop (len * q.2)).take len) t) s
  if p = 16 then setFrameInfo n { (basinOf s n).frame with st := .pending } s
  else setPlaneInfo n p { planeInfo s n p with st := .pending } s

/-- A plane that a stream leaves LOADING or PENDING (R111): BLANK and cleared with CAUSE TRUNCATED, or FAILED with a verification
cause. -/
def dropPlane (cause : Option Nat) (n p : Nat) (s : State) : State :=
  let i := if p = 16 then (basinOf s n).frame else planeInfo s n p
  if i.st = .loading || i.st = .pending then
    match cause with
    | some c =>
      let v : PlaneInfo := ⟨.failed, BitVec.ofNat 16 c, none⟩
      if p = 16 then setFrameInfo n v s else setPlaneInfo n p v s
    | none =>
      let v : PlaneInfo := ⟨.blank, 0x040B, none⟩
      if p = 16 then setFrameInfo n v (clearFrame n s) else setPlaneInfo n p v (clearPlane n p s)
  else s

end Sys2Proof.Machine
end

