-- ==== Sys2Proof/Machine/LaneOps.lean ====
section
/-! DEFINITION. The operations of lanes: registers, bonded groups, the ladder and the lane machine, polarity and markers, the intake,
the egress classes and protection groups (08). -/

namespace Sys2Proof.Machine

-- Places

/-- A register of lane `l` at offset `o` of its block (R257). -/
def laneA (l o : Nat) : Nat := at' (pgQUAD (l / 4)) (0x100 + 0x40 * (l % 4) + o)
/-- QUAD_CFG of quad `q`. -/
def quadCfgA (q : Nat) : Nat := at' (pgQUAD q) 0x40
/-- Lane `l`. -/
def laneOf (s : State) (l : Nat) : Lane := tget .zero l s.lan.lanes
/-- Replace the lanes record. -/
def withLan (u : Lanes → Lanes) (s : State) : State := { s with lan := u s.lan }
/-- Write lane `l`. -/
def setLane (l : Nat) (v : Lane) (s : State) : State := withLan (fun x => { x with lanes := tput .zero l v x.lanes }) s

/-- BOND of a quad; a quad joined by the even quad below it reads 3 (R219). -/
def quadBond (s : State) (q : Nat) : Nat :=
  if q % 2 = 1 && rdF s (quadCfgA (q - 1)) 2 2 = 3 then 3 else rdF s (quadCfgA q) 2 2
/-- The number of lanes of a group under a BOND value (R219). -/
def bondSize (b : Nat) : Nat := 2 ^ (b % 4)
/-- The number of lanes in the group of a lane; in EMBER no lane is bonded (R254). -/
def groupSize (s : State) (l : Nat) : Nat := if modeOf s = mEMBER then 1 else bondSize (quadBond s (l / 4))
/-- The lowest lane of the group of a lane, which names the group (R219). -/
def leadOf (s : State) (l : Nat) : Nat := l / groupSize s l * groupSize s l
/-- The lanes of the group of a lane. -/
def laneGroup (s : State) (l : Nat) : List Nat := (List.range (groupSize s l)).map (leadOf s l + ·)
/-- ROLE of a quad is ENRUS (R217). -/
def enrusQuad (s : State) (q : Nat) : Bool := rdB s (quadCfgA q) 0
/-- The state of a lane, which is its group's (R219). -/
def laneStateOf (s : State) (l : Nat) : LaneState := (laneOf s (leadOf s l)).state
/-- A lane is up: LOCKED. -/
def laneUp (s : State) (l : Nat) : Bool := laneStateOf s l = .locked

/-- The encoding of a lane state in LANE_STAT. -/
def laneStateCode (v : LaneState) : Nat :=
  match v with
  | .disabled => 0
  | .seek => 1
  | .locked => 2
  | .diag => 3
  | .noRung => 4
  | .lifeline => 5

/-- LANE_STAT: the state of the group, and the lane's own logical number, polarity and PRBS lock (R219, R230, R252, R257). -/
def laneStat (s : State) (l : Nat) : Reg :=
  let v := laneOf s (leadOf s l)
  let own := laneOf s l
  BitVec.ofNat 32 (min v.walks 4095 + b2n own.prbsLock * 2 ^ 15 + b2n v.degraded * 2 ^ 16 + own.logical % 8 * 2 ^ 17
    + b2n own.polInv * 2 ^ 20 + b2n v.los * 2 ^ 21 + b2n v.mkr * 2 ^ 22 + b2n v.blk * 2 ^ 23 + b2n v.cdr * 2 ^ 24
    + v.rung % 16 * 2 ^ 25 + laneStateCode v.state * 2 ^ 29)

-- The ladder

/-- Word `w` of rung `k` of quad `q` (R224). -/
def rungW (s : State) (q k w : Nat) : Word := tget 0 (32 * q + 2 * k + w) s.lan.rungs
/-- V of a rung. -/
def rungV (s : State) (q k : Nat) : Bool := bit (rungW s q k 0) 63
/-- FORCE of a lane. -/
def laneForce (s : State) (l : Nat) : Bool := rdB s (laneA l 0) 27
/-- FORCE_RUNG of a lane. -/
def forceRung (s : State) (l : Nat) : Nat := rdF s (laneA l 0) 28 4
/-- Top of a lane's ladder (R229). -/
def topRung (s : State) (l : Nat) : Option Nat :=
  if laneForce s l then (if rungV s (l / 4) (forceRung s l) then some (forceRung s l) else none)
  else ((List.range 16).map (15 - ·)).find? (rungV s (l / 4))
/-- Next after rung `k` (R229): the next lower one with V = 1, else the top, with the wrap. -/
def nextRung (s : State) (l k : Nat) : Option (Nat × Bool) :=
  match (((List.range 16).map (15 - ·)).filter (· < k)).find? (rungV s (l / 4)) with
  | some j => some (j, false)
  | none => (topRung s l).map fun j => (j, true)

/-- RATE outside the range that MOD gives, in units of 250 kb/s (R220). -/
def badRate (rate modBit : Nat) : Bool :=
  if modBit = 0 then rate < 5000 || 224000 < rate else rate < 212500 || 850000 < rate

/-- A rung with V = 1 is refused (R225); `bond` says whether its quad has BOND above 0. -/
def badRung (w0 w1 : Word) (bond : Bool) : Bool :=
  let enc := fld w0 21 2
  let fec := fld w0 23 2
  let mk := fld w0 25 2
  let per := fld w0 27 8
  badRate (fld w0 0 20) (fld w0 20 1) || enc = 3 || mk = 3 || fld w0 53 10 ≠ 0 || fld w1 40 24 ≠ 0 || bit w1 31
    || ((fec ≠ 0 || mk ≠ 0) && enc ≠ 2) || (2 ≤ fec && mk = 0) || (mk = 2 && per ≠ 16) || (0 < fld w0 41 3 && enc = 0)
    || 6 < fld w0 41 3 || (mk = 0 && bond) || (mk ≠ 0 && per = 0)
    || fld w1 36 4 = 0 || fld w1 32 4 = 0 || fld w1 24 7 = 0 || 64 < fld w1 24 7 || fld w1 16 8 = 0 || fld w1 0 16 = 0

/-- ENC of the rung that a lane has entered. -/
def laneEnc (v : Lane) : Nat := fld v.rung0 21 2
/-- MK_FMT of the rung that a lane has entered. -/
def laneMk (v : Lane) : Nat := fld v.rung0 25 2

-- Egress classes

/-- The outputs waiting in class `c` of a lane. -/
def egressOf (s : State) (l c : Nat) : List Egress := tget [] (8 * l + c) s.lan.egress
/-- Write a class of a lane. -/
def setEgress (l c : Nat) (q : List Egress) (s : State) : State := withLan (fun x => { x with egress := tput [] (8 * l + c) q x.egress }) s
/-- Outputs waiting for a lane (R241). -/
def egressCount (s : State) (l : Nat) : Nat := ((List.range 8).map fun c => (egressOf s l c).length).sum
/-- Count discarded outputs of a lane with their cause: LANE_DROP.EGRESS and IRQ_STAT bit 4 (R242, R257, R258). -/
def egressDrop (l n cause : Nat) (s : State) : State :=
  if n = 0 then s else setIrq (pgQUAD (l / 4)) 4 (incF (laneA l 0x2C) 0 16 n (noteDrop (2 * l + 1) cause s))
/-- Discard every output waiting for a lane (R242). -/
def discardEgress (l : Nat) (s : State) : State :=
  egressDrop l (egressCount s l) 0x0713 ((List.range 8).foldl (fun t c => setEgress l c [] t) s)

-- Protection groups

/-- LANE_PROT of a lane. -/
def protA (l : Nat) : Nat := laneA l 0x24
/-- LANE_PROT_STAT of a lane. -/
def protStatA (l : Nat) : Nat := laneA l 0x28
/-- The lane is a working lane of a protection group (R245). -/
def isWorking (s : State) (l : Nat) : Bool := rdB s (protA l) 31 && !rdB s (protA l) 29
/-- The lane is a protect lane. -/
def isProtect (s : State) (l : Nat) : Bool := rdB s (protA l) 31 && rdB s (protA l) 29
/-- The lane's group is N:1. -/
def manyToOne (s : State) (l : Nat) : Bool := rdB s (protA l) 30
/-- PEER. -/
def protPeer (s : State) (l : Nat) : Nat := rdF s (protA l) 16 8
/-- ACTIVE. -/
def protActive (s : State) (l : Nat) : Bool := rdB s (protStatA l) 31
/-- The working lanes of a protect lane. -/
def workingOf (s : State) (p : Nat) : List Nat := (List.range 144).filter fun w => isWorking s w && protPeer s w = p
/-- The lane that carries the egress of partner lane `w` (R246, R247). -/
def carrier (s : State) (w : Nat) : Nat := if isWorking s w && protActive s w then protPeer s w else w
/-- A lane's transmitter runs at its rung; in every other state it is idle or sends what R253 to R255 give (R229). -/
def txOn (s : State) (l : Nat) : Bool := laneStateOf s l = .locked || laneStateOf s l = .seek
/-- The lanes on which a frame of partner lane `w` is sent (R246): both of a 1+1 group whose transmitters run, else the carrier. -/
def txLanes (s : State) (w : Nat) : List Nat :=
  if isWorking s w && !manyToOne s w then [w, protPeer s w].filter (txOn s) else [carrier s w]
/-- The lane whose LANE_MARK_TX a lane's markers carry: the working lane that an N:1 protect lane carries, else its own (R235, R248). -/
def markSource (s : State) (l : Nat) : Nat :=
  if isProtect s l && manyToOne s l && protActive s l then rdF s (protStatA l) 16 8 else l
/-- How a group of backplane lanes transmits at its rung (R223, R232 to R235): logical lane `i` is physical lane `i` of the group. -/
def laneTx (s : State) (l : Nat) : TxForm :=
  let v := laneOf s l
  { lanes := laneGroup s l, fmt := laneMk v, period := 1024 * fld v.rung0 27 8, mark := rd s (laneA (markSource s l) 8) }
/-- The partner lane whose frames lane `l` receives at present (R246, R248). -/
def rxFor (s : State) (l : Nat) : Option Nat :=
  if isWorking s l then (if (laneOf s l).rxProt then none else some l)
  else if isProtect s l then (workingOf s l).find? fun w => (laneOf s w).rxProt
  else some l
/-- The lane is the active lane of its protection group (R244, R253). -/
def activeMember (s : State) (l : Nat) : Bool :=
  (isWorking s l && !protActive s l) || (isProtect s l && protActive s l)

-- Intake: segments

/-- The partner that a frame of (lane, sub-channel) matches (R236): the lowest enabled one without FAULT. -/
def findPartner (s : State) (l sub : Nat) : Option Nat :=
  (s.slu.partners.find? fun q =>
    bit q.2 30 && fld q.2 16 8 = l && fld q.2 24 6 = sub && !tget false q.1 s.slu.pFault).map (·.1)

/-- Match a frame to a partner: an entry that reads uncorrectable gets FAULT and takes no part (R213, R236); `n` bounds the search. -/
def matchPartner (l sub : Nat) : Nat → State → Option Nat × State
  | 0, s => (none, s)
  | n + 1, s =>
    match findPartner s l sub with
    | none => (none, s)
    | some p =>
      let s := sluTouch 0 p 0 2 s
      if sluUe s 0 p 0 2 then matchPartner l sub n (withSlu (fun u => { u with pFault := tput false p true u.pFault }) s)
      else (some p, s)

/-- The tick count's low 32 bits (R237). -/
def tick32 (s : State) : BitVec 32 := BitVec.ofNat 32 (tickNow s).toNat

/-- The open segment of (lane, sub-channel). -/
def openSeg (s : State) (l : Nat) (sub : BitVec 6) : Option Segment := s.lan.openSegs.find? fun g => g.lane = l && g.sub = sub

/-- Replace or add the open segment of its lane and sub-channel. -/
def putSeg (g : Segment) (s : State) : State :=
  withLan (fun x => { x with openSegs := (x.openSegs.filter fun h => !(h.lane = g.lane && h.sub = g.sub)) ++ [g] }) s

/-- Close an open segment (R238): its bytes stand in its rows, and it is entered, held or dropped. -/
def endSegment (g : Segment) (s : State) : State :=
  let s := withLan (fun x => { x with openSegs := x.openSegs.filter fun h => !(h.lane = g.lane && h.sub = g.sub) }) s
  closeSegment g (writeBytes g.bank g.row 0 g.bytes (bankTouch g.bank s))

/-- Open a segment in a free row group of the intake (R237, R327); a bank that a handover takes from it refuses (R323). -/
def beginSegment (l : Nat) (sub : BitVec 6) (p rung : Nat) (records first : Bool) (arrival : BitVec 32) (s : State) :
    Option Segment × State :=
  match freeGroup s 2 with
  | some g => (some ⟨l, sub, p, g / 1024, g % 1024 * 4, records, first, false, false, false, arrival, rung, []⟩,
      takeGroup g (bankTouch (g / 1024) (refuseHanded 2 (g / 1024) s)))
  | none => (none, refuseHanded 2 128 s)

/-- A record (R237): header, frame bytes, padding to 8 bytes. -/
def recordBytes (arrival : BitVec 32) (trunc err : Bool) (bs : List Byte) : List Byte :=
  toBytes 8 (BitVec.ofNat 64 (bs.length % 2 ^ 18 + b2n err * 2 ^ 18 + b2n trunc * 2 ^ 19 + arrival.toNat * 2 ^ 32)) ++ bs
    ++ List.replicate ((8 - bs.length % 8) % 8) 0

/-- Put a whole frame into a records segment (R237, R238); no free group: dropped and counted. -/
def addRecord (l : Nat) (sub : BitVec 6) (p rung : Nat) (rec : List Byte) (arrival : BitVec 32) (s : State) : State :=
  let s := match openSeg s l sub with
    | some g => if g.records && g.bytes.length + rec.length ≤ 4096 then s else endSegment g s
    | none => s
  match openSeg s l sub with
  | some g => putSeg { g with bytes := g.bytes ++ rec } s
  | none => match beginSegment l sub p rung true false arrival s with
    | (some g, s) => putSeg { g with bytes := rec } s
    | (none, s) => intakeDrop l 0x0711 s

/-- Put the bytes of a long frame into plain segments (R237, R238): the state and whether the rest is dropped; `n` bounds the pieces.
A full piece closes when a further byte or the end of the frame shows whether it is the last. -/
def plainFill (l : Nat) (sub : BitVec 6) (p rung : Nat) (err trunc ends : Bool) (arrival : BitVec 32) :
    Nat → Bool → List Byte → State → State × Bool
  | 0, _, _, s => (s, false)
  | n + 1, first, bs, s =>
    let cur := match openSeg s l sub with
      | some g => (some g, s)
      | none => if bs.isEmpty then (none, s)
          else beginSegment l sub p rung false first (if first then arrival else tick32 s) s
    match cur with
    | (none, s) => if bs.isEmpty then (s, false) else (intakeDrop l 0x0711 s, true)
    | (some g, s) =>
      let room := 4096 - g.bytes.length
      let g := { g with bytes := g.bytes ++ bs.take room, errCode := g.errCode || err }
      if bs.length ≤ room then
        (if ends then endSegment { g with last := true, errTrunc := trunc } s else putSeg g s, false)
      else plainFill l sub p rung err trunc ends arrival n false (bs.drop room) (endSegment g s)

/-- The frame in progress of a lane. -/
def incomingOf (s : State) (l : Nat) : Option Incoming := s.lan.incoming.find? fun i => i.lane = l
/-- Keep, or with `none` forget, the frame in progress of a lane. -/
def setIncoming (l : Nat) (v : Option Incoming) (s : State) : State :=
  withLan (fun x => { x with incoming := (x.incoming.filter fun i => decide (i.lane ≠ l)) ++ v.toList }) s

/-- Sub-channel of a frame from its first bytes (R224, R236). -/
def subOf (rung0 : Word) (bs : List Byte) : BitVec 6 :=
  BitVec.ofNat 6 ((ofBytes 64 (bs.take 8)).toNat >>> fld rung0 35 6 % 2 ^ fld rung0 41 3)

/-- The largest frame that goes into records (R237). -/
def bundleMax (s : State) (l : Nat) : Nat := 16 * rdF s (quadCfgA (l / 4)) 24 8

/-- Receive bytes of a frame of partner lane `l`, received at a lane with copied rung word `r0` at rung `rung` (R236 to R238): `ends` with
the last byte, `trunc` where loss of lock ends it. -/
def feedFrame (l : Nat) (r0 : Word) (rung : Nat) (bs : List Byte) (err ends trunc : Bool) (s : State) : State :=
  let i := (incomingOf s l).getD ⟨l, [], tick32 s, none, false, false, false⟩
  let i := { i with bytes := i.bytes ++ bs, err := i.err || err }
  if i.dropped then setIncoming l (if ends then none else some { i with bytes := [] }) s
  else if i.dest.isNone && !ends && i.bytes.length < 8 then setIncoming l (some i) s
  else if !i.started && i.bytes.isEmpty then setIncoming l none s
  else
    let sub := subOf r0 i.bytes
    let (dest, s) := match i.dest with
      | some d => (some d, s)
      | none => match matchPartner l sub.toNat 4096 s with
        | (some p, s) => (some (sub, p), s)
        | (none, s) => (none, s)
    match dest with
    | none => setIncoming l (if ends then none else some { i with bytes := [], dropped := true }) (intakeDrop l 0x0710 s)
    | some (sub, p) =>
      let i := { i with dest := some (sub, p) }
      if !i.started && i.bytes.length ≤ bundleMax s l then
        if ends then setIncoming l none (addRecord l sub p rung (recordBytes i.arrival trunc i.err i.bytes) i.arrival s)
        else setIncoming l (some i) s
      else
        let s := if i.started then s else match openSeg s l sub with
          | some g => endSegment g s
          | none => s
        let r := plainFill l sub p rung i.err trunc ends i.arrival (i.bytes.length / 4096 + 2) (!i.started) i.bytes s
        setIncoming l (if ends then none else some { i with bytes := [], started := true, dropped := r.2 }) r.1

/-- Receive bytes on a raw rung (R236): runs of 4,096 bytes, each a plain segment of sub-channel 0; `n` bounds the runs. -/
def feedRaw (l rung : Nat) (err : Bool) : Nat → List Byte → State → State
  | 0, _, s => s
  | n + 1, bs, s =>
    if bs.isEmpty then s
    else
      let ((cur, s), cause) : (Option Segment × State) × Nat := match openSeg s l 0 with
        | some g => ((some g, s), 0)
        | none => match matchPartner l 0 4096 s with
          | (some p, s) => (beginSegment l 0 p rung false false (tick32 s) s, 0x0711)
          | (none, s) => ((none, s), 0x0710)
      match cur with
      | none => intakeDrop l cause s
      | some g =>
        let room := 4096 - g.bytes.length
        let g := { g with bytes := g.bytes ++ bs.take room, errCode := g.errCode || err }
        if bs.length < room then putSeg g s else feedRaw l rung err n (bs.drop room) (endSegment g s)

/-- Cut off the frame in progress of partner lane `w`, received at lane `l`, and close its open segments (R238). -/
def cutFrames (w l : Nat) (s : State) : State :=
  let s := if (incomingOf s w).isSome then feedFrame w (laneOf s l).rung0 (laneOf s l).rung [] false true true s else s
  (s.lan.openSegs.filter fun g => g.lane = w).foldl (fun t g => endSegment g t) s

-- The lane machine

/-- A word of a lane's detail window (R257, log entry 302). -/
def detailA (l o : Nat) : Nat := at' (pgQUAD (l / 4)) (0x800 + 0x200 * (l % 4) + o)

/-- The equaliser's adaptation restarts (R221): CTLE and DSP state and eye margin read 0. -/
def restartAdapt (l : Nat) (s : State) : State := wr (detailA l 0x28) 0 (wr (detailA l 0x24) 0 (wr (detailA l 0x20) 0 s))

/-- The equaliser has converged (R221): its state and the eye margin are free values. -/
def adapted (l : Nat) (s : State) : State :=
  let a := takeFree 32 s
  let b := takeFree 32 a.2
  let c := takeFree 32 b.2
  wr (detailA l 0x28) c.1 (wr (detailA l 0x24) b.1 (wr (detailA l 0x20) a.1 c.2))

/-- The PRBS generator and checker of a lane start again (R252). -/
def resetPrbs (l : Nat) (s : State) : State :=
  withLan (fun x => { x with prbs := tput .zero l .zero x.prbs }) (setLane l { laneOf s l with prbsLock := false } s)

/-- Reset what a rung entry restarts in each lane of the group: lock counts, adaptation, the rotation (R221, R229, R230, R232). -/
def clearLocks (s : State) (l : Nat) : State :=
  (laneGroup s l).foldl (fun t m => restartAdapt m <| setTxIndex m 0 <| setLane m { laneOf t m with
    cdr := false, blk := false, fec := false, mkr := false, polInv := false, polDone := false, mkGood := 0, mkBad := 0, skewed := false,
    logical := 0 } t) s

/-- A lane goes to NO_RUNG with its cause (R229). -/
def noRung (l : Nat) (s : State) : State :=
  setFault (pgQUAD (l / 4)) 0x0704 (setLane l { laneOf s l with state := .noRung } s)

/-- A lane enters a rung (R226, R229), or goes to NO_RUNG where it is not valid. -/
def enterRung (l : Nat) (k : Option Nat) (s : State) : State :=
  match k.filter (rungV s (l / 4)) with
  | none => noRung l s
  | some k =>
    let s := clearLocks s l
    setLane l { laneOf s l with state := .seek, rung := k, rung0 := rungW s (l / 4) k 0, rung1 := rungW s (l / 4) k 1 } s

/-- The partner lanes whose egress a lane carries. -/
def carried (s : State) (l : Nat) : List Nat :=
  if isProtect s l then (workingOf s l).filter fun w => protActive s w else [l]

/-- The frame and the segments of a lane that leaves LOCKED are cut off (R238). -/
def cutLane (l : Nat) (s : State) : State :=
  match rxFor s l with
  | some w => cutFrames w l s
  | none => s

/-- A lane is down (R229, R242): LINK_CHANGE, and the outputs waiting for it are discarded unless another lane carries them. -/
def laneDown (l : Nat) (s : State) : State :=
  (carried s l).foldl (fun t w => if carrier t w = l then discardEgress w t else t) (setIrq (pgQUAD (l / 4)) 0 s)

/-- A change of a lane's state by `f`, with what leaving LOCKED brings. -/
def moveLane (l : Nat) (f : State → State) (s : State) : State :=
  if (laneOf s l).state = .locked && (laneOf (f s) l).state ≠ .locked then laneDown l (f (cutLane l s)) else f s

/-- Set the state of a lane alone. -/
def setLaneState (l : Nat) (v : LaneState) (s : State) : State := setLane l { laneOf s l with state := v } s

/-- LANE_CTRL selects a loop or PRBS. -/
def diagSelected (c : Reg) : Bool := fld c 18 2 ≠ 0 || fld c 20 3 ≠ 0 || fld c 24 3 ≠ 0

/-- The lane is a lifeline lane that runs in EMBER (R254). -/
def isLifeline (s : State) (l : Nat) : Bool := s.lan.lifelines.contains l && !enrusQuad s (l / 4)

/-- Word 0 of the fixed setting of a lifeline lane (R254): 10.3125 Gb/s NRZ, 64b/66b, no FEC, no markers, POL_AUTO. -/
def lifelineRung : Word := BitVec.ofNat 64 (41250 + 2 * 2 ^ 21 + 2 ^ 52 + 2 ^ 63)

/-- A lane enters LIFELINE (R254, R256): down with LOS and LIFELINE_CLOCK on ITO alone. -/
def enterLifeline (l : Nat) (s : State) : State :=
  let ito := rdF s 0x2040 0 3 = 5
  let s := clearLocks s l
  let s := setLane l { laneOf s l with state := .lifeline, rung0 := lifelineRung, rung1 := 0, los := ito, cdr := !ito, blk := !ito } s
  if ito then setFault (pgQUAD (l / 4)) 0x0715 s else s

/-- One evaluation of the lane machine by its settings (R229, R254); a failed boot keeps every lane DISABLED (R305). -/
def laneEval (l : Nat) (s : State) : State :=
  let c := rd s (laneA l 0)
  let on := bit c 0 && !rdB s 0x7060 14 && !enrusQuad s (l / 4) && !s.lan.dead.contains l && !s.clk.failed.contains (4 + l / 4)
  moveLane l (fun s =>
    if modeOf s = mEMBER then
      if isLifeline s l then (if (laneOf s l).state = .lifeline then s else enterLifeline l s)
      else setLaneState l .disabled s
    else match (laneOf s l).state with
      | .lifeline => if on then enterRung l (topRung s l) s else setLaneState l .disabled s
      | .disabled =>
        if !on then s
        else if diagSelected c then enterDiag l s
        else enterRung l (topRung s l) s
      | .seek => if !on then setLaneState l .disabled s else if diagSelected c then enterDiag l s else s
      | .locked => if !on then setLaneState l .disabled s else if diagSelected c then enterDiag l s else s
      | .diag =>
        if !on then setLaneState l .disabled s
        else if !diagSelected c then enterRung l (topRung s l) s
        else if (laneOf s l).rung = forceRung s l then s
        else enterDiag l s
      | .noRung =>
        if !on then setLaneState l .disabled s else if (topRung s l).isSome then enterRung l (topRung s l) s else s) s
where
  /-- A lane enters DIAG at FORCE_RUNG (R253). -/
  enterDiag (l : Nat) (s : State) : State :=
    let k := forceRung s l
    let s := clearLocks s l
    let s := (laneGroup s l).foldl (fun t m => resetPrbs m t) s
    setLane l { laneOf s l with state := .diag, rung := k, rung0 := rungW s (l / 4) k 0, rung1 := rungW s (l / 4) k 1 } s

/-- The lane machine runs until its settings ask for nothing more: at most three evaluations do something (R229). -/
def laneSettle (l : Nat) (s : State) : State := laneEval l (laneEval l (laneEval l s))

/-- The lowest lanes of the groups that have a lane in a quad. -/
def quadLeads (s : State) (q : Nat) : List Nat :=
  ((List.range 4).map fun k => leadOf s (4 * q + k)).foldl (fun a l => if a.contains l then a else a ++ [l]) []

-- Switching

/-- A switch block (R248): TYPE, DIR, the BUNDLE of the working lane, the CRC. -/
def switchBlock (s : State) (w : Nat) (prot : Bool) : Word := rytisBlock (0x5C + b2n prot * 2 ^ 8 + rdF s (laneA w 0x08) 16 12 * 2 ^ 12)

/-- Announce a switch of working lane `w` on lane `l` in place of every 64th block for 1 µs (R248). -/
def sendSwitch (l w : Nat) (prot : Bool) (s : State) : State :=
  sendEvery64 (laneTx s l) l (laneOf s l).rung0 (switchBlock s w prot) s

/-- Count a switch or revert in both lanes' LANE_PROT_STAT with its cause, and IRQ_STAT bit 1 (R250, R257). -/
def noteSwitch (w p cause : Nat) (s : State) : State :=
  let one (l : Nat) (s : State) : State :=
    let s := incF (protStatA l) 0 16 1 s
    if cause = 0 then s else wrF (protStatA l) 24 4 cause s
  let s := setIrq (pgQUAD (w / 4)) 1 (one p (one w s))
  if w / 4 = p / 4 then s else setIrq (pgQUAD (p / 4)) 1 s

/-- The receive selector of a working lane moves; the frame in progress is cut off (R246, R248, R249). -/
def moveRx (w : Nat) (prot : Bool) (s : State) : State :=
  if (laneOf s w).rxProt = prot then s
  else
    let s := cutFrames w (if prot then w else protPeer s w) s
    setLane w { laneOf s w with rxProt := prot } s

/-- The protect lane can take over a working lane (R247). -/
def protReady (s : State) (w p : Nat) : Bool :=
  (laneOf s p).state = .locked && fld (laneOf s p).rung0 0 25 = fld (laneOf s w).rung0 0 25
    && !(manyToOne s w && protActive s p)

/-- A switch of an active working lane to protect (R247 to R250), or PROT_UNAVAILABLE; `true` where it is made. -/
def switchToProtect (w cause : Nat) (s : State) : State × Bool :=
  let p := protPeer s w
  if protReady s w p then
    let s := wrF (protStatA w) 31 1 1 (wrF (protStatA p) 31 1 1 s)
    let s := if manyToOne s w then sendSwitch p w true (wrF (protStatA p) 16 8 w s) else moveRx w true s
    (noteSwitch w p cause s, true)
  else (setFault (pgQUAD (w / 4)) 0x070D s, false)

/-- A switch wanted for a working lane: where it is refused a LOCKED lane goes down (R247), and any other stays as it is (R229). -/
def switchOrDown (w cause : Nat) (s : State) : State :=
  let r := switchToProtect w cause s
  if r.2 || (laneOf s w).state ≠ .locked then r.1 else moveLane w (fun t => enterRung w (topRung t w) t) r.1

/-- A switch back to the working lane (R248, R250). -/
def switchBack (w cause : Nat) (s : State) : State :=
  let p := protPeer s w
  let s := wrF (protStatA w) 31 1 0 (wrF (protStatA p) 31 1 0 s)
  let s := if manyToOne s w then sendSwitch w w false (wrF (protStatA p) 16 8 0 s) else moveRx w false s
  noteSwitch w p cause s

-- Markers

/-- A Rytis marker or switch block has its fixed bits and its CRC (R235, R248). -/
def rytisOk (v : Word) (typ : Nat) : Bool :=
  fld v 0 8 = typ && !bit v 11 && fld v 40 24 = crcRun 3 0xB704CE (toBytes 4 (BitVec.ofNat 32 (fld v 8 32)))

/-- The PCS lane that an IEEE marker names: bytes 4 to 6 are the complement of bytes 0 to 2, byte 7 that of byte 3 (R233). -/
def ieeeLane (v : Word) : Option Nat :=
  if fld v 32 24 = 2 ^ 24 - 1 - fld v 0 24 && fld v 56 8 = 255 - fld v 24 8 then ieeeMarkers.idxOf? (fld v 0 24) else none

/-- The logical lane of a marker, under the lane's marker format. -/
def markerLane (mk : Nat) (v : Word) : Option Nat :=
  if mk = 1 then ieeeLane v else if rytisOk v 0x5A then some (fld v 8 3) else none

/-- The logical numbers of a group are 0 to n-1 in some order (R231). -/
def mapOk (s : State) (l : Nat) : Bool :=
  (List.range (groupSize s l)).all fun i => (laneGroup s l).any fun m => (laneOf s m).logical = i

/-- BUNDLE and GEN of a group's lanes agree (R231). -/
def bundlesOk (s : State) (l : Nat) : Bool :=
  (laneGroup s l).all fun m => rd s (laneA m 0x0C) = rd s (laneA (leadOf s l) 0x0C)

/-- Every lane of the group holds marker lock. -/
def markersLocked (s : State) (l : Nat) : Bool := (laneGroup s l).all fun m => (laneOf s m).mkr

/-- The bond lock of a group (R228, R231); a group runs no rung without markers and none with BASE-R FEC (R222). -/
def bondOk (s : State) (l : Nat) : Bool :=
  groupSize s l = 1 || (laneMk (laneOf s (leadOf s l)) ≠ 0 && fld (laneOf s (leadOf s l)).rung0 23 2 ≠ 1 && mapOk s l && (laneMk (laneOf s (leadOf s l)) ≠ 2 || bundlesOk s l) && !(laneOf s (leadOf s l)).skewed)

end Sys2Proof.Machine
end

