-- ==== Sys2Proof/Machine/SecOps.lean ====
section
/-! DEFINITION. Shared operations of the root of trust: OTP words and hidden keys, derived keys, random bytes, security alarms and the
entry into SEALED (14). -/

namespace Sys2Proof.Machine

-- OTP words

/-- Word `w` of the OTP (R388). -/
def otpCode (s : State) (w : Nat) : Code := tget 0 w s.sec.otp
/-- Replace the root-of-trust record. -/
def withSec (u : Sec → Sec) (s : State) : State := { s with sec := u s.sec }
/-- Store a codeword in the OTP. -/
def putOtp (w : Nat) (c : Code) (s : State) : State := withSec (fun x => { x with otp := tput 0 w c x.otp }) s
/-- A word is blank: all 72 stored bits are 0 (R388). -/
def otpBlank (s : State) (w : Nat) : Bool := otpCode s w = 0
/-- The decoding of a word. -/
def otpRead (s : State) (w : Nat) : Decoded := decode72 (otpCode s w)
/-- A read of a word is logged where it is corrected or uncorrectable (R388). -/
def otpLog (w : Nat) (s : State) : State := logDecoded 6 w 0x0C12 (otpRead s w) false s

/-- The 32 bytes of a hidden key, unless a word is uncorrectable (R388, R396). -/
def hiddenKey (s : State) (base : Nat) : Option (List Byte) :=
  ((List.range 4).mapM fun i => decodedData (otpRead s (base + i))).map fun ws => ws.flatMap (toBytes 8)
/-- A hidden key is programmed: some word is not blank. -/
def keySet (s : State) (base : Nat) : Bool := (List.range 4).any fun i => !otpBlank s (base + i)
/-- The key that a hidden key's words give, where it is programmed, not just being programmed, and readable. -/
def usableKey (s : State) (base : Nat) : Option (List Byte) :=
  if keySet s base && (s.sec.job.bind fun j => j.key) ≠ some base then hiddenKey s base else none

/-- The device is SEALED. -/
def sealed (s : State) : Bool := modeOf s = mSEALED

/-- The DUS as the KDF reads it (R383, R396): locked in SEALED (R402). -/
def dus (s : State) : Option (List Byte) := if sealed s then none else hiddenKey s 0x200

/-- A key derived from the DUS (R384). -/
def fromDus (s : State) (label : String) (n : Nat) : Option (List Byte) := (dus s).map fun k => kdf k (ascii label) [] n
/-- K_store (R383, R384). -/
def storeKey (s : State) : Option (BitVec 256) := (fromDus s "RYTIS STORE" 32).map (ofBe 256)
/-- The attestation private key. -/
def attestKey (s : State) : Option (BitVec 384) := (fromDus s "RYTIS ATTEST" 56).map privateKey
/-- The provisioning private key. -/
def provisionKey (s : State) : Option (BitVec 384) := (fromDus s "RYTIS PROVISION KEY" 56).map privateKey
/-- The IME base key. -/
def imeBaseKey (s : State) : Option (List Byte) := fromDus s "RYTIS IME" 32

/-- The bytes of a public key: x then y, each most significant byte first. -/
def pubBytes (k : BitVec 768) : List Byte := beBytes 96 k

/-- The provisioning public key. -/
def provisionPub (s : State) : Option (BitVec 768) := (provisionKey s).map Config.ecPublic

-- Random bytes

/-- Draw 4n bytes from the DRBG; none while it is stopped (R399). -/
def drawBytes (n : Nat) (s : State) : Option (List Byte) × State :=
  if s.sec.drbgFail || !s.sec.seeded || sealed s then (none, s)
  else (some ((List.range n).flatMap fun i => toBytes 4 (Config.drbg (s.sec.drbgNo + i))),
    withSec (fun x => { x with drbgNo := x.drbgNo + n }) s)

-- The DRAM controller's state

/-- The states of the DRAM controller (R346). -/
def dOFF : Nat := 0
/-- INIT. -/
def dINIT : Nat := 1
/-- TRAIN. -/
def dTRAIN : Nat := 2
/-- FILL. -/
def dFILL : Nat := 3
/-- READY. -/
def dREADY : Nat := 4
/-- SR. -/
def dSR : Nat := 5
/-- DRC_STAT. -/
def drcStatA : Nat := at' (pgDRC 0) 0x48
/-- The state of the controller. -/
def drcState (s : State) : Nat := rdF s drcStatA 0 3
/-- Enter a state of the controller; READY reads 1 in READY only (R346). -/
def setDrcState (x : Nat) (s : State) : State := wrF drcStatA 7 1 (b2n (x = dREADY)) (wrF drcStatA 0 3 x s)

-- SEALED and alarms

/-- The mode field of a seal-log entry (R404). -/
def sealMode (m : Nat) : Nat := if m = mBRINGUP then 5 else m

/-- Every memory-die bank cleared and owned by NONE (R402). -/
def sealedMem (m : MemDie) : MemDie :=
  { m with
    rows := [], mbist := none, saved := none
    banks := (List.range 128).foldl (fun t n =>
      tput (Bank.initial n) n { Bank.initial n with typ := 0, rows := (tget (Bank.initial n) n t).rows, cols := (tget (Bank.initial n) n t).cols } t) m.banks }

/-- Every DRAM subchannel gets a command. -/
def toDram (c : DramCmd) (s : State) : State := (List.range 8).foldl (fun t k => send (.dramCommand k c) t) s

/-- The host requests that wait at a reset (R440, R441) and at SEALED (R402): reads complete with Completer Abort, writes end. -/
def abortHost (s : State) : State :=
  s.mem.host.foldl (fun t q => match q with
    | .read off _ => send (.completerAbort off) t
    | .write _ _ => t) { s with mem := { s.mem with host := [] } }

/-- The DRAM requests that wait end (R402, R440, R484): reads of BAR 4 complete with Completer Abort. -/
def abortQueue (s : State) : State :=
  s.drm.queue.foldl (fun t q => match q.ask with
    | .bytes off _ => send (.completerAbort off) t
    | _ => t) { s with drm := { s.drm with queue := [], rows := [], timeouts := [] } }

/-- Every host request that waits ends (R402, R440). -/
def abortReads (s : State) : State := abortQueue (abortHost s)

/-- Entry into SEALED (R402, R404): engines, self-tests and any mode transition stop, lanes idle and Enrus ports DOWN, keys and IME state gone, planes BLANK, banks cleared,
the DRAM controller OFF with the DRAM in reset, host reads that wait ended with Completer Abort, a seal-log entry due. -/
def enterSealed (cause : Nat) (s : State) : State :=
  if sealed s then s
  else
    let (secs, s) := takeFree 32 s
    let n := min 255 (s.sec.alarms.count + (s.sec.alarmCts.take 7).sum)
    let w := secs.toNat + n * 2 ^ 32 + sealMode (modeOf s) * 2 ^ 40 + cause % 65536 * 2 ^ 48
    let s := nmAlert cause (wrF 0x040 0 1 0 (wrF 0x1040 0 3 mSEALED (wrF (at' pgSEC 0x50) 0 16 cause s)))
    let s := if s.sec.snapshot.isSome then setFault pgSEC 0x0C0F (setBusy pgSEC false s) else s
    let s := withSec (fun x => { x with
      challenge := false, snapshot := none, seeded := false, sealPend := some (BitVec.ofNat 64 w)
      job := x.job.map fun j => { j with words := j.words.take 1, cut := true } }) s
    let s := { s with
      cfc := { s.cfc with eng0 := .zero, eng1 := .zero, boot := none, applied := [], phases := [] }
      hst := { s.hst with holders := [], staged := [], uioOwner := [], updActive := false, updMask := 0 } }
    let s := blankIrqs s
    let s := withLan (fun x => { x with lanes := [], egress := [], openSegs := [], held := [], incoming := [], lifeIn := [], lifeOut := [] }) s
    let s := toDram (.reset true) (abortReads s)
    setDrcState dOFF
      { s with mod := { s.mod with step := .none }, ecc := { s.ecc with phase := .none, rewrite := none }
               enr := .zero, ime := .zero, fab := { Fabric.zero with hold := s.fab.hold }, mem := sealedMem s.mem
               drm := { s.drm with copying := [], debt := [], hot := [], asleep := [], warm := false, bursting := [], resilver := [] } }

/-- The windows at threshold among the last 8 of the alarm counter (R401). -/
def alarmWindows (w : Win) : Nat := ((w.eventful 3 :: w.hist.take 7).filter (fun b => b)).length

/-- A security alarm (R400, R401): counted, recorded, fed to the window counter, which may seal the device. -/
def secAlarm (cause : Nat) (s : State) : State :=
  let s := setIrq pgSEC 0 (incF (at' pgSEC 0x4C) 0 16 1 (recordFirst (at' pgSEC 0x48) cause s))
  let w := s.sec.alarms.event
  let s := wrF (at' pgSEC 0x4C) 28 4 (alarmWindows w) (withSec (fun x => { x with alarms := w }) s)
  if w.activeNow 3 3 8 then enterSealed cause s else s

end Sys2Proof.Machine
end

