-- ==== Sys2Proof/Machine/DramOps.lean ====
section
/-! DEFINITION. The DRAM below inline memory encryption: the address map, retirement, the codewords with their seals, mirrored copies
(12). -/

namespace Sys2Proof.Machine

/-- Replace the DRAM record. -/
def withDrm (u : Dram → Dram) (s : State) : State := { s with drm := u s.drm }

-- Settings and the map

/-- DRC_CFG. -/
def drcCfg (s : State) : Reg := rd s (at' (pgDRC 0) 0x40)
/-- MIRROR. -/
def mirrored (s : State) : Bool := bit (drcCfg s) 11
/-- CAP_LOG2. -/
def capLog2 (s : State) : Nat := rdF s (at' (pgDRC 0) 0x4C) 16 6
/-- The mask of location bit `m` (R341, R356). -/
def xmap (s : State) (m : Nat) : Reg := rd s (at' (pgDRC 0) (0x50 + 4 * m))
/-- The number of 1 bits. -/
def ones (v : Reg) : Nat := ((List.range 32).filter (bit v)).length
/-- Location bit `m` of an address (R341). -/
def locBit (s : State) (m a : Nat) : Nat := ones (xmap s m &&& BitVec.ofNat 32 (a / 64)) % 2
/-- The channel of an address. -/
def dramChannel (s : State) (a : Nat) : Nat := 2 * locBit s 1 a + locBit s 0 a
/-- The subchannel of an address; of a mirrored channel, its subchannel 0 (R341, R350). -/
def dramSub (s : State) (a : Nat) : Nat := 2 * dramChannel s a + (if mirrored s then 0 else locBit s 2 a)
/-- The rank of an address. -/
def dramRank (s : State) (a : Nat) : Nat := locBit s 3 a
/-- The bank group and bank of an address. -/
def dramBank (s : State) (a : Nat) : Nat × Nat :=
  (4 * locBit s 6 a + 2 * locBit s 5 a + locBit s 4 a, 2 * locBit s 8 a + locBit s 7 a)
/-- COL_W of the devices fitted (R341). -/
def colW (s : State) : Nat := if bit (drcCfg s) 7 then 6 else 7
/-- ROW_W of the devices fitted. -/
def rowW (s : State) : Nat := if bit (drcCfg s) 6 then 17 else 16
/-- The row of an address (R341). -/
def dramRow (s : State) (a : Nat) : Nat := (a >>> rdF s (at' (pgDRC 0) 0x4C) 8 6) % 2 ^ rowW s
/-- The column of an address (R341). -/
def dramCol (s : State) (a : Nat) : Nat := (a >>> rdF s (at' (pgDRC 0) 0x4C) 0 6) % 2 ^ colW s * 16

/-- Location bit `m` is in use (R342). -/
def locUsed (s : State) (m : Nat) : Bool :=
  match m with
  | 0 => 1 ≤ fld (drcCfg s) 9 2
  | 1 => 2 ≤ fld (drcCfg s) 9 2
  | 2 => !mirrored s
  | 3 => bit (drcCfg s) 8
  | _ => true

/-- The DPA bits that a mask selects. -/
def maskBits (v : Reg) : List Nat := ((List.range 32).filter (bit v)).map (· + 6)

/-- The map of R342 is valid. -/
def mapValid (s : State) : Bool :=
  let cap := capLog2 s
  let colLo := rdF s (at' (pgDRC 0) 0x4C) 0 6
  let rowLo := rdF s (at' (pgDRC 0) 0x4C) 8 6
  let cols := (List.range (colW s)).map (colLo + ·)
  let rows := (List.range (rowW s)).map (rowLo + ·)
  let used := (List.range 9).filter (locUsed s)
  let bases := used.filterMap fun m => (maskBits (xmap s m)).head?
  let cover := List.range 6 ++ cols ++ rows ++ bases
  cap ≤ 38 && ((List.range 9).all fun m => locUsed s m || xmap s m = 0)
    && used.all (fun m => let b := maskBits (xmap s m)
        b ≠ [] && b.length ≤ 8 && b.tail.all fun i => cols.contains i || rows.contains i)
    && cover.length = cap && (List.range cap).all fun i => cover.contains i

/-- The spare region holds an address (R354). -/
def inSpare (s : State) (a : Nat) : Bool :=
  let b := rdF s (at' (pgDRC 0) 0x90) 0 26
  b ≤ a / 4096 && a / 4096 < b + rdF s (at' (pgDRC 0) 0x94) 0 11

-- Retirement

/-- The entry that remaps a page, once it acts (R353, R355). -/
def retireOf (s : State) (page : Nat) : Option (Nat × Word) :=
  s.drm.retire.find? fun e => bit e.2 63 && fld e.2 0 26 = page

/-- The page is being copied, so that requests to it wait (R355). -/
def pageCopying (s : State) (a : Nat) : Bool :=
  match retireOf s (a / 4096) with
  | some e => s.drm.copying.contains e.1
  | none => false

/-- The address after retirement remap (R340). -/
def remap (s : State) (a : Nat) : Nat :=
  match retireOf s (a / 4096) with
  | some e => if s.drm.copying.contains e.1 then a else fld e.2 32 26 * 4096 + a % 4096
  | none => a

-- Words

/-- A word as the DRAM stores it: codeword, and the seal relative to the address's. -/
def dramWord (s : State) (k copy : Nat) : BitVec 80 := tget 0 (2 * k + copy) s.drm.words

/-- The seal that an address gives to a word (R337). -/
def sealOf (a : Nat) : Nat := ((List.range 5).map fun k => byteOf (BitVec.ofNat 40 a) k).foldl (fun c b => crcByte 8 0x07 false c b.toNat) 0

/-- What a read of a word finds (R338): data, and for an error its syndrome, cause and whether it is uncorrectable. -/
structure DramWordRead where
  data : Word
  syn  : Nat
  err  : Option (Nat × Bool)

/-- The decoding of a stored word (R338). -/
def decode80 (v : BitVec 80) : DramWordRead :=
  let d := decode72 (BitVec.ofNat 72 v.toNat)
  let x := v.toNat >>> 72
  let raw := BitVec.ofNat 64 v.toNat
  match d with
  | .uncorrectable y => ⟨raw, y, some (if x = 255 then 0x0A04 else 0x0A02, true)⟩
  | .clean w => if x = 0 then ⟨w, 0, none⟩ else ⟨w, 0, some (if x = 255 then 0x0A04 else 0x0A03, true)⟩
  | .corrected w y => if x = 0 then ⟨w, y, some (0x0A02, false)⟩ else ⟨w, 0, some (if x = 255 then 0x0A04 else 0x0A03, true)⟩

/-- The read is uncorrectable. -/
def DramWordRead.ue (r : DramWordRead) : Bool :=
  match r.err with
  | some (_, b) => b
  | none => false

/-- The words of a line that a mask of 8 bits names, as copy `c` holds them, with their indices. -/
def lineRead (s : State) (a c : Nat) (mask : Nat) : List (Nat × DramWordRead) :=
  ((List.range 8).filter mask.testBit).map fun i => (i, decode80 (dramWord s (a / 8 + i) c))

/-- Subchannel `k` is lost (R351). -/
def subLost (s : State) (k : Nat) : Bool := rdB s drcStatA (24 + k)

/-- Count a read of a subchannel (R356). -/
def countRead (k : Nat) (ue : Bool) (s : State) : State := incF (at' (pgDRC k) 0xA0) (if ue then 16 else 0) 16 1 s

/-- Log the errors that a line read met, with cause `c` for all of them as correctable where it is given (R338, R350). -/
def logLine (a : Nat) (c : Option Nat) (ws : List (Nat × DramWordRead)) (s : State) : State :=
  ws.foldl (fun t p => match p.2.err, c with
    | some (_, true), some k => logErr 5 (a + 8 * p.1) p.2.syn k false false t
    | some (k, ue), _ => logErr 5 (a + 8 * p.1) p.2.syn k ue false t
    | none, _ => t) s

/-- The first uncorrectable cause of a line read. -/
def lineCause (ws : List (Nat × DramWordRead)) : Nat :=
  ((ws.filterMap fun p => p.2.err.bind fun e => if e.2 then some e.1 else none).head?).getD 0

/-- The words put together. -/
def lineData (ws : List (Nat × DramWordRead)) : BitVec 512 := ws.foldl (fun v p => setFld v (64 * p.1) 64 p.2.data.toNat) 0

/-- The key of the bank of an address. -/
def bankKey (s : State) (a : Nat) : Nat := 32 * (2 * dramSub s a + dramRank s a) + 4 * (dramBank s a).1 + (dramBank s a).2

/-- The row of an address is open (R344). -/
def rowOpen (s : State) (a : Nat) : Bool := tget none (bankKey s a) s.drm.rows = some (dramRow s a)

/-- An access opens the row of its address, whose rank leaves power-down (R334, R344). -/
def wakeRank (a : Nat) (s : State) : State :=
  withDrm (fun d => { d with asleep := d.asleep.filter fun k => decide (k ≠ 2 * dramSub s a + dramRank s a)
                             rows := tput none (bankKey s a) (some (dramRow s a)) d.rows }) s

/-- The rows of a rank close, of one bank of each bank group or of all (R344). -/
def closeRows (key : Nat) (bank : Option Nat) (s : State) : State :=
  withDrm (fun d => { d with rows := d.rows.filter fun q => !(q.1 / 32 = key && bank.all fun b => q.1 % 4 = b) }) s

/-- Log and count what a line read of subchannel `k` met (R338, R356). -/
def noteLine (a k : Nat) (ws : List (Nat × DramWordRead)) (s : State) : State :=
  if ws.any fun p => p.2.err.isSome then countRead k (ws.any fun p => p.2.ue) (logLine a none ws s) else s

/-- Read words of a line (R338, R350, R351), of a mirrored channel also from the copy where the first reads uncorrectable: the data, or the cause of an uncorrectable read. -/
def rawRead (dpa mask : Nat) (s : State) : Except Nat (BitVec 512) × State :=
  let a := remap s (dpa / 64 * 64)
  let k := dramSub s a
  let s := wakeRank a s
  if s.drm.timeouts.contains (dpa / 64) then
    let s := withDrm (fun d => { d with timeouts := d.timeouts.erase (dpa / 64) }) s
    (.error 0x0A09, setIrq (pgDRC 0) 2 (countRead k true s))
  else
    let second := mirrored s && subLost s k
    let ws := lineRead s a (b2n second) mask
    let k := if second then k + 1 else k
    if second && subLost s k then (.error 0x0A09, setIrq (pgDRC 0) 2 (countRead k true s))
    else if !ws.any fun p => p.2.ue then
      (.ok (lineData ws), noteLine a k ws s)
    else if mirrored s && !second && !subLost s (k + 1) then
      let vs := lineRead s a 1 mask
      if vs.any fun p => p.2.ue then
        (.error (lineCause ws), setIrq (pgDRC 0) 2 (noteLine a (k + 1) vs (noteLine a k ws s)))
      else (.ok (lineData vs), noteLine a (k + 1) vs (countRead k false (logLine a (some 0x0A0B) ws s)))
    else (.error (lineCause ws), setIrq (pgDRC 0) 2 (noteLine a k ws s))

/-- Store a word in every copy that takes writes (R350, R351, R352); `x` is its seal relative to the address's. -/
def putWord (a i : Nat) (w : Word) (x : Nat) (s : State) : State :=
  let k := dramSub s a
  let v := BitVec.ofNat 80 ((encCode w).toNat + x % 256 * 2 ^ 72)
  let put (c : Nat) (d : Dram) : Dram := { d with words := tput 0 (2 * (a / 8 + i) + c) v d.words }
  let takes (j : Nat) : Bool := !subLost s j || s.drm.resilver.contains j
  if mirrored s then
    let s := if takes k then withDrm (put 0) s else s
    if takes (k + 1) then withDrm (put 1) s else s
  else withDrm (put 0) s

/-- Write a whole line with seals relative to the address's of `x`. -/
def rawWriteLine (dpa : Nat) (line : BitVec 512) (x : Nat) (s : State) : State :=
  let a := remap s (dpa / 64 * 64)
  (List.range 8).foldl (fun t i => putWord a i (BitVec.ofNat 64 (fld line (64 * i) 64)) x t) (wakeRank a s)

/-- A masked write of a line: whole words are written, a word written in part is read, merged and written, and left where it reads
uncorrectable; the cause of the first such word (log entry 35). -/
def rawWrite (dpa : Nat) (mask : Word) (line : BitVec 512) (s : State) : Option Nat × State :=
  let a := remap s (dpa / 64 * 64)
  (List.range 8).foldl (fun (r : Option Nat × State) i =>
    let m := fld mask (8 * i) 8
    let w : Word := BitVec.ofNat 64 (fld line (64 * i) 64)
    if m = 0 then r
    else if m = 255 then (r.1, putWord a i w 0 r.2)
    else match rawRead dpa (2 ^ i) r.2 with
      | (.ok v, t) => (r.1, putWord a i (mergeBytes (BitVec.ofNat 64 (fld v (64 * i) 64)) w m) 0 t)
      | (.error c, t) => (some (r.1.getD c), t)) (none, wakeRank a s)

/-- A masked merge of two lines. -/
def mergeLine (old new : BitVec 512) (mask : Word) : BitVec 512 :=
  (List.range 64).foldl (fun v k => if bit mask k then setFld v (8 * k) 8 (byteOf new k).toNat else v) old

/-- What a request to the DRAM gets: its data, a bus error as of an uncorrectable read, a refusal, or it waits (R339, R355, R373). -/
inductive DramRes where
  | ok (line : BitVec 512)
  | err (cause : Nat)
  | refused (cause : Nat)
  | wait

/-- The refusals below IME that every request of a source other than IME meets (R340, R346, R354). -/
def dramRefusal (s : State) (dpa : Nat) : Option Nat :=
  if drcState s ≠ dREADY then some 0x0A01
  else if 2 ^ capLog2 s ≤ dpa then some 0x0A05
  else if inSpare s dpa then some 0x0A0D
  else none

/-- The line of FROM copied to TO (R355): corrected, or with its seal complemented where it reads uncorrectable. -/
def copyLine (src dst i : Nat) (s : State) : State :=
  let a := src * 4096 + 64 * i
  let r := lineRead s a 0 255
  match rawRead a 255 s with
  | (.ok v, t) => rawWriteLine (dst * 4096 + 64 * i) v 0 t
  | (.error _, t) => rawWriteLine (dst * 4096 + 64 * i) (lineData r) 255 t

end Sys2Proof.Machine
end

