-- ==== Sys2Proof/Machine/ImeOps.lean ====
section
/-! DEFINITION. Inline memory encryption: regions, key stream, tags and MACs, the metadata tree and its cache, counter ends, and the path
of a source's request to the DRAM (13). -/

namespace Sys2Proof.Machine

/-- Replace the IME record. -/
def withIme (u : Ime → Ime) (s : State) : State := { s with ime := u s.ime }
/-- Region `r`. -/
def imeReg (s : State) (r : Nat) : ImeRegion := tget .zero r s.ime.regions
/-- Write region `r`. -/
def setImeReg (r : Nat) (v : ImeRegion) (s : State) : State := withIme (fun i => { i with regions := tput .zero r v i.regions }) s

-- Registers and ranges

/-- A register of region `r`. -/
def imeA (r o : Nat) : Nat := at' pgIME (0x200 + 0x20 * r + o)
/-- IME_CTRL.EN. -/
def imeEn (s : State) : Bool := rdB s (at' pgIME 0x40) 0
/-- MODE of a region; while EN is 0 every region acts as PLAIN (R362). -/
def imeMode (s : State) (r : Nat) : Nat := if imeEn s then rdF s (imeA r 0) 0 2 else 0
/-- HOST of a region. -/
def imeHost (s : State) (r : Nat) : Nat := rdF s (imeA r 0) 8 2
/-- The first data byte of a region. -/
def imeBase (s : State) (r : Nat) : Nat := 4096 * rdF s (imeA r 4) 0 26
/-- The data pages of a region. -/
def imePages (s : State) (r : Nat) : Nat := rdF s (imeA r 8) 0 27
/-- The first byte of the counter-block area. -/
def imeCtr (s : State) (r : Nat) : Nat := 4096 * rdF s (imeA r 0xC) 0 26
/-- The first byte of the tree area. -/
def imeTree (s : State) (r : Nat) : Nat := 4096 * rdF s (imeA r 0x10) 0 26
/-- The first byte of the tag area. -/
def imeTag (s : State) (r : Nat) : Nat := 4096 * rdF s (imeA r 0x14) 0 26

/-- The numbers of nodes of the levels above `n` blocks (R368); the first argument bounds the levels. -/
def treeLevels : Nat → Nat → List Nat
  | 0, _ => []
  | k + 1, n => if n ≤ 64 then [] else (n + 7) / 8 :: treeLevels k ((n + 7) / 8)
/-- The levels of a region's tree. -/
def imeLevels (s : State) (r : Nat) : List Nat := treeLevels 9 (imePages s r)
/-- The top level L. -/
def imeTop (s : State) (r : Nat) : Nat := (imeLevels s r).length
/-- The number of blocks (level 0) or nodes of a level. -/
def levelSize (s : State) (r k : Nat) : Nat := (imePages s r :: imeLevels s r).getD k 0
/-- The DPA of a counter block (level 0), of a node, or of a line of the tag area (level 8) (R366, R368). -/
def metaDpa (s : State) (r k j : Nat) : Nat :=
  if k = 0 then imeCtr s r + 64 * j else if k = 8 then imeTag s r + 64 * j else imeTree s r + 64 * (((imeLevels s r).take (k - 1)).sum + j)

/-- A byte range [lo, hi). -/
def inRange (p : Nat × Nat) (a : Nat) : Bool := p.1 ≤ a && a < p.2
/-- Two byte ranges share a byte. -/
def overlap (p q : Nat × Nat) : Bool := p.1 < p.2 && q.1 < q.2 && p.1 < q.2 && q.1 < p.2
/-- The data range of a region. -/
def dataRange (s : State) (r : Nat) : Nat × Nat := (imeBase s r, imeBase s r + 4096 * imePages s r)
/-- The metadata areas of a region under its MODE (R359, R368). -/
def metaRanges (s : State) (r : Nat) : List (Nat × Nat) :=
  let m := imeMode s r
  let n := imePages s r
  if m = 0 then []
  else [(imeCtr s r, imeCtr s r + 64 * n), (imeTree s r, imeTree s r + 64 * (imeLevels s r).sum)]
    ++ (if m = 2 then [(imeTag s r, imeTag s r + 512 * n)] else [])

/-- The region that governs an address: the lowest with STATE not OFF (R358). -/
def regionOf (s : State) (a : Nat) : Option Nat :=
  (List.range 16).find? fun r => (imeReg s r).st ≠ .off && inRange (dataRange s r) a
/-- An encrypted region that is OFF holds the address (R378). -/
def offRegion (s : State) (a : Nat) : Bool :=
  (List.range 16).any fun r => (imeReg s r).st = .off && imeMode s r ≠ 0 && inRange (dataRange s r) a
/-- The address lies in a metadata area of a region that is not OFF (R359). -/
def inMeta (s : State) (a : Nat) : Bool :=
  (List.range 16).any fun r => (imeReg s r).st ≠ .off && (metaRanges s r).any fun p => inRange p a

/-- The placement of a region is valid for INIT (R361). -/
def placementOk (s : State) (r : Nat) : Bool :=
  let areas := dataRange s r :: metaRanges s r
  let spare := 4096 * rdF s (at' (pgDRC 0) 0x90) 0 26
  let spares := (spare, spare + 4096 * rdF s (at' (pgDRC 0) 0x94) 0 11)
  let others := (List.range 16).filter fun q => q ≠ r && (imeReg s q).st ≠ .off
  areas.all (fun p => p.2 ≤ 2 ^ capLog2 s && !overlap p spares)
    && (metaRanges s r).zipIdx.all (fun p =>
      !overlap p.1 (dataRange s r) && ((metaRanges s r).zipIdx.all fun q => p.2 = q.2 || !overlap p.1 q.1)
        && others.all fun q => !overlap p.1 (dataRange s q) && (metaRanges s q).all fun x => !overlap p.1 x)
    && others.all fun q => !overlap (dataRange s r) (dataRange s q) && (metaRanges s q).all fun x => !overlap (dataRange s r) x

-- Key stream, tags, MACs

/-- The AES input T (R364). -/
def imeT (dpa domain minor idx major region : Nat) : BitVec 128 :=
  beBlock (beNat 5 dpa ++ [BitVec.ofNat 8 domain, BitVec.ofNat 8 (minor % 128), BitVec.ofNat 8 idx] ++ beNat 4 major
    ++ [BitVec.ofNat 8 region, 0, 0, 0])

/-- Encrypt or decrypt the 64 bytes of a line (R365). -/
def imeXor (key : BitVec 256) (r dpa major minor : Nat) (line : BitVec 512) : BitVec 512 :=
  ofBytes 512 (xorBytes (toBytes 64 line)
    ((List.range 4).flatMap fun b => beBytes 16 (Config.aes256 key (imeT dpa 0 minor b major r))))

/-- The tag of a line's cipher text (R366), as the word that holds it. -/
def imeLineTag (key : BitVec 256) (r dpa major minor : Nat) (c : BitVec 512) : Word :=
  let g := ghash (Config.aes256 key 0) (allBlocks (toBytes 64 c) ++ [imeT dpa 1 minor 0 major r])
  ofBytes 64 (beBytes 16 (g ^^^ Config.aes256 key (imeT dpa 2 minor 0 major r)))

/-- The MAC of a counter block or node (R369): its first 8 bytes, of which a counter block keeps 4. -/
def imeMac (key : BitVec 256) (level dpa parent : Nat) (block : BitVec 512) : Word :=
  let b := if level = 0 then setFld block 32 32 0 else setFld block 448 64 0
  let t := beBlock (beNat 5 dpa ++ [if level = 0 then 3 else 4] ++ beNat 7 parent ++ [BitVec.ofNat 8 level, 0, 0])
  ofBytes 64 (beBytes 16 (ghash (Config.aes256 key 0) (allBlocks (toBytes 64 b)) ^^^ Config.aes256 key t))

/-- The block with its MAC put in (R368). -/
def withMac (level : Nat) (mac : Word) (block : BitVec 512) : BitVec 512 :=
  if level = 0 then setFld block 32 32 (fld mac 0 32) else setFld block 448 64 mac.toNat
/-- The MAC that a block holds. -/
def macOk (level : Nat) (mac : Word) (block : BitVec 512) : Bool :=
  if level = 0 then fld block 32 32 = fld mac 0 32 else fld block 448 64 = mac.toNat

/-- MAJOR of a counter block. -/
def majorOf (b : BitVec 512) : Nat := fld b 0 32
/-- The minor counter of line `m` of a page (R368). -/
def minorOf (b : BitVec 512) (m : Nat) : Nat := fld b (64 + 7 * m) 7
/-- The counter of child `c` in a node. -/
def childCtr (b : BitVec 512) (c : Nat) : Nat := fld b (56 * c) 56

-- The cache and the tree

/-- The cache key of a block. -/
def metaKey (r k j : Nat) : Nat := 2 ^ 36 * (16 * r + k) + j
/-- The default of the cache: an entry that no stored one equals stands for none. -/
def cacheOf (s : State) (r k j : Nat) : Option CacheLine := (s.ime.cache.find? fun p => p.1 = metaKey r k j).map (·.2)
/-- Put an entry into the cache. -/
def putCache (r k j : Nat) (c : CacheLine) (s : State) : State :=
  withIme (fun i => { i with cache := tins (metaKey r k j) c (terase (metaKey r k j) i.cache) }) s
/-- Drop an entry of the cache. -/
def dropCache (r k j : Nat) (s : State) : State := withIme (fun i => { i with cache := terase (metaKey r k j) i.cache }) s

/-- Start the rekey of the lowest pending region where the engine is free (R374). -/
def startRekey (s : State) : State :=
  match s.ime.serving with
  | some _ => s
  | none => match (List.range 16).find? fun r => (imeReg s r).pend && (imeReg s r).st = .active with
    | none => s
    | some r =>
      let v := imeReg s r
      let k := ofBe 256 (kdf (beBytes 32 v.master) (ascii "IME EPOCH") (beNat 2 (v.epoch + 1)) 32)
      let s := setImeReg r { v with st := .rekey, pend := false, next := k, bound := 0 } s
      wr (at' pgIME 0x50) 0 (wr (at' pgIME 0x44) (BitVec.ofNat 32 (16 + r % 16)) (withIme (fun i => { i with serving := some r }) s))

/-- The rekey engine leaves the region that it served, and takes the next that waits (R374). -/
def leaveEngine (r : Nat) (s : State) : State :=
  if s.ime.serving = some r then startRekey (wrF (at' pgIME 0x44) 4 1 0 (withIme (fun i => { i with serving := none }) s)) else s

/-- A failure of R375: logged, recorded in IME_ERR, counted; an authentication failure is a security alarm. The read of a data line has
logged a cause of the DRAM already. -/
def imeError (r dpa cause : Nat) (s : State) : State :=
  let s := if cause / 256 = 0x0A then s else logErr 5 dpa 0 cause true false s
  let s := if rdB s (at' pgIME 0x54) 31 then wrF (at' pgIME 0x54) 30 1 1 s
    else wr (at' pgIME 0x58) (BitVec.ofNat 32 (dpa / 64)) (wr (at' pgIME 0x54) (BitVec.ofNat 32 (2 ^ 31 + r % 16 * 2 ^ 16 + cause)) s)
  if cause = 0x0B01 then secAlarm 0x0B01 (setIrq pgIME 0 (incF (at' pgIME 0x5C) 16 16 1 s))
  else if cause = 0x0B02 then setIrq pgIME 1 (incF (at' pgIME 0x5C) 0 16 1 s)
  else s

/-- A block becomes UNVERIFIABLE: listed, or its region enters FAULT where the list is full (R376). -/
def loseBlock (r k j : Nat) (s : State) : State :=
  if s.ime.lost.contains (metaKey r k j) then s
  else if s.ime.lost.length < 64 then withIme (fun i => { i with lost := i.lost ++ [metaKey r k j] }) s
  else leaveEngine r (setImeReg r { imeReg s r with st := .fault, pend := false } s)

/-- The chain from a block up to its first cached ancestor, lowest first (R370); `n` bounds it. -/
def imeChain (s : State) (r top : Nat) : Nat → Nat → Nat → List (Nat × Nat)
  | 0, _, _ => []
  | n + 1, k, j => if (cacheOf s r k j).isSome || top < k then [] else (k, j) :: imeChain s r top n (k + 1) (j / 8)

/-- A cached row that became uncorrectable (R375): a clean entry is fetched again, a dirty one is lost. -/
def dropBad (r k j : Nat) (s : State) : State :=
  match cacheOf s r k j with
  | some c => if c.bad then (let s := dropCache r k j s; if c.dirty then loseBlock r k j s else s) else s
  | none => s

/-- The counter of a block in its parent (R368, R369): from the root or the cached node above. -/
def parentCtr (s : State) (r top k j : Nat) : Nat :=
  if top ≤ k then tget 0 j (imeReg s r).root
  else match cacheOf s r (k + 1) (j / 8) with
    | some c => childCtr c.block (j % 8)
    | none => 0

/-- Fetch the blocks of a chain from DRAM, noting those that read uncorrectable (R375). -/
def fetchChain (r : Nat) (ch : List (Nat × Nat)) (s : State) : List (Nat × Nat × BitVec 512) × Bool × State :=
  ch.foldl (fun (a : List (Nat × Nat × BitVec 512) × Bool × State) p =>
    let d := metaDpa a.2.2 r p.1 p.2
    match rawRead d 255 a.2.2 with
    | (.ok b, t) => (a.1 ++ [(p.1, p.2, b)], a.2.1, t)
    | (.error _, t) => (a.1, true, loseBlock r p.1 p.2 t)) ([], false, s)

/-- The block of a region's tree, verified and cached (R370, R375), or the cause of the bus error. -/
def fetchBlock (r k j : Nat) (s : State) : Except Nat (BitVec 512) × State :=
  let top := imeTop s r
  let path := (List.range (top + 1 - k)).map fun i => (k + i, j / 8 ^ i)
  let s := path.foldl (fun t p => dropBad r p.1 p.2 t) s
  if path.any fun p => s.ime.lost.contains (metaKey r p.1 p.2) then
    (.error 0x0B02, imeError r (metaDpa s r k j) 0x0B02 s)
  else
    let (got, ue, s) := fetchChain r (imeChain s r top 9 k j) s
    if ue then (.error 0x0B02, imeError r (metaDpa s r k j) 0x0B02 s)
    else
      let key := (imeReg s r).tree
      let v := got.reverse.foldl (fun (a : Bool × State) p =>
        let mac := imeMac key p.1 (metaDpa a.2 r p.1 p.2.1) (parentCtr a.2 r top p.1 p.2.1) p.2.2
        if a.1 && macOk p.1 mac p.2.2 then (true, putCache r p.1 p.2.1 ⟨p.2.2, false, false⟩ a.2) else (false, a.2)) (true, s)
      if v.1 then
        match cacheOf v.2 r k j with
        | some c => (.ok c.block, v.2)
        | none => (.error 0x0B02, v.2)
      else (.error 0x0B01, imeError r (metaDpa v.2 r k j) 0x0B01 v.2)

/-- A region becomes EXHAUSTED (R373); a rekey of it stops where it stands, and its two keys stay. -/
def exhaust (r : Nat) (s : State) : State :=
  setIrq pgIME 3 (leaveEngine r (setImeReg r { imeReg s r with st := .exhausted, pend := false } s))

/-- Advance the counter of a block in its parent (R369): the parent becomes dirty, a root counter advances; its end exhausts the
region (R373). Where the parent cannot be had, the block is lost. -/
def advanceParent (r k j : Nat) (s : State) : Option Nat × State :=
  let top := imeTop s r
  let done (n : Nat) (s : State) : Option Nat × State :=
    (some n, if 2 ^ 56 - 1 ≤ n then exhaust r (logEvent 5 (metaDpa s r k j) 0x0B05 s) else s)
  if top ≤ k then
    let n := tget 0 j (imeReg s r).root + 1
    done n (setImeReg r { imeReg s r with root := tput 0 j n (imeReg s r).root } s)
  else match fetchBlock r (k + 1) (j / 8) s with
    | (.error _, t) => (none, t)
    | (.ok b, t) =>
      let n := childCtr b (j % 8) + 1
      done n (putCache r (k + 1) (j / 8) ⟨setFld b (56 * (j % 8)) 56 n, true, false⟩ t)

/-- Write back a dirty entry (R363, R369): the parent counter of a block advances and its MAC is recomputed; a line of tags has neither. -/
def imeWriteBack (r k j : Nat) (s : State) : State :=
  match cacheOf s r k j with
  | none => s
  | some c =>
    if !c.dirty then s
    else if k = 8 then putCache r k j ⟨c.block, false, false⟩ (rawWriteLine (metaDpa s r k j) c.block 0 s)
    else match advanceParent r k j s with
      | (none, t) => loseBlock r k j (dropCache r k j t)
      | (some n, t) =>
        let d := metaDpa t r k j
        let b := withMac k (imeMac (imeReg t r).tree k d n c.block) c.block
        putCache r k j ⟨b, false, false⟩ (rawWriteLine d b 0 t)

/-- Evict entries while the cache holds more than its 262,144 (R363): which is a free value. -/
def trimLoop : Nat → State → State
  | 0, s => s
  | n + 1, s =>
    if s.ime.cache.length ≤ 262144 then s
    else
      let f := takeFree 18 s
      match f.2.ime.cache[f.1.toNat]? with
      | some (x, _) =>
        let r := x / 2 ^ 40
        let k := x / 2 ^ 36 % 16
        let j := x % 2 ^ 36
        trimLoop n (dropCache r k j (imeWriteBack r k j f.2))
      | none => f.2

/-- The cache holds at most its 262,144 entries again (R363). -/
def trimCache (s : State) : State := trimLoop 4096 s

/-- Write back every dirty entry of a region, from the counter blocks up (FLUSH), and its tags. -/
def flushRegion (r : Nat) (s : State) : State :=
  (List.range 9).foldl (fun t k =>
    ((t.ime.cache.filter fun p => p.1 / 2 ^ 36 = 16 * r + k && p.2.dirty).foldl (fun u p => imeWriteBack r k (p.1 % 2 ^ 36) u) t)) s

-- Lines

/-- The key of line `l` of a region: the new one below the bound of a rekey (R374), one that EXHAUSTED stopped too (R373). -/
def lineKey (s : State) (r l : Nat) : BitVec 256 :=
  let v := imeReg s r
  if l < v.bound then v.next else v.key

/-- The tag of line `l` of a region (R363, R366, R375): from its cached line, else fetched, in which case the line is given too where it
reads whole. -/
def readTag (r l : Nat) (s : State) : Option (Word × Option (BitVec 512)) × State :=
  let j := l / 8
  let word (b : BitVec 512) : Word := BitVec.ofNat 64 (fld b (64 * (l % 8)) 64)
  let s := dropBad r 8 j s
  if s.ime.lost.contains (metaKey r 8 j) then (none, s)
  else match cacheOf s r 8 j with
    | some c => (some (word c.block, none), s)
    | none => match rawRead (metaDpa s r 8 j) 255 s with
      | (.ok b, t) => (some (word b, some b), t)
      | (.error _, _) => match rawRead (metaDpa s r 8 j) (2 ^ (l % 8)) s with
        | (.ok b, t) => (some (word b, none), t)
        | (.error _, t) => (none, t)

/-- Put the tag of line `l` into its cached line, or straight into the tag area where the line does not read whole (R363, R366). -/
def writeTag (r l : Nat) (g : Word) (s : State) : State :=
  let j := l / 8
  let put (b : BitVec 512) (t : State) : State := putCache r 8 j ⟨setFld b (64 * (l % 8)) 64 g.toNat, true, false⟩ t
  match cacheOf s r 8 j with
  | some c => put c.block s
  | none => match rawRead (metaDpa s r 8 j) 255 s with
    | (.ok b, t) => put b t
    | (.error _, _) => (rawWrite (metaDpa s r 8 j) (BitVec.ofNat 64 (255 * 2 ^ (8 * (l % 8)))) (BitVec.ofNat 512 (g.toNat * 2 ^ (64 * (l % 8)))) s).2

/-- Read and verify an encrypted line under given counters and key: plain text, or the cause and whether it is a bus error with it. -/
def openLine (r dpa major minor : Nat) (key : BitVec 256) (s : State) : Except Nat (BitVec 512) × State :=
  match rawRead dpa 255 s with
  | (.error c, t) => (.error c, imeError r dpa c t)
  | (.ok c, t) =>
    let p := imeXor key r dpa major minor c
    if imeMode t r = 2 then
      let l := (dpa - imeBase t r) / 64
      match readTag r l t with
      | (none, u) => (.error 0x0B02, imeError r dpa 0x0B02 u)
      | (some (g, new), u) =>
        if g = imeLineTag key r dpa major minor c then
          (.ok p, match new with
            | some b => putCache r 8 (l / 8) ⟨b, false, false⟩ u
            | none => u)
        else (.error 0x0B01, imeError r dpa 0x0B01 u)
    else (.ok p, t)

/-- Encrypt and write a whole line; `x` marks it with a complemented seal. What is given is its tag. -/
def sealLine (r dpa major minor : Nat) (key : BitVec 256) (p : BitVec 512) (x : Nat) (s : State) : Word × State :=
  let c := imeXor key r dpa major minor p
  (imeLineTag key r dpa major minor c, rawWriteLine dpa c x s)

/-- Encrypt, tag and write a whole line (R371), the tag into the cache. -/
def closeLine (r dpa major minor : Nat) (key : BitVec 256) (p : BitVec 512) (x : Nat) (s : State) : State :=
  let w := sealLine r dpa major minor key p x s
  if imeMode w.2 r = 2 then writeTag r ((dpa - imeBase w.2 r) / 64) w.1 w.2 else w.2

/-- Write a line of zeros with its tag straight into the DRAM (R377, R378). -/
def zeroLine (r dpa major : Nat) (key : BitVec 256) (s : State) : State :=
  let w := sealLine r dpa major 0 key 0 0 s
  if imeMode w.2 r = 2 then
    let l := (dpa - imeBase w.2 r) / 64
    dropCache r 8 (l / 8) (rawWrite (metaDpa w.2 r 8 (l / 8)) (BitVec.ofNat 64 (255 * 2 ^ (8 * (l % 8))))
      (BitVec.ofNat 512 (w.1.toNat * 2 ^ (64 * (l % 8)))) w.2).2
  else w.2

/-- A region rekey is requested (R373, R374): pending, or EXHAUSTED at the last epoch. -/
def requestRekey (r : Nat) (s : State) : State :=
  let v := imeReg s r
  if v.st ≠ .active then s
  else if v.epoch = 0xFFFF then exhaust r s
  else startRekey (setImeReg r { v with pend := true } s)

/-- Re-encrypt a page under the next MAJOR with every minor 0 (R373). -/
def reencrypt (r p : Nat) (s : State) : State :=
  match fetchBlock r 0 p s with
  | (.error _, t) => t
  | (.ok b, t) =>
    let m := majorOf b
    let t := (List.range 64).foldl (fun t i =>
      let d := imeBase t r + 4096 * p + 64 * i
      let key := lineKey t r (64 * p + i)
      match openLine r d m (minorOf b i) key t with
      | (.ok x, u) => closeLine r d (m + 1) 0 key x 0 u
      | (.error _, u) => closeLine r d (m + 1) 0 key 0 255 u) t
    let t := trimCache (putCache r 0 p ⟨BitVec.ofNat 512 (m + 1), true, false⟩ t)
    let t := setImeReg r { imeReg t r with high := max (imeReg t r).high (m + 1) } t
    if m + 1 = 0x80000000 then requestRekey r t else t

-- Initialisation

/-- Write a subtree anew (R377, R378): lines of zeros under `major`, counter blocks with minors 0, nodes with counters 0; `pc` is the
counter of its top in the parent. -/
def initTree (r major : Nat) : Nat → Nat → Nat → State → State
  | 0, j, pc, s =>
    let v := imeReg s r
    let s := (List.range 64).foldl (fun t i => zeroLine r (imeBase t r + 4096 * j + 64 * i) major v.key t) s
    let b : BitVec 512 := BitVec.ofNat 512 major
    let d := metaDpa s r 0 j
    dropCache r 0 j (rawWriteLine d (withMac 0 (imeMac v.tree 0 d pc b) b) 0 s)
  | k + 1, j, pc, s =>
    let n := levelSize s r k
    let s := ((List.range 8).filter fun c => 8 * j + c < n).foldl (fun t c => initTree r major k (8 * j + c) 0 t) s
    let d := metaDpa s r (k + 1) j
    dropCache r (k + 1) j (rawWriteLine d (withMac (k + 1) (imeMac (imeReg s r).tree (k + 1) d pc 0) 0) 0 s)

/-- Give a region fresh keys and an empty tree for INIT (R367, R378); `none` where no random bytes or base key can be had (R375). -/
def keyRegion (r : Nat) (s : State) : Option State :=
  match imeBaseKey s, drawBytes 8 s with
  | some base, (some salt, t) =>
    let m := kdf base (ascii "IME REGION") (BitVec.ofNat 8 r :: salt) 32
    some (setImeReg r { ImeRegion.zero with
      st := .init, master := ofBe 256 m, key := ofBe 256 (kdf m (ascii "IME EPOCH") (beNat 2 0) 32)
      tree := ofBe 256 (kdf m (ascii "IME TREE") [] 32) } t)
  | _, _ => none

/-- The content of a region in INIT is written and it becomes ACTIVE (R378). -/
def finishInit (r : Nat) (s : State) : State :=
  let top := imeTop s r
  let s := if imeMode s r = 0 then s
    else (List.range (levelSize s r top)).foldl (fun t j => initTree r 0 top j 0 t) s
  setIrq pgIME 4 (setImeReg r { imeReg s r with st := .active } s)

/-- A region goes OFF (R379): its keys, root, high-water major, lost blocks and cache entries are gone, a rekey of it is abandoned. -/
def regionOff (r : Nat) (s : State) : State :=
  let mine (x : Nat) : Bool := x / 2 ^ 40 = r
  let s := setImeReg r .zero (withIme (fun i => { i with
    cache := i.cache.filter fun p => !mine p.1
    lost := i.lost.filter fun x => !mine x
    reenc := i.reenc.filter fun e => decide (e.region ≠ r) }) s)
  leaveEngine r s

-- Requests

/-- The sources that the HOST setting of a region governs: host DMA and BAR 4 (R360). -/
def srcFar : Nat := 0
/-- Host DMA. -/
def srcDma : Nat := 1
/-- BAR 4. -/
def srcBar4 : Nat := 2

/-- Requests to the page of an address wait (R355, R373). -/
def pageBlocked (s : State) (dpa : Nat) : Bool :=
  pageCopying s dpa || s.ime.reenc.any fun e =>
    imeBase s e.region + 4096 * e.page ≤ dpa && dpa < imeBase s e.region + 4096 * e.page + 4096

/-- The refusal that IME gives a request (R359, R360, R373, R376, R378), before any data is touched. -/
def imeRefusal (s : State) (src dpa : Nat) (write : Bool) : Option DramRes :=
  match dramRefusal s dpa with
  | some c => some (.refused c)
  | none =>
    if inMeta s dpa then some (.refused 0x0B0B)
    else match regionOf s dpa with
      | none => if offRegion s dpa then some (.refused 0x0B06) else none
      | some r =>
        let v := imeReg s r
        if (src = srcDma || src = srcBar4) && (imeHost s r = 0 || (!write && imeHost s r ≠ 2)) then some (.refused 0x0B09)
        else if v.st = .fault then some (.err 0x0B02)
        else if imeMode s r ≠ 0 && v.st = .init then some (.refused 0x0B06)
        else if write && v.st = .exhausted then some (.refused 0x0B03)
        else none

/-- Read a line for a source whose turn it is (R338, R370). -/
def readNow (src dpa : Nat) (s : State) : DramRes × State :=
  match imeRefusal s src dpa false with
  | some (.err c) => (.err c, imeError ((regionOf s dpa).getD 0) dpa c s)
  | some x => (x, s)
  | none =>
    if pageBlocked s dpa then (.wait, s)
    else match (regionOf s dpa).filter fun r => imeMode s r ≠ 0 with
      | none => match rawRead dpa 255 s with
        | (.ok v, t) => (.ok v, t)
        | (.error c, t) => (.err c, t)
      | some r =>
        let a := dpa / 64 * 64
        let l := (a - imeBase s r) / 64
        match fetchBlock r 0 (l / 64) s with
        | (.error c, t) => (.err c, t)
        | (.ok b, t) => match openLine r a (majorOf b) (minorOf b (l % 64)) (lineKey t r l) t with
          | (.ok v, u) => (.ok v, trimCache u)
          | (.error c, u) => (.err c, trimCache u)

/-- Write a line for a source whose turn it is, under a byte mask (R371): `.ok` once it is written. -/
def writeNow (src dpa : Nat) (mask : Word) (line : BitVec 512) (s : State) : DramRes × State :=
  match imeRefusal s src dpa true with
  | some (.err c) => (.err c, imeError ((regionOf s dpa).getD 0) dpa c s)
  | some x => (x, s)
  | none =>
    if pageBlocked s dpa then (.wait, s)
    else match (regionOf s dpa).filter fun r => imeMode s r ≠ 0 with
      | none => match rawWrite dpa mask line s with
        | (none, t) => (.ok 0, t)
        | (some c, t) => (.err c, t)
      | some r =>
        let a := dpa / 64 * 64
        let l := (a - imeBase s r) / 64
        match fetchBlock r 0 (l / 64) s with
        | (.error c, t) => (.err c, t)
        | (.ok b, t) =>
          let m := l % 64
          let old := if mask = BitVec.allOnes 64 then (.ok 0, t) else openLine r a (majorOf b) (minorOf b m) (lineKey t r l) t
          match old with
          | (.error c, u) => (.err c, trimCache u)
          | (.ok p, u) =>
            if minorOf b m = 127 then
              if majorOf b = 0xFFFFFFFF then (.refused 0x0B04, u)
              else (.wait, withIme (fun i => { i with reenc := i.reenc ++ [⟨r, l / 64⟩] }) u)
            else
              let b' := setFld b (64 + 7 * m) 7 (minorOf b m + 1)
              let u := putCache r 0 (l / 64) ⟨b', true, false⟩ u
              (.ok 0, trimCache (closeLine r a (majorOf b) (minorOf b m + 1) (lineKey u r l) (mergeLine p line mask) 0 u))

/-- The source has an earlier request that waits (R343, R372). -/
def srcWaits (s : State) (src : Nat) : Bool := s.drm.queue.any fun w => w.src = src

/-- Read a line for a source (R338, R343, R370). -/
def dramRead (src dpa : Nat) (s : State) : DramRes × State := if srcWaits s src then (.wait, s) else readNow src dpa s

/-- Write a line for a source, under a byte mask (R343, R371). -/
def dramWrite (src dpa : Nat) (mask : Word) (line : BitVec 512) (s : State) : DramRes × State :=
  if srcWaits s src then (.wait, s) else writeNow src dpa mask line s

end Sys2Proof.Machine
end

