-- ==== Sys2Proof/Machine/Dram.lean ====
section
/-! DEFINITION. The commands of the DRAM controller: states, training helpers, refresh, requests, mirror mode, retirement, BAR 4
(12, 19). -/

namespace Sys2Proof.Machine

/-- The page of DRC_0. -/
def pgDRC0 : Nat := pgDRC 0

-- States

/-- The subchannels populated (R334). -/
def populated (s : State) : List Nat := List.range (2 * 2 ^ min (fld (drcCfg s) 9 2) 2)
/-- The ranks fitted. -/
def ranks (s : State) : List Nat := List.range (1 + fld (drcCfg s) 8 1)

/-- CMD INIT (R342, R346). -/
def drcInit : State → State := posted pgDRC0 fun s =>
  if !mapValid s then setFault pgDRC0 0x0A06 s
  else if drcState s ≠ dOFF then s
  else
    (List.range 8).foldl (fun t k => send (.dramCommand k (.reset false)) t)
      (setBusy pgDRC0 true (setDrcState dINIT (withDrm (fun d => { d with rows := [], osc := [] }) s)))

/-- INIT (R346, R415): DRC_CTRL CMD 1. -/
def execInit (s : State) : Host.Outcome State Fault Refusal := clocked s (drcInit s)

/-- DRAM_INIT_DONE (R346). -/
def execDramInitDone (s : State) : Host.Outcome State Fault Refusal :=
  .next (if drcState s = dINIT then setBusy pgDRC0 false (setDrcState dTRAIN s) else s)

/-- FILL (R342, R346, R378): DRC_CTRL CMD 2. Every encrypted region that is OFF enters INIT where it can be keyed and placed. -/
def execFill (s : State) : Host.Outcome State Fault Refusal :=
  .next (posted pgDRC0 (fun s =>
    if !mapValid s then setFault pgDRC0 0x0A06 s
    else if drcState s ≠ dTRAIN then s
    else
      let rs := (List.range 16).filter fun r => imeMode s r ≠ 0 && (imeReg s r).st = .off
      let s := rs.foldl (fun t r =>
        if !placementOk t r then setFault pgIME 0x0B08 t
        else match keyRegion r t with
          | some u => withIme (fun i => { i with filling := i.filling ++ [r] }) u
          | none => setFault pgIME 0x0B08 (imeError r (imeBase t r) 0x0B08 t)) s
      setBusy pgDRC0 true (wrF drcStatA 8 6 0 (setDrcState dFILL s))) s)

/-- FILL_DONE (R346, R349, R378): every line but the spare region's holds zeros with its seal, regions their content; READY. -/
def execFillDone (s : State) : Host.Outcome State Fault Refusal :=
  .next (if drcState s = dFILL then
      let s := withDrm (fun d => { d with words := d.words.filter fun p => inSpare s (p.1 / 2 * 8) }) s
      let s := s.ime.filling.foldl (fun t r => finishInit r t) s
      let s := withIme (fun i => { i with filling := [] }) s
      setIrq pgDRC0 0 (setBusy pgDRC0 false (wrF drcStatA 8 6 63 (setDrcState dREADY s)))
    else s)

/-- READY again after self-refresh (R346): with a ZQ calibration of every rank. -/
def leaveSr (s : State) : State :=
  let s := (populated s).foldl (fun t k =>
    (ranks t).foldl (fun u r => send (.dramCommand k (.zq r)) u) (send (.dramCommand k (.selfRefresh false)) t)) s
  withDrm (fun d => { d with warm := false }) (setDrcState dREADY s)

/-- RESUME (R346): DRC_CTRL CMD 3, in SR after a warm reset. -/
def execResume (s : State) : Host.Outcome State Fault Refusal :=
  .next (posted pgDRC0 (fun s => if drcState s = dSR && s.drm.warm then leaveSr s else s) s)

/-- RESILVER (R352): DRC_CTRL CMD 4, of the lost subchannels whose partner is not lost. -/
def execResilver (s : State) : Host.Outcome State Fault Refusal :=
  .next (posted pgDRC0 (fun s =>
    let ks := (List.range 8).filter fun k => subLost s k && !subLost s (k ^^^ 1)
    if drcState s = dREADY && mirrored s && ks ≠ [] then setBusy pgDRC0 true (withDrm (fun d => { d with resilver := ks }) s)
    else s) s)

/-- The words after the copy of a lost subchannel from its survivor (R352). -/
def resilvered (s : State) (k : Nat) : Tab (BitVec 80) :=
  let c := k % 2
  let mine (x : Nat) : Bool := dramChannel s (x / 2 * 8) = k / 2
  let kept := s.drm.words.filter fun p => !(mine p.1 && p.1 % 2 = c)
  (kept.filter fun p => mine p.1 && p.1 % 2 ≠ c).foldl (fun t p => tput 0 (p.1 / 2 * 2 + c) p.2 t) kept

/-- RESILVER_DONE (R352). -/
def execResilverDone (s : State) : Host.Outcome State Fault Refusal :=
  .next (if s.drm.resilver = [] then s
    else
      let s := s.drm.resilver.foldl (fun t k =>
        wrF drcStatA (24 + k) 1 0 (withDrm (fun d => { d with words := resilvered t k }) t)) s
      setBusy pgDRC0 false (withDrm (fun d => { d with resilver := [] }) s))

-- Training helpers

/-- A helper of subchannel `k` may run: in TRAIN, or in READY while it is lost (R347, R352). -/
def mayTrain (s : State) (k : Nat) : Bool := drcState s = dTRAIN || (drcState s = dREADY && subLost s k)

/-- Run a helper command of DPH page `k`, or refuse it (R347). -/
def helper (k : Nat) (f : State → State) : State → State :=
  posted (pgDPH k) fun s => if mayTrain s k then f s else setFault (pgDPH k) 0x0A08 s

/-- Store a DPH command register's value. -/
def noteDph (k o : Nat) (v : Reg) (s : State) : State := wr (at' (pgDPH k) o) v s

/-- MRW (R347): to one rank, or by PDA to one device. -/
def execMrw (sub : BitVec 3) (val : Reg) (s : State) : Host.Outcome State Fault Refusal :=
  let k := sub.toNat
  .next (helper k (fun s =>
    if 9 < fld val 25 4 then setFault (pgDPH k) reservedValue s
    else send (.dramCommand k (.mrw (fld val 24 1) (if bit val 29 then some (fld val 25 4) else none) (fld val 16 8) (fld val 0 8))) s) s)

/-- MRR (R347): the named device answers `read`. -/
def execMrr (sub : BitVec 3) (val : Reg) (read : Byte) (s : State) : Host.Outcome State Fault Refusal :=
  let k := sub.toNat
  .next (helper k (fun s =>
    if 9 < fld val 25 4 then setFault (pgDPH k) reservedValue s
    else noteDph k 0x44 (BitVec.ofNat 32 read.toNat)
      (send (.dramCommand k (.mrr (fld val 24 1) (fld val 25 4) (fld val 16 8))) s)) s)

/-- MPC (R347). -/
def execMpc (sub : BitVec 3) (val : Reg) (s : State) : Host.Outcome State Fault Refusal :=
  let k := sub.toNat
  .next (helper k (fun s => send (.dramCommand k (.mpc (fld val 24 1) (fld val 0 8))) s) s)

/-- COMPARE_BURST (R347): DPH_CMP START; the error counters clear. -/
def execCompareBurst (sub : BitVec 3) (val : Reg) (s : State) : Host.Outcome State Fault Refusal :=
  let k := sub.toNat
  .next (helper k (fun s =>
    let s := (List.range 40).foldl (fun t b => noteDph k (0x100 + 4 * b) 0 t) s
    let s := send (.dramCommand k (.bursts (bit val 30) (fld val 0 24) (rd s (at' (pgDPH k) 0x5C)))) s
    setBusy (pgDPH k) true (withDrm (fun d => { d with bursting := d.bursting ++ [k] }) s)) s)

/-- The first `n` bits of the pattern of bit lane `b` (R347): PRBS31 from the seed, walking ones, or the user pattern repeated. How DPH_PAT
numbers them, how one seed serves the lanes and where the ones start are the model's (log entry 329). -/
def patternBits (s : State) (k b n : Nat) : List Bool :=
  match fld (rd s (at' (pgDPH k) 0x48)) 0 2 with
  | 0 => (prbsBits 6 n (Config.laneSeed (rd s (at' (pgDPH k) 0x4C)) b)).1
  | 1 => (List.range n).map fun i => i % 40 = b
  | _ => (List.range n).map fun i => bit (rd s (at' (pgDPH k) (0x50 + 4 * (i / 32 % 2)))) (i % 32)

/-- The mismatches of bit lane `b` in the beats read (R347). -/
def laneErrors (s : State) (k b : Nat) (beats : List (BitVec 40)) : Nat :=
  ((beats.zip (patternBits s k b beats.length)).filter fun q => bit q.1 b != q.2).length

/-- COMPARE_BURST_DONE (R347): the beats that the DRAM gave on DQ are compared with the generator, and each bit lane counts its mismatches
(log entry 18). -/
def execCompareBurstDone (sub : BitVec 3) (beats : List (BitVec 40)) (s : State) : Host.Outcome State Fault Refusal :=
  let k := sub.toNat
  .next (if s.drm.bursting.contains k then
      let s := (List.range 40).foldl (fun t b => noteDph k (0x100 + 4 * b) (BitVec.ofNat 32 (min 65535 (laneErrors s k b beats))) t) s
      setBusy (pgDPH k) false (withDrm (fun d => { d with bursting := d.bursting.filter fun j => decide (j ≠ k) }) s)
    else s)

-- Upkeep

/-- The controller runs refresh (R345). -/
def refreshes (s : State) : Bool := drcState s = dTRAIN || drcState s = dFILL || drcState s = dREADY

/-- One refresh of a rank: it closes the rows that it covers (R344, R345); REFsb takes the banks in turn (log entry 330). -/
def oneRefresh (k rank : Nat) (s : State) : State :=
  let key := 2 * k + rank
  let sb := rdB s (at' pgDRC0 0x80) 0
  let b := tget 0 key s.drm.nextSb
  let s := send (.dramCommand k (.refresh rank sb)) s
  if sb then withDrm (fun d => { d with nextSb := tput 0 key ((b + 1) % 4) d.nextSb }) (closeRows key (some b) s)
  else closeRows key none s

/-- Issue `n` refreshes to a rank. -/
def issueRefresh (k rank n : Nat) (s : State) : State := (List.replicate n ()).foldl (fun t _ => oneRefresh k rank t) s

/-- REFRESH (R345): one refresh of a rank falls due. While requests wait up to 4 are postponed; an idle channel issues what is owed and
one ahead, up to 4 (log entry 33). -/
def execRefresh (sub : BitVec 3) (rank : BitVec 1) (busy : Bool) (s : State) : Host.Outcome State Fault Refusal :=
  let k := sub.toNat
  let key := 2 * k + rank.toNat
  let due := tget 0 key s.drm.debt + 1
  let left := if busy then min due 4 else max (min (due - 2) (-1)) (-4)
  .next (if refreshes s then
      issueRefresh k rank.toNat (due - left).toNat (withDrm (fun d => { d with debt := tput 0 key left d.debt }) s)
    else s)

/-- MR4_POLL (R345): MR4 of a rank as read; from code 3 on it needs the double rate, code 5 and above is beyond the operating range
(JESD79-5, log entry 34). -/
def execMr4Poll (sub : BitVec 3) (rank : BitVec 1) (mr4 : Byte) (s : State) : Host.Outcome State Fault Refusal :=
  let k := sub.toNat
  let key := 2 * k + rank.toNat
  let code := fld mr4 0 3
  .next (if refreshes s then
      let s := send (.dramCommand k (.mr4Read rank.toNat)) s
      let hot := s.drm.hot.filter fun j => decide (j ≠ key)
      let hot := if 3 ≤ code then hot ++ [key] else hot
      let s := withDrm (fun d => { d with hot := hot }) s
      let s := wrF drcStatA (20 + k / 2) 1 (b2n (hot.any fun j => j / 4 = k / 2)) s
      if 5 ≤ code then setIrq pgDRC0 3 (logNote 0x0A0E s) else s
    else s)

/-- ZQ_CALIBRATION (R345). -/
def execZqCalibration (s : State) : Host.Outcome State Fault Refusal :=
  .next (if refreshes s then
      (populated s).foldl (fun t k => (ranks s).foldl (fun u r => send (.dramCommand k (.zq r)) u) t) s
    else s)

/-- The drift of a rank's DQS oscillator from its trained count, by which the write DQS delay is corrected (R345). -/
def dqsDrift (s : State) (k rank : Nat) : Int :=
  match tget none (2 * k + rank) s.drm.osc with
  | some (a, b) => b - a
  | none => 0

/-- DQS_OSC_READ (R345): the oscillator of each rank is read; the first count since training is the trained one. -/
def execDqsOscRead (sub : BitVec 3) (counts : List Nat) (s : State) : Host.Outcome State Fault Refusal :=
  let k := sub.toNat
  .next (if refreshes s then
      ((ranks s).zip counts).foldl (fun t q =>
        let key := 2 * k + q.1
        let old := (tget none key t.drm.osc).getD (q.2, q.2)
        withDrm (fun d => { d with osc := tput none key (some (old.1, q.2)) d.osc }) (send (.dramCommand k (.oscRead q.1)) t)) s
    else s)

/-- POWER_DOWN_ENTRY (R334): after 256 DCLK without a request; a rank leaves power-down with its next request. -/
def execPowerDownEntry (sub : BitVec 3) (rank : BitVec 1) (s : State) : Host.Outcome State Fault Refusal :=
  let key := 2 * sub.toNat + rank.toNat
  .next (if drcState s = dREADY && !s.drm.asleep.contains key then
      send (.dramCommand sub.toNat (.powerDown rank.toNat)) (closeRows key none (withDrm (fun d => { d with asleep := d.asleep ++ [key] }) s))
    else s)

-- Requests

/-- Give a read its completion (R339). -/
def completeRead (dpa : Nat) (r : DramRes) (s : State) : State :=
  match r with
  | .ok v => send (.readBytes dpa (toBytes 64 v)) s
  | .err _ => send (.readPoisoned dpa) s
  | .refused _ => send (.completerAbort dpa) s
  | .wait => s

/-- The DPA of a BAR 4 offset (R484). -/
def bar4Dpa (s : State) (off : Nat) : Nat := rdF s (at' pgHIF 0x44) 0 8 * 2 ^ 30 + off

/-- The lines that `n` bytes from an address touch. -/
def lineAddrs (a n : Nat) : List Nat := (List.range ((a + n - 1) / 64 - a / 64 + 1)).map fun i => (a / 64 + i) * 64

/-- Read lines for a source in turn: the bytes, or the first result that is none. -/
def readLines (src : Nat) (as : List Nat) (s : State) : DramRes × List Byte × State :=
  as.foldl (fun (r : DramRes × List Byte × State) a => match r.1 with
    | .ok _ => match readNow src a r.2.2 with
      | (.ok v, t) => (.ok v, r.2.1 ++ toBytes 64 v, t)
      | (x, t) => (x, r.2.1, t)
    | _ => r) (.ok 0, [], s)

/-- The completion of a read of BAR 4 (R339, R484). -/
def completeBytes (a off len : Nat) (r : DramRes) (bs : List Byte) (s : State) : State :=
  match r with
  | .ok _ => send (.readBytes off ((bs.drop (a % 64)).take len)) s
  | .err _ => send (.readPoisoned off) s
  | .refused _ => send (.completerAbort off) s
  | .wait => s

/-- Serve a request whose turn it is: nothing where it must wait on. -/
def serveNow (q : DramReq) (s : State) : Option State :=
  match q.ask with
  | .line => match readNow q.src q.dpa s with
    | (.wait, _) => none
    | (r, t) => some (completeRead q.dpa r t)
  | .write m v => match writeNow q.src q.dpa m v s with
    | (.wait, t) => if t.ime.reenc = s.ime.reenc then none else some (withDrm (fun d => { d with queue := q :: d.queue }) t)
    | (_, t) => some t
  | .bytes off len => match readLines q.src (lineAddrs q.dpa len) s with
    | (.wait, _, _) => none
    | (r, bs, t) => some (completeBytes q.dpa off len r bs t)

/-- Serve a request, or let it wait behind its source's earlier ones or for its page (R343, R355, R372). -/
def serveReq (q : DramReq) (s : State) : State :=
  let hold (s : State) : State := withDrm (fun d => { d with queue := d.queue ++ [q] }) s
  if srcWaits s q.src then hold s
  else match serveNow q s with
    | some t => t
    | none => hold s

/-- A request has waited 256 DCLK (R344). -/
def aged (s : State) (q : DramReq) : Bool := (q.time.toNat + 256 * 16000 / dclkMhz s) ≤ s.time.toNat

/-- The waiting requests that may be served, oldest first: the first of each source, unless its page is blocked. -/
def servable (s : State) : List DramReq :=
  (s.drm.queue.foldl (fun (a : List DramReq × List Nat) q =>
    if a.2.contains q.src then a
    else (if (lineAddrs q.dpa (match q.ask with
        | .bytes _ n => n
        | _ => 1)).any (pageBlocked s) then a.1 else a.1 ++ [q], q.src :: a.2)) ([], [])).1

/-- The request to serve next (R344): at the bank of the oldest, that one where it has waited 256 DCLK, else the oldest row hit, else the
oldest. Between banks the oldest goes first (log entry 331). -/
def nextReq (s : State) : Option DramReq :=
  match servable s with
  | [] => none
  | q :: l =>
    let a (x : DramReq) : Nat := remap s x.dpa
    if aged s q then some q
    else some (((q :: l).find? fun x => bankKey s (a x) = bankKey s (a q) && rowOpen s (a x)).getD q)

/-- Serve the waiting requests that can be served (R343, R344). -/
def serveQueue : Nat → State → State
  | 0, s => s
  | n + 1, s => match nextReq s with
    | none => s
    | some q => match serveNow q (withDrm (fun d => { d with queue := d.queue.erase q }) s) with
      | some t => serveQueue n t
      | none => s

/-- What waits and can be served is served. -/
def serveWaits (s : State) : State := serveQueue (2 * s.drm.queue.length) s

/-- DRAM_READ (R338 to R340, R343, R344, R350, R370): a source's read of a line and its completion. -/
def execDramRead (source : BitVec 4) (dpa : BitVec 40) (s : State) : Host.Outcome State Fault Refusal :=
  .next (serveReq ⟨source.toNat, dpa.toNat / 64 * 64, .line, s.time⟩ s)

/-- DRAM_WRITE (R343, R344, R371): a source's masked write of a line. -/
def execDramWrite (source : BitVec 4) (dpa : BitVec 40) (mask : Word) (line : BitVec 512) (s : State) : Host.Outcome State Fault Refusal :=
  .next (serveReq ⟨source.toNat, dpa.toNat / 64 * 64, .write mask line, s.time⟩ s)

/-- READ_TIMEOUT (R351): a mirrored subchannel is lost, and its outstanding reads are served by its partner; without one, and outside mirror
mode, the outstanding read of the line is uncorrectable. -/
def execReadTimeout (sub : BitVec 3) (dpa : BitVec 40) (s : State) : Host.Outcome State Fault Refusal :=
  let k := sub.toNat
  let a := remap s dpa.toNat
  .next (if drcState s ≠ dREADY then s
    else if mirrored s && !subLost s k then
      logErr 5 a 0 0x0A0A false false (setIrq pgDRC0 1 (wrF drcStatA (24 + k) 1 1 s))
    else logErr 5 a 0 0x0A09 true false (withDrm (fun d => { d with timeouts := d.timeouts ++ [dpa.toNat / 64] }) s))

/-- RETIRE_COPY_DONE (R355): the 64 lines are copied and the entry acts. -/
def execRetireCopyDone (entry : BitVec 10) (s : State) : Host.Outcome State Fault Refusal :=
  let e := entry.toNat
  let w := tget 0 e s.drm.retire
  .next (if s.drm.copying.contains e then
      let s := (List.range 64).foldl (fun t i => copyLine (fld w 0 26) (fld w 32 26) i t) s
      serveWaits (setIrq pgDRC0 4 (withDrm (fun d => { d with copying := d.copying.filter fun x => decide (x ≠ e) }) s))
    else s)

-- BAR 4

/-- BAR4_READ (R339, R343, R483, R484): Unsupported Request in D3hot, Completer Abort where refused, poisoned where uncorrectable, else the
bytes; a read that must wait answers later. -/
def execBar4Read (offset : BitVec 36) (len : Nat) (s : State) : Host.Outcome State Fault Refusal :=
  let off := offset.toNat
  .next (if s.hst.d3 then send (.unsupported off) s
    else serveReq ⟨srcBar4, bar4Dpa s off, .bytes off len, s.time⟩ s)

/-- The byte mask and data that optional bytes give for line `l` of a write from address `a`. -/
def linePart (a l : Nat) (bs : List (Option Byte)) : Word × BitVec 512 :=
  (List.range 64).foldl (fun (r : Word × BitVec 512) k =>
    if l + k < a then r
    else match bs.getD (l + k - a) none with
      | some b => (r.1 ||| BitVec.ofNat 64 (2 ^ k), setFld r.2 (8 * k) 8 b.toNat)
      | none => r) (0, 0)

/-- BAR4_WRITE (R343, R371, R483, R484): masked writes of the lines touched; a refused one is dropped, one that waits is held. -/
def execBar4Write (offset : BitVec 36) (bytes : List (Option Byte)) (s : State) : Host.Outcome State Fault Refusal :=
  let a := bar4Dpa s offset.toNat
  .next (if s.hst.d3 then s
    else (lineAddrs a bytes.length).foldl (fun t l => serveReq ⟨srcBar4, l, .write (linePart a l bytes).1 (linePart a l bytes).2, t.time⟩ t) s)

end Sys2Proof.Machine
end

