-- ==== Sys2Proof/Machine/Ime.lean ====
section
/-! DEFINITION. The commands of inline memory encryption (13). -/

namespace Sys2Proof.Machine

/-- The region's rekeys and state allow EN to clear: every encrypted region is OFF (R362). -/
def encryptedOff (s : State) : Bool :=
  (List.range 16).all fun r => rdF s (imeA r 0) 0 2 = 0 || (imeReg s r).st = .off

/-- Hand banks 120 to 123 to an owner with CLEAR (R323, R362): IRQ_STAT bit 0 of the BANK page says that it is done. -/
def handCacheBanks (typ : Nat) (s : State) : State :=
  setIrq pgBANK 0 (((List.range 4).map (120 + ·)).foldl (fun t n =>
    setBank n { bankOf t n with typ := typ, basin := 0, drain := false, ret := false, waking := false } (clearBank n t)) s)

/-- IME_ENABLE (R15, R362): a write of IME_CTRL. The handover of the four banks is done with it (log entry 36). -/
def execImeEnable (val : Reg) (s : State) : Host.Outcome State Fault Refusal :=
  let a := at' pgIME 0x40
  .next (guarded pgIME (fun s =>
    let on := bit val 0
    if on = imeEn s then writeReg a val s
    else if on then
      if ((List.range 4).map (120 + ·)).all fun n => (bankOf s n).typ = 0 && (bankOf s n).target.isNone then
        writeReg a val (handCacheBanks 5 s)
      else setFault pgIME 0x0B0A s
    else if encryptedOff s then writeReg a val (withIme (fun i => { i with cache := [] }) (handCacheBanks 0 s))
    else setFault pgIME 0x0B07 s) s)

/-- IME_INIT (R361, R367, R375, R378, R381): IME_CMD 1 of a region. -/
def execImeInit (region : BitVec 4) (s : State) : Host.Outcome State Fault Refusal :=
  let r := region.toNat
  .next (posted pgIME (fun s =>
    if (imeReg s r).st ≠ .off then setFault pgIME 0x0B07 s
    else if drcState s ≠ dREADY then setFault pgIME 0x0A01 s
    else if !placementOk s r then setFault pgIME 0x0B08 s
    else
      let start (s : State) : State := setBusy pgIME true (withIme (fun i => { i with running := some (1, r, 0, 0) }) s)
      if imeMode s r = 0 then start (setImeReg r { ImeRegion.zero with st := .init } s)
      else match keyRegion r s with
        | some t => start t
        | none => setFault pgIME 0x0B08 (imeError r (imeBase s r) 0x0B08 s)) s)

/-- IME_INIT_DONE (R378). -/
def execImeInitDone (region : BitVec 4) (s : State) : Host.Outcome State Fault Refusal :=
  let r := region.toNat
  .next (match s.ime.running with
    | some (1, q, _, _) =>
      if q = r then setBusy pgIME false (finishInit r (withIme (fun i => { i with running := none }) s)) else s
    | _ => s)

/-- IME_OFF (R363, R379, R381): IME_CMD 2 of a region. -/
def execImeOff (region : BitVec 4) (s : State) : Host.Outcome State Fault Refusal :=
  let r := region.toNat
  .next (posted pgIME (fun s => if (imeReg s r).st = .init then setFault pgIME 0x0B07 s else serveWaits (regionOff r s)) s)

/-- INIT_RANGE (R377): IME_CMD 3, of the subtree that IME_CMD_ARG names. -/
def execInitRange (region : BitVec 4) (s : State) : Host.Outcome State Fault Refusal :=
  let r := region.toNat
  let arg := rd s (at' pgIME 0x4C)
  let k := fld arg 28 4
  let j := fld arg 0 26
  .next (posted pgIME (fun s =>
    if (imeReg s r).st ≠ .active || (imeReg s r).pend then setFault pgIME 0x0B07 s
    else if imeMode s r = 0 || imeTop s r < k || levelSize s r k ≤ j then setFault pgIME 0x0B08 s
    else if 0xFFFFFFFF ≤ (imeReg s r).high then setFault pgIME 0x0B04 s
    else setBusy pgIME true (withIme (fun i => { i with running := some (3, r, k, j) }) s)) s)

/-- The blocks of a region beneath a block, itself and the lines of tags included. -/
def beneath (r k j x : Nat) : Bool :=
  let lvl := x / 2 ^ 36 % 16
  x / 2 ^ 40 = r && (if lvl = 8 then decide (x % 2 ^ 36 / 8 ^ (k + 1) = j) else lvl ≤ k && decide (x % 2 ^ 36 / 8 ^ (k - lvl) = j))

/-- INIT_RANGE_DONE (R373, R376, R377): zeros beneath, counter blocks above the high-water major, the parent counter advanced; a MAJOR
from 0x80000000 on requests a rekey. -/
def execInitRangeDone (region : BitVec 4) (s : State) : Host.Outcome State Fault Refusal :=
  let r := region.toNat
  .next (match s.ime.running with
    | some (3, q, k, j) =>
      if q ≠ r then s
      else
        let s := withIme (fun i => { i with
          running := none, lost := i.lost.filter fun x => !beneath r k j x, cache := i.cache.filter fun p => !beneath r k j p.1 }) s
        let major := (imeReg s r).high + 1
        let s := setImeReg r { imeReg s r with high := major } s
        let s := setBusy pgIME false (match advanceParent r k j s with
          | (some n, t) => initTree r major k j n t
          | (none, t) => t)
        if 0x80000000 ≤ major then requestRekey r s else s
    | _ => s)

/-- IME_REKEY (R373, R374, R381): IME_CMD 4, as a major end. -/
def execImeRekey (region : BitVec 4) (s : State) : Host.Outcome State Fault Refusal :=
  let r := region.toNat
  .next (posted pgIME (fun s => if (imeReg s r).st ≠ .active then setFault pgIME 0x0B07 s else requestRekey r s) s)

/-- FLUSH (R363, R381): IME_CMD 5. -/
def execFlush (region : BitVec 4) (s : State) : Host.Outcome State Fault Refusal :=
  .next (posted pgIME (fun s => setBusy pgIME true (withIme (fun i => { i with running := some (5, region.toNat, 0, 0) }) s)) s)

/-- FLUSH_DONE (R363, R369). -/
def execFlushDone (region : BitVec 4) (s : State) : Host.Outcome State Fault Refusal :=
  .next (match s.ime.running with
    | some (5, q, _, _) =>
      if q = region.toNat then setBusy pgIME false (flushRegion q (withIme (fun i => { i with running := none }) s)) else s
    | _ => s)

/-- Convert a page to the key of the next epoch (R374): every line read under the old key and MAJOR and written with MAJOR 0 and minor 0;
a page whose block cannot be had is skipped and counted. -/
def convertPage (r p : Nat) (s : State) : State :=
  let done (s : State) : State :=
    let s := setImeReg r { imeReg s r with bound := 64 * (p + 1) } s
    if s.ime.serving = some r then wr (at' pgIME 0x50) (BitVec.ofNat 32 (64 * (p + 1))) s else s
  if imeMode s r = 0 then done s
  else match fetchBlock r 0 p s with
  | (.error _, t) => done (incF (at' pgIME 0x44) 16 16 1 t)
  | (.ok b, t) =>
    let v := imeReg t r
    let t := (List.range 64).foldl (fun t i =>
      let d := imeBase t r + 4096 * p + 64 * i
      match openLine r d (majorOf b) (minorOf b i) v.key t with
      | (.ok x, u) => closeLine r d 0 0 v.next x 0 u
      | (.error _, u) => closeLine r d 0 0 v.next 0 255 u) t
    done (trimCache (putCache r 0 p ⟨0, true, false⟩ t))

/-- A rekey ends (R374): the new key stays, EPOCH advances, the engine takes the next pending region. -/
def rekeyDone (r : Nat) (s : State) : State :=
  let v := imeReg s r
  let s := setImeReg r { v with st := .active, epoch := v.epoch + 1, key := v.next, next := 0, bound := 0 } s
  startRekey (setIrq pgIME 2 (wrF (at' pgIME 0x44) 4 1 0 (withIme (fun i => { i with serving := none }) s)))

/-- REKEY_PAGE (R374, R379): the engine converts the next page of the region it serves, unless the DRAM is in self-refresh or the page is
being re-encrypted. -/
def execRekeyPage (s : State) : Host.Outcome State Fault Refusal :=
  .next (match s.ime.serving with
    | none => s
    | some r =>
      let p := (imeReg s r).bound / 64
      if (imeReg s r).st ≠ .rekey || drcState s ≠ dREADY || s.ime.reenc.any fun e => e.region = r && e.page = p then s
      else if imePages s r ≤ p then rekeyDone r s
      else
        let t := convertPage r p s
        if imePages s r ≤ p + 1 && (imeReg t r).st = .rekey then rekeyDone r t else t)

/-- PAGE_REENCRYPT_DONE (R373): the page stands under the next MAJOR, and the requests that waited for it are served in order. -/
def execPageReencryptDone (region : BitVec 4) (page : BitVec 26) (s : State) : Host.Outcome State Fault Refusal :=
  .next (match s.ime.reenc.find? fun e => e.region = region.toNat && e.page = page.toNat with
    | none => s
    | some e =>
      let s := withIme (fun i => { i with reenc := i.reenc.filter fun x => !(x.region = e.region && x.page = e.page) }) s
      serveWaits (reencrypt e.region e.page s))

end Sys2Proof.Machine
end

