-- ==== Sys2Proof/Machine/PortOps.lean ====
section
/-! DEFINITION. The shared operations of a basin's ports: errors, issuers, acceptance, ordering, items and outputs (06). -/

namespace Sys2Proof.Machine

-- Items and errors

/-- The item in flight that a handle names. -/
def findItem (s : State) (n : Nat) (h : BitVec 20) : Option Flight := (basinOf s n).items.find? fun i => i.handle = h

/-- Change the item in flight that a handle names. -/
def updItem (n : Nat) (h : BitVec 20) (u : Flight → Flight) (s : State) : State :=
  let b := basinOf s n
  setBasin n { b with items := b.items.map fun i => if i.handle = h then u i else i } s

/-- An item in flight becomes errored; its first cause stands (R162, R166). -/
def itemErrored (n : Nat) (h : BitVec 20) (cause : Nat) (s : State) : State :=
  updItem n h (fun i => { i with error := some (i.error.getD (BitVec.ofNat 16 cause)) }) s

/-- A port error (R170): the first recorded, IRQ_STAT bit 5. -/
def portError (n port : Nat) (h : BitVec 20) (cause : Nat) (s : State) : State :=
  let a := at' (pgBSN n) 0xE4
  let s := if rdB s a 31 then wrF a 30 1 1 s
    else wr (at' (pgBSN n) 0xE8) (BitVec.ofNat 32 (cause % 65536)) (wr a (BitVec.ofNat 32 (2 ^ 31 + port * 2 ^ 26 + h.toNat)) s)
  setIrq (pgBSN n) 5 s

-- Row ports: issue

/-- The crystals that serve row port `r`, lowest address first (R147). -/
def rowCrystals (r : Nat) : List Nat :=
  let ps := if r < 2 then [11, 12] else [3, 4]
  ps.flatMap fun p => (List.range 8).map fun c => xAt p (1 + r % 2) c

/-- A crystal of a port of a KIND runs a cycle that is not quiet, has CMD_EN, and the OQ of grain 4×CTL_BASE is 1 (R156, R165); the
value is the kind that its OQ names. -/
def controlKind (s : State) (n x kind : Nat) : Option Nat :=
  let p := planOf s n x
  let oq := (crystalOf s (xk n x)).oq
  let g := 4 * fld p.bits 2216 2
  if !p.quiet && fld p.bits 2212 3 = kind && bit p.bits 2215 && bit oq g then some (2 * b2n (bit oq (g + 2)) + b2n (bit oq (g + 1)))
  else none

/-- The crystals that issue a command on row port `r` in the present cycle, with their kinds (R156). -/
def rowIssuers (s : State) (n r : Nat) : List (Nat × Nat) :=
  (rowCrystals r).filterMap fun x => (controlKind s n x 3).map fun k => (x, k)

/-- The context that a crystal runs, for its traps. -/
def ctxOf (s : State) (n x : Nat) : Nat := ((planOf s n x).ctx).getD 0

-- Command words (R157)

/-- HANDLE of a command word. -/
def cmdHandle (w : Word) : BitVec 20 := BitVec.ofNat 20 (fld w 44 20)
/-- BANK of a row command. -/
def cmdBank (w : Word) : Nat := fld w 0 7
/-- ROW of a row command. -/
def cmdRow (w : Word) : Nat := fld w 7 12
/-- STAGE_LINE of a far command. -/
def cmdStageLine (w : Word) : Nat := fld w 40 4
/-- LINE of a far command. -/
def cmdLine (w : Word) : Nat := fld w 6 34
/-- COUNT+1 of a far command. -/
def cmdLines (w : Word) : Nat := fld w 0 4 + 1
/-- A far command (R157). -/
def RowCmd.far (c : RowCmd) : Bool := 2 ≤ c.kind.toNat

/-- The DRAM controller is READY (R346). -/
def dramReady (s : State) : Bool := rdF s (at' (pgDRC 0) 0x48) 0 3 = 4
/-- 2^CAP_LOG2 (R337). -/
def dramBytes (s : State) : Nat := 2 ^ rdF s (at' (pgDRC 0) 0x4C) 16 6

/-- The payload rows of an item: its own, and those of a fused item's other operands where this device is its home (R154, R197); an
item or operand of LENGTH 0 has none. -/
def payloadRows (s : State) (i : Flight) : List (Nat × Nat × Nat) :=
  (if i.len = 0 then [] else [(i.bank.toNat, i.row.toNat, i.rows)])
    ++ (match if i.service % 2 = 1 then none else slotOfHandle s i.handle with
      | some n => ((slotOf s n).ops.filter fun o => decide (o.2 ≠ 0)).map fun o =>
          let v := slotOf s (fld o.1 0 18)
          (v.bank.toNat, v.row.toNat, v.rows)
      | none => [])

/-- The item grant of a READ_ROW (R160, R323): it ends when the item is committed, aborted or discarded, and no handover of the bank is in
progress. -/
def itemGrant (s : State) (n : Nat) (w : Word) : Bool :=
  match (findItem s n (cmdHandle w)).filter (·.bound) with
  | none => false
  | some i => (bankOf s (cmdBank w)).target.isNone && (payloadRows s i).any fun p => p.1 = cmdBank w && p.2.1 ≤ cmdRow w && cmdRow w ≤ p.2.1 + p.2.2

/-- The logical basin owns the bank of a row command (R160, R321). -/
def basinOwns (s : State) (n bank : Nat) : Bool :=
  match logicalOf s n with
  | some l => bankOwned s bank 1 l
  | none => false

/-- A row command is refused (R160, R321). -/
def rowRefused (s : State) (n kind : Nat) (w : Word) : Bool := !(basinOwns s n (cmdBank w) || (kind = 0 && itemGrant s n w))

/-- The cause with which an accepted command will end in error, as far as acceptance can tell (R162, R174, R309, R441; log entry 101). -/
def acceptFault (s : State) (n kind : Nat) (w : Word) : Option (BitVec 16) :=
  if kind < 2 then
    if fld w 19 25 ≠ 0 then some 0x0552
    else if atBorder s n then some 0x0417
    else if rowRefused s n kind w then some 0x0901
    else if dieInReset s 4 then some 0x0201
    else none
  else if fld w 4 2 ≠ 0 || 15 < cmdStageLine w + fld w 0 4 then some 0x0552
  else if atBorder s n then some 0x0417
  else if !dramReady s then some 0x0A01
  else if dramBytes s < 64 * (cmdLine w + cmdLines w) then some 0x0552
  else none

/-- The stage lines that a command changes. -/
def changedLines (kind : Nat) (w : Word) : BitVec 16 :=
  match kind with
  | 0 => 0xFFFF
  | 2 => BitVec.ofNat 16 ((2 ^ cmdLines w - 1) * 2 ^ cmdStageLine w)
  | _ => 0

/-- Two commands of one port have no ordering rule between them (R159): row commands of different banks, or a row and a far
command; far commands keep their order (R161). -/
def unordered (k1 k2 : Nat) (w1 w2 : Word) : Bool :=
  if k1 < 2 && k2 < 2 then cmdBank w1 ≠ cmdBank w2 else !(2 ≤ k1 && 2 ≤ k2)

/-- The fences that may hold an access of port `place`: its own of every scope, those of the other ports of scope BASIN and wider
(R172). -/
def fencesHold (s : State) (n place seq : Nat) : Bool :=
  (List.range 8).any fun q => (fencesOf s n q).any fun f => f.limit s ≤ seq && (f.scope ≠ 0 || q = place)

/-- The fences that may hold an access of row port `r` (R172). -/
def fenceHolds (s : State) (n r seq : Nat) : Bool := fencesHold s n (4 + r) seq

/-- A posted fence stands between two accesses of a port. -/
def fenceBetween (s : State) (n r a b : Nat) : Bool :=
  (List.range 8).any fun q => (fencesOf s n q).any fun f => a < f.limit s && f.limit s ≤ b && (f.scope ≠ 0 || q = 4 + r)

/-- A row port accepted a command in the present cycle: it took one, and was not FULL. -/
def RowPort.fresh (p : RowPort) : Bool := p.taken.any fun v => !bit v 1

/-- The acceptance number of a far command of row port `r` (R161): before those of the higher ports of the same cycle, which move up. -/
def farSeq (n r : Nat) (s : State) : Nat × State :=
  [3, 2, 1].foldl (fun (a : Nat × State) q =>
    let p := rowPort a.2 n q
    match p.cmds.getLast? with
    | some c =>
      if r < q && p.fresh && c.far then
        (c.seq, setRowPort n q { p with cmds := p.cmds.dropLast ++ [{ c with seq := a.1 }] } a.2)
      else a
    | none => a) (s.fab.seq, s)

/-- Enter an accepted command (R158, R159): it takes the stage as it stands; stage lines that an unordered command also changes are
marked in both. -/
def enterCmd (n r kind : Nat) (w : Word) (s : State) : State :=
  let p := rowPort s n r
  let next := s.fab.seq
  let a := if kind < 2 then (next, s) else farSeq n r s
  let seq := a.1
  let s := a.2
  let f := acceptFault s n kind w
  let m := if f.isSome then 0 else changedLines kind w
  let clash (c : RowCmd) : BitVec 16 :=
    if c.fault.isNone && !c.reset && unordered c.kind.toNat kind c.word w && !fenceBetween s n r c.seq seq then
      changedLines c.kind.toNat c.word &&& m
    else 0
  let mine := p.cmds.foldl (fun a c => a ||| clash c) 0
  let cmd : RowCmd :=
    { kind := BitVec.ofNat 2 kind, fault := f, word := w, seq := seq, data := p.stage, race := mine, done := 0, failed := none, reset := false }
  let pred := rowPred s n r
  let s := withFab (fun g => { g with seq := next + 1 }) s
  let s := setRowPort n r { p with
    cmds := (p.cmds.map fun c => { c with race := c.race ||| clash c }) ++ [cmd]
    err := p.err && !p.cmds.isEmpty
    taken := some pred } s
  if kind < 2 then
    if f = some 0x0901 then bankRefuse 1 ((logicalOf s n).getD 0) (cmdBank w) (cmdRow w) s
    else if f.isNone then bankTouch (cmdBank w) s else s
  else s

/-- A basin takes no FCLK cycle: its clock is stopped, or its logic is under test (R119, R425, R471). -/
def basinStill (s : State) (n : Nat) : Bool := (basinOf s n).power ≠ .run || underTest s n

/-- A command of the given kind is issued on row port `r` in the present cycle (R156, R157): the lowest issuer's command is accepted
unless the port is FULL, which is a port error (R170); every other issuer traps. -/
def issueRow (n r kind : Nat) (s : State) : State :=
  if (rowPort s n r).taken.isSome || basinStill s n then s
  else match rowIssuers s n r with
    | [] => s
    | (x, k) :: rest =>
      if k ≠ kind then s
      else
        let losers := rest.map fun q => (q.1, 0x0551, ctxOf s n q.1)
        let w := (crystalOf s (xk n x)).out
        if bit (rowPred s n r) 1 then
          let p := rowPort s n r
          raiseEarly n ((x, 0x0550, ctxOf s n x) :: losers)
            (portError n r (cmdHandle w) 0x0550 (setRowPort n r { p with taken := some (rowPred s n r) } s))
        else raiseEarly n losers (enterCmd n r kind w s)

-- Row ports: completion

/-- A command of a port ends in error (R162): ERR, the item errored, the port error; after a soft reset none of these (R530). -/
def cmdError (n r : Nat) (c : RowCmd) (cause : Nat) (s : State) : State :=
  if c.reset then s
  else
    let s := setRowPort n r { rowPort s n r with err := true } s
    portError n (if c.far then 4 else r) (cmdHandle c.word) cause (itemErrored n (cmdHandle c.word) cause s)

/-- Remove command `i` of a row port. -/
def dropCmd (n r i : Nat) (s : State) : State :=
  let p := rowPort s n r
  setRowPort n r { p with cmds := p.cmds.eraseIdx i } s

/-- A command that a soft reset did not cancel is still ahead of a row command that the basin accepted after it for the same bank
(R530). -/
def behindReset (s : State) (n : Nat) (c : RowCmd) : Bool :=
  !c.far && !c.reset && (List.range 4).any fun q => (rowPort s n q).cmds.any fun d => d.reset && !d.far && cmdBank d.word = cmdBank c.word

/-- Command `i` of a row port may complete now (R159, R161, R172, R327, R530): it was not accepted in the present cycle, no fence holds it,
every earlier command that it is ordered after has completed, and its bank is awake. -/
def mayComplete (s : State) (n r i : Nat) : Option RowCmd :=
  let p := rowPort s n r
  (p.cmds[i]?).filter fun c =>
    !(p.fresh && i + 1 = p.cmds.length) && !fenceHolds s n r c.seq
      && (p.cmds.take i).all (fun d => unordered d.kind.toNat c.kind.toNat d.word c.word)
      && (c.far || c.fault.isSome || bankAwake s (cmdBank c.word)) && !behindReset s n c

/-- Replace 64-byte stage line `l`. -/
def putLine (stage : BitVec 8192) (l : Nat) (v : BitVec 512) : BitVec 8192 := setFld stage (512 * l) 512 v.toNat

/-- Free values in the stage lines that two unordered commands change (R159). -/
def raceLines (mask : BitVec 16) (stage : BitVec 8192) (s : State) : BitVec 8192 × State :=
  (List.range 16).foldl (fun (a : BitVec 8192 × State) l =>
    if bit mask l then
      let f := takeFree 512 a.2
      (putLine a.1 l f.1, f.2)
    else a) (stage, s)

/-- The stage after a READ_ROW (R158, R162): the row, but for uncorrectable codewords, whose bytes stay. -/
def readStage (s : State) (bank row : Nat) (old : BitVec 8192) : BitVec 8192 :=
  let r := rowData s bank row
  r.2.foldl (fun st w => setFld st (64 * w) 64 (fld old (64 * w) 64)) r.1

/-- A READ_ROW completes (R158, R162, R319, R530). -/
def endReadRow (n r : Nat) (c : RowCmd) (s : State) : State :=
  match c.fault with
  | some f => cmdError n r c f.toNat s
  | none =>
    let bank := cmdBank c.word
    let row := cmdRow c.word
    let bad := (rowData s bank row).2 ≠ []
    let new := readStage s bank row (rowPort s n r).stage
    let s := rowLog bank row s
    if c.reset then s
    else
      let q := raceLines c.race new s
      let s := setRowPort n r { rowPort q.2 n r with stage := q.1 } q.2
      if bad then cmdError n r c 0x0903 s else s

/-- A WRITE_ROW completes (R158, R530): the stage of its acceptance is in the row. -/
def endWriteRow (n r : Nat) (c : RowCmd) (s : State) : State :=
  match c.fault with
  | some f => cmdError n r c f.toNat s
  | none => rowWrite (cmdBank c.word) (cmdRow c.word) (BitVec.allOnes 1024) c.data s

-- Outlets

/-- The strip crystals of an outlet port (R147). -/
def outCrystals (port : Nat) : List Nat := (List.range 8).map fun c => xAt (if port = 0 then 7 else 15) 3 c

/-- The controlling crystal of an outlet and the kind of its beat in the present cycle (R165): the lowest strip crystal with CMD_EN in
a cycle that is not quiet. -/
def outBeat (s : State) (n port : Nat) : Option Nat :=
  match (outCrystals port).find? fun x =>
      let p := planOf s n x
      !p.quiet && fld p.bits 2212 3 = 2 && bit p.bits 2215 with
  | none => none
  | some x => controlKind s n x 2

/-- Word `k` of the beat that an outlet takes (R165). -/
def outWord (s : State) (n port k : Nat) : Word := (crystalOf s (xk n (xAt (if port = 0 then 7 else 15) 3 k))).out

/-- The 512 bits of the beat. -/
def outBits (s : State) (n port : Nat) : BitVec 512 :=
  BitVec.ofNat 512 ((List.range 8).foldl (fun a k => a + (outWord s n port k).toNat * 2 ^ (64 * k)) 0)

/-- The stored payload bytes of an output (R166): its beats up to LENGTH, and whole beats beyond. -/
def storedBytes (o : Output) : Nat :=
  let want := (o.len + 63) / 64
  if o.beats.length ≤ want then min (64 * o.beats.length) o.len else o.len + 64 * (o.beats.length - want)

/-- The port number of an outlet in BSN_PORT_ERR. -/
def outPortNo (port : Nat) : Nat := 5 + port

/-- Close the open output of an outlet port (R166): a wrong number of payload beats makes its item errored. The port error names the handle
of the beat that closes it (R170). -/
def closeOutput (n port : Nat) (h : BitVec 20) (s : State) : State :=
  match openItem s n port with
  | none => s
  | some i =>
    let wrong := i.outs.any fun o => o.opened && o.port = port && o.beats.length ≠ (o.len + 63) / 64
    let s := updItem n i.handle (fun j => { j with outs := j.outs.map fun o =>
      if o.port = port then { o with opened := false } else o }) s
    if wrong then portError n (outPortNo port) h 0x0555 (itemErrored n i.handle 0x0555 s) else s

/-- A beat was taken on an outlet port: PR0 and PR1 of the cycle are kept. -/
def markOut (n port : Nat) (pred : BitVec 2) (s : State) : State :=
  let b := basinOf s n
  setBasin n (if port = 0 then { b with taken0 := some pred } else { b with taken1 := some pred }) s

/-- The outlet takes a beat of the given kind in the present cycle; nothing where none is there, at the basin's border (R309), or where
the port has taken one, or no cycle runs (R119, R471). -/
def takeBeat (n port kind : Nat) (f : State → State) (s : State) : State :=
  let b := basinOf s n
  if (if port = 0 then b.taken0 else b.taken1).isSome || basinStill s n || atBorder s n || outBeat s n port ≠ some kind then s
  else markOut n port (outPred s n port) (f s)

/-- The item that a DESCRIPTOR, COMMIT or ABORT beat may act on (R167). -/
def beatItem (s : State) (n : Nat) (h : BitVec 20) : Option Flight := (findItem s n h).filter fun i => i.ended.isNone

/-- Drop a beat that names no item (R167). -/
def dropBeat (n port : Nat) (h : BitVec 20) (s : State) : State := portError n (outPortNo port) h 0x0556 s

/-- The output that a DESCRIPTOR beat opens (R165). -/
def outputOf (port : Nat) (w0 w1 w2 w3 : Word) : Output :=
  { port := port, opened := true, dest := bit w0 20, partner := BitVec.ofNat 12 (fld w0 24 12), cls := BitVec.ofNat 3 (fld w0 21 3),
    flow := BitVec.ofNat 16 (fld w0 36 16), mtag := BitVec.ofNat 32 (fld w1 32 32), delay := BitVec.ofNat 32 (fld w2 0 32),
    meta0 := w3, len := fld w1 0 13, beats := [] }

/-- An outlet DESCRIPTOR beat (R165 to R167). -/
def outDescriptor (n port : Nat) (s : State) : State :=
  let w0 := outWord s n port 0
  let h := BitVec.ofNat 20 (fld w0 0 20)
  let o := outputOf port w0 (outWord s n port 1) (outWord s n port 2) (outWord s n port 3)
  match beatItem s n h with
  | none => dropBeat n port h s
  | some _ =>
    let s := closeOutput n port h s
    let outs := match findItem s n h with
      | some i => i.outs
      | none => []
    let s := updItem n h (fun i => { i with outs := i.outs ++ [o] }) s
    if 4 ≤ outs.length || 4096 < (outs.map (·.len)).sum + o.len then
      portError n (outPortNo port) h 0x0554 (itemErrored n h 0x0554 s)
    else s

/-- An outlet PAYLOAD beat (R166, R167). -/
def outPayload (n port : Nat) (s : State) : State :=
  match openItem s n port with
  | none => portError n (outPortNo port) 0 0x0557 s
  | some i =>
    let v := outBits s n port
    let s := updItem n i.handle (fun j => { j with outs := j.outs.map fun o =>
      if o.opened && o.port = port then { o with beats := o.beats ++ [v] } else o }) s
    let total : Nat := match findItem s n i.handle with
      | some j => (j.outs.map storedBytes).sum
      | none => 0
    if 4096 < total then portError n (outPortNo port) i.handle 0x0554 (itemErrored n i.handle 0x0554 s) else s

/-- An outlet COMMIT or ABORT beat (R166 to R168): the output of the port closes, and the item waits for its commit point; a COMMIT of
a group with COMMIT_FENCE posts the implicit fence. -/
def outEnd (n port : Nat) (commit : Bool) (s : State) : State :=
  let h := BitVec.ofNat 20 (fld (outWord s n port 0) 0 20)
  match beatItem s n h with
  | none => dropBeat n port h s
  | some i =>
    let s := closeOutput n port h s
    let fence := if commit && bit (groupW s i.group.toNat 0) 0 then some (newFence s 2) else none
    let k := s.fab.seq
    updItem n h (fun j => { j with ended := some commit, endSeq := k, fence := fence }) (withFab (fun g => { g with seq := k + 1 }) s)

-- Intake

/-- Payload beats of a pushed item from its bytes (R152). -/
def payloadBeats (bs : List Byte) : List Beat :=
  let k := (bs.length + 63) / 64
  (List.range k).map fun i => ⟨ofBytes 512 ((bs.drop (64 * i)).take 64), false, i + 1 = k⟩

/-- The descriptor beat and payload beats of a delivery (R152, R154, R194): an uncorrectable payload codeword is delivered as 0, logged,
and makes the item errored; a payload that D4's reset cut off is delivered as 0 with DIE_RESET (R441). -/
def fillDelivery (d : Delivery) (s : State) : Delivery × State :=
  match d.beats with
  | [] => (d, s)
  | b :: _ =>
    let len := fld b.words 32 13
    if fld b.words 4 2 = 0 && 0 < len then
      if dieInReset s 4 || d.error = some 0x0201 then
        ({ d with beats := ⟨b.words, true, false⟩ :: payloadBeats (List.replicate len 0), error := some 0x0201 }, s)
      else
      let r := readBytes s d.bank.toNat d.row.toNat len
      ({ d with beats := ⟨b.words, true, false⟩ :: payloadBeats r.1
                error := if r.2 then some 0x0903 else d.error }, logRows d.bank.toNat d.row.toNat len s)
    else ({ d with beats := [⟨b.words, true, true⟩] }, s)

/-- The first delivery on its way to a port. -/
def nextTransit (s : State) (n port : Nat) : Option (Nat × Delivery) :=
  (s.slu.transit.zipIdx.find? fun t => t.1.1 = n && t.1.2.1 = port).map fun t => (t.2, t.1.2.2)

/-- The item in flight that an accepted delivery becomes (R155). -/
def flightOf (port : Nat) (d : Delivery) : Flight :=
  { port := port, handle := d.handle, tag := d.tag, group := d.group, bank := d.bank, row := d.row, rows := d.rows,
    len := match d.beats with
      | b :: _ => fld b.words 32 13
      | [] => 0
    service := d.service, error := d.error, ended := none, endSeq := 0, fence := none, bound := true, outs := [] }

/-- An intake port may accept its first waiting descriptor beat but for the other port (R107, R118, R121, R155, R425, R441). -/
def portReady (s : State) (n port : Nat) (d : Delivery) : Bool :=
  let b := basinOf s n
  let i := intakeOf b port
  i.beat.isNone && i.rest.isEmpty && !haltBit s n && b.items.length < 16 && !b.stopped && !basinStill s n
    && !dieInReset s (if port = 0 then 1 else 3)
    && (b.mode || b.fixedCtx = some d.tag || b.items.isEmpty)

/-- An intake port may accept its first waiting descriptor beat: in fixed mode IN_1 holds a beat while IN_0 may accept one with another
tag (R107). -/
def mayAccept (s : State) (n port : Nat) (d : Delivery) : Bool :=
  portReady s n port d && ((basinOf s n).mode || port = 0 || match (basinOf s n).in0.waiting with
    | [] => true
    | e :: _ => e.tag = d.tag || !portReady s n 0 e)

end Sys2Proof.Machine
end

