-- ==== Sys2Proof/Machine/Ports.lean ====
section
/-! DEFINITION. The commands of a basin's ports, but for the far transfers and the commit point (06). -/

namespace Sys2Proof.Machine

/-- DESCRIPTOR_BEAT_DELIVERY (R194): the first descriptor beat on its way reaches the port, with the payload beats that follow it;
not while the payload's bank is waking. -/
def execDescriptorBeatDelivery (basin port : Nat) (s : State) : Host.Outcome State Fault Refusal :=
  .next (match nextTransit s basin port with
    | none => s
    | some (i, d) =>
      let s := bankTouch d.bank.toNat s
      if !bankAwake s d.bank.toNat then s
      else
        let r := fillDelivery d s
        let s := withSlu (fun u => { u with transit := u.transit.eraseIdx i }) r.2
        let b := basinOf s basin
        let q := intakeOf b port
        setBasin basin (setIntake b port { q with waiting := q.waiting ++ [r.1] }) s)

/-- DESCRIPTOR_BEAT_ACCEPT (R155, R106, R107): the item is in flight, bound to a staging slot, and its descriptor beat is presented;
in fixed mode FIXED_CTX takes its tag. -/
def execDescriptorBeatAccept (basin port : Nat) (s : State) : Host.Outcome State Fault Refusal :=
  let b := basinOf s basin
  let q := intakeOf b port
  .next (match q.waiting with
    | [] => s
    | d :: rest =>
      if !mayAccept s basin port d then s
      else
        let q' : Intake := { waiting := rest, beat := d.beats.head?, rest := d.beats.tail, tag := some d.tag }
        let b := setIntake b port q'
        setBasin basin { b with items := b.items ++ [flightOf port d], fixedCtx := if b.mode then b.fixedCtx else some d.tag } s)

/-- READ_ROW (R156, R157). -/
def execReadRow (basin row : Nat) (s : State) : Host.Outcome State Fault Refusal := .next (issueRow basin row 0 s)
/-- WRITE_ROW (R156, R157). -/
def execWriteRow (basin row : Nat) (s : State) : Host.Outcome State Fault Refusal := .next (issueRow basin row 1 s)
/-- FAR_READ (R156, R157). -/
def execFarRead (basin row : Nat) (s : State) : Host.Outcome State Fault Refusal := .next (issueRow basin row 2 s)
/-- FAR_WRITE (R156, R157). -/
def execFarWrite (basin row : Nat) (s : State) : Host.Outcome State Fault Refusal := .next (issueRow basin row 3 s)

/-- READ_ROW_COMPLETE (R158). -/
def execReadRowComplete (basin row index : Nat) (s : State) : Host.Outcome State Fault Refusal :=
  .next (match mayComplete s basin row index with
    | some c => if c.kind = 0 then endReadRow basin row c (dropCmd basin row index s) else s
    | none => s)

/-- WRITE_ROW_COMPLETE (R158). -/
def execWriteRowComplete (basin row index : Nat) (s : State) : Host.Outcome State Fault Refusal :=
  .next (match mayComplete s basin row index with
    | some c => if c.kind = 1 then endWriteRow basin row c (dropCmd basin row index s) else s
    | none => s)

/-- OUTLET_DESCRIPTOR (R165, R166). -/
def execOutletDescriptor (basin port : Nat) (s : State) : Host.Outcome State Fault Refusal :=
  .next (takeBeat basin port 0 (outDescriptor basin port) s)
/-- OUTLET_PAYLOAD (R166). -/
def execOutletPayload (basin port : Nat) (s : State) : Host.Outcome State Fault Refusal :=
  .next (takeBeat basin port 1 (outPayload basin port) s)
/-- COMMIT (R168). -/
def execCommit (basin port : Nat) (s : State) : Host.Outcome State Fault Refusal :=
  .next (takeBeat basin port 2 (outEnd basin port true) s)
/-- ABORT (R168). -/
def execAbort (basin port : Nat) (s : State) : Host.Outcome State Fault Refusal :=
  .next (takeBeat basin port 3 (outEnd basin port false) s)

/-- The accesses that a fence of a port covers are complete (R172, R173): the commands of its issuers accepted in or before its cycle; for
SYSTEM, also every flit of VC 0 and 1 that each Enrus port had taken by then is acknowledged (log entry 124). -/
def fenceDone (s : State) (n q : Nat) (f : Fence) : Bool :=
  let rows := if f.scope = 0 then (if 4 ≤ q then [q - 4] else []) else [0, 1, 2, 3]
  rows.all (fun r => (rowPort s n r).cmds.all fun c => f.limit s ≤ c.seq)
    && (f.scope ≠ 3 || (List.range 14).all fun i => f.marks.getD i 0 ≤ (chan (enrPort s (i / 2)) (i % 2)).acks)

/-- FENCE_COMPLETE (R151, R172). -/
def execFenceComplete (basin port : Nat) (s : State) : Host.Outcome State Fault Refusal :=
  .next (match fencesOf s basin port with
    | [] => s
    | f :: rest => if fenceDone s basin port f then setFences basin port rest s else s)

end Sys2Proof.Machine
end

