-- ==== Sys2Proof/Machine/Far.lean ====
section
/-! DEFINITION. The completion of the far commands of row ports (06). -/

namespace Sys2Proof.Machine

/-- Command `i` of a row port may move its next line: the far port keeps the order of acceptance over its four row ports (R161). -/
def mayMove (s : State) (n r i : Nat) : Option RowCmd :=
  (mayComplete s n r i).filter fun c =>
    (List.range 4).all fun q => (rowPort s n q).cmds.all fun d => !d.far || c.seq ≤ d.seq

/-- The DPA of line `k` of a far command. -/
def farDpa (c : RowCmd) (k : Nat) : Nat := 64 * (cmdLine c.word + k)

/-- One line of a far command is done; the command leaves after its last, in error if one of its lines failed: with the cause of the
first that did (R162). -/
def lineDone (n r i : Nat) (c : RowCmd) (s : State) : State :=
  if c.done + 1 < cmdLines c.word then
    let p := rowPort s n r
    setRowPort n r { p with cmds := p.cmds.set i { c with done := c.done + 1 } } s
  else
    let s := dropCmd n r i s
    match c.failed with
    | some x => cmdError n r c x.toNat s
    | none => s

/-- A far command of which a line failed. -/
def RowCmd.fail (c : RowCmd) (cause : Nat) : RowCmd := { c with failed := some (c.failed.getD (BitVec.ofNat 16 cause)) }

/-- A line that a FAR_READ brought is put into the stage (R158); stage bytes that an unordered command also changes are free (R159). -/
def stageLine (n r : Nat) (c : RowCmd) (v : BitVec 512) (s : State) : State :=
  if c.reset then s
  else
    let l := cmdStageLine c.word + c.done
    let a := if bit c.race l then takeFree 512 s else (v, s)
    let p := rowPort a.2 n r
    setRowPort n r { p with stage := putLine p.stage l a.1 } a.2

/-- FAR_READ_LINE (R158, R161, R162, R339, R530): the next line of a FAR_READ arrives. -/
def execFarReadLine (basin row index : Nat) (s : State) : Host.Outcome State Fault Refusal :=
  .next (match mayMove s basin row index with
    | none => s
    | some c =>
      if c.kind ≠ 2 then s
      else match c.fault with
        | some f => cmdError basin row c f.toNat (dropCmd basin row index s)
        | none => match dramRead srcFar (farDpa c c.done) s with
          | (.ok v, t) => lineDone basin row index c (stageLine basin row c v t)
          | (.err x, t) => lineDone basin row index (c.fail x) t
          | (.refused x, t) => lineDone basin row index (c.fail x) t
          | (.wait, t) => t)

/-- Stage line `l` of a stage. -/
def lineOf (stage : BitVec 8192) (l : Nat) : BitVec 512 := BitVec.ofNat 512 (fld stage (512 * l) 512)

/-- FAR_WRITE_COMPLETE (R158, R161, R162, R371, R530): the lines of a FAR_WRITE go to DRAM as they stood at acceptance; a line whose page
is being re-encrypted waits, and the command with it. -/
def farWriteLines (n r i : Nat) (c : RowCmd) : Nat → State → State
  | 0, s => s
  | k + 1, s =>
    let d := cmdLines c.word - (k + 1)
    if d < c.done then farWriteLines n r i c k s
    else
      let v := lineOf c.data (cmdStageLine c.word + d)
      match dramWrite srcFar (farDpa c d) (BitVec.allOnes 64) v s with
      | (.ok _, t) => farWriteLines n r i c k (lineDone n r i { c with done := d } t)
      | (.err x, t) => farWriteLines n r i (c.fail x) k (lineDone n r i { c.fail x with done := d } t)
      | (.refused x, t) => farWriteLines n r i (c.fail x) k (lineDone n r i { c.fail x with done := d } t)
      | (.wait, t) => t

/-- FAR_WRITE_COMPLETE. -/
def execFarWriteComplete (basin row index : Nat) (s : State) : Host.Outcome State Fault Refusal :=
  .next (match mayMove s basin row index with
    | none => s
    | some c =>
      if c.kind ≠ 3 then s
      else match c.fault with
        | some f => cmdError basin row c f.toNat (dropCmd basin row index s)
        | none => farWriteLines basin row index c (cmdLines c.word) s)

end Sys2Proof.Machine
end

