-- ==== Sys2Proof/Machine/Resource.lean ====
section
/-! DEFINITION. Shared resources: claims, conflicts and releases (R496, R497). -/

namespace Sys2Proof.Machine

/-- The holder of a resource (R496). -/
def holderOf (s : State) (r : Nat) : Option Nat := (s.hst.holders.find? fun h => h.1.toNat = r).map (·.2)

/-- A claim refused for a held resource (R497). -/
def conflict (r p holder : Nat) (s : State) : State :=
  let s := wr (errA p) 0x0F03 (wrF (statA p) 3 1 1 s)
  let s := if rdB s 0x04C 31 then wrF 0x04C 30 1 1 s
    else wr 0x050 (BitVec.ofNat 32 (p + holder * 2 ^ 16)) (wr 0x04C (BitVec.ofNat 32 (2 ^ 31 + r % 65536)) s)
  setIrq pgSYS 0 s

/-- A page claims a resource (R496, R497): the state, and whether the page holds it. -/
def claim (r p : Nat) (s : State) : State × Bool :=
  match holderOf s r with
  | none => (withHst (fun h => { h with holders := h.holders ++ [(BitVec.ofNat 16 r, p)] }) s, true)
  | some h => if h = p then (s, true) else (conflict r p h s, false)

/-- A page releases a resource (R496). -/
def release (r p : Nat) (s : State) : State :=
  withHst (fun h => { h with holders := h.holders.filter fun x => !(x.1.toNat = r && x.2 = p) }) s

/-- A page claims several resources, all or none: the first that is held elsewhere refuses the enable. -/
def claimAll (rs : List Nat) (p : Nat) (s : State) : State × Bool :=
  match rs.findSome? fun r => (holderOf s r).bind fun h => if h = p then none else some (r, h) with
  | some (r, h) => (conflict r p h s, false)
  | none => (rs.foldl (fun t r => (claim r p t).1) s, true)

end Sys2Proof.Machine
end

