-- ==== Sys2Proof/Machine/HdmaOps.lean ====
section
/-! DEFINITION. The shared operations of the host DMA channels (19). -/

namespace Sys2Proof.Machine

/-- A register of channel `c` (R502). -/
def hdmaA (c o : Nat) : Nat := at' pgHDMA (0x100 + 0x40 * c + o)
/-- EN of a channel. -/
def hdmaEn (s : State) (c : Nat) : Bool := rdB s (hdmaA c 0) 31
/-- KIND of a channel. -/
def hdmaKind (s : State) (c : Nat) : Nat := rdF s (hdmaA c 0) 0 3
/-- The descriptors of a channel's ring. -/
def hdmaSize (s : State) (c : Nat) : Nat := 2 ^ rdF s (hdmaA c 0) 16 4
/-- HALTED of a channel. -/
def hdmaHalted (s : State) (c : Nat) : Bool := rdB s (hdmaA c 0x14) 31

/-- TAIL of ring A or, of channel 15, of ring B (R499, R501). -/
def ringTailA (c : Nat) (b : Bool) : Nat := hdmaA c (if b then 0x24 else 0x0C)
/-- HEAD of a ring. -/
def ringHdA (c : Nat) (b : Bool) : Nat := hdmaA c (if b then 0x28 else 0x10)
/-- The base of a ring. -/
def ringBase (s : State) (c : Nat) (b : Bool) : Nat :=
  (rd s (hdmaA c (if b then 0x1C else 4))).toNat + (rd s (hdmaA c (if b then 0x20 else 8))).toNat * 2 ^ 32
/-- HEAD of a ring as an index into it. -/
def ringHd (s : State) (c : Nat) (b : Bool) : Nat := rdF s (ringHdA c b) 0 16 % hdmaSize s c
/-- A descriptor waits in a ring (R499). -/
def ringWaiting (s : State) (c : Nat) (b : Bool) : Bool := ringHd s c b ≠ rdF s (ringTailA c b) 0 16 % hdmaSize s c

/-- The host address of word 3 of the descriptor at HEAD (R499). -/
def ringWord3 (s : State) (c : Nat) (b : Bool) : Nat := ringBase s c b + 32 * ringHd s c b + 24

/-- Write word 3 of the descriptor at HEAD: DONE, a cause, a count (R499). -/
def ringFinish (c : Nat) (b : Bool) (cause count : Nat) (s : State) : State :=
  let v : Word := BitVec.ofNat 64 (count % 2 ^ 32 + cause % 2 ^ 16 * 2 ^ 32 + 2 ^ 63)
  send (.hostWrite (ringWord3 s c b) (toBytes 8 v)) s

/-- HEAD goes to the next descriptor. -/
def ringAdvance (c : Nat) (b : Bool) (s : State) : State := wrF (ringHdA c b) 0 16 ((ringHd s c b + 1) % hdmaSize s c) s

/-- A channel halts at a ring with a cause (R502): word 3 of the descriptor it stands at, HDMA_STAT, its interrupt bit 1. -/
def ringHalt (c : Nat) (b : Bool) (cause count : Nat) (s : State) : State :=
  let s := if ringWaiting s c b then ringFinish c b cause count s else s
  let s := if c = 15 then withHst (fun h => { h with rxHalt := b }) s else s
  setChIrq c 1 (wr (hdmaA c 0x14) (BitVec.ofNat 32 (2 ^ 31 + cause % 65536)) s)

/-- A channel halts at ring A. -/
def hdmaHalt (c cause count : Nat) (s : State) : State := ringHalt c false cause count s

/-- The enabled channels among the first `n` halt with a cause (R437, R483, R502); one that is halted keeps its cause. -/
def hdmaHaltAll (n cause : Nat) (s : State) : State :=
  (List.range n).foldl (fun t c => if hdmaEn t c && !hdmaHalted t c then hdmaHalt c cause 0 t else t) s

/-- A channel may run a ring: enabled, not halted, its clock not stopped; LIFELINE in EMBER only, the others not in EMBER; none in D3hot,
SEALED or DORMANT, nor while a warm reset is in progress (R402, R440, R483, R501, R502). -/
def hdmaActive (s : State) (c : Nat) : Bool :=
  hdmaEn s c && !hdmaHalted s c && !s.hst.d3 && !rdB s (statA pgHDMA) 6 && reaches s pgHDMA && s.mod.step ≠ .warmReset
    && ((hdmaKind s c = 5) == (modeOf s = mEMBER))

/-- A channel runs: a descriptor of a ring of it waits. -/
def hdmaRuns (s : State) (c : Nat) : Bool := hdmaActive s c && (ringWaiting s c false || (c = 15 && ringWaiting s c true))

/-- The registers of the HDMA page at reset, its claims and interrupt bits gone, its records dropped (R483, R489). -/
def hdmaEngineReset (s : State) : State :=
  let s := { s with regs := s.regs.filter fun r => !(r.1 / 0x1000 = pgHDMA && 0x40 ≤ r.1 % 0x1000) }
  { withHst (fun h => { h with holders := h.holders.filter fun x => decide (x.2 ≠ pgHDMA), chIrq := 0, rxHalt := false }) s with
    lan := { s.lan with lifeIn := [], lifeOut := [] } }

/-- A register of the endpoint: HIF_APERTURE and the MSI-X table (R483, R486, R505). -/
def endpointReg (a : Nat) : Bool := a / 0x1000 = pgHIF && (a % 0x1000 = 0x44 || 0x800 ≤ a % 0x1000)

/-- PCIE_PERST_N or a Function Level Reset (R483): the endpoint and the host DMA engine return to reset. -/
def hdmaReset (s : State) : State :=
  let s := hdmaEngineReset s
  let s := { s with mem := { s.mem with host := s.mem.host.filter fun q => match q with
    | .read _ _ => false
    | .write _ _ => true } }
  withHst (fun h => { h with d3 := false, msixMask := HostIf.zero.msixMask, msixPend := 0 })
    { s with regs := s.regs.filter fun r => !endpointReg r.1 }

end Sys2Proof.Machine
end

