-- ==== Sys2Proof/Machine/OtpOps.lean ====
section
/-! DEFINITION. The resolution of the OTP and what other chapters read from it (14). -/

namespace Sys2Proof.Machine

/-- Base word and data words of a block (R388). -/
def otpBlock (b : Nat) : Nat × Nat :=
  match b with
  | 0 => (0x000, 16)
  | 1 => (0x048, 10)
  | 2 => (0x078, 34)
  | 3 => (0x108, 4)
  | 4 => (0x120, 10)
  | 5 => (0x150, 1)
  | 6 => (0x15C, 24)
  | 7 => (0x1C4, 1)
  | 8 => (0x1D0, 6)
  | _ => (0x1F0, 2)

/-- The first word of generation `g` of block `b` (R388). -/
def genBase (b g : Nat) : Nat := (otpBlock b).1 + g * ((otpBlock b).2 + 2)
/-- The data words of a generation. -/
def genWords (b g : Nat) : List Nat := (List.range (otpBlock b).2).map fun k => genBase b g + 1 + k
/-- The void word of a generation. -/
def genVoid (b g : Nat) : Nat := genBase b g + (otpBlock b).2 + 1

/-- The decoded data of an OTP word. -/
def otpWord (s : State) (w : Nat) : Word := (decodedData (otpRead s w)).getD 0

/-- The CRC-32 of words, each as 8 bytes little-endian (R84, R390). -/
def wordsCrc (ws : List Word) : Nat := 2 ^ 32 - 1 - crcRun 0 (2 ^ 32 - 1) (ws.flatMap (toBytes 8))

/-- The header that a generation with the given data words has (R390). -/
def genHeader (b g : Nat) (ws : List Word) : Word := BitVec.ofNat 64 (wordsCrc ws + g % 4 * 2 ^ 38 + b % 256 * 2 ^ 40 + 0x4745 * 2 ^ 48)

/-- A generation is check-valid (R390). -/
def genValid (s : State) (b g : Nat) : Bool :=
  ((genBase b g :: genWords b g).all fun w => (decodedData (otpRead s w)).isSome)
    && otpWord s (genBase b g) = genHeader b g ((genWords b g).map (otpWord s))

/-- A generation is voided (R390). -/
def genVoided (s : State) (b g : Nat) : Bool := !otpBlank s (genVoid b g)

/-- A word of a generation is programmed. -/
def genUsed (s : State) (b g : Nat) : Bool := (genBase b g :: genWords b g).any fun w => !otpBlank s w

/-- The generation that a block resolves to (R391). -/
def resolveGen (s : State) (b : Nat) : Option Nat := [3, 2, 1, 0].find? fun g => genValid s b g && !genVoided s b g

/-- The generation in force of a block, as OTP_RESOLVED holds it (R391, R405). -/
def otpGen (s : State) (b : Nat) : Option Nat :=
  if rdB s (at' pgOTP 0x44) (3 * b + 2) then some (rdF s (at' pgOTP 0x44) (3 * b) 2) else none

/-- What OTP_READ, the state hash and the seal log give for an OTP word: a free value where it is uncorrectable (log entry 342). -/
def otpSeen (s : State) (w : Nat) : Word := (decodedData (otpRead s w)).getD (Config.otpUnread (otpCode s w))

/-- Data word `k`, from 1, of a block's generation in force; `d` where none resolves. -/
def otpData (s : State) (b k : Nat) (d : Word) : Word :=
  match otpGen s b with
  | some g => otpWord s (genBase b g + k)
  | none => d

/-- The burned steps of the version thermometer (R391). -/
def versionCount (s : State) : Nat :=
  (List.range 256).foldl (fun (n : Nat) i => if otpBlank s (0x300 + i) then n else i + 1) 0

/-- The version count in force (R392): a VERSION command acts from its end. -/
def versionNow (s : State) : Nat := (s.sec.job.bind fun j => j.version).getD (versionCount s)

/-- The used entries of the seal log. -/
def sealCount (s : State) : Nat := ((List.range 64).filter fun e => !otpBlank s (0x2C0 + e)).length

/-- The hash of signer slot `k` as bytes (R389). -/
def signerHash (s : State) (k : Nat) : List Byte := (List.range 6).flatMap fun i => toBytes 8 (otpData s 6 (6 * k + 1 + i) 0)
/-- A signer slot holds a hash (R389). -/
def signerSet (s : State) (k : Nat) : Bool := (signerHash s k).any fun b => decide (b ≠ 0)
/-- A slot is revoked in any check-valid generation (R391). -/
def signerRevoked (s : State) (k : Nat) : Bool :=
  (List.range 4).any fun g => genValid s 7 g && bit (otpWord s (genBase 7 g + 1)) k

/-- The Buroskif root hash of IDENT generation 0 (R389). -/
def rootHash (s : State) : BitVec 384 := ofBytes 384 ((List.range 6).flatMap fun i => toBytes 8 (otpWord s (genBase 1 0 + 1 + i)))

/-- IO_FENCE of pin `p`: pull in [1:0], fence in [3:2] (R389). -/
def ioFence (s : State) (p : Nat) : Nat := fld (otpData s 8 (p / 16 + 1) 0) (4 * (p % 16)) 4

/-- The quads to which LANE_DEFAULTS gives the ENRUS role (R218, R389). -/
def roleQuads (s : State) : List Nat := (List.range 36).filter fun q => bit (otpData s 4 1 0) q

/-- The default of transmit tap `k` of the lanes of quad `q` (R221, R389): of the tap set that LANE_DEFAULTS names, or the built-in taps. -/
def defaultTap (s : State) (q k : Nat) : BitVec 8 :=
  let sets := (otpData s 4 3 0).toNat + (otpData s 4 4 0).toNat * 2 ^ 64
  let set := if (otpGen s 4).isSome then sets / 2 ^ (3 * q) % 8 else 7
  if set < 6 then BitVec.ofNat 8 (fld (otpData s 4 (5 + set) 0) (8 * k) 8) else Config.builtinTap k

/-- The reset value of a register, where the OTP gives it the value that bring-up loads (R143, R218, R221, R260, R391, R456, R522), or the fused grade (R426). -/
def otpReset (s : State) (a : Nat) : Reg :=
  let p := a / 0x1000
  let o := a % 0x1000
  let d := regReset a
  match pageType p with
  | 3 => if o = 0x4C && gradeS2 s then 28 else d
  | 5 => if o = 0x44 && (otpGen s 9).isSome then BitVec.ofNat 32 (fld (otpData s 9 1 0) 0 24) else d
  | 8 => if 0x200 ≤ o && o < 0x220 && (otpGen s 3).isSome then
      let k := (o - 0x200) / 4
      definedBits a (BitVec.ofNat 32 (fld (otpData s 3 (k / 2 + 1) 0) (32 * (k % 2)) 32)) else d
  | 18 => if 0x100 ≤ o && o < 0x160 then
      let f := ioFence s (24 * (p - 0x11) + (o - 0x100) / 4) % 4
      setFld d 25 2 (if f = 3 then 0 else f) else d
  | 20 => if o = 0x40 && (roleQuads s).contains (p - 0x20) then setFld d 0 1 1
    else if 0x800 ≤ o && o % 0x200 < 0x18 && o % 4 = 0 then (defaultTap s (p - 0x20) (o % 0x200 / 4)).zeroExtend 32
    else d
  | 21 => if o = 0x40 then
      match (roleQuads s)[p - 0x50]? with
      | some q => setFld (setFld d 0 1 1) 1 6 q
      | none => d
    else d
  | _ => d

/-- The registers of a page whose reset value the OTP or the grade may give. -/
def otpLoaded (p : Nat) : List Nat :=
  match pageType p with
  | 3 => [0x1000 * p + 0x4C]
  | 5 => [0x1000 * p + 0x44]
  | 8 => (List.range 8).map fun k => 0x1000 * p + 0x200 + 4 * k
  | 18 => (List.range 24).map fun k => 0x1000 * p + 0x100 + 4 * k
  | 20 => (0x1000 * p + 0x40) :: (List.range 24).map fun k => 0x1000 * p + 0x800 + 0x200 * (k / 6) + 4 * (k % 6)
  | 21 => [0x1000 * p + 0x40]
  | _ => []

/-- Every block-specific register of a page at its reset value (R489). -/
def resetRegs (p : Nat) (s : State) : State :=
  let s := { s with regs := s.regs.filter fun r => !(r.1 / 0x1000 = p && 0x40 ≤ r.1 % 0x1000) }
  (otpLoaded p).foldl (fun t a => wr a (otpReset t a) t) s

/-- The hidden-key words that are set read all ones in the OTP state hash, blank ones 0 (R397). -/
def hashedWord (s : State) (w : Nat) : Word :=
  if 0x200 ≤ w && w < 0x20C then (if otpBlank s w then 0 else BitVec.allOnes 64) else otpSeen s w

/-- The OTP state hash (R397). -/
def otpStateHash (s : State) : BitVec 384 := Config.sha384 ((List.range 1024).flatMap fun w => toBytes 8 (hashedWord s w))

/-- The key pair of the fleet key is programmed and readable (R396). -/
def fleetKey (s : State) : Option (BitVec 256) := if sealed s then none else (usableKey s 0x204).map (ofBe 256)
/-- The board bond (R396). -/
def boardBond (s : State) : Option (List Byte) := if sealed s then none else usableKey s 0x208

/-- SEC_STAT (R405). -/
def secStat (s : State) : Reg :=
  let v := versionNow s
  BitVec.ofNat 32 (b2n (hiddenKey s 0x200).isSome + b2n (otpGen s 6).isSome * 2 + b2n (v = 256) * 4 + b2n (usableKey s 0x204).isSome * 8
    + b2n (usableKey s 0x208).isSome * 16 + b2n s.sec.drbgFail * 32 + b2n s.sec.logFull * 64 + b2n (sealed s) * 128
    + sealCount s * 2 ^ 16 + v * 2 ^ 23)

end Sys2Proof.Machine
end

