-- ==== Sys2Proof/Machine/StreamOps.lean ====
section
/-! DEFINITION. The operations of the stream engines: feeding, the boot store, header checks, early ends, sections (10, 14). -/

namespace Sys2Proof.Machine

/-- Replace the configuration controller's record. -/
def withCfc (u : Cfc → Cfc) (s : State) : State := { s with cfc := u s.cfc }
/-- The page of an engine: ENG_0 in CFG, ENG_1 in IRP (R300). -/
def engPage (e : Bool) : Nat := if e then pgIRP else pgCFG
/-- An engine. -/
def engOf (s : State) (e : Bool) : Engine := if e then s.cfc.eng1 else s.cfc.eng0
/-- Write an engine. -/
def setEng (e : Bool) (g : Engine) (s : State) : State := withCfc (fun c => if e then { c with eng1 := g } else { c with eng0 := g }) s
/-- ENG_STAT of an engine. -/
def engStatA (e : Bool) : Nat := at' (engPage e) 0x44
/-- ENG_BYTES of an engine. -/
def engBytesA (e : Bool) : Nat := at' (engPage e) 0x48
/-- CFG_BOOT_STAT. -/
def bootStatA : Nat := at' pgCFG 0x60
/-- SYS_STAT.READY (R307). -/
def devReady (s : State) : Bool := rdB s 0x040 0
/-- A failed boot (R305). -/
def bootFailed (s : State) : Bool := rdB s bootStatA 14

-- Header fields (R287)

/-- KIND. -/
def hKind (bs : List Byte) : Nat := leField bs 0x10 1
/-- FLAGS. -/
def hFlags (bs : List Byte) : Nat := leField bs 0x12 2
/-- ENCRYPTED. -/
def hEncrypted (bs : List Byte) : Bool := (hFlags bs).testBit 0
/-- TOTAL_LEN. -/
def hTotal (bs : List Byte) : Nat := leField bs 0x1C 4
/-- The slot of a STORE stream: STORE_SLOT. -/
def hSlot (bs : List Byte) : Nat := b2n ((hFlags bs).testBit 2)
/-- RELEASE names each phase exactly once (R287, R295). -/
def releaseOk (r : Nat) : Bool := [1, 2, 3].all fun k => r % 4 = k || r / 4 % 4 = k || r / 16 % 4 = k

/-- Whether bytes of a range are all 0. -/
def zeroBytes (bs : List Byte) (off len : Nat) : Bool := ((bs.drop off).take len).all fun b => b = 0

/-- Step 1 of the header checks (R287, R295). -/
def headerOk (bs : List Byte) : Bool :=
  leField bs 0 4 = 0x5A594E52 && leField bs 4 2 = 1 && leField bs 6 2 = 256
    && zeroBytes bs 0x15 1 && zeroBytes bs 0x20 32 && zeroBytes bs 0x4C 4 && zeroBytes bs 0x8C 20
    && 424 ≤ hTotal bs && 1 ≤ hKind bs && hKind bs ≤ 3 && leField bs 0x11 1 < 4 && hFlags bs < 8
    && (hEncrypted bs || zeroBytes bs 0x40 96)
    && (if hKind bs = 1 then releaseOk (leField bs 0x1A 2 % 64) && leField bs 0x1A 1 < 64 else leField bs 0x1A 2 = 0)

/-- The kind is accepted by the engine now (R300): a STORE stream once BOOT_OK or FAILED says that the boot load has ended. -/
def kindOk (s : State) (e : Bool) (src kind : Nat) : Bool :=
  if e then kind = 2 && devReady s
  else match kind with
    | 1 => s.cfc.boot.any (fun b => b.cur = src && !b.lockWait) || (bootFailed s && s.cfc.boot.isNone && src = 2)
    | 2 => devReady s
    | _ => src = 2 && s.cfc.boot.isNone && (s.cfc.booted || bootFailed s || rdB s bootStatA 10)

/-- The stream key: of an encrypted stream the unwrapped one, where the wrap holds (R288). -/
def streamKey (s : State) (h : List Byte) : Option (BitVec 256) :=
  (fleetKey s).bind fun k =>
    (gcmOpen k ((h.drop 0x40).take 12) (h.take 0x40) ((h.drop 0x50).take 32) ((h.drop 0x70).take 16)).map (ofBe 256)

/-- The first failing header check (R295): none where the header is accepted. -/
def headerCheck (s : State) (e : Bool) (src : Nat) (h : List Byte) : Option Nat :=
  let slot := leField h 0x11 1 % 4
  if !headerOk h then some 0x0401
  else if leField h 8 4 ≠ 0x5860 || !(leField h 0xC 4).testBit 2 then some 0x0402
  else if !(leField h 0x14 1).testBit (devIndex s) then some 0x0403
  else if !kindOk s e src (hKind h) then some 0x0404
  else if !signerSet s slot || signerHash s slot ≠ hashBytes ((h.drop 0xA0).take 96) then some 0x0405
  else if signerRevoked s slot then some 0x0406
  else if leField h 0x18 2 < versionNow s then some 0x0407
  else if hEncrypted h && (fleetKey s).isNone then some 0x0408
  else if hEncrypted h && (streamKey s h).isNone then some 0x0409
  else none

-- Feeding

/-- An engine that begins a stream with the given bytes; what waits for it stays. -/
def openEngine (e : Bool) (src : Nat) (bs : List Byte) (s : State) : State :=
  let g := engOf s e
  wr (engBytesA e) 0 (setEng e { Engine.zero with st := .header, src := src, started := g.started, seen := bs, held := g.held } s)

/-- A boot-store slot waits for ENG_0 (R303). -/
def slotDue (s : State) : Bool := s.cfc.boot.any fun b => (b.failed.isSome && b.rest ≠ []) || (b.cur ≤ 1 && !b.begun)

/-- An engine at the end of a stream: the bytes left over, or those that the host holds back, begin the next (R299, R300). -/
def closeEngine (e : Bool) (rest : List Byte) (s : State) : State :=
  let g := engOf s e
  let s := setEng e { Engine.zero with src := g.src, started := g.started, held := g.held } s
  let s := if e then setBusy pgIRP false s else s
  if rest ≠ [] then
    let s := openEngine e g.src rest s
    setEng e { engOf s e with ended := g.ended } s
  else if g.held ≠ [] && (e || !slotDue s) then
    openEngine e 2 g.held (setEng e { engOf s e with held := [] } s)
  else s

/-- The bytes that an engine holds beyond its stream (R300). -/
def beyond (g : Engine) : List Byte := if g.src ≤ 1 then [] else g.seen.drop (hTotal g.seen)

/-- STAT.BUSY of the IRP page (R314): the 4 KiB input buffer is full. -/
def irpBuffer (s : State) : State :=
  let g := s.cfc.eng1
  setBusy pgIRP (g.src = 4 && g.st = .verify && 4096 ≤ (beyond g).length) s

/-- Bytes for an engine that discards (R299): they count, and bytes past TOTAL_LEN begin a new stream. -/
def discardBytes (e : Bool) (bs : List Byte) (s : State) : State :=
  let g := engOf s e
  match g.left with
  | none => incF (engBytesA e) 0 32 bs.length s
  | some n =>
    if bs.length < n then incF (engBytesA e) 0 32 bs.length (setEng e { g with left := some (n - bs.length) } s)
    else closeEngine e (bs.drop n) (incF (engBytesA e) 0 32 n s)

/-- Bytes that the leader's broadcast takes along from the host feed (R283, R311). -/
def bcastTake (src : Nat) (bs : List Byte) (s : State) : State :=
  match s.enr.bcast with
  | some b =>
    if b.src = src then { s with enr := { s.enr with bcast := some { b with bytes := (b.bytes ++ bs).take b.total } } } else s
  | none => s

/-- Bytes offered to an engine by a source (R296, R299, R300): taken by an idle engine or by the stream that the source has open; those
beyond that stream wait for its end and begin the next; the host waits for a busy engine, a broadcast is discarded. -/
def feedBytes (e : Bool) (src : Nat) (bs : List Byte) (s : State) : State :=
  let g := engOf s e
  let wait (s : State) : State := if src = 2 then setEng e { engOf s e with held := g.held ++ bs } s else s
  if bs = [] then s
  else match g.st with
    | .idle => openEngine e src bs s
    | .header => if g.src = src then bcastTake src bs (setEng e { g with seen := g.seen ++ bs } s) else wait s
    | .sections => if g.src = src then bcastTake src bs (setEng e { g with seen := g.seen ++ bs } s) else wait s
    | .discard => if g.src = src then bcastTake src bs (discardBytes e bs s) else wait s
    | _ =>
      if g.src = src && !g.ended then
        let s := bcastTake src bs (setEng e { g with seen := g.seen ++ bs } s)
        if e then irpBuffer s else s
      else wait s

-- The boot store (R385)

/-- The key of block `b` of a slot. -/
def blockKey (slot b : Nat) : Nat := 8192 * slot + b
/-- The IV of a block (R385): slot, block index, write count. -/
def blockIv (s : State) (slot b : Nat) : List Byte := beNat 1 slot ++ beNat 4 b ++ beNat 7 (tget 0 slot s.cfc.counts)
/-- The data of a block, where its tag holds; an erased block reads 0. -/
def readBlock (s : State) (slot b : Nat) : Option (List Byte) :=
  match storeKey s with
  | none => none
  | some k => match tget none (blockKey slot b) (s.cfc.blocks.map fun q => (q.1, some q.2)) with
    | some v => gcmOpen k (blockIv s slot b) [] v.cipher v.tag
    | none => some (List.replicate 4096 0)
/-- A block as it is stored. -/
def sealBlock (s : State) (slot b : Nat) (bs : List Byte) : StoreBlock :=
  match storeKey s with
  | some k =>
    let c := gcmSeal k (blockIv s slot b) [] (bs ++ List.replicate (4096 - bs.length) 0)
    ⟨c.1, c.2⟩
  | none => ⟨[], []⟩
/-- The damaged codewords of a block. -/
def blockDamage (s : State) (slot b : Nat) : List (Nat × BitVec 8 × Bool) :=
  s.cfc.storeBad.filter fun d => 2 ^ 25 * slot + 4096 * b ≤ d.1 && d.1 < 2 ^ 25 * slot + 4096 * (b + 1)
/-- Read a block: its bytes, or the cause with which the read fails (R299, R385); damaged codewords are logged. -/
def touchBlock (slot b : Nat) (s : State) : (List Byte ⊕ Nat) × State :=
  let ds := blockDamage s slot b
  let s := ds.foldl (fun t d => logErr 7 d.1 d.2.1.toNat 0x0415 d.2.2 false t) s
  if ds.any fun d => d.2.2 then (.inr 0x0415, s)
  else match readBlock s slot b with
    | some bs => (.inl bs, s)
    | none => (.inr 0x0C0A, secAlarm 0x0C0A s)
/-- Erase a slot. -/
def eraseSlot (slot : Nat) (s : State) : State :=
  withCfc (fun c => { c with
    blocks := tclear (8192 * slot) (8192 * slot + 8192) c.blocks, valid := tput false slot false c.valid
    storeBad := c.storeBad.filter fun d => decide (d.1 / 2 ^ 25 ≠ slot) }) s
/-- Write an image into a slot (R293, R385). -/
def writeSlot (slot : Nat) (bs : List Byte) (s : State) : State :=
  let n := (bs.length + 4095) / 4096
  withCfc (fun c => { c with blocks := (List.range n).foldl (fun m b =>
    tins (blockKey slot b) (sealBlock s slot b ((bs.drop (4096 * b)).take 4096)) (terase (blockKey slot b) m)) c.blocks }) s
/-- The first four bytes of a slot are MAGIC (R303). -/
def hasImage (s : State) (slot : Nat) : Bool :=
  tget false slot s.cfc.valid && (match readBlock s slot 0 with
    | some bs => leField bs 0 4 = 0x5A594E52
    | none => true)

-- Ends

/-- Record the end of a stream in ENG_STAT and IRQ_STAT (R313, R314). -/
def streamEnd (e : Bool) (cause : Nat) (s : State) : State :=
  setIrq (engPage e) (if cause = 0 then 0 else 1) (wrF (engStatA e) 16 16 cause (wrF (engStatA e) 4 1 (b2n (cause = 0)) s))

/-- A boot source fails (R303): what follows is the boot load's. After a failed boot (R305) the stream's own outcome is all. -/
def bootSourceFailed (e : Bool) (src cause : Nat) (s : State) : State :=
  match s.cfc.boot with
  | some b =>
    if !e && b.cur = src && b.failed.isNone && !b.lockWait then
      withCfc (fun c => { c with boot := if bootFailed s then none else some { b with failed := some cause } }) s
    else s
  | none => s

/-- The planes of a stream that ends without a verified trailer, and its store slot (R299, R312). -/
def dropStream (e : Bool) (cause : Option Nat) (s : State) : State :=
  let g := engOf s e
  let s := g.planes.foldl (fun t q => dropPlane cause q.1 q.2 t) s
  if g.st ≠ .header && hKind g.seen = 3 then eraseSlot (hSlot g.seen) s else s

/-- A stream is refused at its header or ends early (R295, R299): its bytes still to come are discarded unless its source has ended. -/
def endEarly (e : Bool) (cause : Nat) (s : State) : State :=
  let g := engOf s e
  let s := bootSourceFailed e g.src cause (streamEnd e cause (wr (at' (engPage e) 0x50) 0 (dropStream e none s)))
  let usable := 256 ≤ g.seen.length && headerOk g.seen
  let total := hTotal g.seen
  if g.ended || g.src ≤ 1 then closeEngine e [] s
  else if usable && total ≤ g.seen.length then closeEngine e (g.seen.drop total) (wr (engBytesA e) (BitVec.ofNat 32 total) s)
  else
    wr (engBytesA e) (BitVec.ofNat 32 g.seen.length)
      (setEng e { g with st := .discard, seen := [], recs := [], planes := [], key := none, verdict := none, begun := false,
                         left := if usable then some (total - g.seen.length) else none } s)

/-- The whole trailer of a stream has been received (R299). -/
def trailerIn (g : Engine) : Bool := 1 < g.src && 256 ≤ g.seen.length && headerOk g.seen && hTotal g.seen ≤ g.seen.length + 96

/-- The source of an engine's stream ends (R299, R314): the end of a broadcast, a lost port, the command END. -/
def sourceEnds (e : Bool) (s : State) : State :=
  let g := engOf s e
  let g := { g with ended := true, started := false }
  match g.st with
  | .idle => setEng e { g with ended := false } s
  | .discard => closeEngine e [] (setEng e g s)
  | .header => if trailerIn g then setEng e g s else endEarly e 0x040B (setEng e g s)
  | .sections => if trailerIn g then setEng e g s else endEarly e 0x040B (setEng e g s)
  | _ => setEng e g s

/-- Take the bytes of a stream up to `n` from a boot-store slot (R385); `k` bounds the blocks. `false` where a read ended the stream. -/
def pullSlot (n : Nat) : Nat → State → State × Bool
  | 0, s => (s, true)
  | k + 1, s =>
    let g := s.cfc.eng0
    if n ≤ g.seen.length || 6144 ≤ g.seen.length / 4096 then (s, true)
    else match touchBlock g.src (g.seen.length / 4096) s with
      | (.inl bs, s) => pullSlot n k (setEng false { g with seen := g.seen ++ bs } s)
      | (.inr c, s) => (if s.cfc.eng0.st = .idle then s else endEarly false c s, false)

/-- Make an engine hold the first `n` bytes of its stream: a boot-store slot gives them, of another source they are there or still to
come, and where it has ended they never do (R299). -/
def reach (e : Bool) (n : Nat) (s : State) : State × Bool :=
  let g := engOf s e
  if n ≤ g.seen.length then (s, true)
  else if !e && g.src ≤ 1 then
    let r := pullSlot n (n / 4096 + 2) s
    if !r.2 then r
    else if n ≤ r.1.cfc.eng0.seen.length then r
    else (endEarly false 0x040B r.1, false)
  else if g.ended && (g.st = .header || g.st = .sections) then (endEarly e 0x040B s, false)
  else (s, false)

-- Header

/-- The broadcast that a leader's stream asks for (R283, R311). -/
def planBcast (e : Bool) (s : State) : State :=
  let g := engOf s e
  let others := leField g.seen 0x14 1 % 256 - (if (leField g.seen 0x14 1).testBit (devIndex s) then 2 ^ devIndex s else 0)
  if !e && g.src ≤ 2 && rdF s (at' pgENRG 0x40) 3 3 = devIndex s && headerOk g.seen && others ≠ 0 then
    { s with enr := { s.enr with bcast := some ⟨0, BitVec.ofNat 8 others, false, g.src, leField g.seen 0x16 2, hTotal g.seen,
                                                g.seen.take (hTotal g.seen), 0⟩ } }
  else s

/-- The header of a stream is there: the checks of R295 in order, and the stream's sections open or it is refused. -/
def takeHeader (e : Bool) (s : State) : State :=
  let r := reach e 256 s
  if !r.2 then r.1
  else
    let s := r.1
    let g := engOf s e
    let h := g.seen.take 256
    let s := wr (engBytesA e) 256 (wr (at' (engPage e) 0x4C) (BitVec.ofNat 32 (leField h 0x18 2 * 2 ^ 16 + leField h 0x16 2))
      (wrF (engStatA e) 5 3 (hKind h) s))
    let s := if s.cfc.boot.any (fun b => !e && b.cur = g.src) then wrF bootStatA 15 1 0 s else s
    let s := planBcast e s
    match headerCheck s e g.src h with
    | some c => endEarly e c (if c = 0x0409 then secAlarm c s else s)
    | none =>
      let s := wr (at' (engPage e) 0x50) 0 s
      let s := setEng e { g with st := .sections, pos := 256, key := if hEncrypted h then streamKey s h else none } s
      let s := if hKind h = 3 then
          withCfc (fun c => { c with counts := tput 0 (hSlot h) (tget 0 (hSlot h) c.counts + 1) c.counts }) (eraseSlot (hSlot h) s)
        else s
      if hKind h = 1 && s.cfc.boot.isNone then
        withCfc (fun c => { c with boot := some ⟨g.src, [], false, false, none, true⟩ }) s
      else s

-- Sections

/-- Where the trailer begins. -/
def trailerAt (g : Engine) : Nat := hTotal g.seen - 168

/-- Bytes of the section region in the clear (R288). -/
def regionBytes (g : Engine) (off len : Nat) : List Byte :=
  let raw := (g.seen.drop off).take len
  match g.key with
  | some k => xorBytes raw ((gcmStream k ((g.seen.drop 0x80).take 12) (off - 256 + len)).drop (off - 256))
  | none => raw

/-- PAYLOAD_LEN of a section header. -/
def secLen (h : List Byte) : Nat := leField h 0x0C 4

/-- A section header is refused (R289, R290, R292, R293), its place in the stream aside; the payload of a REG section holds whole records
(log entry 324). -/
def badSection (kind count : Nat) (h : List Byte) : Bool :=
  let b (k : Nat) : Nat := leField h k 1
  let t := b 0
  let n := if (b 1).testBit 0 then 1 else (b 5 - b 4 + 1) * (b 7 - b 6 + 1)
  let allowed := if kind = 1 then 1 ≤ t && t ≤ 3 else if kind = 2 then t = 1 || t = 2 else t = 4 && count = 0
  !allowed || 2 ≤ b 1 || !zeroBytes h 9 3 || !zeroBytes h 0x10 16
    || match t with
      | 1 => 15 < b 2 || 31 < b 3 || b 5 < b 4 || 15 < b 5 || b 7 < b 6 || 31 < b 7 || secLen h ≠ 288 * n
      | 2 => b 2 ≠ 0 || 31 < b 3 || b 5 < b 4 || 15 < b 5 || b 7 < b 6 || 31 < b 7 || secLen h ≠ 8 * n
      | 3 => b 2 ≠ 0 || b 3 ≠ 0 || b 5 < b 4 || 15 < b 5 || b 7 < b 6 || 31 < b 7 || secLen h % 8 ≠ 0
      | _ => !zeroBytes h 2 7 || 24 * 2 ^ 20 < secLen h

/-- A REG record may address the offset (R292). -/
def regAllowed (a : Nat) : Bool :=
  let t := pageType (a / 0x1000)
  a % 4 = 0 && ((0x100000 ≤ a && a < 0x400000) || (a < 0x100000 && (t = 23 || t = 12 || t = 20 || t = 18) && a / 0x1000 ≠ pgSLUX))

/-- The records of a REG payload. -/
def regRecords (bs : List Byte) : List (Nat × Reg) :=
  (List.range (bs.length / 8)).map fun i => (leField bs (8 * i) 4, BitVec.ofNat 32 (leField bs (8 * i + 4) 4))

/-- The first record that ends the stream (R292), in their order. -/
def badRecord (have' : Nat) (l : List (Nat × Reg)) : Option Nat :=
  (l.zipIdx.find? fun q => 32768 ≤ have' + q.2 || !regAllowed q.1.1).map fun q => if 32768 ≤ have' + q.2 then 0x0411 else 0x0410

/-- A section of type `ty` begins (R111, R289 to R293): nothing changes where another type stands there or its plane's storage is not yet
clear. -/
def beginSection (e : Bool) (ty : Nat) (s : State) : State :=
  let g := engOf s e
  let t := trailerAt g
  if g.pos = t then s
  else if t < g.pos + 32 then endEarly e 0x040A s
  else
    let r := reach e (g.pos + 32) s
    if !r.2 then r.1
    else
      let s := r.1
      let g := engOf s e
      let h := regionBytes g g.pos 32
      let ht := leField h 0 1
      if 1 ≤ ht && ht ≤ 4 && ht ≠ ty then s
      else if badSection (hKind g.seen) g.count h || t < g.pos + 32 + secLen h then endEarly e 0x040A s
      else
        let go (s : State) : State :=
          wr (engBytesA e) (BitVec.ofNat 32 (g.pos + 32)) (setEng e { engOf s e with begun := true, count := g.count + 1 } s)
        if 2 < ty || !(leField h 8 1).testBit (devIndex s) then go s
        else
          let n := physOf s (leField h 3 1)
          let p := if ty = 2 then 16 else leField h 2 1
          if (basinOf s n).mapClear then s
          else match beginPlane (b2n e) n p s with
            | none => endEarly e 0x0536 s
            | some s => go (setEng e { engOf s e with into := n, planes := if g.planes.contains (n, p) then g.planes else g.planes ++ [(n, p)] } s)

/-- The section that has begun is complete (R290 to R293, R296); it goes to the physical basin that it began with (R143). -/
def finishSection (e : Bool) (ty : Nat) (s : State) : State :=
  let g := engOf s e
  let h := regionBytes g g.pos 32
  let len := secLen h
  if leField h 0 1 ≠ ty then s
  else
    let r := reach e (g.pos + 32 + len) s
    if !r.2 then r.1
    else
      let s := r.1
      let g := engOf s e
      let payload := regionBytes g (g.pos + 32) len
      let mine := (leField h 8 1).testBit (devIndex s)
      let next (s : State) : State :=
        wr (engBytesA e) (BitVec.ofNat 32 (g.pos + 32 + len)) (setEng e { engOf s e with begun := false, pos := g.pos + 32 + len } s)
      match ty with
      | 3 =>
        let l := regRecords payload
        match badRecord g.regs l with
        | some c => endEarly e c s
        | none => next (setEng e { engOf s e with regs := g.regs + l.length, recs := if mine then g.recs ++ l else g.recs } s)
      | 4 => next (writeSlot (hSlot g.seen) payload s)
      | _ =>
        let n := g.into
        next (if mine then finishPlane n (if ty = 2 then 16 else leField h 2 1) h payload s else s)

/-- A section event (R296): the section begins when its header is there and ends when its payload is. -/
def takeSection (e : Bool) (ty : Nat) (s : State) : State :=
  if (engOf s e).st ≠ .sections then s
  else
    let s := if (engOf s e).begun then s else beginSection e ty s
    if (engOf s e).st = .sections && (engOf s e).begun then finishSection e ty s else s

end Sys2Proof.Machine
end

