-- ==== Sys2Proof/Machine/EnrLink.lean ====
section
/-! DEFINITION. The machine of an Enrus port: claim, lanes, training, link-down outcomes, width (09). -/

namespace Sys2Proof.Machine

/-- ENR_ERR of a port. -/
def enrErrA (p : Nat) : Nat := at' (pgENR p) 0x48
/-- The port that runs on a quad. -/
def portOfQuad (s : State) (q : Nat) : Option Nat :=
  (List.range 7).find? fun p => (enrPort s p).st ≠ .down && enrQuadOf s p = q
/-- Change a port. -/
def updPort (p : Nat) (u : EnrPort → EnrPort) (s : State) : State := setEnrPort p (u (enrPort s p)) s

/-- The fixed setting of the lanes of a claimed quad, as the words of a rung (R261): RATE 212.5 or 106.25 Gb/s PAM4, 64b/66b, RS(544,514),
Rytis markers of period 16, POL_AUTO; MK_LOCK_N 2 and MK_LOSS_N 4. -/
def enrRung0 (slow : Bool) : Word :=
  BitVec.ofNat 64 ((if slow then 425000 else 850000) + 2 ^ 20 + 2 * 2 ^ 21 + 3 * 2 ^ 23 + 2 * 2 ^ 25 + 16 * 2 ^ 27 + 2 ^ 52 + 2 ^ 63)
/-- Word 1 of that setting. -/
def enrRung1 : Word := BitVec.ofNat 64 (2 * 2 ^ 32 + 4 * 2 ^ 36)

/-- The lanes of a quad. -/
def quadLanes (q : Nat) : List Nat := (List.range 4).map (4 * q + ·)

/-- The lanes of a port restart at its rate (R221, R261). -/
def retuneLanes (q : Nat) (slow : Bool) (s : State) : State :=
  (quadLanes q).foldl (fun t l => restartAdapt l <| setTxIndex l 0 <| setLane l { Lane.zero with rung0 := enrRung0 slow, rung1 := enrRung1 } t) s

/-- The lanes of a port fall idle. -/
def idleLanes (q : Nat) (s : State) : State := (quadLanes q).foldl (fun t l => setLane l .zero t) s

-- Link down (R280)

/-- A flit payload carries the LAST flit of an ARRIVE (R275). -/
def lastArrive (pl : List Byte) : Bool :=
  let h := leField pl 0 4
  h / 2 ^ 27 % 32 = 1 && h.testBit 25

/-- Forwarded arrivals whose last flit is not acknowledged (R280). -/
def lostArrives (e : EnrPort) : Nat :=
  ((e.kept.filter fun k => k.vc = 0 && lastArrive k.payload).length) + (e.vc0.txq.filter lastArrive).length

/-- Discard held outputs; their row groups return (R278, R325). -/
def dropHeld (p : HeldOut → Bool) (s : State) : State :=
  let gs := (s.enr.held.filter p).filterMap (·.group)
  let s := gs.foldl (fun t g => returnGroup (g / 1024) (4 * (g % 1024)) t) s
  { s with enr := { s.enr with held := s.enr.held.filter fun h => !p h } }

/-- Fault notices are gone: a failover whose last notice that was ends (R210 step 4, R279). -/
def dropNotices (p : Nat × Nat × Nat → Bool) (s : State) : State :=
  let s := { s with enr := { s.enr with notices := s.enr.notices.filter fun k => !p k } }
  (List.range 32).foldl (fun t l =>
    if tget 0 l t.slu.failover = 4 && !t.enr.notices.any fun k => k.2.1 = l then
      { t with slu := { t.slu with failover := tput 0 l 0 t.slu.failover } }
    else t) s

/-- The outcomes of a port's leaving UP (R280, R283): services on the peer end and are reissued, their held outputs go, unacknowledged
arrivals are lost, nothing more is sent for the peer's items, and the peer's part in a broadcast ends. -/
def linkDown (p : Nat) (s : State) : State :=
  let e := enrPort s p
  let s := reissueWhere (fun v => v.dev = e.peer && v.dev.toNat ≠ devIndex s) s
  let s := dropNotices (fun k => k.1 = p) (dropHeld (fun h => h.port = p) s)
  let s := if e.peer.toNat = rdF s (at' pgENRG 0x40) 0 3 then setIrq pgENRG 0 s else s
  let s := { s with enr := { s.enr with
    guests := s.enr.guests.filter fun g => decide (g.port ≠ p), lost := s.enr.lost + lostArrives e
    bcast := s.enr.bcast.map fun b => { b with reached := b.reached &&& ~~~(BitVec.ofNat 8 (2 ^ e.peer.toNat)) } } }
  if s.cfc.eng0.src = 3 && s.cfc.eng0.st ≠ .idle && rdF s (at' pgENRG 0x40) 3 3 = e.peer.toNat then sourceEnds false s else s

/-- What of a port survives its keys and its link: complete arrivals that Sluice has still to take. -/
def EnrPort.restart (e : EnrPort) (st : EnrState) : EnrPort :=
  { EnrPort.zero with
    st := st, slow := e.slow, cause := e.cause, fails := e.fails
    vc0 := { spentChan e 0 with ready := e.vc0.ready.filter fun m => decide (m.kind = 1) }
    vc1 := spentChan e 1 }

/-- A port enters TRAIN with its keys gone (R265, R266). -/
def toTrain (p : Nat) (s : State) : State := updPort p (fun e => e.restart .train) s

/-- A port goes DOWN (R266): lanes at electrical idle, keys erased. -/
def toDown (p : Nat) (s : State) : State :=
  let e := enrPort s p
  if e.st = .down then s
  else
    let s := if e.st = .up then linkDown p s else s
    idleLanes (enrQuadOf s p) (updPort p (fun e => { e.restart .down with slow := false, fails := 0 }) s)

/-- A port leaves UP for TRAIN with a cause (R266, R280). -/
def leaveUp (p cause : Nat) (s : State) : State :=
  if (enrPort s p).st = .up then
    let s := toTrain p (linkDown p s)
    setIrq (pgENR p) 0 (updPort p (fun e => { e with cause := BitVec.ofNat 16 cause }) s)
  else s

/-- A port goes to FAULT with a cause (R266). -/
def toFault (p cause : Nat) (s : State) : State :=
  updPort p (fun e => { e.restart .fault with cause := BitVec.ofNat 16 cause, peer := e.peer, peerPort := e.peerPort }) s

-- Claim (R259, R260, R266)

/-- The straps differ from the index that IDENT holds (R259). -/
def indexMismatch (s : State) : Bool := rdB s (at' pgENRG 0x44) 6 && rdF s (at' pgENRG 0x44) 3 3 ≠ devIndex s

/-- The modes in which ports run: SERVICE, and BRINGUP from step 6 on (R427, R433, R434, R437). -/
def enrMode (s : State) : Bool := modeOf s = mSERVICE || (modeOf s = mBRINGUP && 6 ≤ rdF s 0x1040 4 4)

/-- A port is to run: its EN is 1, the mode lets it, and the index is not in question. -/
def enrWanted (s : State) (p : Nat) : Bool := rdB s (enrCtrlA p) 0 && enrMode s && !indexMismatch s

/-- A port runs or goes DOWN by its settings (R260, R266); where another port holds the quad its EN reads back 0 (R497). -/
def enrEval (p : Nat) (s : State) : State :=
  let q := enrQuadOf s p
  if !enrWanted s p then release (0x4000 + q) (pgENR p) (toDown p s)
  else if !enrusQuad s q then release (0x4000 + q) (pgENR p) (setFault (pgENR p) 0x0801 (toDown p s))
  else
    let r := claim (0x4000 + q) (pgENR p) s
    if !r.2 then wrF (enrCtrlA p) 0 1 0 (toDown p r.1)
    else if (enrPort r.1 p).st = .down then retuneLanes q false (toTrain p r.1)
    else r.1

/-- Every port by its settings. -/
def enrEvalAll (s : State) : State := (List.range 7).foldl (fun t p => enrEval p t) s

-- Bond lock (R231, R266)

/-- The lanes of a quad hold marker lock, carry the numbers 0 to 3, agree in BUNDLE and GEN, and their skew is within its limit. -/
def enrBond (s : State) (q : Nat) : Bool :=
  (quadLanes q).all (fun l => (laneOf s l).mkr)
    && ((List.range 4).all fun i => (quadLanes q).any fun l => (laneOf s l).logical = i)
    && ((quadLanes q).all fun l => rd s (laneA l 0x0C) = rd s (laneA (4 * q) 0x0C)) && !(laneOf s (4 * q)).skewed

/-- A port's HELLO (R267): device index, port, GEN 0x0001, 32 random bytes. -/
def helloBytes (s : State) (p : Nat) (r : List Byte) : List Byte := [BitVec.ofNat 8 (devIndex s), BitVec.ofNat 8 p, 1, 0] ++ r

/-- A port in TRAIN reaches bond lock: HELLO is sent (R266); without random bytes none is, and the port stays in HELLO (R399). -/
def enterHello (p : Nat) (s : State) : State :=
  let r := drawBytes 8 s
  match r.1 with
  | some bs =>
    let h := helloBytes r.2 p bs
    sendPlain p 8 h (updPort p (fun e => { e with st := .hello, hello := h }) r.2)
  | none => updPort p (fun e => { e with st := .hello }) r.2

/-- The lock of an ENRUS quad's lanes (R266). -/
def enrLaneLock (q : Nat) (s : State) : State :=
  match portOfQuad s q with
  | some p => if (enrPort s p).st = .train && enrBond s q then enterHello p ((quadLanes q).foldl (fun t l => adapted l t) s) else s
  | none => s

/-- The polarity of a lane of an ENRUS quad is judged (R230, R261). -/
def enrPolarity (l : Nat) (inverted : Nat) (s : State) : State :=
  let v := laneOf s l
  if (portOfQuad s (l / 4)).isSome && !v.polDone then
    let v := { v with polDone := true, cdr := true, blk := true, los := false }
    setLane l (if 48 ≤ inverted then { v with polInv := true, mkGood := 0, mkBad := 0, mkr := false } else v) s
  else s

-- Width (R273)

/-- The physical lanes of a quad that a mask names. -/
def maskLanes (q : Nat) (m : BitVec 4) : List Nat := (quadLanes q).filter fun l => bit m (l % 4)

/-- The two lowest lanes of a mask. -/
def lowestTwo (m : BitVec 4) : BitVec 4 :=
  BitVec.ofNat 4 ((((List.range 4).filter fun i => bit m i).take 2).foldl (fun a i => a + 2 ^ i) 0)

/-- The lanes of a mask. -/
def maskCount (m : BitVec 4) : Nat := ((List.range 4).filter fun i => bit m i).length

/-- A width block (R273): TYPE 0x5D, the surviving-lane mask, the CRC of R235. -/
def widthBlock (m : BitVec 4) : Word := rytisBlock (0x5D + m.toNat * 2 ^ 8)

/-- A width block is intact. -/
def widthOk (v : Word) : Bool := fld v 0 8 = 0x5D && fld v 40 24 = crcRun 3 0xB704CE (toBytes 4 (BitVec.ofNat 32 (fld v 8 32)))

/-- Send a width block on each surviving lane in place of every 64th block for 1 µs. -/
def sendWidth (p : Nat) (m : BitVec 4) (s : State) : State :=
  let q := enrQuadOf s p
  sendEvery64 { enrTx s p with lanes := maskLanes q m } (4 * q) (laneOf s (4 * q)).rung0 (widthBlock m) s

/-- A quad goes on with the two lanes of a mask (R273): they become logical lanes 0 and 1 in ascending order, and every other lane is idle. -/
def narrowQuad (q : Nat) (m : BitVec 4) (s : State) : State :=
  (quadLanes q).foldl (fun t l => match (maskLanes q m).idxOf? l with
    | some i => setLane l { laneOf t l with logical := i } t
    | none => setLane l .zero t) (setTxIndex (4 * q) 0 s)

/-- A lane of an ENRUS quad is lost (R266, R273): an UP port goes on on two lanes, or leaves UP with fewer. -/
def enrLaneLost (l : Nat) (s : State) : State :=
  let v := laneOf s l
  let s := setLane l { v with cdr := false, blk := false, fec := false, mkr := false, mkGood := 0, mkBad := 0, logical := 0 } s
  match portOfQuad s (l / 4) with
  | none => s
  | some p =>
    let e := enrPort s p
    let used := e.narrow.getD e.lanes
    if e.st ≠ .up || !bit used (l % 4) then s
    else
      let left := used &&& ~~~(BitVec.ofNat 4 (2 ^ (l % 4)))
      if maskCount left < 2 then leaveUp p 0x080B s
      else
        let m := lowestTwo left
        sendWidth p m (updPort p (fun e => { e with narrow := some m }) s)

/-- A width block is received (R273): the side that has not sent one echoes it; both then run on the two lanes that are left. -/
def widthReceive (p : Nat) (v : Word) (s : State) : State :=
  let e := enrPort s p
  if e.st ≠ .up || !widthOk v then s
  else
    let both := lowestTwo (e.narrow.getD e.lanes &&& BitVec.ofNat 4 (fld v 8 4))
    if maskCount both < 2 then leaveUp p 0x080B s
    else if e.narrow.isNone && e.lanes = both then s
    else
      let s := if e.narrow.isSome then s else sendWidth p both s
      setIrq (pgENR p) 1 (narrowQuad (enrQuadOf s p) both (updPort p (fun e => { e with lanes := both, narrow := none }) s))

end Sys2Proof.Machine
end

