-- ==== Sys2Proof/Machine/Lanes.lean ====
section
/-! DEFINITION. The commands of the lanes, the intake, the outlet and the lifeline (08). -/

namespace Sys2Proof.Machine

/-- The lanes that a write of QUAD_CFG of quad `q` affects (R218, R219). -/
def quadAffected (s : State) (q bond : Nat) : List Nat :=
  if bond = 3 || quadBond s q = 3 then (List.range 8).map (8 * (q / 2) + ·) else (List.range 4).map (4 * q + ·)

/-- The number of quads with the ENRUS role. -/
def enrusQuads (s : State) : Nat := ((List.range 36).filter (enrusQuad s)).length

/-- Run the lane machine of every group that has a lane among the given ones. -/
def settleLanes (ls : List Nat) (s : State) : State :=
  ((ls.map (leadOf s)).foldl (fun (a : List Nat) l => if a.contains l then a else a ++ [l]) []).foldl (fun t l => laneSettle l t) s

/-- A write of QUAD_CFG (R15, R218, R219, R260): stored, or refused as a whole; a change of role moves the port that claims the quad. BOND 3
is a reserved encoding in an odd quad. -/
def quadCfgWrite (quad : Nat) (val : Reg) : State → State :=
  let pg := pgQUAD quad
  let a := quadCfgA quad
  guarded pg fun s =>
    let (v, bad) := writtenValue s a val
    let oddBond := quad % 2 = 1 && fld v 2 2 = 3
    let v := if oddBond then setFld v 2 2 (rdF s a 2 2) else v
    let bond := fld v 2 2
    let ls := quadAffected s quad bond
    let role := bit v 0 ≠ rdB s a 0
    if v = rd s a then noteReserved pg (bad || oddBond) s
    else if !(ls.all fun l => laneStateOf s l = .disabled) then setFault pg 0x0701 s
    else if bond = 3 && rdF s a 2 2 ≠ 3 && enrusQuad s (quad + 1) then setFault pg 0x0701 s
    else if bit v 0 && role && 7 ≤ enrusQuads s then setFault pg 0x0702 s
    else
      let s := noteReserved pg (bad || oddBond) (wr a v s)
      settleLanes ls (if role then enrEvalAll s else s)

/-- QUAD_CFG_WRITE (R218, R219). -/
def execQuadCfgWrite (quad : Nat) (val : Reg) (s : State) : Host.Outcome State Fault Refusal := .next (quadCfgWrite quad val s)

/-- A write of LANE_CTRL (R15, R229, R251 to R253). -/
def laneCtrlWrite (lane : Nat) (val : Reg) : State → State :=
  let pg := pgQUAD (lane / 4)
  let a := laneA lane 0
  guarded pg fun s =>
    let (v, bad) := writtenValue s a val
    let old := rd s a
    if diagSelected v && !(bit v 27 && rungV s (lane / 4) (fld v 28 4)) then setFault pg 0x0708 s
    else if fld v 18 2 = 3 && fld v 20 3 ≠ 0 then setFault pg 0x0709 s
    else if diagSelected v && activeMember s lane then setFault pg 0x070A s
    else
      let s := noteReserved pg bad (wr a v s)
      let s := if fld v 24 3 = fld old 24 3 then s else resetPrbs lane (wr (laneA lane 0x20) 0 s)
      let s := if bit v 0 && !bit old 0 then setLane lane { laneOf s lane with walks := 0 } s else s
      settleLanes [lane] s

/-- LANE_CTRL_WRITE (R251). -/
def execLaneCtrlWrite (lane : Nat) (val : Reg) (s : State) : Host.Outcome State Fault Refusal := .next (laneCtrlWrite lane val s)

/-- DWELL_EXPIRY (R229): Next, with WALKS at each wrap, or FORCE_RUNG again. -/
def execDwellExpiry (lane : Nat) (s : State) : Host.Outcome State Fault Refusal :=
  let l := leadOf s lane
  .next (if (laneOf s l).state ≠ .seek then s
    else if laneForce s l then enterRung l (some (forceRung s l)) s
    else match nextRung s l (laneOf s l).rung with
      | none => noRung l s
      | some (k, wrap) =>
        enterRung l (some k) (if wrap then setLane l { laneOf s l with walks := satAdd (laneOf s l).walks 1 4095 } s else s))

/-- LANE_LOCK (R228, R229, R266): the lock criteria that come from the line hold; marker and bond lock are the state's. A lifeline lane
locks at its fixed setting, and a lane in DIAG reaches CDR lock (R253); the lanes of an ENRUS quad take their port to HELLO. -/
def execLaneLock (lane : Nat) (s : State) : Host.Outcome State Fault Refusal :=
  let l := leadOf s lane
  let v := laneOf s l
  .next (if enrusQuad s (lane / 4) then enrLaneLock (lane / 4) s else match v.state with
    | .seek =>
      if (laneMk v ≠ 0 && !markersLocked s l) || !bondOk s l then s
      else
        let s := (laneGroup s l).foldl (fun t m => adapted m t) s
        setIrq (pgQUAD (l / 4)) 0 (setLane l
          { laneOf s l with state := .locked, cdr := true, blk := laneEnc v ≠ 0, fec := fld v.rung0 23 2 ≠ 0, mkr := laneMk v ≠ 0, los := false } s)
    | .locked =>
      if s.mod.step = .simmerWake then
        setLane l { v with cdr := true, blk := laneEnc v ≠ 0, fec := fld v.rung0 23 2 ≠ 0, mkr := laneMk v ≠ 0, los := false } s
      else s
    | .lifeline => if rdF s 0x2040 0 3 = 5 then s else setLane l { v with cdr := true, blk := true, los := false } (adapted l s)
    | .diag => setLane l { v with cdr := true, los := false } (adapted l s)
    | _ => s)

/-- The flags that a loss clears in a lane (R228, R229): 1 loss of signal, 2 CDR lock, 3 block lock, 4 marker lock. -/
def lostFlags (v : Lane) (reason : Nat) : Lane :=
  { v with
    los := v.los || reason = 1, cdr := v.cdr && 3 ≤ reason, blk := v.blk && reason = 4, fec := v.fec && reason = 4
    mkr := false, mkGood := 0 }

/-- The cause of a switch for a reason of loss (R257). -/
def lossCause (reason : Nat) : Nat := if reason = 1 then 1 else if reason = 4 then 3 else 2

/-- LOCK_LOST (R229, R247, R266, R273): a LOCKED lane goes down and enters Top, an active working lane after its switch to protect; a lane of
an ENRUS quad narrows its port. Suspended in SIMMER (R434). -/
def execLockLost (lane : Nat) (reason : BitVec 4) (s : State) : Host.Outcome State Fault Refusal :=
  let r := reason.toNat
  let l := leadOf s lane
  let v := laneOf s l
  .next (if r = 0 || 4 < r || modeOf s = mSIMMER then s
    else if enrusQuad s (lane / 4) then enrLaneLost lane s
    else match v.state with
      | .locked =>
        let s := if isWorking s l && !protActive s l then (switchToProtect l (lossCause r) s).1 else s
        moveLane l (fun t => enterRung l (topRung t l) (setLane l { laneOf t l with los := r = 1 } t)) s
      | .seek => setLane l (lostFlags v r) s
      | .diag => resetPrbs l (setLane l (lostFlags v r) s)
      | .lifeline => setLane l (lostFlags v r) s
      | _ => s)

/-- POLARITY_TEST (R230, R254): of 64 blocks or idle sets of a lane, `inverted` met the condition; from 48 on the lane inverts. Each lane of a
bonded group is tested on its own. -/
def execPolarityTest (lane : Nat) (inverted : BitVec 7) (s : State) : Host.Outcome State Fault Refusal :=
  let v := laneOf s (leadOf s lane)
  let own := laneOf s lane
  .next (if enrusQuad s (lane / 4) then enrPolarity lane inverted.toNat s
    else if (v.state = .seek || v.state = .lifeline) && bit v.rung0 52 && laneEnc v ≠ 0 && !own.polDone then
      let own := { own with polDone := true, cdr := true, blk := true, los := false }
      setLane lane (if 48 ≤ inverted.toNat then { own with polInv := true, mkGood := 0, mkBad := 0, mkr := false } else own) s
    else s)

/-- Count a marker of a lane toward marker lock and marker loss (R228, R229). -/
def countMarker (l : Nat) (lead : Lane) (good : Bool) (s : State) : State :=
  let v := laneOf s l
  let n := if good then v.mkGood + 1 else 0
  let b := if good then 0 else v.mkBad + 1
  setLane l { v with
    mkGood := n, mkBad := b,
    mkr := if v.mkr then b < fld lead.rung1 36 4 else fld lead.rung1 32 4 ≤ n && 0 < n } s

/-- The bond lock of a group after a good marker (R231): the first failure is recorded. -/
def judgeBond (l skewNs : Nat) (s : State) : State :=
  if groupSize s l = 1 || !markersLocked s l then s
  else
    let s := setLane l { laneOf s l with skewed := 180 < skewNs } s
    if !mapOk s l then setFault (pgQUAD (l / 4)) 0x0705 s
    else if laneMk (laneOf s l) = 2 && !bundlesOk s l then setFault (pgQUAD (l / 4)) 0x0707 s
    else if 180 < skewNs then setFault (pgQUAD (l / 4)) 0x0706 s
    else s

/-- In an N:1 group, the receive selector of each working lane follows the BUNDLE of the protect lane's markers (R248). -/
def followBundle (p : Nat) (s : State) : State :=
  if isProtect s p && manyToOne s p && laneMk (laneOf s p) = 2 then
    (workingOf s p).foldl (fun t w => moveRx w (rdF t (laneA w 0x0C) 16 12 = rdF t (laneA p 0x0C) 16 12) t) s
  else s

/-- A port in TRAIN learns its peer's index and port from the BUNDLE of the markers (R261). -/
def markerPeer (q bundle : Nat) (s : State) : State :=
  match portOfQuad s q with
  | some p => if (enrPort s p).st = .train && bundle / 64 = 32 then
      updPort p (fun e => { e with peer := BitVec.ofNat 3 (bundle / 8), peerPort := BitVec.ofNat 3 bundle }) s
    else s
  | none => s

/-- A marker of a lane of an ENRUS quad (R230, R231, R261): counted, its number, BUNDLE and GEN reported, the bond judged. -/
def enrMarker (l : Nat) (payload : Word) (skewNs : Nat) (s : State) : State :=
  let q := l / 4
  if (portOfQuad s q).isNone || !(laneOf s l).polDone then s
  else
    let ok := match markerLane 2 payload with
      | some j => decide (j < 4)
      | none => false
    let s := countMarker l (laneOf s l) ok s
    if !ok then (if rytisOk payload 0x5A then setFault (pgQUAD q) 0x0705 s else s)
    else
      let s := setLane l { laneOf s l with logical := fld payload 8 3, cdr := true, blk := true, los := false } s
      let s := wr (laneA l 0x0C) (BitVec.ofNat 32 (fld payload 24 16 + fld payload 12 12 * 2 ^ 16)) s
      let ls := quadLanes q
      if !(ls.all fun m => (laneOf s m).mkr) then s
      else
        let s := setLane (4 * q) { laneOf s (4 * q) with skewed := 180 < skewNs } s
        if !((List.range 4).all fun i => ls.any fun m => (laneOf s m).logical = i) then setFault (pgQUAD q) 0x0705 s
        else if !(ls.all fun m => rd s (laneA m 0x0C) = rd s (laneA (4 * q) 0x0C)) then setFault (pgQUAD q) 0x0707 s
        else if 180 < skewNs then setFault (pgQUAD q) 0x0706 s
        else markerPeer q (fld payload 12 12) s

/-- A lane in DIAG sends back what it receives (R251). -/
def farLoop (s : State) (l : Nat) : Bool := (laneOf s l).state = .diag && rdF s (laneA l 0) 18 2 = 3

/-- MARKER_RECEIVE (R228 to R235, R248): a marker is judged under the rung's format, counted, reported and held against its group. `good`
says of an IEEE marker that its BIP agrees; `skewNs` is the group's skew. -/
def execMarkerReceive (lane : Nat) (payload : Word) (good : Bool) (skewNs : Nat) (s : State) : Host.Outcome State Fault Refusal :=
  let l := leadOf s lane
  let v := laneOf s l
  let mk := laneMk v
  let n := groupSize s lane
  let tested := (laneOf s lane).polDone || !bit v.rung0 52
  .next (if enrusQuad s (lane / 4) then enrMarker lane payload skewNs s
    else if farLoop s l then send (.block lane 2 payload) s
    else if !(v.state = .seek || v.state = .locked) || mk = 0 || !tested then s
    else
      let i := markerLane mk payload
      let ok := (mk = 2 || good) && (match i with
        | some j => j < n
        | none => false)
      let s := countMarker lane v ok s
      let s := setLane lane { laneOf s lane with cdr := true, blk := true, los := false } s
      match i with
      | none => s
      | some j =>
        if !ok then (if 1 < n && n ≤ j then setFault (pgQUAD (l / 4)) 0x0705 s else s)
        else
          let s := setLane lane { laneOf s lane with logical := j } s
          let s := if mk = 2 then wr (laneA lane 0x0C) (BitVec.ofNat 32 (fld payload 24 16 + fld payload 12 12 * 2 ^ 16)) s else s
          followBundle lane (judgeBond l skewNs s))

/-- FRAME_RECEIVE (R236 to R240, R243, R251): bytes of a frame, or of the raw stream, on a LOCKED lane; `symbols` and `codewords` count the
errors met, `ends` says that the frame is complete. -/
def execFrameReceive (lane : Nat) (bytes : List Byte) (decodeError : Bool) (symbols codewords : Nat) (ends : Bool) (s : State) :
    Host.Outcome State Fault Refusal :=
  let l := leadOf s lane
  let v := laneOf s l
  let err := decodeError || 0 < codewords
  .next (if farLoop s l then send (.retimed l bytes) s
    else if v.state ≠ .locked then s
    else
      let s := incF (laneA l 0x18) 0 32 symbols (incF (laneA l 0x1C) 0 32 codewords s)
      let s := setLane l { v with corr := v.corr + symbols, unc := v.unc + codewords } s
      if workHeld s then s
      else match rxFor s l with
        | none => s
        | some w =>
          if laneEnc v = 0 then feedRaw w v.rung err (bytes.length / 4096 + 2) bytes s
          else feedFrame w v.rung0 v.rung bytes err ends false s)

/-- SEGMENT_FLUSH (R238): the flush time of an open segment passes. -/
def execSegmentFlush (lane : Nat) (sub : BitVec 6) (s : State) : Host.Outcome State Fault Refusal :=
  .next (match openSeg s lane sub with
    | some g => endSegment g s
    | none => s)

/-- The frames of a records payload (R242); `n` bounds them. -/
def recordFrames : Nat → List Byte → List (List Byte)
  | 0, _ => []
  | n + 1, bs =>
    let len := fld (ofBytes 64 (bs.take 8)) 0 18
    if bs.length < 9 || len = 0 then []
    else ((bs.drop 8).take len) :: recordFrames n (bs.drop (8 + (len + 7) / 8 * 8))

/-- Send a frame on a lane or a bonded group: on a 64b/66b rung as blocks over its lanes, after idle blocks (R222, R232); on an 8b/10b rung
between its delimiters. -/
def sendOn (bs : List Byte) (s : State) (l : Nat) : State :=
  if laneEnc (laneOf s l) = 2 then sendBytes (laneTx s l) l bs (txIdle (laneTx s l) l s) else send (.frame l bs) s

/-- Send a frame on every lane that carries a partner lane (R246). -/
def sendFrame (w : Nat) (bs : List Byte) (s : State) : State := (txLanes s w).foldl (sendOn bs) s

/-- EGRESS_SEND (R241, R242): the head of the highest non-empty class is sent or discarded. -/
def execEgressSend (lane : Nat) (s : State) : Host.Outcome State Fault Refusal :=
  .next (match ((List.range 8).map (7 - ·)).find? fun c => egressOf s lane c ≠ [] with
    | none => s
    | some c => match egressOf s lane c with
      | [] => s
      | o :: rest =>
        let s := setEgress lane c rest s
        let framing := fld o.meta0 62 2
        let l := carrier s lane
        let raw := laneEnc (laneOf s (leadOf s l)) = 0
        if !laneUp s l then egressDrop lane 1 0x0713 s
        else if framing = 3 || (framing = 2) ≠ raw then egressDrop lane 1 0x0714 s
        else if framing = 2 then (txLanes s lane).foldl (fun t l => send (.raw l o.bytes) t) s
        else if framing = 1 then (recordFrames (o.bytes.length / 8 + 1) o.bytes).foldl (fun t b => sendFrame lane b t) s
        else sendFrame lane o.bytes s)

/-- BER_WINDOW_CLOSE (R243, R244): the window is judged, LANE_BER_STAT follows, and a lane that becomes DEGRADED sets IRQ_STAT bit 2
and, as the active working lane of a protection group, is switched. -/
def execBerWindowClose (lane : Nat) (s : State) : Host.Outcome State Fault Refusal :=
  let l := leadOf s lane
  let v := laneOf s l
  let cfg := rd s (laneA l 0x10)
  let ev := fld cfg 16 16 ≤ v.corr || 0 < v.unc
  let hist := (ev :: v.hist).take 15
  let deg := fld cfg 8 4 ≤ ((hist.take (fld cfg 12 4)).filter (fun b => b)).length
  let s := wrF (laneA l 0x14) 16 16 (min v.corr 65535) s
  let s := if ev then incF (laneA l 0x14) 0 16 1 s else s
  let s := setLane l { v with corr := 0, unc := 0, hist := hist, degraded := deg } s
  .next (if deg && !v.degraded then
      let s := setIrq (pgQUAD (l / 4)) 2 s
      if isWorking s l && !protActive s l && v.state = .locked then switchOrDown l 4 s else s
    else s)

/-- The command FORCE_PROTECT (R247). -/
def forceProt (lane : Nat) (s : State) : State := if isWorking s lane && !protActive s lane then switchOrDown lane 5 s else s

/-- FORCE_PROTECT (R247): LANE_PROT.CMD 1 of a working lane that is active. -/
def execForceProtect (lane : Nat) (s : State) : Host.Outcome State Fault Refusal :=
  .next (guarded (pgQUAD (lane / 4)) (forceProt lane) s)

/-- The command FORCE_WORKING (R250). -/
def forceWork (lane : Nat) (s : State) : State := if isWorking s lane && protActive s lane then switchBack lane 5 s else s

/-- FORCE_WORKING (R250): LANE_PROT.CMD 2 of a working lane whose traffic is on protect. -/
def execForceWorking (lane : Nat) (s : State) : Host.Outcome State Fault Refusal := .next (guarded (pgQUAD (lane / 4)) (forceWork lane) s)

/-- The transmit side of a working lane follows the partner's switch block (R248): to protect where the protect lane is ready, or back; the
switch counts, without a cause of its own (log entry 320). -/
def followSwitch (w : Nat) (prot : Bool) (s : State) : State :=
  let p := protPeer s w
  if prot then
    if protActive s w || !protReady s w p then s
    else noteSwitch w p 0 (wrF (protStatA w) 31 1 1 (wrF (protStatA p) 31 1 1 (wrF (protStatA p) 16 8 w s)))
  else if protActive s w then noteSwitch w p 0 (wrF (protStatA w) 31 1 0 (wrF (protStatA p) 31 1 0 (wrF (protStatA p) 16 8 0 s)))
  else s

/-- SWITCH_BLOCK_RECEIVE (R248): DIR 1 on a protect lane moves the transmission of the working lane whose BUNDLE it carries there, DIR 0 on a
working lane moves it back; the receive selector goes to the lane whose markers carry the working lane's BUNDLE. -/
def execSwitchBlockReceive (lane : Nat) (block : Word) (s : State) : Host.Outcome State Fault Refusal :=
  .next (if !rytisOk block 0x5C || fld block 9 3 ≠ 0 || fld block 24 16 ≠ 0 || !manyToOne s lane then s
    else if bit block 8 then
      if isProtect s lane then
        match (workingOf s lane).find? fun w => rdF s (laneA w 0x0C) 16 12 = fld block 12 12 with
        | some w => followBundle lane (followSwitch w true s)
        | none => s
      else s
    else if isWorking s lane then followBundle (protPeer s lane) (followSwitch lane false s)
    else s)

/-- WTR_EXPIRY (R250): a revertive group switches back once its working lane has stayed LOCKED and not DEGRADED for WTR. -/
def execWtrExpiry (lane : Nat) (s : State) : Host.Outcome State Fault Refusal :=
  .next (if isWorking s lane && protActive s lane && rdB s (protA lane) 28 && (laneOf s lane).state = .locked
      && !(laneOf s lane).degraded then switchBack lane 0 s else s)

/-- The lanes that a LANE_PROT value names beside its own (R245, R257): PEER of a member, but for the protect lane of an N:1 group. -/
def protNames (v : Reg) : List Nat := if bit v 31 && !(bit v 30 && bit v 29) then [fld v 16 8] else []

/-- A write of LANE_PROT (R15, R245, R247, R250): settings stored or refused, then a command carried out. -/
def laneProtWrite (lane : Nat) (val : Reg) : State → State :=
  let pg := pgQUAD (lane / 4)
  let a := protA lane
  guarded pg fun s =>
    let (v, bad) := writtenValue s a val
    let noWtr := bit v 28 && fld v 0 16 = 0
    let v := if noWtr then setFld v 0 16 (rdF s a 0 16) else v
    let cmd := fld val 24 2
    if v ≠ rd s a && (lane :: (protNames (rd s a) ++ protNames v)).any fun l => l < 144 && rdB s (laneA l 0) 0 then setFault pg 0x070B s
    else if v ≠ rd s a && bit v 31 && ((lane :: protNames v).any fun l => l < 144 && 1 < groupSize s l) then setFault pg 0x070C s
    else
      let s := noteReserved pg (bad || noWtr || cmd = 3) (wr a v s)
      if cmd = 1 then forceProt lane s else if cmd = 2 then forceWork lane s else s

/-- LANE_PROT_WRITE (R245, R247, R250). -/
def execLaneProtWrite (lane : Nat) (val : Reg) (s : State) : Host.Outcome State Fault Refusal := .next (laneProtWrite lane val s)

/-- LIFELINE_BLOCK_RECEIVE (R255): every block but an all-idle control block becomes a record for host DMA channel 15. -/
def execLifelineBlockReceive (lane : Nat) (payload : Word) (sync : BitVec 2) (pclk : BitVec 32) (s : State) :
    Host.Outcome State Fault Refusal :=
  let v := laneOf s lane
  .next (match s.lan.lifelines.idxOf? lane with
    | none => s
    | some i =>
      if v.state ≠ .lifeline || v.los || (sync = 2 && payload = 0x1E) then s
      else
        let r := BitVec.ofNat 128 (payload.toNat + (sync.toNat + i % 4 * 4 + pclk.toNat * 2 ^ 32) * 2 ^ 64)
        withLan (fun x => { x with lifeIn := x.lifeIn ++ [r] }) s)

/-- LIFELINE_RECORD_SEND (R255): the next record from the host is sent as one block on the lane that its lifeline number names. -/
def execLifelineRecordSend (s : State) : Host.Outcome State Fault Refusal :=
  .next (match s.lan.lifeOut with
    | [] => s
    | r :: rest =>
      let s := withLan (fun x => { x with lifeOut := rest }) s
      match s.lan.lifelines[fld r 66 2]? with
      | some l => if (laneOf s l).state = .lifeline then send (.block l (BitVec.ofNat 2 (fld r 64 2)) (BitVec.ofNat 64 (fld r 0 64))) s else s
      | none => s)

/-- PRBS_CHECKER_LOCK (R251, R252): over a run of symbols of a lane in DIAG, the generator gives as many of its own, which are sent unless a
near-end loop takes them; the checker takes those of the loop or the received ones, locks, and counts bit errors. In the far-end loop the
received symbols are sent back. -/
def execPrbsCheckerLock (lane : Nat) (symbols : List (BitVec 2)) (s : State) : Host.Outcome State Fault Refusal :=
  let c := rd s (laneA lane 0)
  let gen := fld c 20 3
  let chk := fld c 24 3
  let loop := fld c 18 2
  let pam4 := bit (laneOf s (leadOf s lane)).rung0 20
  let p := tget .zero lane s.lan.prbs
  .next (if laneStateOf s lane ≠ .diag then s
    else
      let g := prbsBits gen (if gen = 0 then 0 else if pam4 then 2 * symbols.length else symbols.length) p.gen
      let own := bitSymbols pam4 g.1
      let near := (loop = 1 || loop = 2) && gen ≠ 0
      let bits := (if near then own else symbols).flatMap (symbolBits pam4)
      let r := if chk = 0 then (p, 0) else bits.foldl (prbsCheck chk) (p, 0)
      let s := withLan (fun x => { x with prbs := tput .zero lane { r.1 with gen := g.2 } x.prbs }) s
      let s := incF (laneA lane 0x20) 0 32 r.2 (setLane lane { laneOf s lane with prbsLock := decide (chk ≠ 0 ∧ 64 ≤ r.1.run) } s)
      if loop = 3 then send (.symbols lane symbols) s
      else if gen ≠ 0 && !near then send (.symbols lane own) s
      else s)

end Sys2Proof.Machine
end

