-- ==== Sys2Proof/Machine/Tables.lean ====
section
/-! DEFINITION. The table windows of BAR 0 and the tails of the rings (07, 08, 12, 18). -/

namespace Sys2Proof.Machine

/-- The window of an address: 0 partner, 1 flow, 2 group, 3 exception, 4 rung, 5 retirement, 6 to 10 log rings (R176, R224, R353,
R463). -/
def windowOf (a : Nat) : Option Nat :=
  if 0x100000 ≤ a && a < 0x110000 then some 0
  else if 0x200000 ≤ a && a < 0x400000 then some 1
  else if 0x110000 ≤ a && a < 0x114000 then some 2
  else if 0x118000 ≤ a && a < 0x11C000 then some 3
  else if 0x120000 ≤ a && a < 0x122400 then some 4
  else if 0x130000 ≤ a && a < 0x132000 then some 5
  else if 0x150000 ≤ a && a < 0x155000 then some (6 + (a - 0x150000) / 0x1000)
  else none

/-- Word 1 of a partner entry (R178). -/
def partner1 (s : State) (p : Nat) : Word :=
  let l := fld (partner0 s p) 16 8
  let up := laneUp s l
  BitVec.ofNat 64 (queuedOf s p % 2 ^ 18 + (if up then (laneOf s (leadOf s l)).rung % 16 * 2 ^ 24 else 0) + b2n up * 2 ^ 28
    + b2n (bpOf s p) * 2 ^ 29 + b2n (tget false p s.slu.pFault) * 2 ^ 30)

/-- Word 2 of a flow entry (R179, R181). -/
def flowW2 (s : State) (f : Nat) : Word :=
  let d := flowDyn s f
  BitVec.ofNat 64 (d.head % 2 ^ 18 + d.tail % 2 ^ 18 * 2 ^ 18 + d.queue.length % 2 ^ 18 * 2 ^ 36 + d.svcBasin.toNat * 2 ^ 54
    + d.svcDev.toNat * 2 ^ 59 + flowState s f * 2 ^ 62)

/-- Word 3 of a flow entry. -/
def flowW3 (s : State) (f : Nat) : Word :=
  let d := flowDyn s f
  BitVec.ofNat 64 (d.done % 2 ^ 32 + d.errors % 2 ^ 16 * 2 ^ 32 + d.timeouts % 2 ^ 16 * 2 ^ 48)

/-- The word of a table window that holds address `a`, as it stands. -/
def tableWord (s : State) (a : Nat) : Word :=
  match windowOf a with
  | some 0 => if a / 8 % 2 = 0 then partner0 s ((a - 0x100000) / 16) else partner1 s ((a - 0x100000) / 16)
  | some 1 =>
    let f := (a - 0x200000) / 32
    match a / 8 % 4 with
    | 0 => flowW0 s f
    | 1 => flowW1 s f
    | 2 => flowW2 s f
    | _ => flowW3 s f
  | some 2 => if a / 8 % 8 < 5 then groupW s ((a - 0x110000) / 64) (a / 8 % 8) else 0
  | some 3 => tget 0 ((a - 0x118000) / 8) s.slu.excRing
  | some 4 => rungW s ((a - 0x120000) / 256) (a / 16 % 16) (a / 8 % 2)
  | some 5 => tget 0 ((a - 0x130000) / 8) s.drm.retire
  | some w => tget 0 (512 * (w - 6) + a / 8 % 512) s.ecc.rings
  | none => 0

/-- The Sluice structure, entry and word that an address holds (R463). -/
def tablePlace (a : Nat) : Option (Nat × Nat × Nat) :=
  match windowOf a with
  | some 0 => some (0, (a - 0x100000) / 16, a / 8 % 2)
  | some 1 => some (1, (a - 0x200000) / 32, a / 8 % 4)
  | some 2 => some (2, (a - 0x110000) / 64, a / 8 % 8)
  | some 3 => some (6, (a - 0x118000) / 16, a / 8 % 2)
  | _ => none

/-- What an uncorrectable read of a Sluice table entry does (R213). -/
def tableUe (k e : Nat) (s : State) : State :=
  match k with
  | 0 => withSlu (fun u => { u with pFault := tput false e true u.pFault }) s
  | 1 => quarantineFlow e s
  | 2 => withSlu (fun u => { u with groupFix := tput false e true u.groupFix }) s
  | _ => s

/-- Read a word of a table window: a correctable word is corrected, logged and written back, an uncorrectable one is logged, has the
outcome of R213 and reads as a free value. -/
def readTable (a : Nat) (s : State) : Word × State :=
  match tablePlace a with
  | none => (tableWord s a, s)
  | some (k, e, w) =>
    let v := tableWord s a
    let ue := sluUe s k e w (w + 1)
    let t := sluTouch k e w (w + 1) s
    if ue then takeFree 64 (tableUe k e t) else (v, t)

/-- A word that you cannot write (R176, R178, R179, R206, R463). -/
def tableRo (a : Nat) : Bool :=
  match windowOf a with
  | some 0 => a / 8 % 2 = 1
  | some 1 => 2 ≤ a / 8 % 4
  | some 2 => false
  | some 4 => false
  | some 5 => false
  | _ => true

/-- A pair with a reserved bit or encoding (R182). -/
def badPair (p : Nat) : Bool := p % 2 = 1 || pairPorts p = 3

/-- The reserved bits and encodings of a word (R176). -/
def tableReserved (a : Nat) (v : Word) : Bool :=
  match windowOf a with
  | some 0 => fld v 56 8 ≠ 0 || bit v 31 || 144 ≤ fld v 16 8
  | some 1 => a / 8 % 4 = 1 && fld v 18 46 ≠ 0
  | some 2 => match a / 8 % 8 with
    | 0 => fld v 3 61 ≠ 0 || fld v 1 2 = 3
    | 1 | 2 | 3 | 4 => (List.range 4).any fun i => badPair (fld v (16 * i) 16)
    | _ => v ≠ 0
  | some 4 => if a / 8 % 2 = 0 then fld v 53 10 ≠ 0 || fld v 21 2 = 3 || fld v 25 2 = 3 || fld v 41 3 = 7
    else fld v 40 24 ≠ 0 || bit v 31
  | some 5 => fld v 58 4 ≠ 0 || fld v 26 6 ≠ 0
  | _ => false

/-- A write of a flow word that is refused (R180): it changes the word of a flow that is neither IDLE nor QUARANTINED, and does more than
clear EN. -/
def flowBusy (s : State) (f w : Nat) (v : Word) : Bool :=
  let old := if w = 0 then flowW0 s f else flowW1 s f
  v ≠ old && !(flowState s f = 0 || flowState s f = 3) && !(w = 0 && bit old 27 && v = setFld old 27 1 0)

/-- A retirement entry that conflicts (R354). -/
def retireConflict (s : State) (e : Nat) (v : Word) : Bool :=
  let src := fld v 0 26
  let dst := fld v 32 26
  bit v 63 && (!inSpare s (4096 * dst) || inSpare s (4096 * src)
    || s.drm.retire.any fun p => p.1 ≠ e && bit p.2 63 && (fld p.2 0 26 = src || fld p.2 32 26 = dst || fld p.2 32 26 = src))

/-- The page and cause with which a write of a word is refused. -/
def tableRefusal (s : State) (a : Nat) (v : Word) : Option (Nat × Nat) :=
  match windowOf a with
  | some 4 =>
    let q := (a - 0x120000) / 256
    let k := a / 16 % 16
    let w0 := if a / 8 % 2 = 0 then v else rungW s q k 0
    let w1 := if a / 8 % 2 = 1 then v else rungW s q k 1
    if bit w0 63 then (if badRung w0 w1 (quadBond s q ≠ 0) then some (pgQUAD q, 0x0703) else none)
    else if tableReserved a v then some (pgQUAD q, reservedValue) else none
  | some 5 => if tableReserved a v then some (pgDRC 0, reservedValue)
    else if retireConflict s ((a - 0x130000) / 8) v then some (pgDRC 0, 0x0A0C) else none
  | some 1 => if tableReserved a v then some (pgSLU, reservedValue)
    else if flowBusy s ((a - 0x200000) / 32) (a / 8 % 4) v then some (pgSLU, 0x0640) else none
  | _ => if tableReserved a v then some (pgSLU, reservedValue) else none

/-- The word that an upper-half write completes where the buffer does not hold its lower half: a group's staged copy, else the word. -/
def tableBase (s : State) (a : Nat) : Word :=
  match windowOf a with
  | some 2 => (tget none ((a - 0x110000) / 8) s.slu.groupsSt).getD (tableWord s a)
  | _ => tableWord s a

/-- A word takes its new value (R176, R178, R179, R183, R224, R355). -/
def commitTable (a : Nat) (v : Word) (s : State) : State :=
  match windowOf a with
  | some 0 =>
    let p := (a - 0x100000) / 16
    settle (sluMend 0 p 0 2 (withSlu (fun u => { u with partners := tput 0 p v u.partners, pFault := tput false p false u.pFault }) s))
  | some 1 =>
    let f := (a - 0x200000) / 32
    if a / 8 % 4 = 0 then reeval f (sluMend 1 f 0 1 (withSlu (fun u => { u with flow0 := tput 0 f v u.flow0 }) s))
    else sluMend 1 f 1 2 (withSlu (fun u => { u with flow1 := tput 0 f v u.flow1 }) s)
  | some 2 =>
    if a / 8 % 8 < 5 then
      wrF (statA pgSLU) 1 1 1 (withSlu (fun u => { u with groupsSt := tput none ((a - 0x110000) / 8) (some v) u.groupsSt }) s)
    else s
  | some 4 =>
    let q := (a - 0x120000) / 256
    settleLanes (quadLanes q) (withLan (fun x => { x with rungs := tput 0 ((a - 0x120000) / 8 % 32 + 32 * q) v x.rungs }) s)
  | some 5 =>
    let e := (a - 0x130000) / 8
    let copy := bit v 63 && bit v 62
    withDrm (fun d => { d with
      retire := tput 0 e (setFld v 62 1 0) d.retire
      copying := (d.copying.filter fun x => decide (x ≠ e)) ++ (if copy then [e] else []) }) s
  | _ => s

/-- The write buffer of a window. -/
def winBufOf (s : State) (w : Nat) : Option (Nat × Reg) := tget none w s.slu.winBuf

/-- A write of a lower half is held in the window's buffer. -/
def tableLowerWrite (a : Nat) (v : Reg) (s : State) : State :=
  match windowOf a with
  | some w => if tableRo a then s else withSlu (fun u => { u with winBuf := tput none w (some (a / 8, v)) u.winBuf }) s
  | none => s

/-- A write of an upper half commits the word with the buffered or present lower half, or is refused as a whole (R176). -/
def tableUpperWrite (a : Nat) (v : Reg) (s : State) : State :=
  match windowOf a with
  | none => s
  | some w =>
    if tableRo a then s
    else
      let held := match winBufOf s w with
        | some (k, lo) => if k = a / 8 then some lo else none
        | none => none
      let lo := match held with
        | some lo => lo.toNat
        | none => fld (tableBase s a) 0 32
      let x := BitVec.ofNat 64 (lo + v.toNat * 2 ^ 32)
      match tableRefusal s a x with
      | some (pg, c) => setFault pg c s
      | none =>
        let s := if held.isSome then withSlu (fun u => { u with winBuf := tput none w none u.winBuf }) s else s
        commitTable a x s

/-- A read of a lower half latches the upper half of its word (R176). -/
def tableLowerRead (a : Nat) (s : State) : Reg × State :=
  match windowOf a with
  | none => (0, s)
  | some w =>
    let r := readTable a s
    (BitVec.ofNat 32 (fld r.1 0 32), withSlu (fun u => { u with winLatch := tput none w (some (a / 8, BitVec.ofNat 32 (fld r.1 32 32))) u.winLatch }) r.2)

/-- A read of an upper half returns and releases the latch of its word, or returns the live value (R176). -/
def tableUpperRead (a : Nat) (s : State) : Reg × State :=
  match windowOf a with
  | none => (0, s)
  | some w =>
    let live :=
      let r := readTable a s
      (BitVec.ofNat 32 (fld r.1 32 32), r.2)
    match tget none w s.slu.winLatch with
    | some (k, hi) => if k = a / 8 then (hi, withSlu (fun u => { u with winLatch := tput none w none u.winLatch }) s) else live
    | none => live

/-- TABLE_LOWER_WRITE (R176). -/
def execTableLowerWrite (addr : Nat) (val : Reg) (s : State) : Host.Outcome State Fault Refusal :=
  .next (if addr % 8 = 0 then reaching pgSLU (tableLowerWrite addr val) s else s)

/-- TABLE_UPPER_WRITE (R176, R180, R183, R225, R354). -/
def execTableUpperWrite (addr : Nat) (val : Reg) (s : State) : Host.Outcome State Fault Refusal :=
  .next (if addr % 8 = 4 then reaching pgSLU (tableUpperWrite addr val) s else s)

/-- HEAD of a ring: the log rings 0 to 4 (R463), and the exception ring (R206). -/
def ringHeadA (ring : Nat) : Nat := if ring < 5 then 0xA100 + 16 * ring else at' pgSLUX 0x40
/-- The bits of an index of a ring. -/
def ringBits (ring : Nat) : Nat := if ring < 5 then 8 else 10
/-- The page of a ring's registers. -/
def ringPage (ring : Nat) : Nat := if ring < 5 then pgECC else pgSLUX

/-- RING_TAIL_WRITE (R463, R206): TAIL takes the value, and FULL is cleared. -/
def execRingTailWrite (ring : Nat) (val : Reg) (s : State) : Host.Outcome State Fault Refusal :=
  let h := ringHeadA ring
  let n := ringBits ring
  .next (if ring < 6 then guarded (ringPage ring) (fun t => wrF (h + 4) 0 n (fld val 0 n) (wrF h n 1 0 t)) s else s)

end Sys2Proof.Machine
end

