-- ==== Sys2Proof/Machine/RegRead.lean ====
section
/-! DEFINITION. What the registers of BAR 0 read as: stored values, and the status that the block's state gives (R13 to R16, R487, R488). -/

namespace Sys2Proof.Machine

/-- SYS_VER (R3, R491): the fused grade, stepping B1, header version 1. -/
def sysVer (s : State) : Reg := rd s 0x004

/-- The page that holds a bank of the memory die as its owner (R320, R496; log entry 38). -/
def bankPage (s : State) (b : Bank) : Option Nat :=
  match b.typ with
  | 1 => some (pgBSN (physOf s b.basin))
  | 4 => some pgSLU
  | 5 => some pgIME
  | 6 => some pgHIF
  | 7 => some pgBIST
  | _ => none

/-- The resources that a page holds (R496). -/
def heldBy (s : State) (p : Nat) : List Nat :=
  ((s.hst.holders.filter fun h => h.2 = p).map fun h => h.1.toNat)
    ++ ((List.range 128).filter fun n => bankPage s (bankOf s n) = some p).map (0x3000 + ·)

/-- OWN (R487). -/
def ownReg (s : State) (p : Nat) : Reg :=
  let l := heldBy s p
  match l with
  | [] => 0
  | a :: t => BitVec.ofNat 32 (l.length + t.foldl min a * 2 ^ 16)

/-- A register of a page's header (R487). -/
def headerReg (s : State) (p o : Nat) : Reg :=
  match o with
  | 0x000 => BitVec.ofNat 32 (pageInstance p + pageType p * 2 ^ 16)
  | 0x004 => if p = pgSYS then sysVer s else 1
  | 0x008 => setFld (rd s (statA p)) 12 4 (rdF s (stageA p) 0 4)
  | 0x00C => BitVec.ofNat 32 (4 * b2n (rdB s (statA p) 5))
  | 0x024 => ownReg s p
  | _ => if o < 0x24 then rd s (at' p o) else 0

/-- The groups that hold a buffered write (R495). -/
def stagedGroups (s : State) : Nat :=
  (List.range 256).foldl (fun (a : Nat) p => if pageType p ≠ 0 && rdB s (statA p) 1 then a ||| 2 ^ rdF s (stageA p) 0 4 else a) 0

/-- The encoding of a plane state (R108). -/
def planeCodeOf (v : PlaneState) : Nat :=
  match v with
  | .blank => 0
  | .loading => 1
  | .pending => 2
  | .valid => 3
  | .failed => 4

/-- BSN_MODE_STAT (R122); FIXED_CTX reads 0 while FIXED_NONE is 1 (log entry 311). -/
def modeStat (s : State) (n : Nat) : Reg :=
  let b := basinOf s n
  let pw := match b.power with
    | .run => 0
    | .doze => 1
    | .deep => 2
  BitVec.ofNat 32 (b2n (halted s n) + 2 * b2n b.mode + (b.fixedCtx.getD 0).toNat * 4 + 64 * b2n b.fixedCtx.isNone + pw * 128
    + 512 * b2n (rdB s (at' pgTHM 0x40) 17))

/-- BSN_SPINE_CLAIM_`i` (R142). -/
def spineClaim (s : State) (n i : Nat) : Reg :=
  BitVec.ofNat 32 ((List.range 4).foldl (fun (a : Nat) k =>
    match (validPlanes s n).find? fun p => claims s n p (4 * i + k) with
    | some p => a + (16 + p) * 2 ^ (8 * k)
    | none => a) 0)

/-- BSN_PORT_STAT (R170). -/
def portStat (s : State) (n : Nat) : Reg :=
  let b := basinOf s n
  let rows (i : Nat) : Nat := (List.range 4).foldl (fun (a : Nat) r => a + b2n (bit (rowPred s n r) i) * 2 ^ r) 0
  let far := (List.range 4).any fun r => (rowPort s n r).cmds.any RowCmd.far
  BitVec.ofNat 32 ((b.items.filter (·.bound)).length * 2 ^ 16 + rows 2 * 2 ^ 12 + rows 0 * 2 ^ 8 + b2n (!far) * 2 ^ 7
    + b2n (openItem s n 1).isSome * 2 ^ 6 + b2n (openItem s n 0).isSome * 2 ^ 5)

/-- The status registers of a BSN page. -/
def bsnReg (s : State) (n o : Nat) : Reg :=
  if o = 0x44 then modeStat s n
  else if 0x80 ≤ o && o < 0xC0 then
    let p := (o - 0x80) / 4
    let i := planeInfo s n p
    BitVec.ofNat 32 (planeCodeOf i.st + inFlightOf s n p * 2 ^ 8 + i.cause.toNat * 2 ^ 16)
  else if o = 0xC0 then
    let i := (basinOf s n).frame
    BitVec.ofNat 32 (planeCodeOf i.st + i.cause.toNat * 2 ^ 16)
  else if o = 0xD8 then spineClaim s n 0
  else if o = 0xDC then spineClaim s n 1
  else if o = 0xE0 then portStat s n
  else rd s (at' (pgBSN n) o)

/-- Items whose current or draining service is in a local basin, those that peers dispatched there included (SLU_BASIN_L.IN_SERVICE, R215,
R277). -/
def inService (s : State) (l : Nat) : Nat :=
  (s.slu.services.filter fun v => v.dev.toNat = devIndex s && v.basin.toNat = l).length
    + (s.enr.guests.filter fun g => decide (g.basin = physOf s l)).length

/-- The status registers of the SLU page. -/
def sluReg (s : State) (o : Nat) : Reg :=
  if o = 0x44 then BitVec.ofNat 32 (freeSlots s)
  else if o = 0x5C then BitVec.ofNat 32 (tickNow s).toNat
  else if o = 0x60 then BitVec.ofNat 32 s.slu.tickLatch.toNat
  else if o = 0x6C then BitVec.ofNat 32 s.slu.matching.length
  else if o = 0x70 then BitVec.ofNat 32 (delayUsed s + s.slu.refused * 2 ^ 17)
  else if 0x80 ≤ o && o < 0x100 then
    let l := (o - 0x80) / 4
    BitVec.ofNat 32 (inService s l + b2n (offline s l) * 2 ^ 15 + (tget 0 l s.slu.cause).toNat * 2 ^ 16)
  else rd s (at' pgSLU o)

/-- The encoding of a port's state (R266). -/
def enrCode (v : EnrState) : Nat :=
  match v with
  | .down => 0
  | .train => 1
  | .hello => 2
  | .keyx => 3
  | .confirm => 4
  | .up => 5
  | .fault => 6

/-- The status registers of an ENR page (R284). -/
def enrReg (s : State) (p o : Nat) : Reg :=
  let e := enrPort s p
  if o = 0x44 then
    BitVec.ofNat 32 (enrCode e.st + e.peer.toNat * 8 + e.peerPort.toNat * 64 + b2n (e.lanes ≠ 0xF) * 512 + b2n e.slow * 1024
      + b2n e.slot * 2048 + min e.fails 15 * 4096 + e.cause.toNat * 65536)
  else if o = 0x4C then BitVec.ofNat 32 (keySlot e e.slot).txCtr
  else rd s (at' (pgENR p) o)

/-- ENR_G_STAT (R284): TIME_HOLDOVER while no port to the master is UP. -/
def enrgStat (s : State) : Reg :=
  let v := rd s (at' pgENRG 0x44)
  setFld (setFld v 7 1 (b2n (holdover s))) 0 3 (devIndex s)

/-- The encoding of a region's state (R381). -/
def imeCode (v : ImeSt) : Nat :=
  match v with
  | .off => 0
  | .init => 1
  | .active => 2
  | .rekey => 3
  | .exhausted => 4
  | .fault => 5

/-- The status registers of the IME page. -/
def imeRegOf (s : State) (o : Nat) : Reg :=
  let a := at' pgIME o
  if 0x200 ≤ o && o < 0x400 && o % 32 = 0 then
    let r := imeReg s ((o - 0x200) / 32)
    BitVec.ofNat 32 (rdF s a 0 12 + b2n r.pend * 2 ^ 12 + imeCode r.st * 2 ^ 13 + r.epoch % 65536 * 2 ^ 16)
  else rd s a

/-- The status registers of the BANK page (R332). -/
def bankReg (s : State) (o : Nat) : Reg :=
  if 0x60 ≤ o && o < 0x70 then
    BitVec.ofNat 32 ((List.range 32).foldl (fun (a : Nat) i => a + b2n (bankOf s (8 * (o - 0x60) + i)).ret * 2 ^ i) 0)
  else if 0x200 ≤ o && o < 0x400 then
    let n := (o - 0x200) / 4
    let b := bankOf s n
    BitVec.ofNat 32 (b.typ % 16 + b.basin % 32 * 2 ^ 8 + heldGroups s n % 2048 * 2 ^ 16 + b2n b.drain * 2 ^ 30 + b2n b.target.isSome * 2 ^ 31)
  else rd s (at' pgBANK o)

/-- The status registers of the SEC page (R405). -/
def secReg (s : State) (o : Nat) : Reg :=
  if o = 0x40 then secStat s
  else if 0x80 ≤ o && o < 0xE0 then
    match provisionPub s with
    | some k => ofBytes 32 (((pubBytes k).drop (o - 0x80)).take 4)
    | none => 0
  else if 0x400 ≤ o && o < 0x600 then BitVec.ofNat 32 (fld (otpSeen s (0x2C0 + (o - 0x400) / 8)) (32 * (o / 4 % 2)) 32)
  else rd s (at' pgSEC o)

/-- The encoding of an engine's state (R314). -/
def engCode (v : EngSt) : Nat :=
  match v with
  | .idle => 0
  | .header => 1
  | .sections => 2
  | .verify => 3
  | .apply => 4
  | .discard => 5

/-- The status registers of the CFG and IRP pages. -/
def engReg (s : State) (p o : Nat) : Reg :=
  if o = 0x44 then setFld (rd s (at' p o)) 0 3 (engCode (if p = pgCFG then s.cfc.eng0 else s.cfc.eng1).st) else rd s (at' p o)

/-- UIO_STAT (R522): LOCKED as stored; CLAIMED while the trace port holds the bank's pins. -/
def uioReg (s : State) (k o : Nat) : Reg :=
  if o = 0x48 then
    setFld (rd s (at' (pgUIO k) o)) 1 1 (b2n ((List.range 24).any fun j =>
      s.hst.holders.any fun h => h.1.toNat = 0x1000 + 24 * k + j && h.2 = pgDBG))
  else rd s (at' (pgUIO k) o)

/-- BIST_GOLDEN (R469): half `i % 2` of the signature of 16,384 or 245,760 patterns. -/
def goldenReg (i : Nat) : Reg := BitVec.ofNat 32 (fld (Config.goldenSignature (i / 2)) (32 * (i % 2)) 32)

/-- HDMA_STAT (R502): RUNNING beside the stored halt. -/
def hdmaReg (s : State) (o : Nat) : Reg :=
  if 0x100 ≤ o && o < 0x500 && o % 0x40 = 0x14 then setFld (rd s (at' pgHDMA o)) 30 1 (b2n (hdmaRuns s ((o - 0x100) / 0x40)))
  else rd s (at' pgHDMA o)

/-- A register's value without the fields that read 0 (R13). -/
def maskRead (fs : List RegField) (v : Reg) : Reg :=
  fs.foldl (fun r f => match f.kind with
    | .wo => setFld r f.lo (f.hi - f.lo + 1) 0
    | _ => r) v

/-- The live value of a register of a page (R13, R14, R16). -/
def liveReg (s : State) (a : Nat) : Reg :=
  let p := a / 0x1000
  let o := a % 0x1000
  if pageType p = 0 then 0
  else if o < 0x40 then headerReg s p o
  else match regFields a with
    | none => 0
    | some fs => maskRead fs (match pageType p with
      | 1 => if o = 0x48 then BitVec.ofNat 32 (stagedGroups s + b2n s.hst.updActive * 2 ^ 31) else rd s a
      | 7 => secReg s o
      | 8 => engReg s p o
      | 9 => engReg s p o
      | 10 => if 0x50 ≤ o && o < 0x60 then goldenReg ((o - 0x50) / 4) else rd s a
      | 12 => sluReg s o
      | 14 => imeRegOf s o
      | 16 => hdmaReg s o
      | 18 => uioReg s (p - 0x11) o
      | 19 => bankReg s o
      | 20 => if o = 0x40 then setFld (rd s a) 2 2 (quadBond s (p - 0x20))
        else if 0x100 ≤ o && o < 0x200 && o % 0x40 = 4 then laneStat s (4 * (p - 0x20) + (o - 0x100) / 0x40) else rd s a
      | 21 => enrReg s (p - 0x50) o
      | 22 => if o = 0x44 then enrgStat s else rd s a
      | 25 => if 0x314 ≤ o && o < 0x328 && rdB s (at' (pgDRC 0) 0x40) 7 then 0 else rd s a
      | 23 => bsnReg s (p - 0x60) o
      | _ => rd s a)

/-- The bits of a register that FREEZE holds (R488): its RO and W1C fields. -/
def statusMask (fs : List RegField) : Nat :=
  fs.foldl (fun (m : Nat) f => match f.kind with
    | .ro => m + (2 ^ (f.hi - f.lo + 1) - 1) * 2 ^ f.lo
    | .w1c => m + (2 ^ (f.hi - f.lo + 1) - 1) * 2 ^ f.lo
    | _ => m) 0

/-- The value that a register reads as: the frozen view of its status fields where one is in force (R488). -/
def regValue (s : State) (a : Nat) : Reg :=
  match tget none a s.hst.frozen, regFields a with
  | some v, some fs =>
    let m := BitVec.ofNat 32 (statusMask fs)
    (v &&& m) ||| (liveReg s a &&& ~~~m)
  | _, _ => liveReg s a

end Sys2Proof.Machine
end

