-- ==== Sys2Proof/Machine/Commit.lean ====
section
/-! DEFINITION. The commit point: the release or discard of an item's outputs (06, 07, 08, 10). -/

namespace Sys2Proof.Machine

/-- A committed output on its way out of outlet staging (R165, R278). -/
structure Release where
  dest    : Bool
  partner : Nat
  cls     : Nat
  flow    : BitVec 16
  mtag    : BitVec 32
  delay   : Nat
  meta0   : Word
  bytes   : List Byte

/-- The payload of an output (R166). -/
def outputBytes (o : Output) : List Byte := (o.beats.flatMap fun v => toBytes 64 v).take o.len

/-- An output as it is released. -/
def releaseOf (o : Output) : Release :=
  ⟨o.dest, o.partner.toNat, o.cls.toNat, o.flow, o.mtag, o.delay.toNat, o.meta0, outputBytes o⟩

/-- An output that the master basin presents to ENG_1 (R301). -/
def toMaster (s : State) (l : Option Nat) (r : Release) : Bool :=
  r.dest && r.flow.toNat = 65535 && rdB s (at' pgIRP 0x64) 31 && l = some (rdF s (at' pgIRP 0x64) 0 5)

/-- An output for a partner with EN 0 or FAULT 1 (R242). -/
def noPartner (s : State) (r : Release) : Bool := !bit (partner0 s r.partner) 30 || tget false r.partner s.slu.pFault

/-- The lane of an output with DEST 0 (R178). -/
def releaseLane (s : State) (r : Release) : Nat := fld (partner0 s r.partner) 16 8

/-- The row groups that OUTLET may still take (R188, R325). -/
def outletRoom (s : State) : Nat :=
  ((List.range 128).map fun n =>
    let b := bankOf s n
    if b.typ = 3 && !b.drain && b.target.isNone then 1024 - heldGroups s n else 0).sum

/-- Read the partner entries that a commit names (R213): one that reads uncorrectable gets FAULT. -/
def touchPartners (rs : List Release) (s : State) : State :=
  (rs.filter fun r => !r.dest).foldl (fun t r =>
    let t := sluTouch 0 r.partner 0 2 t
    if sluUe t 0 r.partner 0 2 then withSlu (fun u => { u with pFault := tput false r.partner true u.pFault }) t else t) s

/-- Every output fits (R190, R241): a slot and payload rows for each new item, room in its lane's classes for each other. -/
def releasesFit (s : State) (l : Option Nat) (rs : List Release) : Bool :=
  let enter := rs.filter fun r => r.dest && !toMaster s l r
  let leave := rs.filter fun r => !r.dest && !noPartner s r
  (enter.filter fun r => fHome s r.flow.toNat = devIndex s).length ≤ freeSlots s
    && (enter.filter fun r => r.bytes ≠ []).length ≤ outletRoom s
    && leave.all fun r =>
      egressCount s (releaseLane s r) + (leave.filter fun q => releaseLane s q = releaseLane s r).length ≤ 4096

/-- Enter an output as a new item (R188, R190): its payload is written into rows that the outlet takes. -/
def enterItem (r : Release) (s : State) : State :=
  let g := if r.bytes = [] then none else freeGroup s 3
  let bank := g.getD 0 / 1024
  let row := 4 * (g.getD 0 % 1024)
  let s := match g with
    | some k => writeBytes bank row 0 r.bytes (takeGroup k (bankTouch bank (refuseHanded 3 bank s)))
    | none => s
  (itemArrive { flow := r.flow, len := r.bytes.length, mtag := r.mtag, delay := r.delay, meta0 := r.meta0, bank := BitVec.ofNat 7 bank,
                row := BitVec.ofNat 12 row, owner := if g.isSome then .outlet else .none } s).1

/-- Release one output (R168, R242, R301). -/
def releaseOne (l : Option Nat) (s : State) (r : Release) : State :=
  if toMaster s l r then
    if s.cfc.eng1.started && s.cfc.eng1.src = 5 then feedBytes true 5 r.bytes s else incF (engStatA true) 8 8 1 s
  else if r.dest then enterItem r s
  else if noPartner s r then noteDrop (2 * releaseLane s r + 1) 0x0716 (incF (at' pgSLU 0x78) 0 32 1 s)
  else setEgress (releaseLane s r) r.cls (egressOf s (releaseLane s r) r.cls ++ [⟨r.partner, r.meta0, r.bytes⟩]) s

/-- A service commits with its outputs (R168, R190, R204): the slot of its item is released first, then every output is released; nothing
happens while they do not all fit. Of a service that is not current the outputs are discarded. -/
def commitService (id : Nat) (l : Option Nat) (rs : List Release) (s : State) : Option State :=
  let rs := if mayRelease s id then rs else []
  let t := touchPartners rs (finishService id s)
  if !releasesFit t l rs then none
  else some (settle (rs.foldl (releaseOne l) t))

-- The commit point of a basin

/-- An item that waits at the commit point with a COMMIT (`true`) or an ABORT beat. -/
def endedItem (s : State) (n : Nat) (h : BitVec 20) (commit : Bool) : Option Flight :=
  (basinOf s n).items.find? fun i => i.handle = h && i.ended = some commit

/-- The implicit fence of an item has completed (R168): every access that the basin's ports accepted in or before the cycle of its COMMIT
beat is complete. -/
def implicitFenceDone (s : State) (n : Nat) (i : Flight) : Bool :=
  match i.fence with
  | none => true
  | some f => (List.range 4).all fun r => (rowPort s n r).cmds.all fun c => f.limit s ≤ c.seq

/-- The outlet of a basin acts on no COMMIT and no ABORT beat (R169, R210, R211): from a trap to the soft reset, and from any fault for which
Sluice removes the basin until its items are reissued. -/
def commitsStopped (s : State) (n : Nat) : Bool :=
  (basinOf s n).trapped || (match logicalOf s n with
    | some l => tget 0 l s.slu.failover = 2 || tget 0 l s.slu.failover = 3
    | none => false)

/-- A fence holds the commit point of an item (R172): one of scope BASIN or wider posted before its COMMIT or ABORT beat. A PORT fence of an outlet
holds none, since the beats before it stand in staging at once (log entry 334). -/
def endHeld (s : State) (n : Nat) (i : Flight) : Bool := fencesHold s n 8 i.endSeq

/-- The error of an item at its commit point: its own, or DIE_RESET where its outputs go into rows while D4 is in reset (R441). -/
def commitError (s : State) (i : Flight) : Option (BitVec 16) :=
  i.error.orElse fun _ =>
    if dieInReset s 4 && i.service % 2 = 0 && i.outs.any fun o => o.dest && o.len ≠ 0 then some 0x0201 else none

/-- An item leaves flight (R109): its staging slot and its intake credit are free. -/
def endFlight (n : Nat) (i : Flight) (s : State) : State :=
  let b := basinOf s n
  setBasin n { b with items := b.items.eraseP fun j => decide (j = i) } s

/-- Count an item ended as errored or aborted (R170). -/
def countItem (n : Nat) (aborted : Bool) (s : State) : State := incF (at' (pgBSN n) 0xEC) (if aborted then 16 else 0) 16 1 s

/-- The port and SERVICE of an item that a peer dispatched (R277). -/
def guestOf (i : Flight) : Option (Nat × Nat) :=
  if i.service % 2 = 1 then some (i.service / 2 / 65536, i.service / 2 % 65536) else none

/-- The four descriptor words of an output as an OUTPUT message carries them (R165, R275). -/
def outputWords (h : BitVec 20) (o : Output) : List Byte :=
  let w0 := h.toNat + b2n o.dest * 2 ^ 20 + o.cls.toNat * 2 ^ 21 + o.partner.toNat * 2 ^ 24 + o.flow.toNat * 2 ^ 36
  let w1 := o.len % 8192 + o.mtag.toNat * 2 ^ 32
  [w0, w1, o.delay.toNat, o.meta0.toNat].flatMap fun w => toBytes 8 (BitVec.ofNat 64 w)

/-- Send END of a remote service (R275, R278): KIND 0 COMMIT, 1 ABORT, 2 ITEM_ERR. -/
def sendEnd (p svc : Nat) (h : BitVec 20) (kind cause : Nat) (s : State) : State :=
  sendMsg p { kind := 3, ref := h, body := toBytes 2 (BitVec.ofNat 16 svc) ++ [BitVec.ofNat 8 kind] ++ toBytes 2 (BitVec.ofNat 16 cause),
              flits := 0 } s

/-- A remote service ends at this device's commit point (R278): its outputs, if it commits, and END go to its home, unless the link to it has been
lost or the basin's fault has been noticed (R279, R280). -/
def endGuest (n p svc : Nat) (i : Flight) (kind cause : Nat) (s : State) : State :=
  if s.enr.guests.any fun g => g.port = p && g.service = svc && g.basin = n then
    let s := { s with enr := { s.enr with guests := s.enr.guests.eraseP fun g => g.port = p && g.service = svc && g.basin = n } }
    let s := if kind = 0 then i.outs.foldl (fun t o =>
        sendMsg p { kind := 2, ref := i.handle, body := toBytes 2 (BitVec.ofNat 16 svc) ++ outputWords i.handle o ++ outputBytes o, flits := 0 } t) s
      else s
    sendEnd p svc i.handle kind cause s
  else s

/-- The payload rows that a remote dispatch took return to INTAKE (R187, R277). -/
def returnGuestRows (i : Flight) (s : State) : State :=
  returnGuest i.service i.bank.toNat i.row.toNat s

/-- An item ends errored (R168, R205, R278). -/
def endErrored (n : Nat) (i : Flight) (cause : Nat) (s : State) : State :=
  let s := countItem n false (endFlight n i s)
  match guestOf i with
  | some (p, svc) => settle (endGuest n p svc i 2 cause (returnGuestRows i s))
  | none => itemError (i.service / 2) cause s

/-- COMMIT_POINT (R168, R169, R190, R241): the item's outputs are released, or it ends errored. -/
def execCommitPoint (basin : Nat) (handle : BitVec 20) (s : State) : Host.Outcome State Fault Refusal :=
  .next (match endedItem s basin handle true with
    | none => s
    | some i =>
      if commitsStopped s basin || !implicitFenceDone s basin i || endHeld s basin i then s
      else match commitError s i with
        | some c => endErrored basin i c.toNat s
        | none =>
          match guestOf i with
          | some (p, svc) => settle (endGuest basin p svc i 0 0 (returnGuestRows i (endFlight basin i s)))
          | none =>
            match commitService (i.service / 2) (logicalOf s basin) (i.outs.map releaseOf) (endFlight basin i s) with
            | some t => t
            | none => s)

/-- ABORT_POINT (R168, R169): the item's outputs are discarded, and it completes without output. -/
def execAbortPoint (basin : Nat) (handle : BitVec 20) (s : State) : Host.Outcome State Fault Refusal :=
  .next (match endedItem s basin handle false with
    | none => s
    | some i =>
      if commitsStopped s basin || endHeld s basin i then s
      else
        let s := countItem basin true (endFlight basin i s)
        match guestOf i with
        | some (p, svc) => settle (endGuest basin p svc i 1 0 (returnGuestRows i s))
        | none => completeService (i.service / 2) s)

end Sys2Proof.Machine
end

