-- ==== Sys2Proof/Machine/MemDie.lean ====
section
/-! DEFINITION. The commands of the memory die: ownership, retention, the host window, self-test and repair (11). -/

namespace Sys2Proof.Machine

/-- IME is enabled (IME_CTRL.EN). -/
def imeOn (s : State) : Bool := rdB s (at' pgIME 0x40) 0

/-- SLU_CTRL.DISPATCH_EN. -/
def dispatchOn (s : State) : Bool := rdB s (at' pgSLU 0x40) 0

/-- The targets that banks 112 to 123 and the others may be handed to (R324). -/
def targetOk (bank typ : Nat) : Bool :=
  if 112 ≤ bank && bank < 120 then typ = 4 || typ = 0
  else if 120 ≤ bank && bank < 124 then typ = 5 || typ = 0
  else typ ≠ 4 && typ ≠ 5

/-- The bank is in use, so that a handover to `typ` is refused (R324). -/
def bankInUse (s : State) (bank typ : Nat) : Bool :=
  let b := bankOf s bank
  ((b.typ = 2 || b.typ = 3 || b.typ = 8) && 0 < heldGroups s bank) || (b.typ = 5 && imeOn s)
    || (b.typ = 7 && s.mem.saved = some bank) || !targetOk bank typ || (b.typ = 15 && typ ≠ 0)

/-- The owner types of R320. -/
def ownerTypes : List Nat := [0, 1, 2, 3, 4, 5, 6, 7, 8, 15]

/-- A write of BANK_OWNER_n (R323 to R325, R177): dropped while BUSY, refused, a handover, or a change of DRAIN only. -/
def bankOwnerWrite (bank : Nat) (v : Reg) : State → State := posted pgBANK fun s =>
  let b := bankOf s bank
  let typ := fld v 0 4
  let basin := fld v 8 5
  if !ownerTypes.contains typ then setFault pgBANK reservedValue s
  else if 112 ≤ bank && bank < 120 && dispatchOn s then setFault pgBANK 0x0642 s
  else if typ = b.typ && basin = b.basin then setBank bank { b with drain := bit v 30 } s
  else if bankInUse s bank typ then setFault pgBANK 0x0902 s
  else setBusy pgBANK true (setBank bank { b with target := some (typ, basin, bit v 29 || b.typ = 15) } s)

/-- HANDOVER: a write of BANK_OWNER_n that changes the owner (R323). -/
def execHandover (bank : BitVec 7) (v : Reg) (s : State) : Host.Outcome State Fault Refusal :=
  .next (bankOwnerWrite bank.toNat v s)

/-- DRAIN_WRITE: a write of BANK_OWNER_n that changes only DRAIN (R325). -/
def execDrainWrite (bank : BitVec 7) (v : Reg) (s : State) : Host.Outcome State Fault Refusal :=
  .next (bankOwnerWrite bank.toNat v s)

/-- The descriptor slots in a bank of 112 to 119 (R186). -/
def slotInBank (bank n : Nat) : Bool := 112 ≤ bank && bank < 120 && n / 32768 = bank - 112

/-- A cleared bank of the descriptor store loses the items of its slots (R177, R186): the slots are as the hardware fill leaves them, and no
queue links to them (log entry 314). -/
def clearStore (bank : Nat) (s : State) : State :=
  { s with slu := { s.slu with
    slots := s.slu.slots.filter fun q => !slotInBank bank q.1
    damage := s.slu.damage.filter fun d => !(d.struct = 3 && slotInBank bank d.entry)
    flows := (s.slu.flows.map fun q => (q.1, { q.2 with queue := q.2.queue.filter fun n => !slotInBank bank n })).filter
      fun q => decide (q.2 ≠ FlowDyn.zero) } }

/-- The (bank, row) pairs that `len` bytes from a BAR 2 offset touch (R328). -/
def bar2Rows (off len : Nat) : List (Nat × Nat) :=
  (List.range ((off + len - 1) / 1024 - off / 1024 + 1)).map fun i =>
    (((off / 1024 + i) / 4096) % 128, (off / 1024 + i) % 4096)

/-- The rows that a host request touches. -/
def hostRows (q : HostReq) : List (Nat × Nat) :=
  match q with
  | .read off len => bar2Rows off len
  | .write off bytes => bar2Rows off bytes.length

/-- A request that a bank has accepted has not completed (R323, R326): a row command of a basin, a host request, a message, a test. -/
def bankPending (s : State) (bank : Nat) : Bool :=
  (s.fab.rows.any fun p => p.2.cmds.any fun c => decide (c.kind.toNat < 2) && c.fault.isNone && fld c.word 0 7 = bank)
    || (s.mem.host.any fun q => (hostRows q).any fun p => p.1 = bank) || (s.enr.stalled.any fun x => x.bank = bank) || s.mem.mbist = some bank

/-- The end of a handover (R323): any clear is done, the owner changes, DRAIN and BUSY clear, IRQ_STAT bit 0 is set. -/
def handoverEnd (bank : Nat) (s : State) : State :=
  let b := bankOf s bank
  match b.target with
  | none => s
  | some (typ, basin, clr) =>
    let s := if clr || typ = 15 then clearStore bank (clearBank bank s) else s
    let b := { b with typ := typ, basin := basin, drain := false, target := none, ret := b.ret && !clr && typ ≠ 15,
                      waking := b.waking && !clr }
    setIrq pgBANK 0 (setBusy pgBANK false (setBank bank b s))

/-- HANDOVER_DONE (R323): once every operation that the bank had accepted has completed. -/
def execHandoverDone (bank : BitVec 7) (s : State) : Host.Outcome State Fault Refusal :=
  .next (if bankPending s bank.toNat then s else handoverEnd bank.toNat s)

/-- The bank may enter retention (R326): not RETIRED, no request or operation in progress, and its bit set, owned by NONE, or the mode
SIMMER. -/
def mayRetain (s : State) (bank : Nat) : Bool :=
  let b := bankOf s bank
  b.typ ≠ 15 && !b.ret && !b.waking && b.target.isNone && !b.clearing && !bankPending s bank
    && (b.typ = 0 || modeOf s = mSIMMER || rdB s (at' pgBANK (0x50 + 4 * (bank / 32))) (bank % 32))

/-- RETENTION_ENTRY (R326). -/
def execRetentionEntry (bank : BitVec 7) (s : State) : Host.Outcome State Fault Refusal :=
  .next (if mayRetain s bank.toNat then setBank bank.toNat { bankOf s bank.toNat with ret := true } s else s)

/-- BANK_RET_WRITE (R326, R327): the requests, and the wake of each bank whose bit is cleared. -/
def execBankRetWrite (k : BitVec 2) (v : Reg) (s : State) : Host.Outcome State Fault Refusal :=
  let a := at' pgBANK (0x50 + 4 * k.toNat)
  let old := rd s a
  .next (guarded pgBANK (fun s =>
    (List.range 32).foldl (fun t i => if bit old i && !bit v i then bankTouch (32 * k.toNat + i) t else t) (wr a v s)) s)

/-- Record the refusal of every row of a host request that HOST does not own (R321, R328). -/
def bar2Refuse (rs : List (Nat × Nat)) (s : State) : State :=
  rs.foldl (fun t p => if bankOwned s p.1 6 0 then t else bankRefuse 6 0 p.1 p.2 t) s

/-- The byte mask and the data that a list of optional bytes gives for one row, `o` bytes into the list. -/
def rowPart (bs : List (Option Byte)) : BitVec 1024 × BitVec 8192 :=
  (bs.zipIdx).foldl (fun (a : BitVec 1024 × BitVec 8192) p => match p.1 with
    | some b => (a.1 ||| BitVec.ofNat 1024 (2 ^ p.2), setFld a.2 (8 * p.2) 8 b.toNat)
    | none => a) (0, 0)

/-- Carry out an accepted host request (R319, R328): a read answers with the bytes, poisoned where a requested byte is uncorrectable; a write
is a masked write of each row. -/
def hostDo (q : HostReq) (s : State) : State :=
  let rs := hostRows q
  match q with
  | .read off len =>
    let r := readBytes s ((off / 1024 / 4096) % 128) ((off / 1024) % 4096) (off % 1024 + len)
    let bad := rs.zipIdx.any fun p =>
      rowUe s p.1.1 p.1.2 (if p.2 = 0 then off % 1024 else 0) (min 1024 (off % 1024 + len - 1024 * p.2))
    send (if bad then .readPoisoned off else .readBytes off (r.1.drop (off % 1024))) (rs.foldl (fun t p => rowLog p.1 p.2 t) s)
  | .write off bytes =>
    let padded := List.replicate (off % 1024) none ++ bytes
    rs.zipIdx.foldl (fun t p =>
      let m := rowPart ((padded.drop (1024 * p.2)).take 1024)
      rowWrite p.1.1 p.1.2 m.1 m.2 t) s

/-- A host request waits (R327): a bank of it is not awake, or an earlier request for that bank waits. -/
def hostWaits (q : HostReq) (s : State) : Bool :=
  (hostRows q).any fun p => !bankAwake s p.1 || s.mem.host.any fun h => (hostRows h).any fun r => r.1 = p.1

/-- An accepted host request wakes its banks, and is carried out or waits (R327). -/
def hostTry (s : State) (q : HostReq) : State :=
  let t := (hostRows q).foldl (fun t p => bankTouch p.1 t) s
  if hostWaits q t then { t with mem := { t.mem with host := t.mem.host ++ [q] } } else hostDo q t

/-- BAR2_READ (R328, R319, R327, R441, R483): Unsupported Request in D3hot, Completer Abort where HOST does not own a bank or D4 is in reset,
poisoned where a requested byte is uncorrectable, else the bytes, once its banks are awake. -/
def execBar2Read (offset : BitVec 29) (len : Nat) (s : State) : Host.Outcome State Fault Refusal :=
  let off := offset.toNat
  let rs := bar2Rows off len
  .next (if s.hst.d3 then send (.unsupported off) s
    else if s.mod.dieReset = some 4 then send (.completerAbort off) s
    else if !rs.all fun p => bankOwned s p.1 6 0 then send (.completerAbort off) (bar2Refuse rs s)
    else hostTry s (.read off len))

/-- BAR2_WRITE (R328, R317, R327): a masked write of the rows touched, dropped and recorded where HOST does not own a bank. -/
def execBar2Write (offset : BitVec 29) (bytes : List (Option Byte)) (s : State) : Host.Outcome State Fault Refusal :=
  let off := offset.toNat
  let rs := bar2Rows off bytes.length
  .next (if s.hst.d3 || s.mod.dieReset = some 4 then s
    else if !rs.all fun p => bankOwned s p.1 6 0 then bar2Refuse rs s
    else hostTry s (.write off bytes))

/-- The requests and messages that waited for a bank go on where their banks are awake, in their order (R327). -/
def serveWaiting (s : State) : State :=
  let s := s.enr.stalled.foldl sendPayload { s with enr := { s.enr with stalled := [] } }
  s.mem.host.foldl hostTry { s with mem := { s.mem with host := [] } }

/-- BANK_WAKE_DONE (R327). -/
def execBankWakeDone (bank : BitVec 7) (s : State) : Host.Outcome State Fault Refusal :=
  .next (if (bankOf s bank.toNat).waking then
      serveWaiting (setBank bank.toNat { bankOf s bank.toNat with waking := false } s)
    else s)

/-- MBIST_START (R329): dropped while BUSY, refused unless BIST owns the bank and it holds no saved state. -/
def execMbistStart (bank : BitVec 7) (s : State) : Host.Outcome State Fault Refusal :=
  let n := bank.toNat
  .next (posted pgBANK (fun s =>
    if (bankOf s n).typ ≠ 7 then setFault pgBANK 0x0904 s
    else if s.mem.saved = some n then setFault pgBANK 0x0902 s
    else setBusy pgBANK true { s with mem := { s.mem with mbist := some n } }) s)

/-- The failures of a run by row, and within a row by column, each once and ascending (R329). -/
def mbistRows (fails : List (Nat × List Nat)) : Tab (Tab Bool) :=
  fails.foldl (fun t p =>
    tput [] (p.1 % 4096) (p.2.foldl (fun c x => tput false (x % 2 ^ 14) true c) (tget [] (p.1 % 4096) t)) t) []

/-- The failure records of an MBIST run in ascending row order (R329): one per failing column, or one row failure for a row with more than
four. -/
def mbistRecords (fails : List (Nat × List Nat)) : List Nat :=
  (mbistRows fails).flatMap fun p =>
    if 4 < p.2.length then [2 ^ 31 + 2 ^ 30 + p.1 * 2 ^ 14 + (p.2.head?.map (·.1)).getD 0]
    else p.2.map fun c => 2 ^ 31 + p.1 * 2 ^ 14 + c.1

/-- One bit per spare number assigned. -/
def spareBits (l : List (Nat × Nat)) : Nat := l.foldl (fun a p => a ||| 2 ^ p.1) 0

/-- MBIST_DONE (R329): every row zero, up to 16 failures recorded in ascending row order, the result, IRQ_STAT bit 2. -/
def execMbistDone (fails : List (Nat × List Nat)) (s : State) : Host.Outcome State Fault Refusal :=
  .next (match s.mem.mbist with
    | none => s
    | some n =>
      let rs := mbistRecords fails
      let s := clearBank n s
      let s := (List.range 16).foldl (fun t i => wr (at' pgBANK (0x80 + 4 * i)) (BitVec.ofNat 32 (rs.getD i 0)) t) s
      let b := bankOf s n
      let st := min rs.length 255 * 2 ^ 24 + b2n (16 < rs.length) * 2 ^ 23 + b2n rs.isEmpty * 2 ^ 22
        + spareBits b.rows * 2 ^ 12 + spareBits b.cols * 2 ^ 8 + n
      setIrq pgBANK 2 (setBusy pgBANK false
        { wr (at' pgBANK 0x74) (BitVec.ofNat 32 st) s with mem := { s.mem with mbist := none } }))

/-- A run-time repair (R330): dropped while BUSY, refused, or assigned with the bank's clear in progress. -/
def assignSpare (bank spare addr : Nat) (col : Bool) : State → State := posted pgBANK fun s =>
  let b := bankOf s bank
  if (if col then 9216 ≤ addr || 4 ≤ spare else 4096 ≤ addr) then setFault pgBANK reservedValue s
  else if b.typ ≠ 7 && b.typ ≠ 0 then setFault pgBANK 0x0905 s
  else if (if col then b.cols else b.rows).any fun p => p.1 = spare then setFault pgBANK 0x0906 s
  else setBusy pgBANK true (setBank bank
    (if col then { b with cols := b.cols ++ [(spare, addr)], clearing := true }
     else { b with rows := b.rows ++ [(spare, addr)], clearing := true }) s)

/-- SPARE_ROW (R330). -/
def execSpareRow (bank : BitVec 7) (spare : BitVec 3) (addr : BitVec 14) (s : State) : Host.Outcome State Fault Refusal :=
  .next (assignSpare bank.toNat spare.toNat addr.toNat false s)

/-- SPARE_COLUMN (R330). -/
def execSpareColumn (bank : BitVec 7) (spare : BitVec 3) (addr : BitVec 14) (s : State) : Host.Outcome State Fault Refusal :=
  .next (assignSpare bank.toNat spare.toNat addr.toNat true s)

/-- REPAIR_CLEAR_DONE (R330): the bank is cleared and BUSY clears. -/
def execRepairClearDone (bank : BitVec 7) (s : State) : Host.Outcome State Fault Refusal :=
  let b := bankOf s bank.toNat
  .next (if b.clearing then
      setBusy pgBANK false (setBank bank.toNat { b with clearing := false } (clearStore bank.toNat (clearBank bank.toNat s)))
    else s)

end Sys2Proof.Machine
end

