-- ==== Sys2Proof/Machine/ModeOps.lean ====
section
/-! DEFINITION. The shared operations of the mode machine: EMBER, DORMANT, bring-up steps, what the modes do to each unit (15, 16, 17). -/

namespace Sys2Proof.Machine

/-- Replace the mode machine's record. -/
def withMod (u : Modes → Modes) (s : State) : State := { s with mod := u s.mod }
/-- Replace the clock record. -/
def withClk (u : Clk → Clk) (s : State) : State := { s with clk := u s.clk }
/-- Replace the record of the housekeeping round. -/
def withThm (u : Thm → Thm) (s : State) : State := { s with thm := u s.thm }

/-- MODE_STAT. -/
def modeStatA : Nat := at' pgMODE 0x40
/-- CLK_SRC_STAT. -/
def srcStatA : Nat := at' pgCLK 0x40
/-- CLK_PLL_STAT. -/
def pllStatA : Nat := at' pgCLK 0x54
/-- PWR_DIE_STAT. -/
def dieStatA : Nat := at' pgPWR 0x40
/-- The bring-up step in progress. -/
def stepOf (s : State) : Nat := rdF s modeStatA 4 4
/-- SRC: 0 START, 1 XO_CHECK, 2 REFA, 3 REFB, 4 XO, 5 ITO. -/
def srcOf (s : State) : Nat := rdF s srcStatA 0 3
/-- A die is powered (R442). -/
def diePowered (s : State) (d : Nat) : Bool := rdB s dieStatA (d - 1)

/-- The device enters a mode; MODE_CHANGE is set (R429, R442). -/
def setMode (m : Nat) (s : State) : State :=
  if modeOf s = m then s else setIrq pgMODE 0 (wrF modeStatA 4 4 0 (wrF modeStatA 0 3 m s))

/-- A mode command is refused (R429). -/
def modeRefuse (cause : Nat) (s : State) : State := setIrq pgMODE 2 (setFault pgMODE cause s)

/-- A transition of the mode machine begins or ends: BUSY of the MODE page (R429). -/
def setModeStep (k : ModeStep) (s : State) : State := setBusy pgMODE (k ≠ .none) (withMod (fun m => { m with step := k }) s)

/-- DEV_READY goes low (R437, R440). -/
def unready (s : State) : State := wrF 0x040 0 1 0 s

-- What low-power modes and EMBER do to the units

/-- An in-service item returns to the head of its flow's queue with REISSUE = 1, counting toward no limit (R437). -/
def abandonService (s : State) (v : Service) : State :=
  let s := endService v s
  if v.current then pushHead v.flow.toNat v.slot (setSlot v.slot { slotOf s v.slot with reissue := true, service := none } s) else s

/-- The ports of a basin hold nothing in flight; the rows of peers' items return (R325). -/
def emptyBasin (n : Nat) (s : State) : State :=
  let b := basinOf s n
  let s := returnDeliveries (b.in0.waiting ++ b.in1.waiting) (returnFlights b.items s)
  setBasin n { b with items := [], in0 := { b.in0 with waiting := [], beat := none, rest := [] },
                      in1 := { b.in1 with waiting := [], beat := none, rest := [] }, taken0 := none, taken1 := none } s

/-- Every item in flight is abandoned (R437 step 2), the dispatch order kept within each flow. -/
def abandonItems (s : State) : State :=
  let s := (List.range 34).foldl (fun t n => emptyBasin n t) (withSlu (fun u => { u with transit := [] })
    (returnDeliveries (s.slu.transit.map (·.2.2)) s))
  settle (s.slu.services.reverse.foldl abandonService s)

/-- Every basin enters DEEP (R434, R437). -/
def basinsDeep (s : State) : State :=
  (List.range 34).foldl (fun t n => setBasin n { basinOf t n with power := .deep, waking := false } t) s

/-- Every bank that is not RETIRED enters retention (R434, R437); one for which a request waits goes on waking. -/
def banksRetain (s : State) : State :=
  (List.range 128).foldl (fun t n =>
    let b := bankOf t n
    if b.typ = 15 then t else setBank n { b with ret := !bankPending t n, waking := bankPending t n } t) s

/-- Banks leave retention but for those of NONE and those whose BANK_RET_k bit is 1 (R326, R435). -/
def banksWake (s : State) : State :=
  (List.range 128).foldl (fun t n =>
    let b := bankOf t n
    if b.typ = 15 || b.typ = 0 || rdB t (at' pgBANK (0x50 + 4 * (n / 32))) (n % 32) then t
    else setBank n { b with ret := false } t) s

/-- The DRAM controller as SIMMER and EMBER leave it (R346): SR from READY, OFF from INIT, TRAIN and FILL. -/
def dramSleep (s : State) : State :=
  if drcState s = dREADY then toDram (.selfRefresh true) (setDrcState dSR (withDrm (fun d => { d with rows := [] }) s))
  else if drcState s = dINIT || drcState s = dTRAIN || drcState s = dFILL then
    toDram (.reset true) (setBusy pgDRC0 false (withIme (fun i => { i with filling := [] }) (setDrcState dOFF s)))
  else s

/-- The DRAM controller leaves SR (R346, R435, R438), but not one that a warm reset put there. -/
def dramWake (s : State) : State := if drcState s = dSR && !s.drm.warm then leaveSr s else s

/-- The fabric, lane and DRAM PLLs stop (R434). -/
def stopPlls (s : State) : State := wrF pllStatA 29 1 0 (wrF pllStatA 31 1 0 s)

/-- Out of EMBER a lane of a bonded group has no state of its own (R219, R254). -/
def groupLanes (s : State) : State :=
  if modeOf s = mEMBER then s
  else (s.lan.lifelines.filter fun l => decide (leadOf s l ≠ l)).foldl (fun t l => setLaneState l .disabled t) s

/-- Every lane by its settings and the mode (R229, R254). -/
def lanesSettle (s : State) : State :=
  let s := groupLanes s
  (List.range 36).foldl (fun t q => (quadLeads t q).foldl (fun u l => if l / 4 = q then laneSettle l u else u) t) s

-- EMBER

/-- A group whose GROUP_EMPTY leads to EMBER (R436): every local pair with V = 1 names a basin offline with a cause other than
OFFLINE_HOST. -/
def groupDead (s : State) (g : Nat) : Bool :=
  (groupPairs s g).all fun p =>
    !(pairV p.2 && pairDev p.2 = devIndex s)
      || (offline s (pairBasin p.2) && (tget 0 (pairBasin p.2) s.slu.cause).toNat ≠ 0x0613)

/-- A spare physical basin is left (R436). -/
def spareLeft (s : State) : Bool :=
  (List.range 34).any fun n => (logicalOf s n).isNone && !rdB s (at' (pgBSN n) 0x50) 31

/-- The EMBER condition of R436 that comes first, by its cause. -/
def emberCondition (s : State) : Option Nat :=
  if srcOf s = 5 then some (if rdF s srcStatA 16 16 = 0x0104 then 0x0104 else 0x0103)
  else if s.clk.failed.any (· < 3) then some 0x0106
  else if rdF s (at' pgTHM 0x5C) 0 23 ≠ 0 then some 0x0203
  else if s.mod.throttle ≠ 0 then some 0x0204
  else if rdB s (at' pgMODE 0x48) 16 && !spareLeft s
      && s.slu.flows.any (fun q => q.2.emptyRaised && groupDead s (fGroup s q.1)) then some 0x0643
  else none

/-- Entry into EMBER (R437) from BRINGUP, SERVICE or SIMMER. -/
def enterEmber (cause : Nat) (s : State) : State :=
  let m := modeOf s
  if !(m = mBRINGUP || m = mSERVICE || m = mSIMMER) then s
  else
    let at0 := if m = mBRINGUP then stepOf s else 0
    let s := hdmaHaltAll 15 0x0D05 (unready s)
    let s := banksRetain (dramSleep (basinsDeep (abandonItems s)))
    let s := withMod (fun x => { x with emberAt := at0 }) (setModeStep .none (stopPlls s))
    let s := setIrq pgMODE 1 (setMode mEMBER (wrF modeStatA 16 16 cause s))
    lanesSettle (enrEvalAll s)

/-- EMBER is entered from SERVICE or SIMMER where a condition holds (R429, R436). -/
def emberCheck (s : State) : State :=
  if modeOf s = mSERVICE || modeOf s = mSIMMER then
    match emberCondition s with
    | some c => enterEmber c s
    | none => s
  else s

-- DORMANT, power, reset

/-- The registers of the always-on domain that keep their values in DORMANT (log entry 50). -/
def aonRegs : List Nat :=
  [0x040, 0x054, modeStatA, at' pgMODE 0x50, dieStatA, srcStatA, at' pgTHM 0x70, at' pgSEC 0x50]

/-- The registers after a reset of D0: those that `keep` names, the fused grade, and the PLL setting that the grade gives (R3, R426). -/
def coldRegs (keep : Nat → Bool) (s : State) : Tab Reg :=
  let l := s.regs.filter fun r => keep r.1 || r.1 = 0x004
  if gradeS2 s then tput 32 0x204C 28 l else l

/-- The settings of the IME regions, which outlive a warm reset and DORMANT (R379). -/
def imeSetup (a : Nat) : Bool := a / 0x1000 = 0xD && 0x200 ≤ a % 0x1000 && a % 0x1000 < 0x400

/-- What a reset of D0 leaves: nothing but the nonvolatile stores, the always-on registers and what is outside the block. -/
def coldState (keep : Nat → Bool) (s : State) : State :=
  { State.reset with
    pending := s.pending, free := s.free, outbox := s.outbox
    regs := coldRegs keep s
    sec := { Sec.zero with otp := s.sec.otp, drbgNo := s.sec.drbgNo }
    cfc := { Cfc.zero with blocks := s.cfc.blocks, counts := s.cfc.counts, valid := s.cfc.valid, storeBad := s.cfc.storeBad }
    mod := { Modes.zero with bootSel := s.mod.bootSel, devId := s.mod.devId, testMode := s.mod.testMode, power := s.mod.power,
                             wakeFault := s.mod.wakeFault, resetHeld := s.mod.resetHeld }
    thm := { Thm.zero with trip := s.thm.trip, tripped := s.thm.tripped }
    hst := { HostIf.zero with jtagIr := s.hst.jtagIr } }

/-- The device is in DORMANT (R428, R439): everything outside the always-on domain is lost, the dies are off, the DRAM is in reset and the
source machine waits for a wake. SEALED ends with power alone (R402, R429). -/
def enterDormant (s : State) : State :=
  if modeOf s = mSEALED then s else
  let s := toDram (.reset true) s
  let s := coldState (fun a => aonRegs.contains a || imeSetup a) s
  let s := wrF dieStatA 4 4 0 (wrF dieStatA 0 4 0 (wrF srcStatA 0 16 0 s))
  wrF modeStatA 0 16 mDORMANT (unready s)

/-- Bring-up begins at step 1 (R429, R432): after power good, and at a wake from DORMANT. -/
def beginBringup (s : State) : State :=
  let s := withThm (fun t => { t with tripped := false }) (withMod (fun m => { m with wakeFault := false }) s)
  wrF modeStatA 4 4 1 (setMode mBRINGUP (wrF srcStatA 0 16 0 s))

-- Bring-up

/-- Enter a step of bring-up; Enrus ports run from step 6 on (R432). -/
def setStep (k : Nat) (s : State) : State :=
  let s := wrF modeStatA 4 4 k s
  if k = 6 then enrEvalAll s else s

/-- A step of bring-up is in progress. -/
def inStep (s : State) (k : Nat) : Bool := modeOf s = mBRINGUP && stepOf s = k

/-- The dies in the order in which they are switched on (R431). -/
def dieOrder : List Nat := [2, 1, 3, 4]

/-- Steps 3 to 5 end with what the clocks have reached (R432): ITO judged, a system source, the fabric and base PLLs locked; a system
source ITO at step 4 leads to EMBER. With TEST_MODE high bring-up stops at the end of step 5 (R515). -/
def clockSteps : Nat → State → State
  | 0, s => s
  | n + 1, s =>
    if inStep s 3 && rdB s srcStatA 6 && srcOf s ≠ 0 then clockSteps n (setStep 4 s)
    else if inStep s 4 && srcOf s = 5 then enterEmber 0x0103 s
    else if inStep s 4 && 2 ≤ srcOf s then clockSteps n (setStep 5 s)
    else if inStep s 5 && rdB s pllStatA 31 && rdB s pllStatA 30 && !s.mod.testMode then setStep 6 s
    else s

/-- Bring-up follows the clocks. -/
def followClocks (s : State) : State := clockSteps 4 s

end Sys2Proof.Machine
end

