-- ==== Sys2Proof/Machine/SluDispatch.lean ====
section
/-! DEFINITION. The dispatch slot of Sluice (07). -/

namespace Sys2Proof.Machine

/-- The dispatch slots used among the last 31 (R451). -/
def slotsUsed (s : State) : Nat := ((s.thm.slots.take 31).filter fun b => b).length

/-- The slot may be used: while THROTTLE is set at most 2 * FRACTION of every 32 consecutive slots are (R451). -/
def throttleAllows (s : State) : Bool :=
  !rdB s (at' pgTHM 0x40) 17 || slotsUsed s < 2 * rdF s (at' pgTHM 0x48) 0 5

/-- Record whether a dispatch slot was used (R451). -/
def noteSlot (used : Bool) (s : State) : State := withThm (fun t => { t with slots := (used :: t.slots).take 31 }) s

/-- Read a group entry; an uncorrectable one stays without a selectable pair, and is not read again, until it is rewritten and applied
(R213). -/
def touchGroup (g : Nat) (s : State) : State :=
  if tget false g s.slu.groupFix then s
  else
    let ue := sluUe s 2 g 0 8
    let s := sluTouch 2 g 0 8 s
    if ue then withSlu (fun u => { u with groupFix := tput false g true u.groupFix }) s else s

/-- A dispatch slot reads the group entries of the flows that it looks at: the first 16 of each priority (R191, R213). -/
def touchReady (s : State) : State :=
  (List.range 16).foldl (fun t p => ((readyList t p).take 16).foldl (fun u f => touchGroup (fGroup u f) u) t) s

/-- The reads of a dispatch: the flow entry and the slot's link quarantine the flow, the slot's other words send the item to the
exception ring (R213). The result says whether the dispatch may go on. -/
def dispatchReads (f n : Nat) (s : State) : State × Bool :=
  let bad := sluUe s 1 f 0 4 || sluUe s 3 n 7 8
  let s := sluTouch 3 n 0 8 (sluTouch 1 f 0 4 s)
  if bad then (quarantineFlow f s, false)
  else if sluUe s 3 n 0 7 then (toException n 0x0633 (unqueue f n s), false)
  else (s, true)

/-- A dispatch record on the trace port (R523): flow, logical basin and plane, 25 bits from the lowest, on two edges of 23 bits, of which
the first has bit 22 set (log entry 29). -/
def dispatchRecord (f basin plane : Nat) : BitVec 192 :=
  let r := f % 2 ^ 16 + basin % 32 * 2 ^ 16 + plane % 16 * 2 ^ 21
  BitVec.ofNat 192 (r % 2 ^ 22 + 2 ^ 22 + r / 2 ^ 22 * 2 ^ 23)

/-- The record of a dispatch on the trace port (R523). -/
def traceDispatch (f pair : Nat) (s : State) : State :=
  traceOut 0 (dispatchRecord f (pairBasin pair) (pairPlane pair)) s

/-- One flow's turn in a dispatch slot, from the state before the slot and the state after the pick: the whole slot is undone where its
timeout gets no entry of delay list 2 (R194, R201). The result says whether the slot was used. -/
def dispatchFlow (before : State) (f : Nat) (s : State) : State × Bool :=
  match (flowDyn s f).queue with
  | [] => (s, false)
  | n :: _ =>
    let r := dispatchReads f n s
    if !r.2 then (r.1, false)
    else
      let s := r.1
      match selectPair s (fGroup s f) with
      | none => (s, false)
      | some pair =>
        if 0 < fSvcTo s f && 65536 ≤ delayUsed s then (before, false)
        else (traceDispatch f pair.2 (dispatchTo f n pair s), true)

/-- A dispatch slot of an enabled dispatcher (R191, R192, R194, R196). -/
def dispatchSlot (s : State) : State :=
  let s := touchReady (groupEmptyCheck s)
  let p := pickFlow s
  match p.1 with
  | none => noteSlot false p.2
  | some f =>
    let r := dispatchFlow s f p.2
    noteSlot r.2 r.1

/-- DISPATCH (R192, R194, R207, R428, R437, R451): one dispatch slot. -/
def execDispatch (slot : Bool) (s : State) : Host.Outcome State Fault Refusal :=
  let _ := slot
  .next (if rdB s (at' pgSLU 0x40) 0 && !workHeld s && throttleAllows s then emberCheck (settle (dispatchSlot s)) else noteSlot false s)

end Sys2Proof.Machine
end

