-- ==== Sys2Proof/Machine/Sluice.lean ====
section
/-! DEFINITION. The commands of the Sluice dispatcher, but for its tables and the dispatch slot (07). -/

namespace Sys2Proof.Machine

/-- The owner that wrote the payload rows of an item, from its bank's owner type (R187, R320). -/
def ownerOfBank (s : State) (bank : Nat) : RowOwner :=
  match (bankOf s bank).typ with
  | 2 => .intake
  | 3 => .outlet
  | 8 => .outlet
  | _ => .none

/-- ITEM_ARRIVAL (R188, R189, R190): an item arrives; where its home is this device and no slot is free, it stays with its source. -/
def execItemArrival (flow : BitVec 16) (len : BitVec 13) (mtag delay : BitVec 32) (meta0 : Word) (bank : BitVec 7) (row : BitVec 12)
    (s : State) : Host.Outcome State Fault Refusal :=
  let a : Arrival := { flow := flow, len := len.toNat, mtag := mtag, delay := delay.toNat, meta0 := meta0, bank := bank, row := row,
                       owner := ownerOfBank s bank.toNat }
  .next (match itemArrive a s with
    | (t, true) => settle t
    | (_, false) => s)

/-- The delay entry of list 0 (`high`) or 1 that expires first, the earliest entered among equals (R201). -/
def firstDelay (s : State) (high : Bool) : Option DelayEntry :=
  (s.slu.delays.filter fun d => d.high = high).foldl (fun o d => match o with
    | none => some d
    | some e => if d.expiry < e.expiry then some d else some e) none

/-- DELAY_EXPIRY (R201, R213): the entry at the head of list 0 or 1 expires at its tick, or at once where it reads uncorrectable. -/
def execDelayExpiry (list : Bool) (s : State) : Host.Outcome State Fault Refusal :=
  .next (match firstDelay s (!list) with
    | none => s
    | some e =>
      let ue := sluUe s 5 e.slot 0 2
      let s := sluTouch 5 e.slot 0 2 s
      if e.expiry ≤ (tickNow s).toNat || ue then
        let s := withSlu (fun u => { u with delays := u.delays.filter fun d => decide (d ≠ e) }) (sluMend 5 e.slot 0 2 s)
        let s := delayLinks (b2n list) e.expiry s
        settle (pushTail (slotOf s e.slot).flow.toNat e.slot s)
      else s)

/-- An entry is due before another one of its list, or entered before it with the same tick (R201): `a` and `b` are expiry ticks, `i` and `j`
the order of entry. -/
def dueBefore (a i b j : Nat) : Bool := a < b || (a = b && i < j)

/-- A matching timeout stands at the head of list 3 (R201). -/
def matchHead (s : State) (m : MatchEntry) (t : Nat) : Bool :=
  let l := s.slu.matching.zipIdx
  l.all fun q => q.1 = m || (match q.1.deadline with
    | some u => !dueBefore u q.2 t (l.findIdx fun r => r.1 = m)
    | none => true)

/-- MATCH_TIMEOUT (R198, R201, R213): at its timeout, or where its delay entry reads uncorrectable at the head of list 3, an incomplete set is
fused or goes to the exception ring; so do the items of a matching entry that reads uncorrectable. -/
def execMatchTimeout (flow : BitVec 16) (mtag : BitVec 32) (s : State) : Host.Outcome State Fault Refusal :=
  .next (match s.slu.matching.find? fun m => m.flow = flow && m.mtag = mtag with
    | none => s
    | some m => match m.deadline with
      | none => s
      | some t =>
        let k := m.slots.head?.getD 0
        let ue := sluUe s 5 k 0 2
        if !matchHead s m t || !(t ≤ (tickNow s).toNat || ue) then s
        else
          let f := flow.toNat
          let r := readMatch m (sluMend 5 k 0 2 (sluTouch 5 k 0 2 s))
          settle (if !r.2 then r.1
            else
              let s := dropMatch m r.1
              if bit (flowW0 s f) 31 then fuseItems f m.slots s else m.slots.foldl (fun a n => toException n 0x0622 a) s))

/-- A flit that is being sent again carries a part of an item's dispatch (R203): its DISPATCH message names the item's handle. -/
def resendsItem (e : EnrPort) (h : BitVec 20) : Bool :=
  e.kept.any fun k => decide (1 < k.sends) && k.vc = 0 && (ofBytes 32 (k.payload.take 4)).toNat / 2 ^ 27 = 0
    && (ofBytes 32 (k.payload.take 4)).toNat % 2 ^ 20 = h.toNat

/-- A lower-level retry is in progress for the item of a service (R203): a resend of its dispatch to its device, flits that this side has asked
its device to send again and that may carry its completion (log entry 313), or the wake of a bank for one of the item's row commands. -/
def serviceFrozen (s : State) (v : Service) : Bool :=
  if v.dev.toNat = devIndex s then
    let n := physOf s v.basin.toNat
    (List.range 4).any fun r => (rowPort s n r).cmds.any fun c =>
      !c.far && c.fault.isNone && cmdHandle c.word = handleOf s v.slot && (bankOf s (cmdBank c.word)).waking
  else match portTo s v.dev with
    | some p => resendsItem (enrPort s p) (handleOf s v.slot) || (enrPort s p).nakSent
    | none => false

/-- A service timeout stands at the head of list 2, entries held by R203 apart (R201). -/
def serviceHead (s : State) (v : Service) (t : Nat) : Bool :=
  s.slu.services.all fun w => w.id = v.id || (w.current && serviceFrozen s w) || (match w.deadline with
    | some u => !dueBefore u w.id t v.id
    | none => true)

/-- E, K and M of SLU_TO_WINDOW; E is K (R465). -/
def toWindowK (s : State) : Nat := rdF s (at' pgSLU 0x58) 16 4
/-- M. -/
def toWindowM (s : State) : Nat := rdF s (at' pgSLU 0x58) 20 4

/-- A service timeout counts in the window of the serving local basin, which goes offline when the counter is active (R205, R209). -/
def countTimeout (v : Service) (s : State) : State :=
  if v.dev.toNat ≠ devIndex s then s
  else
    let l := v.basin.toNat
    let w := (tget Win.zero l s.slu.windows).event
    let s := withSlu (fun u => { u with windows := tput .zero l w u.windows }) s
    if w.activeNow (toWindowK s) (toWindowK s) (toWindowM s) then basinOffline l 0x0611 true s else s

/-- A service timeout ends the current service (R205): of an atomic flow it drains, of another it is gone; the item is reissued or goes
to the exception ring. -/
def timeoutService (v : Service) (s : State) : State :=
  let f := v.flow.toNat
  let t0 := v.deadline.getD 0
  let s := bumpTimeouts f s
  let s := if fAtomic s f then
      let w := { v with current := false, draining := true, deadline := some ((tickNow s).toNat + fSvcTo s f) }
      let s := delayLinks 2 t0 (withSlu (fun u => { u with services := u.services.filter fun x => decide (x.id ≠ v.id) }) s)
      withSlu (fun u => { u with services := u.services ++ [w] }) (putDelay 2 ((tickNow s).toNat + fSvcTo s f) v.slot s)
    else endService v s
  let s := sluTouch 3 v.slot 8 16 s
  let s := if sluUe s 3 v.slot 8 16 then toException v.slot 0x0633 s else retryItem v.slot 0x0620 s
  settle (countTimeout v (reeval f s))

/-- SERVICE_TIMEOUT (R203, R205, R213). -/
def execServiceTimeout (service : Nat) (s : State) : Host.Outcome State Fault Refusal :=
  .next (match serviceOf s service with
    | none => s
    | some v => match v.deadline with
      | none => s
      | some t =>
        if v.current && !serviceFrozen s v && serviceHead s v t && (t ≤ (tickNow s).toNat || sluUe s 5 v.slot 0 2) then
          timeoutService v (sluMend 5 v.slot 0 2 (sluTouch 5 v.slot 0 2 s))
        else s)

/-- DRAIN_TIMEOUT (R201, R205, R213): the serving basin goes offline and its failover runs; a drain on another device, whose offline bits this
device does not hold, ends (log entry 31). -/
def execDrainTimeout (service : Nat) (s : State) : Host.Outcome State Fault Refusal :=
  .next (match serviceOf s service with
    | none => s
    | some v => match v.deadline with
      | none => s
      | some t =>
        let ue := sluUe s 5 v.slot 0 2
        if v.draining && serviceHead s v t && (t ≤ (tickNow s).toNat || ue) then
          let s := sluMend 5 v.slot 0 2 (sluTouch 5 v.slot 0 2 s)
          if v.dev.toNat = devIndex s then basinOffline v.basin.toNat 0x0611 true s else settle (endService v s)
        else s)

/-- STAGED_OUTPUT_DISCARD (R169, R210 step 2): the staged outputs of the faulted basin are discarded and its staging slots are free. -/
def execStagedOutputDiscard (basin : Nat) (s : State) : Host.Outcome State Fault Refusal :=
  .next (if tget 0 basin s.slu.failover = 2 then
      let n := physOf s basin
      let b := basinOf s n
      let s := setBasin n { b with items := b.items.map fun i => { i with outs := [], bound := false } } s
      withSlu (fun u => { u with failover := tput 0 basin 3 u.failover }) s
    else s)

/-- Send a fault notice to each peer that has an item in service in a basin, its queued dispatches included (R279); no further END follows for
that basin, and the queued dispatches are discarded. -/
def sendNotices (l n : Nat) (s : State) : State :=
  let ps := (List.range 7).filter fun p => (enrPort s p).st = .up
    && ((s.enr.guests.any fun g => g.port = p && g.basin = n) || (enrPort s p).waiting.any fun m => dispatchLogical m = l)
  let s := ps.foldl (fun t p =>
    noticeOne l p (setEnrPort p { enrPort t p with waiting := (enrPort t p).waiting.filter fun m => decide (dispatchLogical m ≠ l) } t)) s
  { s with enr := { s.enr with guests := s.enr.guests.filter fun g => decide (g.basin ≠ n) } }

/-- FAILOVER_REISSUE (R210 steps 3 and 4): the basin's services homed here end and their items are reissued; the homes of the others
get a notice. -/
def execFailoverReissue (basin : Nat) (s : State) : Host.Outcome State Fault Refusal :=
  .next (if tget 0 basin s.slu.failover = 3 then
      let s := reissueWhere (fun v => v.dev.toNat = devIndex s && v.basin.toNat = basin) s
      let s := sendNotices basin (physOf s basin) s
      let st := if s.enr.notices.any fun k => k.2.1 = basin then 4 else 0
      withSlu (fun u => { u with failover := tput 0 basin st u.failover }) s
    else s)

/-- BSN_FAULT.VALID of the physical basin that a logical basin maps to. -/
def faultValid (s : State) (l : Nat) : Bool := rdB s (at' (pgBSN (physOf s l)) 0x50) 31

/-- One bit of a write of SLU_OFFLINE (R209, R212). -/
def offlineBit (v : Reg) (s : State) (l : Nat) : State :=
  if bit v l then (if offline s l then s else basinOffline l 0x0613 false s)
  else if !offline s l then s
  else if faultValid s l then setFault pgSLU 0x0641 s
  else rearmEmpty (wrF (at' pgSLU 0x54) l 1 0 s)

/-- SLU_OFFLINE_WRITE (R209, R210, R212): bit by bit. -/
def execSluOfflineWrite (val : Reg) (s : State) : Host.Outcome State Fault Refusal :=
  .next (guarded pgSLU (fun s => (List.range 32).foldl (offlineBit val) s) s)

/-- SLU_CTRL_WRITE (R15, R200): a change of TICK_EXP while DISPATCH_EN is 1 refuses the whole write. -/
def execSluCtrlWrite (val : Reg) (s : State) : Host.Outcome State Fault Refusal :=
  let a := at' pgSLU 0x40
  .next (guarded pgSLU (fun s =>
    let e := fld val 1 5
    if e < 18 && e ≠ rdF s a 1 5 && rdB s a 0 then setFault pgSLU 0x0642 s else writeReg a val s) s)

/-- FLOW_RESET (R214): accepted for a QUARANTINED flow only. -/
def execFlowReset (flow : BitVec 16) (s : State) : Host.Outcome State Fault Refusal :=
  .next (posted pgSLU (fun s =>
    let d := flowDyn s flow.toNat
    if d.quarantined then setBusy pgSLU true (setFlowDyn flow.toNat { d with resetting := true } s) else setFault pgSLU 0x0640 s) s)

/-- FLOW_RESET_DONE (R181, R214): every queued slot of the flow is freed, and the flow is no longer QUARANTINED. -/
def execFlowResetDone (flow : BitVec 16) (s : State) : Host.Outcome State Fault Refusal :=
  let f := flow.toNat
  .next (if (flowDyn s f).resetting then
      let s := (flowDyn s f).queue.foldl (fun t n => releaseSlot n t) s
      let d := flowDyn s f
      let s := setFlowDyn f { d.withQueue [] with quarantined := false, resetting := false } s
      settle (setBusy pgSLU false (reeval f s))
    else s)

/-- QUARANTINE (R181, R214): accepted for any flow. -/
def execQuarantine (flow : BitVec 16) (s : State) : Host.Outcome State Fault Refusal :=
  .next (posted pgSLU (quarantineFlow flow.toNat) s)

end Sys2Proof.Machine
end

