-- ==== Sys2Proof/Machine/Bist.lean ====
section
/-! DEFINITION. Errors and self-test: corrected rewrites, the patrol sweeper, window closes, LBIST and MBIST_D2 (18). -/

namespace Sys2Proof.Machine

/-- Replace the error record. -/
def withEcc (u : Ecc → Ecc) (s : State) : State := { s with ecc := u s.ecc }

-- Corrected rewrite

/-- A codeword after a corrected rewrite (R461). -/
def rewritten (c : Code) : Code :=
  match decode72 c with
  | .corrected d _ => encCode d
  | _ => c

/-- The D2 unit that an ADDR of KIND 0 names: physical basin, crystal, plane, with 16 for the frame plane (R463). -/
def planeUnit (addr : Nat) : Nat × Nat × Nat :=
  ((addr >>> 19) % 64, (addr >>> 10) % 512, if (addr >>> 25) % 2 = 1 then 16 else (addr >>> 6) % 16)

/-- The stored codewords of a D2 unit with their number. -/
def unitCodes (s : State) (n x p : Nat) : List (Nat × Code) :=
  if p = 16 then [(0, tget 0 (xk n x) s.fab.frames)] else (List.range 36).map fun w => (w, planeCode s (xk n x) p w)

/-- Log what reading one codeword of a D2 unit finds. -/
def logUnit (n x p w : Nat) (c : Code) (sweep : Bool) (s : State) : State :=
  logDecoded 0 (planeLogAddr n x (if p = 16 then 0 else p) w (p = 16)) (if p = 16 then 0x0533 else 0x0531) (decode72 c) sweep s

/-- The plane of a D2 unit is LOADING or PENDING (R461). -/
def unitLoading (s : State) (n p : Nat) : Bool :=
  let i := if p = 16 then (basinOf s n).frame else planeInfo s n p
  i.st = .loading || i.st = .pending

/-- A rewrite is refused (R461). -/
def rewriteRefuse (s : State) : State := setFault pgECC 0x0E11 s

/-- A rewrite begins (R461, R492): BUSY until REWRITE_DONE. -/
def rewriteBegun (kind addr : Nat) (s : State) : State := setBusy pgECC true (withEcc (fun e => { e with rewrite := some (kind, addr) }) s)

/-- The rewrite of a plane or frame plane of one crystal (R461). -/
def rewritePlane (addr : Nat) (s : State) : State :=
  let u := planeUnit addr
  let n := u.1
  let x := u.2.1
  let p := u.2.2
  if 33 < n || unitLoading s n p then rewriteRefuse s
  else
    let cs := unitCodes s n x p
    let s := cs.foldl (fun t c => logUnit n x p c.1 c.2 false t) s
    if cs.any fun c => (decode72 c.2).isUe then rewriteRefuse s
    else rewriteBegun 0 addr (cs.foldl (fun t c =>
      if p = 16 then withFab (fun f => { f with frames := tput 0 (xk n x) (rewritten c.2) f.frames }) t
      else setPlaneCode (xk n x) p c.1 (rewritten c.2) t) s)

/-- The damaged words of the descriptor slots that lie in a row (R177, R186). -/
def rowDamage (s : State) (bank row : Nat) : List Damage :=
  s.slu.damage.filter fun d => 112 ≤ bank && bank < 120 && d.struct = 3 && d.entry / 8 = (bank - 112) * 4096 + row

/-- The rewrite of a D4 row (R461), with the descriptor slots in it. -/
def rewriteRow (addr : Nat) (s : State) : State :=
  let bank := (addr >>> 19) % 128
  let row := (addr >>> 7) % 4096
  if (bankOf s bank).typ = 15 then rewriteRefuse s
  else
    let cs := rowCodes s bank row
    let ds := rowDamage s bank row
    let s := rowLog bank row (bankTouch bank s)
    let s := ds.foldl (fun t d => logErr 3 (addr / 128 % 2 ^ 19 * 128 + d.entry % 8 * 16 + d.word) d.syn.toNat (structCause 3 d.word) d.ue false t) s
    if (rowData s bank row).2 ≠ [] || ds.any (·.ue) then rewriteRefuse s
    else
      let s := withSlu (fun u => { u with damage := u.damage.filter fun d => !ds.contains d }) s
      rewriteBegun 3 addr (cs.foldl (fun t c => putRowCode bank row c.1 (rewritten c.2) t) s)

/-- The copies of a DRAM line that hold data in use (R350, R351). -/
def copiesOf (s : State) (a : Nat) : List Nat :=
  let k := dramSub s a
  if mirrored s then (List.range 2).filter fun c => !subLost s (k + c) else [0]

/-- The rewrite of a DRAM line below IME, with its seal (R461). -/
def rewriteLine (addr : Nat) (s : State) : State :=
  let a := addr / 64 * 64
  if drcState s ≠ dREADY then rewriteRefuse s
  else
    let rs := (copiesOf s a).map fun c => (c, lineRead s a c 255)
    let s := rs.foldl (fun t r => noteLine a (dramSub s a + r.1) r.2 t) s
    let s := if rs.any fun r => r.2.any fun w => w.2.ue then setIrq (pgDRC 0) 2 s else s
    if rs.any fun r => r.2.any fun w => w.2.ue then rewriteRefuse s
    else rewriteBegun 5 addr (rs.foldl (fun t r => r.2.foldl (fun u w =>
      if w.2.err.isNone then u
      else withDrm (fun d => { d with words := tput 0 (2 * (a / 8 + w.1) + r.1) (BitVec.ofNat 80 (encCode w.2.data).toNat) d.words }) u) t) s)

/-- A write of ECC_REWRITE_CMD (R461, R475). -/
def rewriteCmd (v : Reg) : State → State := posted pgECC fun s =>
  let kind := fld v 26 4
  let addr := rdF s (at' pgECC 0x4C) 0 32 + rdF s (at' pgECC 0x50) 0 8 * 2 ^ 32
  if fld v 30 2 = 0 then s
  else if 2 ≤ fld v 30 2 then setFault pgECC reservedValue s
  else match kind with
    | 0 => rewritePlane addr s
    | 3 => rewriteRow addr s
    | 5 => rewriteLine addr s
    | 6 => rewriteRefuse s
    | 7 => rewriteRefuse s
    | _ => setFault pgECC reservedValue s

/-- REWRITE (R461). -/
def execRewrite (val : Reg) (s : State) : Host.Outcome State Fault Refusal := .next (rewriteCmd val s)

/-- REWRITE_DONE (R475, R492). -/
def execRewriteDone (s : State) : Host.Outcome State Fault Refusal :=
  .next (if s.ecc.rewrite.isSome then
      setIrq pgECC 3 (setBusy pgECC false (withEcc (fun e => { e with rewrite := none }) s))
    else s)

/-- A write of ECC_TRACK_CLR (R467). -/
def trackClr : State → State := guarded pgECC fun s => withEcc (fun e => { e with track := [] }) s

/-- ECC_TRACK_CLR (R467). -/
def execEccTrackClr (s : State) : Host.Outcome State Fault Refusal := .next (trackClr s)

/-- One read of the patrol sweeper (R318, R460): it logs with SWEEP = 1 and changes nothing. -/
def sweepRead (kind addr : Nat) (s : State) : State :=
  let cfg := at' pgECC 0x40
  match kind with
  | 0 =>
    let u := planeUnit addr
    let w := if u.2.2 = 16 then 0 else addr % 64
    let c := if u.2.2 = 16 then tget 0 (xk u.1 u.2.1) s.fab.frames else planeCode s (xk u.1 u.2.1) u.2.2 w
    if rdB s cfg 29 && u.1 < 34 && w < 36 then logUnit u.1 u.2.1 u.2.2 w c true s else s
  | 3 =>
    let bank := (addr >>> 19) % 128
    let b := bankOf s bank
    if rdB s cfg 30 && bankAwake s bank && b.typ ≠ 0 && b.typ ≠ 15 then
      let w := addr % 128
      let s := (damageOf s 3 ((bank - 112) * 32768 + (addr >>> 7) % 4096 * 8 + w / 16) (w % 16) (w % 16 + 1)).foldl (fun t d =>
        if 112 ≤ bank && bank < 120 then logErr 3 (addr % 2 ^ 26) d.syn.toNat (structCause 3 d.word) d.ue true t else t) s
      logDecoded 3 (addr % 2 ^ 26) 0x0903 (decode72 (rowCode s bank ((addr >>> 7) % 4096) (addr % 128))) true s
    else s
  | 5 =>
    if rdB s cfg 31 && drcState s = dREADY && addr < 2 ^ capLog2 s then
      (copiesOf s addr).foldl (fun t c =>
        let r := decode80 (dramWord t (addr / 8) c)
        match r.err with
        | some (cause, ue) => logErr 5 (addr / 8 * 8) r.syn cause ue true t
        | none => t) s
    else s
  | _ => s

/-- PATROL_SWEEP (R318, R460). -/
def execPatrolSweep (kind : BitVec 4) (addr : BitVec 40) (s : State) : Host.Outcome State Fault Refusal :=
  .next (sweepRead kind.toNat addr.toNat s)

-- Window closes

/-- The window of every tracked address closes (R465, R467). -/
def closeTracks (s : State) : State :=
  let e := rdF s (at' pgECC 0x44) 0 8
  let k := rdF s (at' pgECC 0x44) 8 4
  let m := rdF s (at' pgECC 0x44) 12 4
  withEcc (fun r => { r with track := r.track.map fun t => { t with win := t.win.close e, active := (t.win.close e).activeNow e k m } }) s

/-- The windows of the basins' service timeouts close (R209, R465). -/
def closeTimeouts (s : State) : State :=
  let k := toWindowK s
  withSlu (fun u => { u with windows := (List.range 32).foldl (fun w l => tput .zero l ((tget Win.zero l w).close k) w) u.windows }) s

/-- The window of the security alarms closes (R401, R465). -/
def closeAlarms (s : State) : State :=
  { s with sec := { s.sec with alarms := s.sec.alarms.close 3, alarmCts := (s.sec.alarms.count :: s.sec.alarmCts).take 8 } }

/-- WINDOW_CLOSE (R465): of the address tracker, the service timeouts or the alarms. -/
def execWindowClose (counter : BitVec 2) (s : State) : Host.Outcome State Fault Refusal :=
  .next (match counter.toNat with
    | 0 => closeTracks s
    | 1 => closeTimeouts s
    | 2 => closeAlarms s
    | _ => s)

-- LBIST

/-- BIST_STAT. -/
def bistStatA : Nat := at' pgBIST 0x44

/-- The nominal voltage in 0.1 mV of voltage channel 52 + `i` (R424 to R426, R444). -/
def nominalOf (i : Nat) : Nat :=
  if i < 1 then 8000 else if i < 5 then 7500 else if i < 13 then 7000 else if i < 15 then 7200 else if i < 17 then 7500
  else if i < 18 then 5000 else if i < 20 then 8500 else if i < 21 then 12000 else if i < 22 then 8500 else if i < 23 then 11000
  else 18000

/-- A voltage channel's last reading lies within `pct` % of nominal, or is missing (R454, R470). -/
def voltOk (s : State) (i pct : Nat) : Bool :=
  let v := rdF s (at' pgTHM (0x100 + 4 * (52 + i))) 0 16
  let n := nominalOf i
  v = 0x8000 || (100 * n ≤ 100 * v + pct * n && 100 * v ≤ 100 * n + pct * n)

/-- E of THM_STAT in 1/16 °C. -/
def hottest (s : State) : Int := (BitVec.ofNat 16 (rdF s (at' pgTHM 0x40) 0 16)).toInt

/-- Every supply lies within 3 % of nominal and E is at most 100 °C in the last round (R470). -/
def bistConditions (s : State) : Bool := (List.range 24).all (fun i => voltOk s i 3) && hottest s ≤ 1600

/-- A BIST run is in progress (R470). -/
def bistRunning (s : State) : Bool := s.ecc.phase ≠ .none || s.mem.mbist.isSome

/-- The encoding of a phase in BIST_STAT (R475). -/
def phaseCode (p : BistPhase) : Nat :=
  match p with
  | .none => 0
  | .drain => 1
  | .save => 2
  | .test => 3
  | .restore => 4
  | .d2 => 5

/-- Enter a phase of a run. -/
def setPhase (p : BistPhase) (s : State) : State := wrF bistStatA 8 4 (phaseCode p) (withEcc (fun e => { e with phase := p }) s)

/-- A run ends (R475, R492): no phase, no saved state, RUN_DONE. -/
def bistOver (pass : Bool) (s : State) : State :=
  let s := setPhase .none { s with mem := { s.mem with saved := none } }
  setIrq pgBIST 1 (setBusy pgBIST false (wrF bistStatA 15 1 (b2n pass) s))

/-- The offline bit returns to its value before the run (R471), but not of a basin that has since faulted (R212). -/
def offlineBack (s : State) : State :=
  let l := s.ecc.bistL
  if s.ecc.wasOff || faultValid s l then s else rearmEmpty (wrF (at' pgSLU 0x54) l 1 0 s)

/-- A run is aborted (R472): the state is as it was before. -/
def lbistAbort (s : State) : State :=
  match s.ecc.phase with
  | .none => s
  | .d2 => s
  | _ => bistOver false (setFault pgBIST 0x0E03 (offlineBack s))

/-- START of an LBIST (R470, R471). -/
def lbistStart (v : Reg) (s : State) : State :=
  let l := fld v 0 6
  let bank := fld v 7 7
  let n := physOf s l
  if 32 ≤ l then setFault pgBIST reservedValue s
  else if !bistConditions s then setFault pgBIST 0x0E02 s
  else if bistRunning s then setFault pgBIST 0x0E04 s
  else if (bankOf s bank).typ ≠ 7 || s.mem.saved = some bank then setFault pgBIST 0x0902 s
  else if basinLoading s n then setFault pgBIST 0x0E02 s
  else
    let was := offline s l
    let s := withEcc (fun e => { e with bistL := l, bistP := n, patterns := bit v 29, passed := 0, wasOff := was }) s
    let s := if was then s else basinOffline l 0x0613 false s
    let s := if (basinOf s n).power = .run then s else setBasin n { basinOf s n with waking := true } s
    setBusy pgBIST true (setPhase .drain (wrF bistStatA 0 6 l (wrF bistStatA 15 17 0 { s with mem := { s.mem with saved := some bank } })))

/-- A physical basin is a spare: no logical basin maps to it. -/
def spareBasin (s : State) (n : Nat) : Bool := (logicalOf s n).isNone

/-- Every plane and the frame plane of a basin is BLANK or FAILED (R474). -/
def basinUnloaded (s : State) (n : Nat) : Bool :=
  let ok (i : PlaneInfo) : Bool := i.st = .blank || i.st = .failed
  ok (basinOf s n).frame && (List.range 16).all fun p => ok (planeInfo s n p)

/-- START of an MBIST_D2 (R470, R474). -/
def mbistD2Start (v : Reg) (s : State) : State :=
  let n := fld v 0 6
  if 34 ≤ n then setFault pgBIST reservedValue s
  else if !bistConditions s then setFault pgBIST 0x0E02 s
  else if bistRunning s then setFault pgBIST 0x0E04 s
  else if basinLoading s n then setFault pgBIST 0x0E02 s
  else if !(spareBasin s n || (halted s n && basinUnloaded s n)) then setFault pgBIST 0x0E05 s
  else
    let s := withEcc (fun e => { e with bistP := n }) s
    setBusy pgBIST true (setPhase .d2 (wrF bistStatA 0 6 n (wrF bistStatA 15 1 0 s)))

/-- A write of BIST_CMD (R470, R474, R475). -/
def bistCmdWrite (v : Reg) : State → State := posted pgBIST fun s =>
  match fld v 30 2 with
  | 0 => s
  | 1 => lbistStart v s
  | 2 => mbistD2Start v s
  | _ => setFault pgBIST reservedValue s

/-- LBIST (R470, R471). -/
def execLbist (val : Reg) (s : State) : Host.Outcome State Fault Refusal := .next (bistCmdWrite val s)

/-- LBIST_DRAIN_DONE (R471): no item in service or in flight, and the basin is awake. -/
def execLbistDrainDone (s : State) : Host.Outcome State Fault Refusal :=
  .next (if s.ecc.phase = .drain && inService s s.ecc.bistL = 0 && basinIdle s s.ecc.bistP && (basinOf s s.ecc.bistP).power = .run then
      setPhase .save s
    else s)

/-- LBIST_DRAIN_TIMEOUT (R472). -/
def execLbistDrainTimeout (s : State) : Host.Outcome State Fault Refusal :=
  .next (if s.ecc.phase = .drain then lbistAbort s else s)

/-- LBIST_SAVE_DONE (R471). -/
def execLbistSaveDone (s : State) : Host.Outcome State Fault Refusal :=
  .next (if s.ecc.phase = .save then setPhase .test s else s)

/-- One bit per pan whose signature is the golden one of the pattern count (R469). -/
def panPass (patterns : Bool) (sigs : List (BitVec 64)) : BitVec 16 :=
  BitVec.ofNat 16 ((List.range 16).foldl (fun (a : Nat) p => a + b2n (sigs[p]? = some (Config.goldenSignature (b2n patterns))) * 2 ^ p) 0)

/-- LBIST_TEST_DONE (R469, R471). -/
def execLbistTestDone (signatures : List (BitVec 64)) (s : State) : Host.Outcome State Fault Refusal :=
  .next (if s.ecc.phase = .test then
      let p := panPass s.ecc.patterns signatures
      setPhase .restore (wrF bistStatA 16 16 p.toNat (withEcc (fun e => { e with passed := p }) s))
    else s)

/-- A failing run (R472): the basin stays offline, its fault is recorded. -/
def lbistFail (l n : Nat) (passed : BitVec 16) (s : State) : State :=
  let pan := ((List.range 16).find? fun p => !bit passed p).getD 0
  let s := setBasin n { basinOf s n with trapped := true } s
  let s := basinOffline l 0x0612 true (recordTrap n (32 * pan, 0x0E01, 0) false s)
  setIrq pgBIST 0 (setIrq (pgBSN n) 0 (withSlu (fun u => { u with cause := tput 0 l 0x0612 u.cause }) s))

/-- LBIST_RESTORE_DONE (R471, R472): everything saved stands again; the run has passed or failed. -/
def execLbistRestoreDone (s : State) : Host.Outcome State Fault Refusal :=
  .next (if s.ecc.phase = .restore then
      if s.ecc.passed = 0xFFFF then bistOver true (offlineBack s)
      else bistOver false (lbistFail s.ecc.bistL s.ecc.bistP s.ecc.passed s)
    else s)

/-- MBIST_D2 (R474). -/
def execMbistD2 (val : Reg) (s : State) : Host.Outcome State Fault Refusal := .next (bistCmdWrite val s)

/-- Put a failure into a list in ascending order. -/
def insertFail (f : Nat) : List Nat → List Nat
  | [] => [f]
  | g :: t => if f ≤ g then f :: g :: t else g :: insertFail f t

/-- Record the failures of an MBIST_D2 (R474, R475). -/
def recordD2 (fails : List (BitVec 32)) (s : State) : State :=
  let fs := fails.foldl (fun l f => insertFail (fld f 3 27) l) []
  (List.range 16).foldl (fun t i =>
    wr (at' pgBIST (0x80 + 4 * i)) (match fs[i]? with
      | some f => BitVec.ofNat 32 (2 ^ 31 + b2n (i = 15 && 16 < fs.length) * 2 ^ 30 + f * 8)
      | none => 0) t) s

/-- The word-engine state arrays of a basin hold what the hardware fill leaves (R474). -/
def clearWeState (n : Nat) (s : State) : State :=
  withFab (fun f => { f with
    xs := tclear (16 * xk n 0) (16 * xk (n + 1) 0) f.xs, ys := tclear (16 * xk n 0) (16 * xk (n + 1) 0) f.ys
    flags := tclear (xk n 0) (xk (n + 1) 0) f.flags }) s

/-- Every plane and the frame plane of a basin BLANK with CAUSE 0. -/
def unloadBasin (n : Nat) (s : State) : State :=
  let s := (List.range 16).foldl (fun t p => setPlaneInfo n p .zero (clearPlane n p (purge n p t))) s
  setFrameInfo n .zero (clearFrame n (noTags n s))

/-- MBIST_D2_DONE (R474). -/
def execMbistD2Done (fails : List (BitVec 32)) (s : State) : Host.Outcome State Fault Refusal :=
  .next (if s.ecc.phase = .d2 then
      bistOver (fails = []) (recordD2 fails (clearWeState s.ecc.bistP (unloadBasin s.ecc.bistP s)))
    else s)

end Sys2Proof.Machine
end

