-- ==== Sys2Proof/Machine/Thermal.lean ====
section
/-! DEFINITION. Thermal sensing, voltage monitoring and the housekeeping round (17). -/

namespace Sys2Proof.Machine

-- Channels and sites (R444)

/-- The die of a channel. -/
def chanDie (c : Nat) : Nat :=
  if c < 12 then 1 else if c < 24 then 2 else if c < 36 then 3 else if c < 44 then 0 else if c < 52 then 4
  else if c < 57 then 0 else if c < 61 then 1 else if c < 65 then 3 else if c < 67 then 2 else if c < 70 then 4
  else if c = 77 then 1 else if c = 78 then 3 else if c = 79 then 2 else if c = 80 then 4 else 0

/-- The channel of the sensor at a site of a die, where it has one. -/
def siteChan (d site : Nat) : Option Nat :=
  if d = 1 then some site
  else if d = 2 then some (12 + site)
  else if d = 3 then some (24 + site)
  else if 4 ≤ site && site < 8 then none
  else
    let k := if site < 4 then site else site - 4
    some ((if d = 0 then 36 else 44) + k)

/-- The site of a temperature channel. -/
def chanSite (c : Nat) : Nat :=
  if c < 36 then c % 12
  else
    let k := (c - 36) % 8
    if k < 4 then k else k + 4

/-- The grid neighbours of a site. -/
def siteNeighbours (site : Nat) : List Nat :=
  (if 4 ≤ site then [site - 4] else []) ++ (if site < 8 then [site + 4] else [])
    ++ (if 0 < site % 4 then [site - 1] else []) ++ (if site % 4 < 3 then [site + 1] else [])

/-- A die takes part in the round: D0 always, another while powered and not in a die-level reset (R446). -/
def dieSensed (s : State) (d : Nat) : Bool := d = 0 || (diePowered s d && s.mod.dieReset ≠ some d)

/-- The readings of a round by channel. -/
abbrev Readings := Nat → Option Int

/-- The readings that take part (R446). -/
def sensed (s : State) (l : List (Option Int)) : Readings := fun c => if dieSensed s (chanDie c) then (l[c]?).join else none

-- Plausibility (R447, R448)

/-- Put a number into a list in ascending order. -/
def insertInt (x : Int) : List Int → List Int
  | [] => [x]
  | y :: t => if x ≤ y then x :: y :: t else y :: insertInt x t

/-- Twice the median of a list: of an even number of values, the mean of the middle two. -/
def median2 (l : List Int) : Option Int :=
  let v := l.foldl (fun a x => insertInt x a) []
  let n := v.length
  if n = 0 then none
  else if n % 2 = 1 then some (2 * v.getD (n / 2) 0)
  else some (v.getD (n / 2 - 1) 0 + v.getD (n / 2) 0)

/-- Twice the difference of a reading from the median of its same-die grid neighbours; 0 where none of them has a reading. -/
def strayness (r : Readings) (c : Nat) (t : Int) : Nat :=
  match median2 (((siteNeighbours (chanSite c)).filterMap fun k => (siteChan (chanDie c) k).bind r)) with
  | some m => (2 * t - m).natAbs
  | none => 0

/-- The members charged by the vertical pair of die `d` and the die above it at a site (R447). -/
def pairCharges (r : Readings) (d site : Nat) : List Nat :=
  match siteChan d site, siteChan (d + 1) site with
  | some lo, some up =>
    match r lo, r up with
    | some a, some b =>
      if a + 32 < b then
        let x := strayness r lo a
        let y := strayness r up b
        (if y ≤ x then [lo] else []) ++ (if x ≤ y then [up] else [])
      else []
    | _, _ => []
  | _, _ => []

/-- The temperature channels charged in a round (R447). -/
def chargedChans (s : State) (r : Readings) : List Nat :=
  let lat := 16 * rdF s (at' pgTHM 0x4C) 16 16
  let pairs := (List.range 4).flatMap fun d => (List.range 12).flatMap fun site => pairCharges r d site
  (List.range 52).filter fun c => dieSensed s (chanDie c) && (pairs.contains c || match r c with
    | none => true
    | some t => 2 * lat < strayness r c t)

/-- At least `k` of the last `m` rounds were events. -/
def lasting (h : List Bool) (k m : Nat) : Bool := k ≤ ((h.take m).filter fun b => b).length

/-- SUSPECT of a temperature channel. -/
def isSuspect (s : State) (c : Nat) : Bool := rdB s (at' pgTHM (0x54 + 4 * (c / 32))) (c % 32)

/-- The suspect state of one channel after a round (R448). -/
def suspectStep (charged : List Nat) (s : State) (c : Nat) : State :=
  let h := (charged.contains c :: tget [] c s.thm.charges).take 16
  let s := withThm (fun t => { t with charges := tput [] c h t.charges }) s
  let on := lasting h (rdF s (at' pgTHM 0x4C) 0 8) (rdF s (at' pgTHM 0x4C) 8 8)
  let t := wrF (at' pgTHM (0x54 + 4 * (c / 32))) (c % 32) 1 (b2n on) s
  if on && !isSuspect s c then setIrq pgTHM 2 (logNote 0x0303 t) else t

-- Estimates (R449, R450)

/-- G of pair `k` in 0.001 °C/W (R456). -/
def pairCoeff (s : State) (k : Nat) : Nat := if (otpGen s 9).isSome then fld (otpData s 9 1 0) (24 + 10 * k) 10 else 10

/-- The gradient of the pair of die `d` and the die above it at a site, in 1/16 °C (R450). -/
def pairGradient (s : State) (d site : Nat) : Int :=
  tget 0 (12 * d + site) s.thm.grads + (pairCoeff s d : Int) * ((s.thm.power : Int) - (s.thm.power0 : Int)) * 16 / 1000000000

/-- The sum of the gradients from die `lo` up to die `hi`. -/
def gradientSum (s : State) (lo hi site : Nat) : Int := ((List.range (hi - lo)).map fun i => pairGradient s (lo + i) site).sum

/-- A die's reading at a site, of a sensor that is not SUSPECT. -/
def trusted (s : State) (r : Readings) (d site : Nat) : Option Int :=
  (siteChan d site).bind fun c => if isSuspect s c then none else r c

/-- The larger of a value and a reading, where there is one. -/
def maxRead (x : Int) (t : Option Int) : Int :=
  match t with
  | some y => max x y
  | none => x

/-- The estimate of a sensor from its own reading or from a trusted vertical neighbour (R449). -/
def directEstimate (s : State) (r : Readings) (c : Nat) : Option Int :=
  let d := chanDie c
  let site := chanSite c
  if !isSuspect s c then r c
  else match ((List.range 5).filter (d < ·)).findSome? fun a => (trusted s r a site).map fun t => (a, t) with
    | some (a, t) => some (maxRead (t + gradientSum s d a site) (r c))
    | none => match ((List.range 5).reverse.filter (· < d)).findSome? fun b => (trusted s r b site).map fun t => (b, t) with
      | some (b, t) => some (maxRead (t - gradientSum s b d site) (r c))
      | none => none

/-- The largest of the values that exist. -/
def maxOf (l : List (Option Int)) : Option Int :=
  l.foldl (fun a x => match x with
    | some v => some (maxRead v a)
    | none => a) none

/-- The estimate of a sensor (R449): with no trusted vertical neighbour, the largest estimate of its grid neighbours. -/
def estimateOf (s : State) (r : Readings) (c : Nat) : Option Int :=
  if !dieSensed s (chanDie c) then none
  else match directEstimate s r c with
    | some v => some v
    | none => if isSuspect s c then
        maxOf ((siteNeighbours (chanSite c)).map fun k => (siteChan (chanDie c) k).bind (directEstimate s r))
      else none

-- Power and rails (R446, R454)

/-- The voltage channels of the rails, by rail. -/
def railChans : List (List Nat) :=
  [[52], [53, 54, 55, 56], [57, 58, 59, 60, 61, 62, 63, 64], [65, 66], [67, 68], [69], [70, 71], [72], [73], [74], [75]]

/-- The voltage channels of the rail that a current channel belongs to. -/
def currentRail (c : Nat) : List Nat :=
  match c with
  | 76 => [53, 54, 55, 56]
  | 77 => [57, 58, 59, 60]
  | 78 => [61, 62, 63, 64]
  | 79 => [65, 66]
  | 80 => [67, 68]
  | 81 => [70, 71]
  | 82 => [72]
  | 83 => [73]
  | 84 => [74]
  | _ => [75]

/-- Stack power in µW (R446): each current times the mean voltage of its rail. -/
def stackPower (r : Readings) : Nat :=
  ((List.range 10).map fun i =>
    let v := (currentRail (76 + i)).filterMap r
    match r (76 + i) with
    | some x => if v = [] then 0 else (x * v.sum / (v.length : Int)).toNat
    | none => 0).sum

/-- A rail event (R454). -/
def railEvent (s : State) (r : Readings) (chans : List Nat) : Bool :=
  chans.any fun c => match r c with
    | some v =>
      let n : Int := (nominalOf (c - 52) : Nat)
      ((rdF s (at' pgTHM 0x50) 16 16 : Nat) : Int) * n < 100 * ((v - n).natAbs : Int)
    | none => false

/-- The breach state of rail `k` after a round (R454). -/
def railStep (r : Readings) (s : State) (k : Nat) : State :=
  let chans := railChans.getD k []
  let h := (railEvent s r chans :: tget [] k s.thm.events).take 16
  let s := withThm (fun t => { t with events := tput [] k h t.events }) s
  let on := lasting h (rdF s (at' pgTHM 0x50) 0 8) (rdF s (at' pgTHM 0x50) 8 8)
  let was := rdB s (at' pgTHM 0x5C) (chans.getD 0 52 - 52)
  let t := chans.foldl (fun t c => wrF (at' pgTHM 0x5C) (c - 52) 1 (b2n on) t) s
  if on && !was then setIrq pgTHM 3 t else t

-- Thresholds (R451 to R453)

/-- The device trips (R452, R453): THM_TRIP, THERM_TRIP_N, D1 to D4 off, and DORMANT from any mode except SEALED. -/
def thermalTrip (cause : Nat) (e : Int) (s : State) : State :=
  let s := wr (at' pgTHM 0x70) (BitVec.ofNat 32 ((BitVec.ofInt 16 e).toNat + cause * 2 ^ 16)) s
  let s := withThm (fun t => { t with trip := true }) s
  if modeOf s = mSEALED then wrF dieStatA 0 4 0 s
  else enterDormant (withThm (fun t => { t with tripped := true }) s)

/-- One threshold state (R451): set at the limit, cleared 4 °C below it, IRQ_STAT bit `irq` at entry. -/
def thresholdStep (statBit limLo irq : Nat) (e : Int) (s : State) : State :=
  let lim : Int := 16 * (rdF s (at' pgTHM 0x44) limLo 8 : Nat)
  let was := rdB s (at' pgTHM 0x40) statBit
  if lim ≤ e then
    let t := wrF (at' pgTHM 0x40) statBit 1 1 s
    if was then t else setIrq pgTHM irq t
  else if e ≤ lim - 64 then wrF (at' pgTHM 0x40) statBit 1 0 s
  else s

/-- Step 6 of bring-up is over. -/
def pastStep6 (s : State) : Bool := modeOf s ≠ mBRINGUP || 6 < stepOf s

/-- The thresholds act on the largest estimate (R451, R452): a trip, the release of THERM_TRIP_N, throttle, warning. -/
def thresholds (e : Int) (s : State) : State :=
  if 16 * ((rdF s (at' pgTHM 0x44) 16 8 : Nat) : Int) ≤ e || (s.thm.trip && pastStep6 s && 1776 ≤ e) then thermalTrip 0x0301 e s
  else
    let s := if s.thm.trip && pastStep6 s then withThm (fun t => { t with trip := false }) s else s
    let s := thresholdStep 16 0 0 e (thresholdStep 17 8 1 e s)
    if rdB s (at' pgTHM 0x40) 17 then s else withMod (fun m => { m with throttle := 0 }) s

/-- The value of THM_CH for a channel (R455). -/
def chanReg (r : Readings) (est : Option Int) (c : Nat) : Reg :=
  let h (x : Option Int) : Nat := match x with
    | some v => (BitVec.ofInt 16 v).toNat
    | none => 0x8000
  BitVec.ofNat 32 (h (r c) + (if c < 52 then h est else 0) * 2 ^ 16)

/-- A run of LBIST is aborted where a round finds the conditions of R470 broken (R472). -/
def bistGuard (s : State) : State :=
  match s.ecc.phase with
  | .none => s
  | .d2 => s
  | _ => if bistConditions s then s else lbistAbort s

/-- The evaluation of a round (R446). -/
def evaluateRound (r : Readings) (s : State) : State :=
  let s := withThm (fun t => { t with power := stackPower r }) s
  let s := (List.range 52).foldl (suspectStep (chargedChans s r)) s
  let s := (List.range 11).foldl (railStep r) s
  let ests := (List.range 52).map (estimateOf s r)
  let s := (List.range 52).foldl (fun t c =>
    if dieSensed s (chanDie c) && isSuspect s c && (directEstimate s r c).isNone then logNote 0x0304 t else t) s
  let s := (List.range 96).foldl (fun t c => wr (at' pgTHM (0x100 + 4 * c)) (chanReg r (ests.getD c none) c) t) s
  let s := wr (at' pgTHM 0x60) (rd s (at' pgTHM 0x60) + 1) s
  let s := wrF (at' pgTHM 0x40) 18 1 (b2n ((List.range 52).any (isSuspect s))) s
  let s := wrF (at' pgTHM 0x40) 19 1 (b2n (rdF s (at' pgTHM 0x5C) 0 24 ≠ 0)) s
  match maxOf ests with
  | some e => thresholds e (bistGuard (wrF (at' pgTHM 0x40) 0 16 (BitVec.ofInt 16 e).toNat s))
  | none => bistGuard s

/-- The round runs from bring-up step 3 onward in every mode except DORMANT (R446). -/
def roundRuns (s : State) : Bool := modeOf s ≠ mDORMANT && !(modeOf s = mBRINGUP && stepOf s < 3)

/-- HOUSEKEEPING_ROUND (R436, R446 to R454): the readings by channel, in the units of THM_CH. -/
def execHousekeepingRound (readings : List (Option Int)) (s : State) : Host.Outcome State Fault Refusal :=
  .next (if roundRuns s then emberCheck (evaluateRound (sensed s readings) s) else s)

/-- ANALOG_TRIP (R453): a comparator trips, whatever the round and the registers say. -/
def execAnalogTrip (site : Nat) (s : State) : Host.Outcome State Fault Refusal :=
  let _ := site
  .next (if modeOf s = mDORMANT then s else thermalTrip 0x0302 (hottest s) s)

/-- A limit of THM_LIMIT lies above its value in the resolved generation of THERMAL_LIMITS (R455, R456). -/
def aboveOtp (s : State) (v : Reg) : Bool :=
  let m := otpReset s (at' pgTHM 0x44)
  (List.range 3).any fun k => fld m (8 * k) 8 < fld v (8 * k) 8

/-- A write of THM_LIMIT (R15, R455). -/
def thmLimitWrite (v : Reg) : State → State := guarded pgTHM fun s =>
  let a := at' pgTHM 0x44
  if aboveOtp s v then setFault pgTHM 0x0305 s
  else
    let sd := fld v 16 8
    let ok1 := fld v 8 8 < sd
    let th := if ok1 then fld v 8 8 else rdF s a 8 8
    let ok0 := fld v 0 8 < th
    let w := if ok0 then fld v 0 8 else rdF s a 0 8
    noteReserved pgTHM (!ok1 || !ok0) (wrF a 16 8 sd (wrF a 8 8 th (wrF a 0 8 w s)))

/-- THM_LIMIT_WRITE (R455). -/
def execThmLimitWrite (val : Reg) (s : State) : Host.Outcome State Fault Refusal := .next (thmLimitWrite val s)

end Sys2Proof.Machine
end

