-- ==== Sys2Proof/Machine/BringUp.lean ====
section
/-! DEFINITION. Power and bring-up: the dies, the OTP's resolution, calibration, the hardware fill, the boot LBIST (14, 16, 18). -/

namespace Sys2Proof.Machine

/-- POWER_GOOD (R430, R432, R514): the straps are sampled and bring-up begins at step 1. -/
def execPowerGood (bootSel : BitVec 2) (devId : BitVec 3) (testMode : Bool) (s : State) : Host.Outcome State Fault Refusal :=
  .next (if s.mod.power || s.mod.resetHeld then s
    else
      let s := withMod (fun m => { m with power := true, bootSel := bootSel, devId := devId, testMode := testMode }) s
      beginBringup (wrF 0x040 8 3 devId.toNat s))

-- Step 1

/-- The die whose switch is closed (R431): the next in order that is not yet powered. -/
def rampingDie (s : State) : Option Nat := dieOrder.find? fun d => !diePowered s d

/-- A die may ramp: step 1, and no die has failed twice. -/
def ramping (s : State) (d : Nat) : Bool := inStep s 1 && rdF s dieStatA 8 4 = 0 && rampingDie s = some d

/-- DIE_RAMP_DONE (R431, R432): the die is on; after the last one step 2 begins. -/
def execDieRampDone (die : Nat) (s : State) : Host.Outcome State Fault Refusal :=
  .next (if ramping s die then
      let s := wrF dieStatA (die - 1) 1 1 s
      if rampingDie s = none then setStep 2 s else s
    else s)

/-- DIE_RAMP_TIMEOUT (R431): one retry; a second failure sets FAIL and stops bring-up. -/
def execDieRampTimeout (die : Nat) (s : State) : Host.Outcome State Fault Refusal :=
  .next (if ramping s die then
      if s.mod.retried.contains die then setIrq pgPWR 1 (wrF dieStatA (8 + die - 1) 1 1 s)
      else withMod (fun m => { m with retried := die :: m.retried }) s
    else s)

-- Step 2

/-- The map that a REPAIR_BASIN generation holds is legal (R143). -/
def mapGenOk (s : State) (g : Nat) : Bool :=
  let at0 (l : Nat) : Nat := fld (otpWord s (genBase 3 g + 1 + l / 8)) (8 * (l % 8)) 8 % 64
  (List.range 32).all fun l => at0 l ≤ 33 && (List.range l).all fun m => at0 m ≠ at0 l

/-- The generations of a block that could be taken, newest first (R391). -/
def goodGens (s : State) (b : Nat) : List Nat := [3, 2, 1, 0].filter fun g => genValid s b g && !genVoided s b g

/-- The generation that a block resolves to: of REPAIR_BASIN the newest whose map is legal (R143, R391). -/
def takenGen (s : State) (b : Nat) : Option Nat := if b = 3 then (goodGens s 3).find? (mapGenOk s) else (goodGens s b).head?

/-- Log the errors of reading the OTP, the generations ignored and the maps passed over (R143, R388, R391). -/
def resolveLogs (s : State) : State :=
  let s := s.sec.otp.foldl (fun t q => otpLog q.1 t) s
  let s := (List.range 10).foldl (fun t b => [0, 1, 2, 3].foldl (fun u g =>
    if genUsed u b g && !genValid u b g then logOtpNote (genBase b g) 0x0C10 u else u) t) s
  ((goodGens s 3).takeWhile fun g => !mapGenOk s g).foldl (fun t g => logOtpNote (genBase 3 g) 0x0544 t) s

/-- OTP_RESOLVED (R391, R405). -/
def resolvedReg (s : State) : Reg :=
  BitVec.ofNat 32 ((List.range 10).foldl (fun (a : Nat) b => match takenGen s b with
    | some g => a + (4 + g) * 2 ^ (3 * b)
    | none => a) 0)

/-- The retired marks of the resolved REPAIR_MEM generation (R322, R331): banks 112 to 123 ignore theirs. -/
def applyRetired (s : State) : State :=
  (List.range 128).foldl (fun t n =>
    if bit (otpData s 2 (1 + n / 64) 0) (n % 64) then
      if 112 ≤ n && n < 124 then logOtpNote (genBase 2 ((otpGen s 2).getD 0) + 1 + n / 64) 0x0907 t
      else setBank n { bankOf t n with typ := 15 } t
    else t) s

/-- A repair entry is ignored (R331): a reserved bit, an address or spare out of range, a spare already used. -/
def badRepair (s : State) (e : Reg) : Bool :=
  let col := bit e 30
  let b := bankOf s (fld e 20 7)
  let sp := fld e 14 3
  fld e 27 3 ≠ 0 || fld e 17 3 ≠ 0 || (if col then 9216 ≤ fld e 0 14 || 4 ≤ sp else 4096 ≤ fld e 0 14)
    || (if col then b.cols else b.rows).any fun q => q.1 = sp

/-- Apply repair entry `i` of the resolved REPAIR_MEM generation (R330, R331). -/
def applyRepair (s : State) (i : Nat) : State :=
  let e : Reg := BitVec.ofNat 32 (fld (otpData s 2 (3 + i / 2) 0) (32 * (i % 2)) 32)
  let n := fld e 20 7
  let b := bankOf s n
  let q := (fld e 14 3, fld e 0 14)
  if !bit e 31 then s
  else if badRepair s e then logOtpNote (genBase 2 ((otpGen s 2).getD 0) + 3 + i / 2) 0x0907 s
  else setBank n (if bit e 30 then { b with cols := b.cols ++ [q] } else { b with rows := b.rows ++ [q] }) s

/-- The lifeline lanes that LANE_DEFAULTS names, in its order (R254, R389). -/
def namedLifelines (s : State) : List Nat :=
  if (otpGen s 4).isSome then
    (((List.range 8).map fun i => fld (otpData s 4 2 0) (8 * i) 8).filter fun l => decide (l < 144)).take 4
  else []

/-- The device index against IDENT (R259): the OTP's index, INDEX_VALID, and ENR_INDEX_MISMATCH. -/
def loadIndex (s : State) : State :=
  let w := otpData s 1 8 0
  let a := at' pgENRG 0x44
  if (otpGen s 1).isSome && bit w 3 then
    let s := wrF a 6 1 1 (wrF a 3 3 (fld w 0 3) s)
    if fld w 0 3 ≠ devIndex s then wrF a 16 16 0x0802 s else s
  else s

/-- The pages whose registers take reset values from the OTP. -/
def otpPages : List Nat :=
  [pgTHM, pgCFG] ++ (List.range 4).map pgUIO ++ (List.range 36).map pgQUAD ++ (List.range 7).map pgENR

/-- Registers take the values that the OTP gives them (R143, R218, R260, R456, R522). -/
def loadOtpRegs (s : State) : State :=
  otpPages.foldl (fun t p => (otpLoaded p).foldl (fun u a => wr a (otpReset u a) u) t) s

/-- The OTP is read and resolved (R143, R254, R259, R330, R331, R391, R397). -/
def resolveOtp (s : State) : State :=
  let s := resolveLogs s
  let s := loadIndex (loadOtpRegs (wr (at' pgOTP 0x44) (resolvedReg s) s))
  let s := (List.range 64).foldl applyRepair (applyRetired s)
  let s := { s with lan := { s.lan with lifelines := namedLifelines s } }
  withSec (fun x => { x with seeded := true, otpHash := otpStateHash s }) s

/-- OTP_RESOLVE (R391, R432): step 2. -/
def execOtpResolve (s : State) : Host.Outcome State Fault Refusal :=
  .next (if inStep s 2 then followClocks (setStep 3 (resolveOtp s)) else s)

-- Steps 6 to 8

/-- The gradients at calibration (R450): T(lower) - T(upper) of each vertical pair, and the stack power. -/
def measureGradients (r : Readings) (s : State) : State :=
  let g (d site : Nat) : Int := match (siteChan d site).bind r, (siteChan (d + 1) site).bind r with
    | some a, some b => a - b
    | _, _ => 0
  withThm (fun t => { t with
    power0 := stackPower r, power := stackPower r
    grads := (List.range 48).foldl (fun m k => tput 0 k (g (k / 12) (k % 12)) m) t.grads }) s

/-- A lane fails self-calibration (R432): it stays DISABLED, with cause CAL_FAIL in its QUAD page. -/
def calFail (s : State) (l : Nat) : State :=
  setFault (pgQUAD (l / 4)) 0x020A { s with lan := { s.lan with dead := l :: s.lan.dead.filter fun m => decide (m ≠ l) } }

/-- SELF_CALIBRATION (R432, R445, R450): step 6; each lane's calibration result is a free value (R221, R257); after a warm reset the lanes' stored calibration is used again. -/
def execSelfCalibration (readings : List (Option Int)) (badLanes : List Nat) (s : State) : Host.Outcome State Fault Refusal :=
  .next (if inStep s 6 then
      let s := measureGradients (sensed s readings) s
      setStep 7 (if s.mod.warmBoot then s
        else (badLanes.filter fun l => decide (l < 144)).foldl calFail
          ((List.range 144).foldl (fun t l => let c := takeFree 32 t; wr (detailA l 0x2C) c.1 c.2) s))
    else s)

/-- The hardware fill (R121, R175, R224, R432): every store of D0 to D4 with valid check bits, and OQ and OUT; planes and frame planes that
were not BLANK enter it. -/
def fillAll (s : State) : State :=
  let s := blankIrqs s
  { s with
    mem := { s.mem with rows := [] }
    fab := { Fabric.zero with hold := s.fab.hold, basins := s.fab.basins.map fun b => (b.1, { b.2 with frame := .zero }) }
    slu := { Sluice.zero with tickLatch := s.slu.tickLatch }
    lan := { s.lan with rungs := [] }
    ime := { s.ime with cache := [] }
    ecc := { s.ecc with rings := [] } }

/-- The boot load of a bring-up that EMBER cut short is forgotten: it is made anew at step 9 (R438). -/
def forgetBoot (s : State) : State :=
  if s.cfc.boot.isSome || s.cfc.phases ≠ [] || bootFailed s then
    wrF 0x040 1 1 0 (wr bootStatA (rd s bootStatA &&& 0x300)
      (withCfc (fun c => { c with eng0 := .zero, boot := none, applied := [], phases := [] }) s))
  else s

/-- HARDWARE_FILL (R432): step 7. -/
def execHardwareFill (s : State) : Host.Outcome State Fault Refusal := .next (if inStep s 7 then setStep 8 (fillAll (forgetBoot s)) else s)

/-- LBIST_BOOT (R433): 1 where no THERMAL_LIMITS generation resolves. -/
def lbistBoot (s : State) : Bool := if (otpGen s 9).isSome then bit (otpData s 9 2 0) 63 else true

/-- Boot LBIST is skipped (R433): a supply outside 3 % of nominal, or a sensor above 100 °C. -/
def lbistSkipped (s : State) : Bool :=
  !(List.range 24).all (fun i => voltOk s i 3) || (List.range 52).any fun c =>
    let v := rdF s (at' pgTHM (0x100 + 4 * c)) 0 16
    v ≠ 0x8000 && 1600 < (BitVec.ofNat 16 v).toInt

/-- The physical basins that fail the boot LBIST are marked (R433, R473). -/
def markBasins (basins : List (Nat × BitVec 16)) (s : State) : State :=
  let bad := basins.filter fun q => decide (q.1 < 34 ∧ q.2 ≠ 0xFFFF)
  let s := bad.foldl (fun t q => wrF (at' pgBIST (0x60 + 4 * (q.1 / 32))) (q.1 % 32) 1 1 t) s
  withMod (fun m => { m with marked := bad }) s

/-- BOOT_LBIST (R432, R433, R473): step 8; `basins` gives the pans that passed of each physical basin that did not pass whole. -/
def execBootLbist (basins : List (Nat × BitVec 16)) (s : State) : Host.Outcome State Fault Refusal :=
  .next (if inStep s 8 then
      setStep 9 (if !lbistBoot s then s else if lbistSkipped s then logNote 0x0208 s else markBasins basins s)
    else s)

end Sys2Proof.Machine
end

