-- ==== Sys2Proof/Machine/Modes.lean ====
section
/-! DEFINITION. The mode machine: commands, SIMMER, EMBER, DORMANT, warm reset, die-level reset, removal of power (16). -/

namespace Sys2Proof.Machine

-- SIMMER

/-- CMD SIMMER begins its drain (R434). -/
def simmerBegin (s : State) : State := setModeStep .simmerDrain s

/-- No item is in flight (R434). -/
def allDrained (s : State) : Bool := ((List.range 34).all fun n => basinIdle s n) && s.slu.services.all fun v => !v.current

/-- Entry into SIMMER after the drain (R434 steps 3 to 5). -/
def enterSimmer (s : State) : State :=
  let s := stopPlls (banksRetain (basinsDeep (dramSleep s)))
  let s := withMod (fun m => { m with laneWake := rdB s (at' pgMODE 0x4C) 16 }) s
  enrEvalAll (setModeStep .none (setMode mSIMMER s))

/-- SIMMER_DRAIN_DONE (R434). -/
def execSimmerDrainDone (s : State) : Host.Outcome State Fault Refusal :=
  .next (if s.mod.step = .simmerDrain && allDrained s then enterSimmer s else s)

/-- SIMMER_DRAIN_TIMEOUT (R429, R434): the entry is abandoned. -/
def execSimmerDrainTimeout (s : State) : Host.Outcome State Fault Refusal :=
  .next (if s.mod.step = .simmerDrain && !allDrained s then setFault pgMODE 0x0207 (setModeStep .none s) else s)

/-- A wake from SIMMER begins (R435): the PLLs start, and each LOCKED lane looks for its rung again. -/
def simmerWakeBegin (s : State) : State :=
  let s := (List.range 144).foldl (fun t l =>
    let v := laneOf t l
    if v.state = .locked then setLane l { v with cdr := false, blk := false, fec := false, mkr := false } t else t) s
  setModeStep .simmerWake s

/-- A LOCKED lane that has not met R228 by the end of the wake loses lock (R435). -/
def dropUnlocked (s : State) (l : Nat) : State :=
  let v := laneOf s l
  if v.state = .locked && !v.cdr then moveLane l (fun t => enterRung l (topRung t l) t) s else s

/-- SIMMER_WAKE_DONE (R435): the PLLs are locked; banks and DRAM wake, SERVICE. -/
def execSimmerWakeDone (s : State) : Host.Outcome State Fault Refusal :=
  .next (if s.mod.step = .simmerWake && rdB s pllStatA 31 && rdB s pllStatA 30 then
      let s := dramWake (banksWake s)
      let s := setModeStep .none (setMode mSERVICE s)
      emberCheck (settle (enrEvalAll ((List.range 144).foldl dropUnlocked s)))
    else s)

/-- LANE_WAKE_SIGNAL (R435): signal on a wake lane for 500 ns. -/
def execLaneWakeSignal (lane : Nat) (s : State) : Host.Outcome State Fault Refusal :=
  .next (if modeOf s = mSIMMER && s.mod.step = .none && s.mod.laneWake && (laneOf s (leadOf s lane)).state = .locked then
      simmerWakeBegin s
    else s)

-- EMBER

/-- CMD EXIT_EMBER where no condition holds (R438): bring-up at step 5, or the late stages. -/
def leaveEmber (s : State) : State :=
  match emberCondition s with
  | some _ => modeRefuse 0x0206 s
  | none =>
    if s.mod.emberAt ≠ 0 then
      let s := withMod (fun m => { m with emberAt := 0 }) s
      followClocks (lanesSettle (setStep 5 (setMode mBRINGUP s)))
    else lanesSettle (setModeStep .lateStages (setMode mBRINGUP s))

/-- LATE_STAGES_DONE (R438): the PLLs are locked, DRAM, lanes, ports and pins return, SERVICE. -/
def execLateStagesDone (s : State) : Host.Outcome State Fault Refusal :=
  .next (if s.mod.step = .lateStages && rdB s pllStatA 31 && rdB s pllStatA 30 then
      let s := dramWake (banksWake s)
      let s := setModeStep .none (setMode mSERVICE s)
      let s := enrEvalAll (lanesSettle s)
      emberCheck (settle (wrF 0x040 0 1 1 s))
    else s)

/-- THROTTLE_LIMIT (R436, R451): THROTTLE has been held for THROTTLE_S seconds. -/
def execThrottleLimit (s : State) : Host.Outcome State Fault Refusal :=
  .next (if rdB s (at' pgTHM 0x40) 17 then emberCheck (withMod (fun m => { m with throttle := 1 }) s) else s)

-- Warm reset

/-- A warm reset begins (R440): issue and intake stop, DEV_READY goes low. -/
def warmBegin (s : State) : State := unready (setModeStep .warmReset s)

/-- The registers that a warm reset keeps beside the always-on ones: the settings of the IME regions (R379), the DRAM controller's and its
PHY's registers (R440). -/
def warmRegs (a : Nat) : Bool :=
  aonRegs.contains a || imeSetup a || (0x88 ≤ a / 0x1000 && a / 0x1000 < 0x98 && 0x40 ≤ a % 0x1000)

/-- The OTP word being programmed completes (R440). -/
def finishWord (s : State) : State :=
  match s.sec.job with
  | some j => match j.words with
    | (w, d) :: _ => putOtp w (encCode d) s
    | [] => s
  | none => s

/-- The DRAM controller as a warm reset leaves it (R346, R440): SR from READY, else as SIMMER leaves it. -/
def dramWarm (s : State) : State := withDrm (fun d => { d with warm := drcState s = dSR }) s

/-- Reset applied to D0, the column domain and the logic of D1 to D4 (R440): what the nonvolatile stores, the always-on domain, the DRAM
with its settings and the alarm window hold stays; bring-up runs from step 2, or from step 1 where the dies were off (R428). -/
def warmState (s0 : State) : State :=
  let s := dramWarm (dramSleep (abortReads (finishWord s0)))
  let dark := modeOf s = mDORMANT || rdF s dieStatA 0 4 ≠ 15
  let drm := { s.drm with bursting := [], resilver := [], timeouts := [], copying := [] }
  let t := coldState warmRegs s
  let t := { t with
    drm := if dark then Dram.zero else drm
    clk := { Clk.zero with refA := s.clk.refA, refB := s.clk.refB, xoHeld := s.clk.xoHeld }
    lan := { Lanes.zero with dead := s.lan.dead }
    mod := { t.mod with warmBoot := !dark }
    sec := { t.sec with alarms := s.sec.alarms, alarmCts := s.sec.alarmCts } }
  let t := wrF dieStatA 4 4 0 (if dark then wrF dieStatA 0 12 0 (setDrcState dOFF t) else t)
  let t := if dark then beginBringup t else wrF modeStatA 4 4 2 (setMode mBRINGUP t)
  if t.mod.resetHeld then wrF modeStatA 4 4 0 t else t

/-- WARM_RESET_APPLY (R440). -/
def execWarmResetApply (s : State) : Host.Outcome State Fault Refusal :=
  .next (if s.mod.step = .warmReset && modeOf s ≠ mSEALED then warmState s else s)

/-- RESET_N (R440, R402): held low for 1 µs. -/
def execResetN (s : State) : Host.Outcome State Fault Refusal :=
  .next (if modeOf s = mSEALED then s
    else
      let s := withMod (fun m => { m with resetHeld := true }) s
      if s.mod.power then warmBegin s else s)

/-- The release of RESET_N (R440): begins the bring-up that waits for it. -/
def execResetNRelease (s : State) : Host.Outcome State Fault Refusal :=
  .next (if s.mod.resetHeld then
      let s := withMod (fun m => { m with resetHeld := false }) s
      if inStep s 0 && s.mod.power && s.mod.step = .none then setStep (if s.mod.warmBoot then 2 else 1) s else s
    else s)

-- DORMANT

/-- CMD DORMANT in the modes that take it (R429, R439). -/
def dormantCmd (s : State) : State :=
  if modeOf s = mSERVICE || modeOf s = mSIMMER || modeOf s = mEMBER then enterDormant s else modeRefuse 0x0205 s

-- Commands

/-- A command of the MODE page (R429, R442): 1 SIMMER, 2 WAKE, 3 DORMANT, 4 EXIT_EMBER, 5 WARM_RESET. -/
def modeCmd (cmd confirm : Nat) : State → State := guarded pgMODE fun s =>
  if cmd = 0 || ((cmd = 3 || cmd = 5) && confirm ≠ 0x5AFE) then s
  else if 6 ≤ cmd then setFault pgMODE reservedValue s
  else if modeOf s = mSEALED then s
  else if s.mod.step ≠ .none then modeRefuse 0x0205 s
  else match cmd with
    | 1 => if modeOf s = mSERVICE then simmerBegin s else modeRefuse 0x0205 s
    | 2 => if modeOf s = mSIMMER then simmerWakeBegin s else modeRefuse 0x0205 s
    | 3 => dormantCmd s
    | 4 => if modeOf s = mEMBER then leaveEmber s else modeRefuse 0x0205 s
    | _ => warmBegin s

/-- A write of MODE_CMD. -/
def modeCmdWrite (v : Reg) (s : State) : State := modeCmd (fld v 0 3) (fld v 16 16) s

/-- SIMMER (R434): a write of MODE_CMD with CMD 1. -/
def execSimmer (s : State) : Host.Outcome State Fault Refusal := .next (modeCmdWrite 1 s)

/-- WAKE (R435): a write of MODE_CMD with CMD 2. -/
def execWake (s : State) : Host.Outcome State Fault Refusal := .next (modeCmdWrite 2 s)

/-- EXIT_EMBER (R438): a write of MODE_CMD with CMD 4. -/
def execExitEmber (s : State) : Host.Outcome State Fault Refusal := .next (modeCmdWrite 4 s)

/-- DORMANT (R439): a write of MODE_CMD with CMD 3; the operand carries CONFIRM. -/
def execDormant (val : Reg) (s : State) : Host.Outcome State Fault Refusal := .next (modeCmdWrite (setFld val 0 3 3) s)

/-- WARM_RESET (R440): a write of MODE_CMD with CMD 5; the operand carries CONFIRM. -/
def execWarmReset (val : Reg) (s : State) : Host.Outcome State Fault Refusal := .next (modeCmdWrite (setFld val 0 3 5) s)

/-- WAKE_N (R429, R435): wakes from DORMANT and from SIMMER. -/
def execWakeN (s : State) : Host.Outcome State Fault Refusal :=
  .next (if modeOf s = mDORMANT && s.mod.power && s.mod.step = .none then beginBringup s
    else if modeOf s = mSIMMER && s.mod.step = .none then simmerWakeBegin s
    else s)

/-- A management transaction is acted on (R503). -/
def pecAccepted (pecOk : Bool) (s : State) : Bool := pecOk || !rdB s (at' pgHIF 0x48) 0

/-- MGMT_WAKE (R429, R503): from DORMANT; refused in the other modes but SEALED. -/
def execMgmtWake (pecOk : Bool) (s : State) : Host.Outcome State Fault Refusal :=
  .next (if !pecAccepted pecOk s || modeOf s = mSEALED then s
    else if modeOf s = mDORMANT && s.mod.step = .none then beginBringup s
    else modeRefuse 0x0205 s)

/-- MGMT_RESET (R440, R503). -/
def execMgmtReset (confirm : BitVec 16) (pecOk : Bool) (s : State) : Host.Outcome State Fault Refusal :=
  .next (if !pecAccepted pecOk s || confirm ≠ 0x5AFE || modeOf s = mSEALED then s else warmBegin s)

/-- MGMT_DORMANT (R439, R503). -/
def execMgmtDormant (confirm : BitVec 16) (pecOk : Bool) (s : State) : Host.Outcome State Fault Refusal :=
  .next (if !pecAccepted pecOk s || confirm ≠ 0x5AFE || modeOf s = mSEALED then s
    else if s.mod.step ≠ .none then modeRefuse 0x0205 s
    else dormantCmd s)

-- Die-level reset (R441)

/-- The row ports whose commands a die-level reset ends: of D1 ROW_2 and ROW_3, of D3 ROW_0 and ROW_1, of D4 all four. -/
def diePorts (d : Nat) : List Nat :=
  match d with
  | 1 => [2, 3]
  | 3 => [0, 1]
  | 4 => [0, 1, 2, 3]
  | _ => []

/-- The commands of a die's row ports end with DIE_RESET; the far commands of D4's do not use it. -/
def resetRows (d : Nat) (s : State) : State :=
  (List.range 34).foldl (fun t n => (diePorts d).foldl (fun u r =>
    let p := rowPort u n r
    setRowPort n r { p with cmds := p.cmds.map fun c =>
      if d = 4 && c.far then c else { c with fault := some (c.fault.getD 0x0201) } } u) t) s

/-- The crystals of a logic die: pans 0 to 7 on D1, 8 to 15 on D3. -/
def onDie (d x : Nat) : Bool := (d = 1 && x % 512 < 256) || (d = 3 && 256 ≤ x % 512)

/-- State banks, OQ, OUT and data registers of a logic die read 0, and its logic is at its reset values. -/
def zeroDie (d : Nat) (s : State) : State :=
  let pan (k : Nat) : Bool := onDie d (32 * (k % 16))
  withFab (fun f => { f with
    banks := f.banks.filter fun q => !onDie d (q.1 / 4)
    crystals := (f.crystals.map fun q => (q.1, if onDie d q.1 then { q.2 with oq := 0, out := 0, muls := [], tag := none } else q.2)).filter
      fun q => decide (q.2 ≠ Crystal.zero)
    lanes := f.lanes.filter fun q => !pan (q.1 / 24)
    tagRegs := f.tagRegs.filter fun q => !pan (q.1 / 24)
    spines := f.spines.filter fun q => !pan (q.1 / 4) }) s

/-- Live copies empty; lane settings and frame latches reloaded from their planes. -/
def relatchD2 (s : State) : State :=
  let s := (List.range 34).foldl (fun t n => mapCrystals n (fun c => { c with live := none }) t) s
  (List.range 34).foldl (fun t n =>
    let t := (validPlanes t n).foldl (fun u p => latchLanes n p u) t
    if (basinOf t n).frame.st = .valid then
      (List.range 512).foldl (fun u x => match decodedData (frameDec u n x) with
        | some w => setCrystal (xk n x) { crystalOf u (xk n x) with frame := BitVec.ofNat 26 w.toNat } u
        | none => u) t
    else t) s

/-- Every intake write in progress drops its frame (R441). -/
def dropIntake (s : State) : State :=
  let s := s.lan.openSegs.foldl (fun t g => intakeDrop g.lane 0x0201 (returnGroup g.bank g.row t)) s
  let s := (s.lan.incoming.filter fun i => !i.dropped && !s.lan.openSegs.any fun g => g.lane = i.lane).foldl (fun t i => intakeDrop i.lane 0x0201 t) s
  { s with lan := { s.lan with openSegs := [], incoming := s.lan.incoming.map fun i => { i with dropped := true, bytes := [] } } }

/-- A run of MBIST ends with DIE_RESET where D4 is reset (R441, log entry 343). -/
def cutMbist (s : State) : State :=
  if s.mem.mbist.isSome then setFault pgBANK 0x0201 (setBusy pgBANK false { s with mem := { s.mem with mbist := none } }) else s

/-- The host DMA channels that run with a D4 kind halt with DIE_RESET. -/
def haltD4 (s : State) : State :=
  (List.range 16).foldl (fun t c => if hdmaRuns t c && hdmaKind t c < 2 then hdmaHalt c 0x0201 0 t else t) s

/-- A run of LBIST ends without restore (R472). -/
def bistDieReset (d : Nat) (s : State) : State :=
  let n := s.ecc.bistP
  let run : Bool := match s.ecc.phase with
    | .none => false
    | .d2 => false
    | _ => true
  if run then
    let s := bistOver false (setFault pgBIST 0x0201 s)
    if d = 4 then raiseTraps n [(0, 0x0201, 0)] s else s
  else s

/-- Deliveries to an intake port whose die is reset end (R25, R441): those on their way and waiting are gone, and the item whose beats the port
was presenting is errored. -/
def dropPort (n port : Nat) (s : State) : State :=
  let mine (t : Nat × Nat × Delivery) : Bool := t.1 = n && t.2.1 = port
  let s := returnDeliveries ((s.slu.transit.filter mine).map (·.2.2)) s
  let s := withSlu (fun u => { u with transit := u.transit.filter fun t => !mine t }) s
  let q := intakeOf (basinOf s n) port
  let s := returnDeliveries q.waiting s
  let s := match (basinOf s n).items.reverse.find? fun i => i.port = port with
    | some i => if q.beat.isSome || q.rest ≠ [] then itemErrored n i.handle 0x0201 s else s
    | none => s
  let b := basinOf s n
  setBasin n (setIntake b port { q with waiting := [], beat := none, rest := [], tag := none }) s

/-- Deliveries whose payload D4 still has to give end with DIE_RESET (R25, R441). -/
def cutPayloads (s : State) : State :=
  let cut (d : Delivery) : Delivery :=
    match d.beats with
    | b :: _ => if fld b.words 4 2 = 0 && 0 < fld b.words 32 13 then { d with error := some 0x0201 } else d
    | [] => d
  withSlu (fun u => { u with transit := u.transit.map fun t => (t.1, t.2.1, cut t.2.2) }) s

/-- The logic of a die is reset (R441). A basin's trap names the lowest crystal address of the die, of D2 that of D1, and context 0 (log
entry 310). -/
def dieReset (d : Nat) (s : State) : State :=
  let s := setBusy pgPWR true (wrF dieStatA (4 + d - 1) 1 1 (withMod (fun m => { m with dieReset := some d }) s))
  let s := bistDieReset d (resetRows d s)
  if d = 4 then abortHost <| haltD4 (dropIntake (cutPayloads (cutMbist s)))
  else
    let s := if d = 2 then relatchD2 s else (List.range 34).foldl (fun t n => dropPort n (if d = 3 then 1 else 0) t) (zeroDie d s)
    (List.range 34).foldl (fun t n => raiseTraps n [(if d = 3 then 256 else 0, 0x0201, 0)] t) s

/-- A write of PWR_DIE_RESET (R441, R442). -/
def dieResetWrite (v : Reg) : State → State := posted pgPWR fun s =>
  match fld v 0 4 with
  | 0 => s
  | 1 => dieReset 1 s
  | 2 => dieReset 2 s
  | 4 => dieReset 3 s
  | 8 => if dispatchOn s || imeOn s then setFault pgPWR 0x0209 s else dieReset 4 s
  | _ => setFault pgPWR reservedValue s

/-- PWR_DIE_RESET (R441). -/
def execPwrDieReset (val : Reg) (s : State) : Host.Outcome State Fault Refusal := .next (dieResetWrite val s)

/-- DIE_RESET_DONE (R441, R442). -/
def execDieResetDone (die : Nat) (s : State) : Host.Outcome State Fault Refusal :=
  .next (if s.mod.dieReset = some die then
      let s := withMod (fun m => { m with dieReset := none }) s
      setIrq pgPWR 0 (setBusy pgPWR false (wrF dieStatA 4 4 0 s))
    else s)

-- Power

/-- What the removal of power leaves: the OTP and the boot store, and what is outside the block (R388, R402). -/
def unpowered (s : State) : State :=
  let t := coldState (fun _ => false) s
  { t with mod := { Modes.zero with resetHeld := s.mod.resetHeld }, thm := Thm.zero, hst := HostIf.zero }

/-- POWER_REMOVAL (R402, R429). -/
def execPowerRemoval (s : State) : Host.Outcome State Fault Refusal := .next (unpowered s)

end Sys2Proof.Machine
end

