-- ==== Sys2Proof/Machine/Header.lean ====
section
/-! DEFINITION. The common page header, shared resources, staged writes, interrupts' registers and gates (15, 19); the user I/O
registers (20). -/

namespace Sys2Proof.Machine

-- Shared resources

/-- The resources of R496 that an enable may claim: class and index ranges. -/
def resourceOk (r : Nat) : Bool :=
  let i := r % 4096
  match r / 4096 with
  | 1 => i < 96
  | 2 => i < 4
  | 4 => i < 36
  | 5 => i < 16
  | 6 => i = 0
  | 7 => i < 4
  | _ => false

/-- ENABLE (R496, R497): an enable of a block claims a resource, or is refused for its holder (log entry 39). -/
def execEnable (page : Nat) (resource : BitVec 16) (s : State) : Host.Outcome State Fault Refusal :=
  .next (if pageType page ≠ 0 && resourceOk resource.toNat then (claim resource.toNat page s).1 else s)

-- User I/O

/-- User I/O pin `j` of bank `k` as a resource. -/
def pinRes (k j : Nat) : Nat := 0x1000 + 24 * k + j
/-- UIO_OWNER of a bank. -/
def uioOwnerA (k : Nat) : Nat := at' (pgUIO k) 0x40
/-- UIO_CLK of a bank. -/
def uioClkA (k : Nat) : Nat := at' (pgUIO k) 0x44
/-- UIO_PIN_j of a bank. -/
def uioPinA (k j : Nat) : Nat := at' (pgUIO k) (0x100 + 4 * j)

/-- A pin whose DIR is above 0 in an enabled bank claims its resource; refused, its DIR reads back 0 (R497, R522). -/
def claimPin (k j : Nat) (s : State) : State :=
  if rdF s (uioPinA k j) 2 2 = 0 || !rdB s (uioOwnerA k) 31 then release (pinRes k j) (pgUIO k) s
  else
    let r := claim (pinRes k j) (pgUIO k) s
    if r.2 then r.1 else wrF (uioPinA k j) 2 2 0 r.1

/-- The setting in force of a pin stays until the next UIO rising edge (R521): the delay line alone follows its register. -/
def keepCell (p : Nat) (old : Reg) (s : State) : State :=
  setUioCell p { uioCellOf s p with force := if setFld (pinReg s p) 16 7 (fld old 16 7) = old then none else some old } s

/-- A write of UIO_PIN_j (R497, R521, R522). -/
def uioPinWrite (k j : Nat) (v : Reg) : State → State := guarded (pgUIO k) fun s =>
  let old := pinCell s (24 * k + j)
  keepCell (24 * k + j) old (claimPin k j (writeReg (uioPinA k j) v s))

/-- UIO_PIN_WRITE (R520 to R522), of device pin `pin`. -/
def execUioPinWrite (pin : Nat) (val : Reg) (s : State) : Host.Outcome State Fault Refusal :=
  .next (if pin < 96 then uioPinWrite (pin / 24) (pin % 24) val s else s)

/-- A write of UIO_CLK (R519): EN claims the clock loop, and a change makes it lock anew. -/
def uioClkWrite (k : Nat) (v : Reg) : State → State := guarded (pgUIO k) fun s =>
  let a := uioClkA k
  let old := rd s a
  let s := writeReg a v s
  let s := if rd s a = old then s else wrF (at' (pgUIO k) 0x48) 0 1 0 s
  if rdB s a 31 then
    let r := claim (0x7000 + k) (pgUIO k) s
    if r.2 then r.1 else wrF a 31 1 0 r.1
  else release (0x7000 + k) (pgUIO k) s

/-- UIO_CLK_WRITE (R415, R519). -/
def execUioClkWrite (bank : BitVec 2) (val : Reg) (s : State) : Host.Outcome State Fault Refusal :=
  clocked s (uioClkWrite bank.toNat val s)

/-- The clock loop of a bank locks (R519). -/
def loopLock (k : Nat) (s : State) : State := if rdB s (uioClkA k) 31 then wrF (at' (pgUIO k) 0x48) 0 1 1 s else s

/-- A write of UIO_OWNER is staged (R494, R522). -/
def uioOwnerWrite (k : Nat) (v : Reg) : State → State := guarded (pgUIO k) fun s =>
  wrF (statA (pgUIO k)) 1 1 1 (withHst (fun h => { h with staged := tput none (uioOwnerA k) (some (v &&& 0x8000001F)) h.staged }) s)

/-- A staged UIO_OWNER takes effect (R497, R517, R522): the bank is claimed or released, its owner resolved, its pins claimed. -/
def applyOwner (k : Nat) (v : Reg) (s : State) : State :=
  let a := uioOwnerA k
  let s := wr a v s
  let r := if bit v 31 then claim (0x2000 + k) (pgUIO k) s else (release (0x2000 + k) (pgUIO k) s, false)
  let s := if r.2 then r.1 else wrF a 31 1 0 r.1
  let s := withHst (fun h => { h with uioOwner := tput none k (if r.2 then some (physOf s (fld v 0 5)) else none) h.uioOwner }) s
  (List.range 24).foldl (fun t j => claimPin k j t) s

/-- A write of DBG_TRACE (R496, R497, R523): EN claims pins 72 to 95. -/
def dbgTraceWrite (v : Reg) : State → State := guarded pgDBG fun s =>
  let a := at' pgDBG 0x40
  let s := writeReg a v s
  let pins := (List.range 24).map (pinRes 3)
  if rdB s a 31 then
    let r := claimAll pins pgDBG s
    if r.2 then r.1 else wrF a 31 1 0 r.1
  else pins.foldl (fun t r => release r pgDBG t) s

/-- DBG_TRACE_WRITE (R523). -/
def execDbgTraceWrite (val : Reg) (s : State) : Host.Outcome State Fault Refusal := .next (dbgTraceWrite val s)

-- Staged updates

/-- Apply the staged copy of every group-table word (R183, R495). -/
def applyGroups (s : State) : State :=
  let l := s.slu.groupsSt
  let s := l.foldl (fun t q => match q.2 with
    | some v => sluMend 2 (q.1 / 8) (q.1 % 8) (q.1 % 8 + 1)
        (withSlu (fun u => { u with groups := tput (groupFill q.1) q.1 v u.groups, groupFix := tput false (q.1 / 8) false u.groupFix }) t)
    | none => t) s
  rearmEmpty (withSlu (fun u => { u with groupsSt := [] }) s)

/-- Apply the buffered writes of one page (R495). -/
def applyPage (p : Nat) (s : State) : State :=
  let mine := s.hst.staged.filter fun q => q.1 / 0x1000 = p
  let s := withHst (fun h => { h with staged := h.staged.filter fun q => decide (q.1 / 0x1000 ≠ p) }) s
  let s := mine.foldl (fun t q => match q.2 with
    | some v => applyOwner (p - 0x11) v t
    | none => t) s
  wrF (statA p) 1 1 0 (if p = pgSLU then applyGroups s else s)

/-- The pages that hold buffered writes. -/
def stagedPages (s : State) : List Nat := ([pgSLU] ++ (List.range 4).map pgUIO).filter fun p => rdB s (statA p) 1

/-- A write of SYS_UPDATE (R495): requested, or merged with a request not yet applied. -/
def sysUpdateWrite (mask : BitVec 16) (s : State) : State :=
  withHst (fun h => { h with updMask := if h.updActive then h.updMask ||| mask else mask, updActive := true }) s

/-- SYS_UPDATE (R495). -/
def execSysUpdate (mask : BitVec 16) (s : State) : Host.Outcome State Fault Refusal :=
  .next (guarded pgSYS (sysUpdateWrite mask) s)

/-- STAGED_UPDATE_APPLY (R183, R202, R495): at the start of the next BCLK every block of a requested group takes its buffered writes. -/
def execStagedUpdateApply (s : State) : Host.Outcome State Fault Refusal :=
  .next (if s.hst.updActive then
      let ps := (stagedPages s).filter fun p => bit s.hst.updMask (rdF s (stageA p) 0 4)
      let s := ps.foldl (fun t p => applyPage p t) s
      setIrq pgSYS 1 (settle (withHst (fun h => { h with updMask := 0, updActive := false }) s))
    else s)

-- Interrupt registers

/-- The vectors that a page's summary feeds: the HDMA page feeds its channels' (log entry 26). -/
def vectorsOf (p : Nat) : List Nat := if p = pgHDMA then (List.range 16).map (16 + ·) else [pageVector p]

/-- A change of `s` into `t` by a write of a page's IRQ_STAT or IRQ_EN; after a write of IRQ_STAT a summary that stays 1 sends
again (R486). -/
def resend (p : Nat) (again : Bool) (s t : State) : State :=
  (vectorsOf p).foldl (fun u v =>
    if vectorSummary t v && (again || !vectorSummary s v) then sendVector v u else u) t

/-- A write of IRQ_STAT (R486 to R488). -/
def irqStatWrite (p : Nat) (v : Reg) (s : State) : State :=
  let keep := 65535 - fld v 0 16
  let t := wr (irqA p) (BitVec.ofNat 32 (rdF s (irqA p) 0 16 &&& keep)) s
  let t := if p = pgHDMA then
      withHst (fun h => { h with chIrq := BitVec.ofNat 32 ((List.range 16).foldl (fun (a : Nat) c =>
        a + (fld h.chIrq (2 * c) 2 &&& keep) * 2 ^ (2 * c)) 0) }) t
    else t
  resend p true s t

/-- IRQ_STAT_WRITE (R486). -/
def execIrqStatWrite (page : Nat) (val : Reg) (s : State) : Host.Outcome State Fault Refusal :=
  .next (if pageType page = 0 then s else reaching page (irqStatWrite page val) s)

/-- The value of bits [15:0] after an M16 write (R493). -/
def m16 (old v : Reg) : Reg :=
  let m := fld v 16 16
  BitVec.ofNat 32 ((fld old 0 16 &&& (65535 - m)) ||| (fld v 0 16 &&& m))

/-- A write of IRQ_EN (R486, R493). -/
def irqEnWrite (p : Nat) (v : Reg) (s : State) : State := resend p false s (wr (irqEnA p) (m16 (rd s (irqEnA p)) v) s)

/-- Mask or unmask an MSI-X vector (R486): unmasked while its summary is 1, it sends its message. -/
def msixMaskWrite (v : Nat) (mask : Bool) (s : State) : State :=
  let b := BitVec.ofNat 64 (2 ^ v)
  if mask then withHst (fun h => { h with msixMask := h.msixMask ||| b }) s
  else
    let was := bit s.hst.msixMask v
    let s := withHst (fun h => { h with msixMask := h.msixMask &&& ~~~b, msixPend := h.msixPend &&& ~~~b }) s
    if was && vectorSummary s v then send (.msix v) s else s

/-- MSIX_UNMASK (R486). -/
def execMsixUnmask (vec : BitVec 6) (s : State) : Host.Outcome State Fault Refusal :=
  .next (guarded pgHIF (msixMaskWrite vec.toNat false) s)

/-- A write of SYS_NMA (R498): ACTIVE, MORE and CAUSE clear. -/
def nmaWrite (v : Reg) (s : State) : State := if bit v 31 then wr 0x054 0 s else s

/-- SYS_NMA_WRITE (R498): an alert of the same BCLK is recorded after the clear. -/
def execSysNmaWrite (val : Reg) (alert : Option (BitVec 16)) (s : State) : Host.Outcome State Fault Refusal :=
  .next (match alert with
    | some c => nmAlert c.toNat (guarded pgSYS (nmaWrite val) s)
    | none => guarded pgSYS (nmaWrite val) s)

-- CTRL

/-- CLR_FAULT (R487). -/
def clrFault (p : Nat) (s : State) : State := wr (errA p) 0 (wrF (statA p) 2 2 0 s)
/-- CLR_FAULT of a page. -/
def execClrFault (page : Nat) (s : State) : Host.Outcome State Fault Refusal := 
  .next (if pageType page = 0 then s else reaching page (clrFault page) s)

/-- CLR_DROPPED (R487). -/
def clrDropped (p : Nat) (s : State) : State := wrF (statA p) 4 1 0 s
/-- CLR_DROPPED of a page. -/
def execClrDropped (page : Nat) (s : State) : Host.Outcome State Fault Refusal :=
  .next (if pageType page = 0 then s else reaching page (clrDropped page) s)

/-- The registers of a page that hold status (R488). -/
def statusRegs (p : Nat) : List Nat :=
  (regRows (pageType p)).flatMap fun r =>
    if statusMask r.fields = 0 then [] else (List.range r.count).map fun i => 0x1000 * p + r.off + i * r.stride

/-- FREEZE (R488): a snapshot of the status registers is taken, or the live view returns. -/
def freezePage (p : Nat) (on : Bool) (s : State) : State :=
  if on = rdB s (statA p) 5 then s
  else
    let s := wrF (statA p) 5 1 (b2n on) s
    if on then
      let l := (statusRegs p).map fun a => (a, liveReg s a)
      withHst (fun h => { h with frozen := l.foldl (fun t q => tput none q.1 (some q.2) t) h.frozen }) s
    else withHst (fun h => { h with frozen := h.frozen.filter fun q => decide (q.1 / 0x1000 ≠ p) }) s

/-- FREEZE of a page. -/
def execFreeze (page : Nat) (on : Bool) (s : State) : Host.Outcome State Fault Refusal :=
  .next (if pageType page = 0 then s else reaching page (freezePage page on) s)

/-- A write of STAGE (R494). -/
def stageWriteReg (p : Nat) (v : Reg) (s : State) : State :=
  if rdB s (statA p) 1 then setFault p 0x0F04 s else wr (stageA p) (v &&& 15) s

-- Gates

/-- The pages whose RUN_EN cannot be cleared (R422). -/
def alwaysRuns (p : Nat) : Bool := p ≤ pgSEC || p = pgHIF

/-- A write of CLK_EN (R421, R422): RUN_EN of 0 in a BSN page puts its basin in DOZE. -/
def clkEnWrite (p : Nat) (v : Reg) (s : State) : State :=
  let m := fld v 16 3
  let new := (rdF s (clkEnA p) 0 3 &&& (7 - m)) ||| (fld v 0 3 &&& m)
  let isBasin := pageType p = 23
  let stops := new % 2 = 0 && rdB s (clkEnA p) 0
  if stops && (alwaysRuns p || (isBasin && !halted s (p - 0x60))) then
    setFault p 0x0109 (wrF (clkEnA p) 0 3 (new + 1) s)
  else
    let s := wrF (clkEnA p) 0 3 new s
    if stops && isBasin then
      let n := p - 0x60
      let b := basinOf s n
      if b.power = .run then setBasin n { b with power := .doze, waking := false } s else s
    else s

/-- CLK_EN_WRITE (R421, R422). -/
def execClkEnWrite (page : Nat) (val : Reg) (s : State) : Host.Outcome State Fault Refusal :=
  .next (if pageType page = 0 then s else reaching page (clkEnWrite page val) s)

/-- The gate of a page is to close: its clock is not enabled, and it is not yet stopped (R423). -/
def closing (s : State) (p : Nat) : Bool := pageType p ≠ 0 && !clkEnabled s p && !rdB s (statA p) 6

/-- GATE_CLOSE (R423): the block's interface is idle. -/
def execGateClose (page : Nat) (s : State) : Host.Outcome State Fault Refusal :=
  .next (if closing s page then wrF (statA page) 6 1 1 s else s)

/-- GATE_FORCED (R423): after CLK_GATE_TIMEOUT the gate is forced. -/
def execGateForced (page : Nat) (s : State) : Host.Outcome State Fault Refusal :=
  .next (if closing s page then setFault page 0x0108 (wrF (statA page) 6 1 1 s) else s)

/-- GATE_OPEN (R424). -/
def execGateOpen (page : Nat) (s : State) : Host.Outcome State Fault Refusal :=
  .next (if pageType page ≠ 0 && clkEnabled s page && rdB s (statA page) 6 then wrF (statA page) 6 1 0 s else s)

end Sys2Proof.Machine
end

