-- ==== Sys2Proof/Machine/Units.lean ====
section
/-! DEFINITION. Writes of the units' registers: whole-record clears, the header of a page, soft reset of the SLU, UIO, QUAD and BSN pages,
and their block-specific registers and table windows (07, 08, 19, 20). -/

namespace Sys2Proof.Machine

/-- What a command leaves: its next state, or the state as it was. -/
def effect (s : State) (o : Host.Outcome State Fault Refusal) : State :=
  match o with
  | .next t => t
  | _ => s

-- Clears (R13, R488)

/-- A snapshot shows a cleared register as cleared too (R488). -/
def frozenWr (a : Nat) (v : Reg) (s : State) : State :=
  match tget none a s.hst.frozen with
  | some _ => withHst (fun h => { h with frozen := tput none a (some v) h.frozen }) s
  | none => s

/-- Clear a register and its snapshot. -/
def clearReg (a : Nat) (s : State) : State := frozenWr a 0 (wr a 0 s)

/-- The registers of a first-event record that writing 1 to bit 31 clears beside it, by page type and offset. -/
def recordRest (t o : Nat) : Option (List Nat) :=
  match t, o with
  | 1, 0x4C => some [0x50]
  | 1, 0x54 => some []
  | 7, 0x48 => some []
  | 14, 0x54 => some [0x58, 0x5C]
  | 19, 0x40 => some [0x44]
  | 23, 0x50 => some []
  | 23, 0x54 => some [0x58]
  | 23, 0xD0 => some [0xD4]
  | 23, 0xE4 => some [0xE8, 0xEC]
  | 11, 0x6C => some [0x60, 0x64, 0x68]
  | _, _ => none

/-- A write of a first-event record. -/
def recordWrite (p o : Nat) (rest : List Nat) (v : Reg) : State → State := guarded p fun s =>
  if bit v 31 then (o :: rest).foldl (fun t x => clearReg (at' p x) t) s else s

/-- A write of a register whose fields are only RW, W1C and RO (R13, R15, R16, R488). -/
def plainWrite (a : Nat) (v : Reg) (s : State) : State :=
  match regFields a with
  | none => s
  | some fs => guarded (a / 0x1000) (fun s =>
    let s := writeReg a v s
    if fs.any fun f => f.kind = .w1c then
      match tget none a s.hst.frozen with
      | some x => frozenWr a (fs.foldl (fun r f => match f.kind with
          | .w1c => setFld r f.lo (f.hi - f.lo + 1) (fld x f.lo (f.hi - f.lo + 1) &&& fld (rd s a) f.lo (f.hi - f.lo + 1))
          | _ => r) x) s
      | none => s
    else s) s

-- The page header (R487, R493)

/-- A write of CTRL; `reset` is the page's soft reset. -/
def ctrlWrite (reset : Nat → State → State) (p : Nat) (v : Reg) (s : State) : State :=
  let on (i : Nat) : Bool := bit v (16 + i) && bit v i
  let s := if on 4 then clrFault p s else s
  let s := if on 3 then clrDropped p s else s
  let s := if bit v 18 then freezePage p (bit v 2) s else s
  if on 1 then reset p s else s

/-- A write of a register of a page's header. -/
def headerWrite (reset : Nat → State → State) (p o : Nat) (v : Reg) (s : State) : State :=
  match o with
  | 0x00C => ctrlWrite reset p v s
  | 0x010 => stageWriteReg p v s
  | 0x014 => irqStatWrite p v s
  | 0x018 => irqEnWrite p v s
  | 0x020 => clkEnWrite p v s
  | _ => s

-- Soft reset (R489)

/-- A soft reset is refused. -/
def resetRefuse (p : Nat) (s : State) : State := setFault p 0x0F06 s

/-- The basin soft reset is accepted (R489). -/
def resetAllowed (s : State) (n : Nat) : Bool :=
  halted s n || match logicalOf s n with
    | none => true
    | some l => offline s l && inService s l = 0

/-- The settings of a user I/O page in force are those of its registers again. -/
def resetCells (p : Nat) (s : State) : State :=
  if pageType p = 18 then
    ((List.range 24).map (24 * (p - 0x11) + ·)).foldl (fun t i => setUioCell i { uioCellOf t i with force := none } t) s
  else s

/-- The registers of a page at their reset values, its staged writes gone, its claims ended. -/
def resetPage (p : Nat) (s : State) : State :=
  let s := withHst (fun h => { h with
    staged := h.staged.filter fun q => decide (q.1 / 0x1000 ≠ p), holders := h.holders.filter fun q => decide (q.2 ≠ p) }) s
  resetCells p (resetRegs p (wrF (statA p) 1 1 0 s))

/-- The SLU page (R489): registers, arbitration, windows; what the tables and the stores hold stays. -/
def resetSlu (s : State) : State :=
  let s := withSlu (fun u => { u with
    groupsSt := [], deficit := [], rrPtr := 0, rotor := [], windows := [], failover := [], cause := [], refused := 0, tickLatch := 0
    winBuf := [], winLatch := [] }) s
  setBusy pgSLU false (resetPage pgSLU s)

/-- A QUAD page: its lanes are DISABLED, its ladder stays. -/
def resetQuad (q : Nat) (s : State) : State :=
  let s := resetPage (pgQUAD q) s
  let s := (quadLanes q).foldl (fun t l => moveLane l (fun u => setLane l .zero u) t) s
  enrEvalAll s

/-- A UIO page: its owner and its pins are released. -/
def resetUio (k : Nat) (s : State) : State :=
  withHst (fun h => { h with uioOwner := tput none k none h.uioOwner }) (resetPage (pgUIO k) s)

/-- The soft reset of a page that a stream may write (R292, R489). -/
def unitReset (p : Nat) (s : State) : State :=
  match pageType p with
  | 12 => resetSlu s
  | 18 => resetUio (p - 0x11) s
  | 20 => resetQuad (p - 0x20) s
  | 23 => if resetAllowed s (p - 0x60) then basinSoftReset (p - 0x60) s else resetRefuse p s
  | _ => s

-- Block-specific registers

/-- A write of SLU_FLOW_CMD (R214). -/
def flowCmdWrite (v : Reg) (s : State) : State :=
  let f : BitVec 16 := BitVec.ofNat 16 (fld v 0 16)
  match fld v 30 2 with
  | 0 => posted pgSLU (fun t => t) s
  | 1 => effect s (execFlowReset f s)
  | 2 => effect s (execQuarantine f s)
  | _ => posted pgSLU (setFault pgSLU reservedValue) s

/-- A write of BSN_PLANE_CMD (R123). -/
def planeCmdWrite (n : Nat) (v : Reg) (s : State) : State :=
  match fld v 8 2 with
  | 0 => posted (pgBSN n) (fun t => t) s
  | 1 => effect s (execClear n (bit v 4) (BitVec.ofNat 4 (fld v 0 4)) s)
  | _ => posted (pgBSN n) (setFault (pgBSN n) reservedValue) s

/-- A block-specific register of the SLU page. -/
def sluWrite (o : Nat) (v : Reg) (s : State) : State :=
  match o with
  | 0x40 => effect s (execSluCtrlWrite v s)
  | 0x54 => effect s (execSluOfflineWrite v s)
  | 0x64 => flowCmdWrite v s
  | 0x48 => settle (plainWrite (at' pgSLU o) v s)
  | _ => plainWrite (at' pgSLU o) v s

/-- A block-specific register of a UIO page. -/
def uioWrite (k o : Nat) (v : Reg) (s : State) : State :=
  if o = 0x40 then uioOwnerWrite k v s
  else if o = 0x44 then uioClkWrite k v s
  else if 0x100 ≤ o && o < 0x160 then uioPinWrite k ((o - 0x100) / 4) v s
  else plainWrite (at' (pgUIO k) o) v s

/-- A block-specific register of a QUAD page. -/
def quadWrite (q o : Nat) (v : Reg) (s : State) : State :=
  if o = 0x40 then quadCfgWrite q v s
  else if 0x100 ≤ o && o < 0x200 then
    let l := 4 * q + (o - 0x100) / 0x40
    match o % 0x40 with
    | 0x00 => laneCtrlWrite l v s
    | 0x24 => laneProtWrite l v s
    | _ => plainWrite (at' (pgQUAD q) o) v s
  else plainWrite (at' (pgQUAD q) o) v s

/-- A block-specific register of a BSN page. -/
def bsnWrite (n o : Nat) (v : Reg) (s : State) : State :=
  match o with
  | 0x40 => bsnModeWrite n v s
  | 0x48 => effect s (execBsnSwBudgetWrite n v s)
  | 0x5C => planeCmdWrite n v s
  | _ => match recordRest 23 o with
    | some rest => recordWrite (pgBSN n) o rest v s
    | none => plainWrite (at' (pgBSN n) o) v s

/-- A write into the table windows (R176). -/
def windowWrite (a : Nat) (v : Reg) (s : State) : State :=
  if a % 8 = 0 then tableLowerWrite a v s else if a % 8 = 4 then tableUpperWrite a v s else s

/-- STAGED_WRITE (R183, R494): a write of an RWS register, UIO_OWNER or a half of a word of the group table, is buffered. -/
def execStagedWrite (addr : Nat) (val : Reg) (s : State) : Host.Outcome State Fault Refusal :=
  .next (match (List.range 4).find? fun k => addr = uioOwnerA k with
    | some k => uioOwnerWrite k val s
    | none => if windowOf addr = some 2 then reaching pgSLU (windowWrite addr val) s else s)

/-- A write of a register or table word that a REG record may address (R292). -/
def unitWrite (a : Nat) (v : Reg) (s : State) : State :=
  let p := a / 0x1000
  let o := a % 0x1000
  if 0x100000 ≤ a then windowWrite a v s
  else if o < 0x40 then headerWrite unitReset p o v s
  else match pageType p with
    | 12 => sluWrite o v s
    | 18 => uioWrite (p - 0x11) o v s
    | 20 => quadWrite (p - 0x20) o v s
    | 23 => bsnWrite (p - 0x60) o v s
    | _ => s

end Sys2Proof.Machine
end

