-- ==== Sys2Proof/Machine/Boot.lean ====
section
/-! DEFINITION. What a stream's end brings: verification, application, the boot load, release, the leader's broadcast (09, 10). -/

namespace Sys2Proof.Machine

-- The leader's broadcast (R283, R311)

/-- The message CFG_DATA with the bytes of a stream from an offset (R275). -/
def cfgDataMsg (id off : Nat) (bs : List Byte) : Msg :=
  { kind := 11, ref := BitVec.ofNat 20 id, body := toBytes 2 (BitVec.ofNat 16 id) ++ toBytes 4 (BitVec.ofNat 32 off) ++ bs, flits := 0 }
/-- The message CFG_END. -/
def cfgEndMsg (id total : Nat) : Msg :=
  { kind := 12, ref := BitVec.ofNat 20 id, body := toBytes 2 (BitVec.ofNat 16 id) ++ toBytes 4 (BitVec.ofNat 32 total), flits := 0 }

/-- Send a message to every follower that a broadcast still reaches. -/
def sendFollowers (b : Bcast) (m : Msg) (s : State) : State :=
  ((List.range 8).filter fun d => bit b.reached d).foldl (fun t d => match portTo t (BitVec.ofNat 3 d) with
    | some p => sendMsg p m t
    | none => t) s

/-- Send what is known of a started broadcast and not yet sent; it ends with CFG_END once its source gives no more. -/
def bcastFlow (s : State) : State :=
  match s.enr.bcast with
  | none => s
  | some b =>
    if !b.started then s
    else
      let more := b.bytes.drop b.sent
      let s := (List.range ((more.length + 217) / 218)).foldl (fun t i =>
        sendFollowers b (cfgDataMsg b.id (b.sent + 218 * i) ((more.drop (218 * i)).take 218)) t) s
      if b.total ≤ b.bytes.length || b.src ≤ 1 || s.cfc.eng0.st = .idle then
        let s := sendFollowers b (cfgEndMsg b.id b.bytes.length) s
        setIrq pgCFG 3 { s with enr := { s.enr with bcast := none } }
      else { s with enr := { s.enr with bcast := some { b with sent := b.bytes.length } } }

/-- The bytes of a slot's image as far as its blocks can be read. -/
def slotBytes (s : State) (slot total : Nat) : List Byte :=
  ((((List.range ((total + 4095) / 4096)).map fun b => readBlock s slot b).takeWhile fun o => o.isSome).flatMap fun o => o.getD []).take total

/-- The devices with an UP port. -/
def upPeers (s : State) : BitVec 8 :=
  BitVec.ofNat 8 ((List.range 8).foldl (fun (a : Nat) d => a + b2n (portTo s (BitVec.ofNat 3 d)).isSome * 2 ^ d) 0)

/-- BROADCAST_START (R311): every target has an UP port to the leader, or 100 ms have passed; the followers reached are recorded. -/
def execBroadcastStart (s : State) : Host.Outcome State Fault Refusal :=
  .next (match s.enr.bcast with
    | none => s
    | some b =>
      if b.started then s
      else
        let reached := b.target &&& upPeers s
        let own := BitVec.ofNat 8 (2 ^ devIndex s)
        let mask := if (leField b.bytes 0x14 1).testBit (devIndex s) then b.target ||| own else b.target
        let bytes := if b.src ≤ 1 then slotBytes s b.src b.total else b.bytes
        let s := wr (at' pgCFG 0x64) (BitVec.ofNat 32 (mask.toNat + reached.toNat * 256)) s
        bcastFlow { s with enr := { s.enr with bcast := some { b with started := true, reached := reached, bytes := bytes } } })

-- Records applied from a boot source that fails (R303)

/-- The RW fields of a register at their reset values. -/
def undoFields (a : Nat) (s : State) : State :=
  match regFields a with
  | none => s
  | some fs => wr a (fs.foldl (fun r f => match f.kind with
      | .rw => setFld r f.lo (f.hi - f.lo + 1) (fld (otpReset s a) f.lo (f.hi - f.lo + 1))
      | _ => r) (rd s a)) s

/-- A table word as the hardware fill leaves it, and no write of it waiting. -/
def undoTable (a : Nat) (s : State) : State :=
  let k := a / 8 * 8
  let fill := tableWord { s with slu := Sluice.zero, lan := Lanes.zero, drm := Dram.zero } k
  match windowOf a with
  | none => s
  | some 2 =>
    let e := (k - 0x110000) / 8
    withSlu (fun u => { u with groups := tput (groupFill e) e fill u.groups, groupsSt := tput none e none u.groupsSt
                               winBuf := tput none 2 none u.winBuf }) s
  | some w =>
    let s := withSlu (fun u => { u with winBuf := tput none w none u.winBuf }) s
    if tableRo k then s else commitTable k fill s

/-- What follows the registers of a page back to their reset values. -/
def undoPage (p : Nat) (s : State) : State :=
  match pageType p with
  | 18 =>
    let k := p - 0x11
    let s := withHst (fun h => { h with
      staged := h.staged.filter fun q => decide (q.1 / 0x1000 ≠ p), holders := h.holders.filter fun q => decide (q.2 ≠ p)
      uioOwner := tput none k none h.uioOwner }) s
    wrF (at' p 0x48) 0 1 0 (wrF (statA p) 1 1 0 s)
  | 20 => (quadLanes (p - 0x20)).foldl (fun t l => settleLanes [l] t) (enrEvalAll s)
  | 23 => setBasin (p - 0x60) { basinOf s (p - 0x60) with mode := rdB s (at' p 0x40) 1 } s
  | _ => s

/-- Discard every record applied from a source: what they wrote returns to its reset value. -/
def undoRecords (s : State) : State :=
  let l := s.cfc.applied.map (·.1)
  let regs := l.filter fun a => a < 0x100000 && (0x40 ≤ a % 0x1000 || a % 0x1000 = 0x10 || a % 0x1000 = 0x18 || a % 0x1000 = 0x20)
  let s := regs.foldl (fun t a => if a % 0x1000 < 0x40 then wr a (regReset a) t else undoFields a t) s
  let s := (l.filter fun a => 0x100000 ≤ a).foldl (fun t a => undoTable a t) s
  let ps := (regs.map (· / 0x1000)).foldl (fun (m : List Nat) p => if m.contains p then m else m ++ [p]) []
  let s := ps.foldl (fun t p => undoPage p t) s
  settle (withCfc (fun c => { c with applied := [] }) s)

-- The boot load (R302, R303, R305)

/-- Every plane and frame plane of every basin BLANK with a cause. -/
def blankAll (cause : Nat) (s : State) : State :=
  let v : PlaneInfo := ⟨.blank, BitVec.ofNat 16 cause, none⟩
  (List.range 34).foldl (fun t n =>
    let t := (List.range 16).foldl (fun u p => if (planeInfo u n p).st = .blank then u
      else setPlaneInfo n p v (clearPlane n p (purge n p u))) t
    if (basinOf t n).frame.st = .blank then t else setFrameInfo n v (clearFrame n (noTags n t))) s

/-- A failed boot (R305): CFG_ERR_N is asserted, every lane stays DISABLED. -/
def failedBoot (s : State) : State :=
  let s := withCfc (fun c => { c with boot := none }) (wrF 0x040 1 1 1 (wrF bootStatA 14 2 1 s))
  lanesSettle s

/-- FIRST_CAUSE takes the cause of the first source's failure. -/
def noteFirst (first : Bool) (cause : Nat) (s : State) : State := if first then wrF bootStatA 16 16 cause s else s

/-- ENG_0 turns to the boot-store slot that waits for it, once it is idle (R300, R303). -/
def turnToSlot (s : State) : State :=
  match s.cfc.boot with
  | some b =>
    if b.cur ≤ 1 && !b.begun && s.cfc.eng0.st = .idle then
      openEngine false b.cur [] (withCfc (fun c => { c with boot := some { b with begun := true } }) s)
    else s
  | none => s

/-- Try the boot sources in turn (R303): 0 slot A, 1 slot B, 2 host, 3 leader. -/
def trySources : List Nat → Bool → State → State
  | [], _, s => failedBoot s
  | src :: rest, first, s =>
    if src ≤ 1 && !hasImage s src then trySources rest false (noteFirst first 0x0413 s)
    else
      let s := withCfc (fun c => { c with boot := some ⟨src, rest, first, false, none, decide (1 < src)⟩ }) s
      if src ≤ 1 then turnToSlot s else wrF bootStatA 15 1 1 s

/-- A boot source that has failed gives way to the next (R303); after a failed boot (R305) nothing is left to try. -/
def bootNext (s : State) : State :=
  match s.cfc.boot with
  | none => s
  | some b => match b.failed with
    | none => turnToSlot s
    | some c =>
      let s := undoRecords (blankAll c s)
      let s := withCfc (fun x => { x with phases := [], dispatch := false }) s
      if bootFailed s then failedBoot s
      else
        let s := setIrq pgCFG 2 (wrF bootStatA 11 1 1 (noteFirst b.first c s))
        if b.rest = [] then failedBoot s else trySources b.rest false s

/-- BOOT_POLICY in force (R302, R389). -/
def bootPolicy (s : State) : Word := otpData s 5 1 0x12

/-- The sources of the boot load in order (R302). -/
def bootSources (s : State) : List Nat :=
  let w := bootPolicy s
  let strap := if bit w 4 then s.mod.bootSel.toNat else 0
  match strap with
  | 1 => [0]
  | 2 => [1]
  | 3 => [2]
  | _ =>
    match fld w 2 2 with
    | 1 => [2]
    | 2 => [3]
    | _ => if bit w 1 then [fld w 0 1, 1 - fld w 0 1] else [fld w 0 1]

/-- The boot load begins (R302, R303). -/
def bootBegin (s : State) : State :=
  let s := if fld (bootPolicy s) 2 2 = 3 then logOtpNote (genBase 5 ((otpGen s 5).getD 0) + 1) reservedValue s else s
  trySources (bootSources s) true (wr bootStatA (BitVec.ofNat 32 (s.mod.bootSel.toNat * 2 ^ 8)) s)

/-- BOOT_LOAD (R303): step 9. A source that has failed gives way to the next. -/
def execBootLoad (s : State) : Host.Outcome State Fault Refusal :=
  .next (if inStep s 9 then
      (match s.cfc.boot with
        | some _ => bootNext s
        | none => if bootFailed s || s.cfc.phases ≠ [] then s else bootBegin s)
    else s)

-- Verification (R297, R298)

/-- A stream fails at its end (R298, R312). -/
def failStream (e : Bool) (cause : Nat) (s : State) : State :=
  let g := engOf s e
  let s := wr (at' (engPage e) 0x50) (BitVec.ofNat 32 (min 1023 g.planes.length * 2 ^ 22)) (dropStream e (some cause) s)
  bootSourceFailed e g.src cause (streamEnd e cause (setEng e { g with planes := [], recs := [], verdict := some cause } s))

/-- The first failing check at the end of the trailer but the signature (R297); a STORE stream without its section fails as one whose count
is wrong (R293, log entry 326). -/
def trailerCheck (g : Engine) : Option Nat :=
  let t := (g.seen.drop g.pos).take 72
  let tagOk := match g.key with
    | none => true
    | some k => beBytes 16 (gcmTag k ((g.seen.drop 0x80).take 12) (g.seen.take 256) ((g.seen.drop 256).take (g.pos - 256))) = (t.drop 8).take 16
  if leField t 0 4 ≠ g.count || (hKind g.seen = 3 && g.count ≠ 1) then some 0x040A
  else if hashBytes (g.seen.take g.pos) ≠ (t.drop 24).take 48 then some 0x040C
  else if !tagOk then some 0x040D
  else none

/-- The signature verifies (R294, R297). -/
def signatureOk (g : Engine) : Bool :=
  let n := hTotal g.seen
  n ≤ g.seen.length
    && Config.ecdsaVerify (ofBe 768 ((g.seen.drop 0xA0).take 96)) (Config.sha384 (g.seen.take (n - 96))) (ofBe 768 ((g.seen.drop (n - 96)).take 96))

/-- The trailer is there (R297): count, hash and tag. Of a slot nothing more is awaited after a failure (R303). -/
def takeTrailer (e : Bool) (s : State) : State :=
  let g := engOf s e
  if g.st ≠ .sections || g.begun || g.pos ≠ trailerAt g then s
  else
    let r := reach e (hTotal g.seen - 96) s
    if !r.2 then r.1
    else
      let s := r.1
      let g := { engOf s e with st := .verify }
      let s := wr (engBytesA e) (BitVec.ofNat 32 (hTotal g.seen - 96)) (setEng e g s)
      match trailerCheck g with
      | none => s
      | some c =>
        let s := failStream e c s
        let s := if g.src ≤ 1 then closeEngine e [] s else s
        if c = 0x040A then s else secAlarm c s

-- Application (R298)

/-- A record is refused by its block (R298): its ERR_CAUSE takes a cause other than that of a dropped write. -/
def recordPage (a : Nat) : Nat := if a < 0x100000 then a / 0x1000
  else match windowOf a with
    | some 4 => pgQUAD ((a - 0x120000) / 256)
    | some 5 => pgDRC 0
    | _ => pgSLU

/-- The causes that an accepted write can lead to (R229, R247, R256, R440): they refuse no write (log entry 327). -/
def laterCauses : List Reg := [0, 0x0F02, 0x0704, 0x070D, 0x0715, 0x020A]

/-- Apply one record, and say whether it was refused: ERR_CAUSE holds a value that no cause has while the record is written. -/
def applyRecord (a : Nat) (v : Reg) (s : State) : State × Bool :=
  let v := if a = at' pgSLU 0x40 then setFld v 0 1 (rdF s a 0 1) else v
  let x := errA (recordPage a)
  let old := rd s x
  let t := unitWrite a v (wr x 0xFFFFFFFF s)
  if rd t x = 0xFFFFFFFF then (wr x old t, false) else (t, !laterCauses.contains (rd t x))

/-- Apply the records of a stream in their order; the count is of those refused. -/
def applyRecords (l : List (Nat × Reg)) (s : State) : State × Nat :=
  l.foldl (fun (a : State × Nat) q =>
    let r := applyRecord q.1 q.2 a.1
    (r.1, a.2 + b2n r.2)) (s, 0)

/-- The planes of a stream, basin by basin and in ascending number; 16 is the frame plane. -/
def streamPlanes (g : Engine) : List (Nat × Nat) :=
  (List.range 34).flatMap fun n => ((List.range 17).filter fun p => g.planes.contains (n, p)).map fun p => (n, p)

/-- The state of a plane or frame plane. -/
def planeStOf (s : State) (q : Nat × Nat) : PlaneInfo := if q.2 = 16 then (basinOf s q.1).frame else planeInfo s q.1 q.2

/-- Record the measurement of a plane that the stream made VALID (R397). -/
def measure (g : Engine) (q : Nat × Nat) (s : State) : State :=
  match logicalOf s q.1 with
  | some l =>
    if q.2 < 16 && (planeStOf s q).st = .valid then
      let m := Config.sha384 ((g.seen.drop (g.pos + 24)).take 48 ++ (g.seen.drop 0x11).take 1 ++ (g.seen.drop 0x18).take 2
        ++ [BitVec.ofNat 8 l, BitVec.ofNat 8 q.2])
      withSec (fun x => { x with measured := tput 0 (16 * l + q.2) m x.measured }) s
    else s
  | none => s

/-- Every enabled clock loop is locked (R303). -/
def loopsLocked (s : State) : Bool := (List.range 4).all fun k => !rdB s (uioClkA k) 31 || rdB s (at' (pgUIO k) 0x48) 0

/-- Release begins (R306): step 10. SOURCE names the source of the loaded image (R313). -/
def beginRelease (s : State) : State :=
  let s := match s.cfc.boot with
    | some b => wrF bootStatA 12 2 b.cur s
    | none => s
  let s := withCfc (fun c => { c with boot := none, applied := [] }) (wrF bootStatA 10 1 1 (wrF bootStatA 3 1 1 s))
  if inStep s 9 then setStep 10 s else s

/-- A boot stream has verified (R303): release where the clock loops are locked, or the wait for them. -/
def bootVerified (h : List Byte) (bad : Option Nat) (s : State) : State :=
  match s.cfc.boot with
  | none => s
  | some b => match bad with
    | some c => withCfc (fun x => { x with boot := some { b with failed := some c } }) s
    | none =>
      let r := leField h 0x1A 2
      let s := withCfc (fun x => { x with
        phases := [r % 4, r / 4 % 4, r / 16 % 4], dispatch := (hFlags h).testBit 1, boot := some { b with lockWait := true } }) s
      if loopsLocked s then beginRelease s else s

/-- A verified stream is applied (R298, R312). -/
def applyStream (e : Bool) (s : State) : State :=
  let g := engOf s e
  let qs := streamPlanes g
  let s := qs.foldl (fun t q => if (planeStOf t q).st = .pending then (if q.2 = 16 then admitFrame q.1 t else admitPlane q.1 q.2 t) else t) s
  let ok := qs.filter fun q => (planeStOf s q).st = .valid
  let bad := qs.filter fun q => (planeStOf s q).st = .failed
  let cause := bad.head?.map fun q => (planeStOf s q).cause.toNat
  let s := ok.foldl (fun t q => measure g q t) s
  let s := if s.cfc.boot.isSome && hKind g.seen = 1 then withCfc (fun c => { c with applied := g.recs }) s else s
  let r := applyRecords g.recs s
  let s := sysUpdateWrite 0xFFFF r.1
  let s := if hKind g.seen = 3 then withCfc (fun c => { c with valid := tput false (hSlot g.seen) true c.valid }) s else s
  let s := wr (at' (engPage e) 0x50)
    (BitVec.ofNat 32 (min 1023 bad.length * 2 ^ 22 + min 1023 ok.length * 2 ^ 12 + min 4095 r.2)) (streamEnd e 0 s)
  let s := closeEngine e (beyond (engOf s e)) s
  if hKind g.seen = 1 then bootVerified g.seen cause s else s

/-- The signature check ends (R297, R298); nothing happens while signature bytes are still to come. -/
def takeSignature (e : Bool) (s : State) : State :=
  let r := reach e (hTotal (engOf s e).seen) s
  let s := r.1
  let g := engOf s e
  if g.st ≠ .verify || (g.seen.length < hTotal g.seen && !g.ended) then s
  else
    let s := wr (engBytesA e) (BitVec.ofNat 32 (min (hTotal g.seen) g.seen.length)) s
    if g.verdict.isSome then closeEngine e (beyond g) s
    else if signatureOk g then applyStream e s
    else secAlarm 0x040E (closeEngine e (beyond g) (failStream e 0x040E s))

/-- What every event of a stream leaves to be done: the broadcast goes on, and a boot source that has failed gives way. -/
def streamAfter (s : State) : State := bootNext (bcastFlow s)

-- Release (R306, R307)

/-- RELEASE_LOCK_TIMEOUT (R303): the clock loops are not locked within 1 ms. -/
def execReleaseLockTimeout (s : State) : Host.Outcome State Fault Refusal :=
  .next (match s.cfc.boot with
    | some b =>
      if b.lockWait && b.failed.isNone then bootNext (withCfc (fun c => { c with boot := some { b with failed := some 0x0414 } }) s) else s
    | none => s)

/-- CLOCK_LOOP_LOCK (R303, R306, R519): after the last one the release begins. -/
def execClockLoopLock (bank : BitVec 2) (s : State) : Host.Outcome State Fault Refusal :=
  let s := loopLock bank.toNat s
  .next (match s.cfc.boot with
    | some b => if b.lockWait && b.failed.isNone && loopsLocked s then beginRelease s else s
    | none => s)

/-- A release phase ends its hold: 1 OUT, 2 WE, 3 SR. -/
def endHold (k : Nat) (s : State) : State :=
  let s := withFab (fun f => { f with hold :=
    { out := f.hold.out && k ≠ 1, we := f.hold.we && k ≠ 2, sr := f.hold.sr && k ≠ 3 } }) s
  wrF bootStatA (k - 1) 1 1 s

/-- The basins marked by the boot LBIST go offline at release (R433). -/
def offlineMarked (s : State) : State :=
  s.mod.marked.foldl (fun t q => match logicalOf t q.1 with
    | some l => lbistFail l q.1 q.2 t
    | none => t) s

/-- After the third phase (R307): DISPATCH_EN, READY, SERVICE. -/
def bootDone (s : State) : State :=
  let v := takeFree 32 s
  let s := wr (at' pgMODE 0x50) v.1 (setStep 11 v.2)
  let s := if s.cfc.dispatch then wrF (at' pgSLU 0x40) 0 1 1 s else s
  let s := withMod (fun m => { m with warmBoot := false }) (withCfc (fun c => { c with booted := true, dispatch := false }) (wrF 0x040 0 1 1 s))
  emberCheck (settle (enrEvalAll (lanesSettle (setMode mSERVICE s))))

/-- RELEASE_PHASE (R306, R307). -/
def execReleasePhase (s : State) : Host.Outcome State Fault Refusal :=
  .next (if inStep s 10 then
      (match s.cfc.phases with
        | [] => s
        | k :: rest =>
          let s := if rest.length = 2 then lanesSettle (offlineMarked (wrF 0x040 1 1 0 (wrF bootStatA 14 1 0 s))) else s
          let s := withCfc (fun c => { c with phases := rest }) (endHold k s)
          if rest = [] then bootDone s else s)
    else s)

end Sys2Proof.Machine
end

