-- ==== Sys2Proof/Machine/Clocks.lean ====
section
/-! DEFINITION. The commands of the clock sources, their monitors and the PLLs (15). -/

namespace Sys2Proof.Machine

/-- A source is good: 0 REFA, 1 REFB, 2 XO, 3 ITO (CLK_SRC_STAT [6:3]). -/
def srcGood (s : State) (k : Nat) : Bool := rdB s srcStatA (3 + k)
/-- Set or clear a source's OK bit. -/
def setGood (k : Nat) (b : Bool) (s : State) : State := wrF srcStatA (3 + k) 1 (b2n b) s
/-- A failure of a source is recorded (R418, R426): CAUSE and IRQ_STAT bit 1. -/
def srcFailed (cause : Nat) (s : State) : State := setIrq pgCLK 1 (wrF srcStatA 16 16 cause s)
/-- The system source changes from one that was in use (R419): IRQ_STAT bit 0. -/
def switchSrc (k : Nat) (s : State) : State := setIrq pgCLK 0 (wrF srcStatA 0 3 k s)
/-- The reference that PREF names: 0 REFA, 1 REFB. -/
def prefRef (s : State) : Nat := b2n (rdB s (at' pgCLK 0x44) 16)
/-- REF_PPM. -/
def refPpm (s : State) : Nat := rdF s (at' pgCLK 0x48) 0 16

/-- A start failure, or a failed ITO test in START or XO_CHECK (R418): the third leads to DORMANT, another to START. -/
def startFailure (s : State) : State :=
  let n := rdF s srcStatA 8 2
  if 2 ≤ n then withMod (fun m => { m with wakeFault := true }) (enterDormant (wrF srcStatA 16 16 0x0105 s))
  else
    let s := setGood 3 false (setGood 2 false (wrF srcStatA 8 2 (n + 1) (wrF srcStatA 0 3 0 s)))
    let s := setGood 1 false (setGood 0 false (withClk (fun c => { c with refA := [], refB := [], xoHeld := false }) s))
    if inStep s 4 then setStep 3 s else s

/-- ITO fails (R418). -/
def failIto (s : State) : State :=
  if srcOf s < 2 then startFailure s
  else
    let s := setGood 3 false (withClk (fun c => { c with xoHeld := false }) s)
    if srcOf s = 5 then enterDormant (srcFailed 0x0104 (nmAlert 0x0104 s)) else srcFailed 0x0104 s

/-- The system source is to become XO or, where XO is not good, ITO (R418): lanes down, EMBER, the alert. -/
def toXo (s : State) : State :=
  if srcGood s 2 then switchSrc 4 s
  else
    let s := srcFailed 0x0103 (nmAlert 0x0103 (switchSrc 5 s))
    if srcGood s 3 then
      if inStep s 4 then followClocks s
      else if modeOf s = mEMBER then (s.lan.lifelines.filter (isLifeline s)).foldl (fun t l => enterLifeline l t) s
      else enterEmber 0x0103 s
    else enterDormant (srcFailed 0x0104 (nmAlert 0x0104 s))

/-- XO fails (R417, R418). -/
def failXo (s : State) : State :=
  let s := setGood 2 false (withClk (fun c => { c with xoHeld := false }) s)
  if srcOf s < 2 then s
  else if srcOf s = 4 then toXo s
  else if srcOf s = 5 then s
  else srcFailed 0x0103 s

/-- A reference fails (R418): the one in use gives way to the other, else to XO. -/
def failRef (k : Nat) (s : State) : State :=
  let s := setGood k false (withClk (fun c => if k = 0 then { c with refA := [] } else { c with refB := [] }) s)
  if srcOf s < 2 then s
  else
    let s := srcFailed (0x0101 + k) s
    if srcOf s ≠ 2 + k then s
    else if srcGood s (1 - k) then switchSrc (3 - k) s
    else toXo s

/-- ITO_JUDGED (R409, R418). -/
def execItoJudged (stable : Bool) (s : State) : Host.Outcome State Fault Refusal :=
  .next (if modeOf s ≠ mBRINGUP || stepOf s = 0 || srcOf s ≠ 0 then s
    else if stable then followClocks (wrF srcStatA 0 3 1 (setGood 3 true s))
    else startFailure s)

/-- XO_JUDGED (R410, R418). -/
def execXoJudged (s : State) : Host.Outcome State Fault Refusal :=
  .next (if modeOf s = mDORMANT || !srcGood s 3 || srcOf s = 0 then s
    else
      let s := setGood 2 true s
      if srcOf s = 5 then switchSrc 4 s else s)

/-- XO_JUDGE_TIMEOUT (R410, R418): XO was not judged within 20 ms. -/
def execXoJudgeTimeout (s : State) : Host.Outcome State Fault Refusal :=
  .next (if srcOf s = 1 && !srcGood s 2 && modeOf s = mBRINGUP then
      followClocks (srcFailed 0x0103 (nmAlert 0x0103 (wrF srcStatA 0 3 5 s)))
    else s)

/-- REF_JUDGED (R411): a reference passed 64 windows against a judged XO. -/
def execRefJudged (b : Bool) (s : State) : Host.Outcome State Fault Refusal :=
  .next (if modeOf s ≠ mDORMANT && srcGood s 2 && srcOf s ≠ 0 then
      setGood (b2n b) true (withClk (fun c => if b then { c with refB := [] } else { c with refA := [] }) s)
    else s)

/-- REF_CHECK_TIMEOUT (R418): 640 µs have passed for the references; the system source is chosen and the PLLs start. -/
def execRefCheckTimeout (s : State) : Host.Outcome State Fault Refusal :=
  .next (if srcOf s = 1 && srcGood s 2 && modeOf s = mBRINGUP then
      let p := prefRef s
      let k := if srcGood s p then 2 + p else if srcGood s (1 - p) then 3 - p else 4
      followClocks (withClk (fun c => { c with tries := [] }) (wrF srcStatA 0 3 k s))
    else s)

/-- A reference's window count is outside ±2 % of 1,562.5 (R416). -/
def refWindowBad (n : Nat) : Bool := 100 * n < 153125 || 159375 < 100 * n
/-- The sum of the last 64 windows is outside REF_PPM of 100,000 (R416). -/
def refSumBad (s : State) (l : List Nat) : Bool :=
  64 ≤ l.length && (refPpm s : Int) < 10 * ((l.sum : Int) - 100000).natAbs
/-- Two counts differ by less than REF_PPM of the nominal count `n` (twice it) (R417). -/
def refClose (s : State) (a b twice : Nat) : Bool := 2000000 * ((a : Int) - b).natAbs < refPpm s * twice

/-- The references that fail in one window (R17, R418): where both do, the one in use fails last, with no other to give way to. -/
def failRefs (a b : Bool) (s : State) : State :=
  if a && b then (if srcOf s = 2 then failRef 0 (failRef 1 s) else failRef 1 (failRef 0 s))
  else if a then failRef 0 s else if b then failRef 1 s else s

/-- A window of the references closes (R416, R417): a failure of both with like counts is charged to XO. -/
def refWindows (a b : Nat) (s : State) : State :=
  let ok0 := srcGood s 0
  let ok1 := srcGood s 1
  if !srcGood s 2 then
    if !srcGood s 3 then s
    else
      failRefs (ok0 && refWindowBad a) (ok1 && refWindowBad b) s
  else
    let la := (a :: s.clk.refA).take 64
    let lb := (b :: s.clk.refB).take 64
    let s := withClk (fun c => { c with refA := if ok0 then la else c.refA, refB := if ok1 then lb else c.refB }) s
    let w0 := ok0 && refWindowBad a
    let w1 := ok1 && refWindowBad b
    let u0 := ok0 && refSumBad s la
    let u1 := ok1 && refSumBad s lb
    if (w0 && w1 && refClose s a b 3125) || (u0 && u1 && refClose s la.sum lb.sum 200000) then failXo s
    else failRefs (w0 || u0) (w1 || u1) s

/-- MONITOR_WINDOW_CLOSE (R416, R417): monitor 0 counts REFA and REFB, 1 counts XO, 2 counts ITO. -/
def execMonitorWindowClose (monitor : BitVec 2) (countA countB : Nat) (s : State) : Host.Outcome State Fault Refusal :=
  .next (if modeOf s = mDORMANT then s
    else match monitor.toNat with
      | 0 => refWindows countA countB s
      | 1 =>
        if srcGood s 2 && srcGood s 3 && (1000 * countA < 492500 || 507500 < 1000 * countA) then
          withClk (fun c => { c with xoHeld := true }) s
        else s
      | 2 =>
        if !(srcGood s 3 || srcOf s < 2) || (modeOf s = mBRINGUP && stepOf s = 0) then s
        else if countA < 46875 || 50781 < countA then failIto s
        else if s.clk.xoHeld then failXo s
        else s
      | _ => s)

/-- LOSS_OF_EDGES (R416 to R418): source 0 REFA, 1 REFB, 2 XO, 3 ITO. -/
def execLossOfEdges (source : BitVec 2) (s : State) : Host.Outcome State Fault Refusal :=
  .next (if modeOf s = mDORMANT || (modeOf s = mBRINGUP && stepOf s = 0) then s
    else match source.toNat with
      | 3 => if srcGood s 3 || srcOf s < 2 then failIto s else s
      | 2 => if srcGood s 2 then failXo s else s
      | k => if srcGood s k then failRef k s else s)

/-- REF_WTR_EXPIRY (R418, R419): a reference has been good for REF_WTR ms. -/
def execRefWtrExpiry (b : Bool) (s : State) : Host.Outcome State Fault Refusal :=
  let k := b2n b
  .next (if !srcGood s k then s
    else if srcOf s = 4 then switchSrc (2 + k) s
    else if srcOf s = 3 - k && rdB s (at' pgCLK 0x44) 17 && prefRef s = k then switchSrc (2 + k) s
    else s)

/-- A PLL may lock (R412, R434): a system source feeds it, or its own reference the PCIe PLL; the PLLs that SIMMER stops do so only in the
wake. -/
def pllRuns (s : State) (p : Nat) : Bool :=
  modeOf s ≠ mDORMANT && modeOf s ≠ mSEALED
    && (p = 3 || (2 ≤ srcOf s && (p = 1 || modeOf s ≠ mSIMMER || s.mod.step = .simmerWake)))

/-- The lock bit of PLL 0 fabric, 1 base, 2 DRAM, 3 PCIe. -/
def pllLocked (s : State) (p : Nat) : Bool := p < 4 && rdB s pllStatA (31 - p)

/-- PLL_LOCK (R412). -/
def execPllLock (pll : Nat) (s : State) : Host.Outcome State Fault Refusal :=
  .next (if !pllRuns s pll then s
    else
      let s := withClk (fun c => { c with tries := tput 0 pll 0 c.tries, failed := c.failed.filter fun k => decide (k ≠ pll) }) s
      if pll < 4 then followClocks (wrF pllStatA (31 - pll) 1 1 s) else lanesSettle s)

/-- PLL_LOCK_TIMEOUT (R412): a PLL has not locked within 200 µs; after three starts it has failed. -/
def execPllLockTimeout (pll : Nat) (s : State) : Host.Outcome State Fault Refusal :=
  .next (if !pllRuns s pll || pllLocked s pll || s.clk.failed.contains pll || 40 ≤ pll then s
    else
      let n := tget 0 pll s.clk.tries + 1
      if n < 3 then withClk (fun c => { c with tries := tput 0 pll n c.tries }) s
      else
        let s := withClk (fun c => { c with tries := tput 0 pll 0 c.tries, failed := c.failed ++ [pll] }) s
        let s := setIrq pgCLK 2 (setFault pgCLK 0x0106 s)
        if 4 ≤ pll then lanesSettle (setFault (pgQUAD (pll - 4)) 0x0106 s)
        else
          if pll = 3 then s
          else
            let s := nmAlert 0x0106 s
            if inStep s 5 || modeOf s = mSERVICE || modeOf s = mSIMMER then enterEmber 0x0106 s else s)

/-- A write of CLK_FAB_PLL (R413): a change relocks the PLL, or is refused with CLK_BUSY. -/
def clkFabPllWrite (val : Reg) : State → State := guarded pgCLK fun s =>
  let a := at' pgCLK 0x4C
  let f := fld val 0 6
  if 20 ≤ f && f ≤ 32 && f ≠ rdF s a 0 6 then
    if rdB s (at' pgSLU 0x40) 0 || (List.range 34).any (fun n => !halted s n) then setFault pgCLK 0x0107 s
    else wrF pllStatA 31 1 0 (writeReg a val s)
  else writeReg a val s

/-- CLK_FAB_PLL_WRITE (R413, R415). -/
def execClkFabPllWrite (val : Reg) (s : State) : Host.Outcome State Fault Refusal := clocked s (clkFabPllWrite val s)

/-- A write of CLK_BASE_PLL (R414). -/
def clkBasePllWrite (val : Reg) : State → State := guarded pgCLK fun s =>
  let a := at' pgCLK 0x50
  let f := fld val 0 2
  if f ≠ 3 && f ≠ rdF s a 0 2 then
    if rdB s (at' pgSLU 0x40) 0 || (List.range 16).any (hdmaRuns s) then setFault pgCLK 0x0107 s
    else wrF pllStatA 30 1 0 (writeReg a val s)
  else writeReg a val s

/-- CLK_BASE_PLL_WRITE (R414, R415). -/
def execClkBasePllWrite (val : Reg) (s : State) : Host.Outcome State Fault Refusal := clocked s (clkBasePllWrite val s)

end Sys2Proof.Machine
end

