-- ==== Sys2Proof/Machine/EnrMsg.lean ====
section
/-! DEFINITION. The operations of an Enrus port: received flits, retry, the handshake, keys and rekeys, messages (09). The byte places of a
message's fields are log entry 27. -/

namespace Sys2Proof.Machine

-- Received flits (R262 to R265)

/-- The header of a flit. -/
def flitHead (f : BitVec 2048) : Word := BitVec.ofNat 64 (fld f 0 64)
/-- TYPE. -/
def flitType (f : BitVec 2048) : Nat := fld (flitHead f) 60 4
/-- The payload as it is on the link. -/
def flitPayload (f : BitVec 2048) : List Byte := ((toBytes 256 f).drop 8).take 228
/-- The tag. -/
def flitTag (f : BitVec 2048) : List Byte := ((toBytes 256 f).drop 236).take 16
/-- ACK. -/
def flitAck (f : BitVec 2048) : Nat := fld (flitHead f) 24 16

/-- A flit counter reconstructed from its low 16 bits (R264): the smallest above that of the last flit accepted. -/
def rebuildCtr (last : Option Nat) (lo : Nat) : Nat :=
  match last with
  | none => lo
  | some a =>
    let b := a / 65536 * 65536 + lo
    if a < b then b else b + 65536

/-- Open a flit under its key slot (R264, R265): the counter and the plain payload, where the slot has a key and the tag holds. -/
def openFlit (e : EnrPort) (f : BitVec 2048) : Option (Nat × List Byte) :=
  let h := flitHead f
  let k := keySlot e (bit h 57)
  k.keys.bind fun ks =>
    let c := rebuildCtr k.rxLast (fld h 0 16)
    (gcmOpen ks.rxKey (flitNonce ks.rxSalt c) (toBytes 8 h) (flitPayload f) (flitTag f)).map fun p => (c, p)

/-- A flit that carries acknowledgement and credits while nothing else is to be sent (R262, R272). -/
def sendIdle (p : Nat) (s : State) : State := if (enrPort s p).st = .up then sendFlit p 0 0 0 (ackField (enrPort s p)) [] s else s

/-- Flits that an acknowledgement covers leave the retry buffer (R269). -/
def ackKept (a : Nat) (l : List Kept) : List Kept := if l.any fun k => k.seq = a then (l.dropWhile fun k => decide (k.seq ≠ a)).drop 1 else l

/-- ACK of a port takes effect. -/
def takeAck (a : Nat) (e : EnrPort) : EnrPort :=
  let k := ackKept a e.kept
  let n (v : Nat) : Nat := (e.kept.filter fun x => x.vc = v).length - (k.filter fun x => x.vc = v).length
  { e with kept := k, resend := k.any fun x => 1 < x.sends
           vc0 := { e.vc0 with acks := e.vc0.acks + n 0 }, vc1 := { e.vc1 with acks := e.vc1.acks + n 1 } }

/-- The credits that a flit returns take effect (R272). -/
def takeCredits (h : Word) (e : EnrPort) : EnrPort :=
  let v := fld h 22 2
  let c := chan e v
  setChan e v { c with credits := min (vcCredits v) (c.credits + fld h 16 6) }

/-- The first flit that verifies under the new slot of a rekey erases the old receive key (R274). -/
def linkRekeyed (p : Nat) (k : Bool) (s : State) : State :=
  let e := enrPort s p
  if e.slot = k && (keySlot e (!k)).keys.isSome then
    setIrq (pgENR p) 3 (setEnrPort p { setKeySlot e (!k) KeySlot.zero with upd := none, peerUpd := none } s)
  else s

/-- A CRC failure of a received flit (R265). -/
def crcFail (p : Nat) (s : State) : State := incF (enrErrA p) 0 12 1 s

/-- A tag failure is counted (R265, R284). -/
def authFail (p : Nat) (s : State) : State := setIrq (pgENR p) 2 (incF (enrErrA p) 24 8 1 s)

/-- A tag failure of an intact flit (R265, R266): the alarm, and new keys. -/
def tagFail (p : Nat) (s : State) : State := secAlarm 0x0809 (leaveUp p 0x0809 (authFail p s))

/-- A NAK for the next expected SEQ (R270): one until that SEQ arrives, or until 500 ns have passed, which is a free value. -/
def sendNak (p : Nat) (s : State) : State :=
  let e := enrPort s p
  let r := if e.nakSent then takeFree 1 s else ((1 : BitVec 1), s)
  if r.1 = 1 then sendFlit p 2 0 0 e.seqRx [] (updPort p (fun x => { x with nakSent := true }) r.2) else r.2

/-- Resend one kept flit under the next counter (R269). -/
def resendOne (p : Nat) (s : State) (k : Kept) : State := sendFlit p 1 k.vc k.seq (ackField (enrPort s p)) k.payload s

/-- 4 µs have passed since the first resend of a port's oldest flit (R271). -/
def retrySpent (s : State) (p : Nat) : Bool :=
  match (enrPort s p).kept.head?.bind (·.since) with
  | some t => decide (64000 ≤ (s.time - t).toNat)
  | none => false

/-- Resend from a SEQ on (R270, R271): the budget ends the link where the oldest flit would be sent for the ninth time, or 4 µs have passed
since its first resend. -/
def resendFrom (p seq : Nat) (s : State) : State :=
  let e := enrPort s p
  let now := e.kept.dropWhile fun k => decide (k.seq ≠ seq)
  if now = [] then s
  else if retrySpent s p || (e.kept.head?.map fun k => decide (8 ≤ k.sends ∧ k.seq = seq)).getD false then leaveUp p 0x080A s
  else
    let s := updPort p (fun x => { x with
      resend := true, kept := x.kept.take (x.kept.length - now.length) ++ now.map fun k => { k with sends := k.sends + 1, since := some (k.since.getD s.time) } }) s
    now.foldl (fun t k => resendOne p t k) (incF (enrErrA p) 12 12 now.length s)

-- Messages (R272, R275)

/-- Flits of a channel are free: their credits are owed to the peer (R272). -/
def oweCredits (v n : Nat) (e : EnrPort) : EnrPort :=
  let c := chan e v
  setChan e v { c with owed := c.owed + n }

/-- A DISPATCH moves to the remote queue while it has room, which frees its flits (R277). -/
def queueDispatch (e : EnrPort) : EnrPort :=
  if 64 ≤ e.waiting.length then e
  else match e.vc0.ready.find? fun m => m.kind = 0 with
    | some m =>
      oweCredits 0 m.flits { e with
        vc0 := { e.vc0 with ready := e.vc0.ready.eraseP fun x => x.kind = 0 }, waiting := e.waiting ++ [{ m with flits := 0 }] }
    | none => e

/-- A delivered flit payload of channel `v` joins its message (R275). Flits of control messages are free at once, those of the other
channels with their message. A reserved MSG is discarded. -/
def takeFragment (p v : Nat) (pl : List Byte) (s : State) : State :=
  let h := leField pl 0 4
  let kind := h / 2 ^ 27
  let body := (pl.drop 4).take 224
  let e := enrPort s p
  let c := chan e v
  let start := h.testBit 26
  let held : Nat := if v = 3 then 0 else 1
  let m : Option Msg := if start then some ⟨kind, BitVec.ofNat 20 h, body, held⟩
    else c.part.map fun m => { m with body := m.body ++ body, flits := m.flits + held }
  let stale : Nat := if start then (c.part.map fun m => m.flits).getD 0 else 0
  let free := 1 - held + stale
  let e := oweCredits v free e
  let c := chan e v
  match m with
  | none => setEnrPort p (oweCredits v held e) s
  | some m =>
    if !h.testBit 25 then setEnrPort p (setChan e v { c with part := some m }) s
    else if 12 < m.kind || msgVc m.kind ≠ v then
      setFault (pgENR p) 0x0811 (setEnrPort p (oweCredits v m.flits (setChan e v { c with part := none })) s)
    else setEnrPort p (queueDispatch (setChan e v { c with part := none, ready := c.ready ++ [m] })) s

/-- The next message of a kind: on VC 0 the first ARRIVE, on the others the channel's first message. -/
def nextMsg (s : State) (p kind : Nat) : Option Msg :=
  let l := (chan (enrPort s p) (msgVc kind)).ready
  if kind = 1 then l.find? fun m => m.kind = 1 else l.head?.filter fun m => m.kind = kind

/-- A message has been acted on: its flits are free. -/
def dropMsg (p kind : Nat) (s : State) : State :=
  let e := enrPort s p
  let v := msgVc kind
  let c := chan e v
  match nextMsg s p kind with
  | none => s
  | some m =>
    let e := setChan e v { c with ready := c.ready.eraseP fun x => x.kind = kind }
    sendIdle p (setEnrPort p (queueDispatch (oweCredits v m.flits e)) s)

/-- A DATA flit that passed its checks is delivered in order, or discarded and asked for again (R265, R270). -/
def takeData (p : Nat) (h : Word) (pl : List Byte) (s : State) : State :=
  let e := enrPort s p
  let seq := fld h 40 16
  if seq = e.seqRx then
    let s := updPort p (fun x => { x with seqRx := (seq + 1) % 65536, acked := some seq, nakSent := false }) s
    sendIdle p (takeFragment p (fld h 58 2) pl s)
  else sendNak p s

/-- A flit of an UP port is checked and accepted (R265): `act` is what its type does. -/
def acceptFlit (p : Nat) (f : BitVec 2048) (act : List Byte → State → State) (s : State) : State :=
  let e := enrPort s p
  let h := flitHead f
  match openFlit e f with
  | none => tagFail p s
  | some (c, pl) =>
    let k := bit h 57
    let e := setKeySlot e k { keySlot e k with rxLast := some c }
    let e := takeCredits h (if flitType f = 2 then takeAck ((flitAck f + 65535) % 65536) e else takeAck (flitAck f) e)
    pumpAll p (act pl (linkRekeyed p k (setEnrPort p e s)))

/-- A port has bond lock, so that flits reach it (R266). -/
def hearsFlits (e : EnrPort) : Bool := e.st = .hello || e.st = .keyx || e.st = .confirm || e.st = .up

/-- A flit that a port in its handshake does not await (R265): its CRC is checked, and, once the port has keys, its tag, unless it is a
handshake flit in plaintext; then it is discarded (log entry 322). -/
def unawaited (p : Nat) (f : BitVec 2048) (s : State) : State :=
  if !hearsFlits (enrPort s p) then s
  else if !flitCrcOk f then crcFail p s
  else if (enrPort s p).st ≠ .confirm || flitType f = 8 || flitType f = 9 then s
  else match openFlit (enrPort s p) f with
    | none => tagFail p (updPort p (fun e => { e.restart .train with cause := 0x0809 }) s)
    | some _ => s

/-- A received flit, named by its event (R265): on an UP port a CRC failure is counted, a DATA flit then asked for again. -/
def receiveFlit (p typ : Nat) (f : BitVec 2048) (act : List Byte → State → State) (s : State) : State :=
  if (enrPort s p).st ≠ .up then unawaited p f s
  else if !flitCrcOk f then (if typ = 1 then sendNak p (crcFail p s) else crcFail p s)
  else if 3 ≤ flitType f && flitType f ≠ 8 && flitType f ≠ 9 && flitType f ≠ 10 then tagFail p s
  else if flitType f ≠ typ then s
  else acceptFlit p f act s

-- The handshake (R266 to R268)

/-- The certificate area (R386). -/
def certBytes : List Byte := (List.range 16384).map Config.certificate

/-- The length of the DER element that a list of bytes begins with; the longest there can be while its header is not complete. -/
def derLen (bs : List Byte) : Nat :=
  match bs with
  | _ :: a :: b :: c :: _ =>
    if a.toNat < 0x80 then 2 + a.toNat else if a = 0x81 then 3 + b.toNat else if a = 0x82 then 4 + 256 * b.toNat + c.toNat else 65539
  | _ => 65539

/-- The device certificate: the first of the area (R386). -/
def deviceCert : List Byte := certBytes.take (derLen certBytes)

/-- The intermediate certificate that follows it. -/
def issuerCert : List Byte := certBytes.drop (derLen certBytes)

/-- Two payloads, the lower-indexed device's first. -/
def ordered (s : State) (e : EnrPort) (own peer : List Byte) : List Byte :=
  if devIndex s < e.peer.toNat then own ++ peer else peer ++ own

/-- The transcript of the HELLOs. -/
def helloScript (s : State) (e : EnrPort) : List Byte := ordered s e e.hello e.peerHello
/-- The whole transcript (R267). -/
def transcript (s : State) (e : EnrPort) : List Byte := helloScript s e ++ ordered s e e.share e.peerShare

/-- A KEYSHARE over a transcript (R267): the ephemeral public key, the device certificate, the signature. -/
def keyShare (k eph : BitVec 384) (script : List Byte) : List Byte :=
  let pub := [4] ++ beBytes 96 (Config.ecPublic eph)
  pub ++ deviceCert ++ beBytes 96 (Config.ecdsaSign k (Config.sha384 (script ++ pub)))

/-- The bytes of a KEYSHARE, by the length of the certificate in it. -/
def shareSize (share : List Byte) : Nat := 97 + derLen (share.drop 97) + 96

/-- A KEYSHARE without the padding of its last flit. -/
def shareCut (bs : List Byte) : List Byte := bs.take (shareSize bs)

/-- A peer's KEYSHARE holds over a transcript (R267, R386): its certificate, with the intermediate certificate that this device holds, and its
signature. -/
def shareOk (s : State) (script share : List Byte) : Bool :=
  let n := derLen (share.drop 97)
  share.length = shareSize share && share.headD 0 = 4 && match Config.chainKey ((share.drop 97).take n ++ issuerCert) (rootHash s) with
    | some k => Config.ecdsaVerify k (Config.sha384 (script ++ share.take 97)) (ofBe 768 (share.drop (97 + n)))
    | none => false

/-- The ephemeral private key and the KEYSHARE over a transcript, where random bytes and the attestation key are to be had. -/
def newShare (s : State) (script : List Byte) : Option (BitVec 384 × List Byte) × State :=
  let r := drawBytes 14 s
  match r.1, attestKey r.2 with
  | some bs, some k => (some (privateKey bs, keyShare k (privateKey bs) script), r.2)
  | _, _ => (none, r.2)

/-- The keys of an epoch (R268), where the board bond is programmed. -/
def epochKeys (s : State) (e : EnrPort) (eph : BitVec 384) (peerPub script : List Byte) (epoch : Nat) : Option KeySet :=
  (boardBond s).map fun bond =>
    let d := devIndex s
    let q := e.peer.toNat
    let z := beBytes 48 (Config.ecdh eph (ofBe 768 ((peerPub.drop 1).take 96)))
    let ctx := hmac384 bond (hashBytes script) ++ [BitVec.ofNat 8 (min d q), BitVec.ofNat 8 (max d q)] ++ beNat 2 epoch
    let o := kdf z (ascii "ENRUS KEYS") ctx 80
    let up := ofBe 256 (o.take 32)
    let dn := ofBe 256 ((o.drop 32).take 32)
    let sup := ofBytes 64 ((o.drop 64).take 8)
    let sdn := ofBytes 64 ((o.drop 72).take 8)
    if d < q then ⟨up, dn, sup, sdn⟩ else ⟨dn, up, sdn, sup⟩

/-- The first HELLO check that fails (R266). -/
def helloCheck (s : State) (p : Nat) (h : List Byte) : Option Nat :=
  let i := leField h 0 1
  let c := rd s (enrCtrlA p)
  if leField h 2 2 ≠ 1 then some 0x0806
  else if i = devIndex s then some 0x0803
  else if (List.range 7).any fun q => q ≠ p && (enrPort s q).peer.toNat = i
      && ((enrPort s q).st = .up || (enrPort s q).st = .keyx || (enrPort s q).st = .confirm) then some 0x0804
  else if bit c 11 && i ≠ fld c 8 3 then some 0x0805
  else none

/-- A peer's HELLO (R266): checked; the port sends its KEYSHARE. -/
def takeHello (p : Nat) (h : List Byte) (s : State) : State :=
  match helloCheck s p h with
  | some c => setIrq (pgENR p) 0 (toFault p c s)
  | none =>
    let s := updPort p (fun e => { e with
      st := .keyx, peer := BitVec.ofNat 3 (leField h 0 1), peerPort := BitVec.ofNat 3 (leField h 1 1), peerHello := h, peerShare := [] }) s
    let r := newShare s (helloScript s (enrPort s p))
    match r.1 with
    | some (k, sh) => sendPlain p 9 sh (updPort p (fun e => { e with eph := k, share := sh }) r.2)
    | none => r.2

/-- A peer's whole KEYSHARE (R266, R267): verified; keys into slot 0, FINISHED is sent. -/
def takeShare (p : Nat) (s : State) : State :=
  let e := enrPort s p
  if !shareOk s (helloScript s e) e.peerShare then secAlarm 0x0807 (toFault p 0x0807 s)
  else if e.share = [] then s
  else
    let ks := epochKeys s e e.eph e.peerShare (transcript s e) 0
    let s := updPort p (fun x => { x with st := .confirm, slot := false, epoch := 0, slot0 := ⟨ks, 0, none⟩, slot1 := KeySlot.zero }) s
    sendFlit p 10 0 0 0xFFFF (hashBytes (transcript s e)) s

/-- A channel with a full buffer's credits (R272). -/
def freshChan (v : Nat) (c : Channel) : Channel := { Channel.zero with credits := vcCredits v, ready := c.ready, acks := c.acks }

/-- A port goes UP (R266, R272). -/
def goUp (p : Nat) (s : State) : State :=
  rearmEmpty <| setIrq (pgENR p) 0 (updPort p (fun e => { e with
    st := .up, seqTx := 0, seqRx := 0, acked := none, nakSent := false, resend := false, kept := [], lanes := 0xF, narrow := none
    vc0 := freshChan 0 e.vc0, vc1 := freshChan 1 e.vc1, vc2 := freshChan 2 e.vc2, vc3 := freshChan 3 e.vc3 }) s)

/-- A peer's FINISHED (R265 to R267): one that fails its tag counts in ENR_ERR.AUTH. -/
def takeFinished (p : Nat) (f : BitVec 2048) (s : State) : State :=
  let e := enrPort s p
  match openFlit e f with
  | some (c, pl) =>
    if pl.take 48 = hashBytes (transcript s e) then
      goUp p (updPort p (fun x => { x with slot0 := { x.slot0 with rxLast := some c } }) s)
    else secAlarm 0x0808 (toFault p 0x0808 s)
  | none => secAlarm 0x0808 (toFault p 0x0808 (authFail p s))

-- Rekey (R274)

/-- This side's KEY_UPDATE is sent under the current key. -/
def linkRekey (p : Nat) (s : State) : State :=
  let e := enrPort s p
  if e.st ≠ .up || e.upd.isSome || (keySlot e (!e.slot)).keys.isSome then s
  else
    let r := newShare s (transcript s e)
    match r.1 with
    | some (k, sh) =>
      sendMsg p { kind := 10, ref := 0, body := sh, flits := 0 } (updPort p (fun x => { x with eph := k, upd := some sh }) r.2)
    | none => r.2

/-- With both KEY_UPDATEs the next epoch's keys stand in the unused slot, and every following flit is sent under it. -/
def linkRekeySwitch (p : Nat) (s : State) : State :=
  let e := enrPort s p
  match e.upd, e.peerUpd with
  | some a, some b =>
    if (keySlot e (!e.slot)).keys.isSome then s
    else
      let n := (e.epoch + 1) % 65536
      let ks := epochKeys s e e.eph b (ordered s e a b) n
      setEnrPort p { setKeySlot e (!e.slot) ⟨ks, 0, none⟩ with slot := !e.slot, epoch := n } s
  | _, _ => s

/-- A peer's KEY_UPDATE (R274): one that does not verify raises the alarm and is ignored. -/
def takeUpdate (p : Nat) (m : Msg) (s : State) : State :=
  let b := shareCut m.body
  if shareOk s (transcript s (enrPort s p)) b then
    sendIdle p (linkRekeySwitch p (linkRekey p (updPort p (fun e => { e with peerUpd := some b }) s)))
  else secAlarm 0x0807 s

-- Items across the mesh (R277, R278)

/-- A field of a message body. -/
def bodyNat (m : Msg) (off len : Nat) : Nat := leField m.body off len

/-- The plane, basin and ports of a DISPATCH. -/
def dispatchPlane (m : Msg) : Nat := bodyNat m 67 1 % 16
/-- The physical basin that a DISPATCH names. -/
def dispatchBasin (s : State) (m : Msg) : Nat := physOf s (dispatchLogical m)
/-- The port that takes a DISPATCH: of those permitted the one with more free credits; none without a credit. -/
def dispatchPort (s : State) (m : Msg) : Option Nat :=
  let n := dispatchBasin s m
  let ps := if bodyNat m 67 1 / 16 = 0 then [0, 1] else if bodyNat m 67 1 / 16 = 1 then [0] else [1]
  let best := ps.foldl (fun (b : Option Nat) k => match b with
    | none => some k
    | some j => if portCredits s n j < portCredits s n k then some k else b) none
  best.filter fun k => 0 < portCredits s n k

/-- The plane of a DISPATCH is VALID. -/
def dispatchValid (s : State) (m : Msg) : Bool := (planeInfo s (dispatchBasin s m) (dispatchPlane m)).st = .valid

/-- The basin that a DISPATCH names is offline on a fault (R209, R279). -/
def dispatchFaulted (s : State) (m : Msg) : Bool :=
  offline s (dispatchLogical m) && (tget 0 (dispatchLogical m) s.slu.cause).toNat ≠ 0x0613

/-- A DISPATCH can be acted on now: answered, presented, or, for a basin offline on a fault, discarded once its homes are told (R277, R279). -/
def dispatchReady (s : State) (m : Msg) : Bool :=
  if dispatchFaulted s m then tget 0 (dispatchLogical m) s.slu.failover ≠ 2 && tget 0 (dispatchLogical m) s.slu.failover ≠ 3
  else !dispatchValid s m || ((dispatchPort s m).isSome && (freeGroup s 2).isSome)

/-- A queued DISPATCH is presented to its basin (R277): the payload in a row group of an intake bank, word 2 of the beat at that place. -/
def presentDispatch (p : Nat) (m : Msg) (port g : Nat) (s : State) : State :=
  let n := dispatchBasin s m
  let len := bodyNat m 4 2 % 8192
  let bank := g / 1024
  let row := 4 * (g % 1024)
  let rows := (len + 1023) / 1024 - 1
  let beat := setFld (ofBytes 512 (m.body.take 64)) 128 21 (bank + row * 2 ^ 7 + rows % 4 * 2 ^ 19)
  let svc := bodyNat m 64 2
  let d : Delivery := ⟨m.ref, BitVec.ofNat 4 (dispatchPlane m), BitVec.ofNat 8 (fld beat 76 8), BitVec.ofNat 7 bank, BitVec.ofNat 12 row, rows,
    2 * (65536 * p + svc) + 1, none, [⟨beat, true, true⟩]⟩
  let s := writeBytes bank row 0 ((m.body.drop 68).take len) (takeGroup g (bankTouch bank (refuseHanded 2 bank s)))
  let b := basinOf s n
  let s := if b.power = .run || !rdB s (clkEnA (pgBSN n)) 0 then s else setBasin n { b with waking := true } s
  let s := { s with enr := { s.enr with guests := s.enr.guests ++ [⟨p, svc, m.ref, n⟩] } }
  withSlu (fun u => { u with transit := u.transit ++ [(n, port, d)] }) s

/-- The service of this device that a peer's message names. -/
def remoteService (s : State) (p svc : Nat) : Option Service :=
  s.slu.services.find? fun v => v.id % 65536 = svc && v.dev = (enrPort s p).peer && v.dev.toNat ≠ devIndex s

/-- A held output as it is released (R278). -/
def heldRelease (h : HeldOut) : Release :=
  let w (i : Nat) : Word := BitVec.ofNat 64 (fld h.words (64 * i) 64)
  ⟨bit (w 0) 20, fld (w 0) 24 12, fld (w 0) 21 3, BitVec.ofNat 16 (fld (w 0) 36 16), BitVec.ofNat 32 (fld (w 1) 32 32), fld (w 2) 0 32, w 3, h.bytes⟩

/-- The held outputs of a peer's service go. -/
def dropService (p svc : Nat) (s : State) : State := dropHeld (fun h => h.port = p && h.service = svc) s

/-- END of a remote service (R204, R205, R278): a commit whose outputs do not all fit waits. -/
def takeEnd (p : Nat) (m : Msg) (s : State) : State :=
  let svc := bodyNat m 0 2
  let id := ((remoteService s p svc).map fun v => v.id).getD s.slu.nextSvc
  let rs := (s.enr.held.filter fun h => h.port = p && h.service = svc).map heldRelease
  let fin (s : State) : State := dropMsg p 3 (dropService p svc s)
  match bodyNat m 2 1 with
  | 0 => match commitService id none rs s with
    | some t => fin t
    | none => s
  | 1 => fin (completeService id s)
  | _ => fin (itemError id (bodyNat m 3 2) s)

/-- OUTPUT of a remote service (R278): held at home in a row group of an Enrus bank; of a service that is not current, discarded; without a
row group it waits. -/
def takeOutput (p : Nat) (m : Msg) (s : State) : State :=
  let svc := bodyNat m 0 2
  let words := ofBytes 256 ((m.body.drop 2).take 32)
  let len := fld words 64 13
  let bytes := (m.body.drop 34).take len
  let current := ((remoteService s p svc).map fun v => v.current).getD false
  if !current then dropMsg p 2 s
  else
    let hold (g : Option Nat) (s : State) : State :=
      dropMsg p 2 { s with enr := { s.enr with held := s.enr.held ++ [⟨p, svc, words, bytes, g⟩] } }
    if len = 0 then hold none s
    else match freeGroup s 8 with
      | none => s
      | some g => hold (some g) (writeBytes (g / 1024) (4 * (g % 1024)) 0 bytes (takeGroup g (bankTouch (g / 1024) (refuseHanded 8 (g / 1024) s))))

/-- ARRIVE (R188, R275): an arrival for a flow homed here, its payload in a row group of an Enrus bank; without a slot or a row group it
waits. -/
def takeArrive (p : Nat) (m : Msg) (s : State) : State :=
  let len := bodyNat m 4 2 % 8192
  let flow : BitVec 16 := BitVec.ofNat 16 (bodyNat m 6 2)
  let bytes := (m.body.drop 36).take len
  let g := if len = 0 then none else freeGroup s 8
  if (len ≠ 0 && g.isNone) || (fHome s flow.toNat = devIndex s && (nextFree s).isNone) then s
  else
    let bank := g.getD 0 / 1024
    let row := 4 * (g.getD 0 % 1024)
    let s := match g with
      | some k => writeBytes bank row 0 bytes (takeGroup k (bankTouch bank (refuseHanded 8 bank s)))
      | none => s
    let a : Arrival := { flow := flow, len := len, mtag := BitVec.ofNat 32 (bodyNat m 12 4), delay := bodyNat m 32 4,
                         meta0 := BitVec.ofNat 64 (bodyNat m 24 8), bank := BitVec.ofNat 7 bank, row := BitVec.ofNat 12 row,
                         owner := if g.isSome then .enrus else .none }
    dropMsg p 1 (settle (itemArrive a s).1)

/-- The report of a local basin (R276): free intake credits and OFFLINE in byte 0, the VALID planes in bytes 2 and 3. -/
def reportBytes (s : State) (l : Nat) : List Byte :=
  let n := physOf s l
  let valid := (List.range 16).foldl (fun (a : Nat) q => a + b2n ((planeInfo s n q).st = .valid) * 2 ^ q) 0
  toBytes 4 (BitVec.ofNat 32 (portCredits s n 0 + portCredits s n 1 + b2n (offline s l) * 2 ^ 7 + valid * 2 ^ 16))

/-- The UP ports. -/
def upPorts (s : State) : List Nat := (List.range 7).filter fun p => (enrPort s p).st = .up

/-- Send a control message on every UP port. -/
def sendAll (m : Msg) (s : State) : State := (upPorts s).foldl (fun t p => sendMsg p m t) s

/-- A peer's report takes the place of the last one. -/
def takeReport (p : Nat) (m : Msg) (s : State) : State :=
  let d := (enrPort s p).peer.toNat
  rearmEmpty <| (List.range 32).foldl (fun t l =>
    let b := bodyNat m (4 * l) 1
    let r : PeerBasin := ⟨b % 32, b.testBit 7, BitVec.ofNat 16 (bodyNat m (4 * l + 2) 2)⟩
    { t with enr := { t.enr with peers := tput ⟨0, false, 0⟩ (32 * d + l) r t.enr.peers } }) s

-- Time (R281)

/-- ENR_DELAY of a port. -/
def enrDelayA (p : Nat) : Nat := at' (pgENR p) 0x50

/-- A signed value as 32 bits, saturating. -/
def sat32 (x : Int) : Reg := BitVec.ofInt 32 (max (-2147483648) (min 2147483647 x))

/-- TIME_SYNC of the master (R281): stepped while DISPATCH_EN is 0, else slewed; the tick counter follows. -/
def takeSync (p : Nat) (m : Msg) (s : State) : State :=
  let master := rdF s (at' pgENRG 0x40) 0 3
  if master = devIndex s || master ≠ (enrPort s p).peer.toNat then s
  else
    let now := bodyNat m 0 8 + (rd s (enrDelayA p)).toNat
    let off : Int := (s.time.toNat : Int) - now
    let s := wr (at' pgENRG 0x48) (sat32 off) s
    let run := rdB s (at' pgSLU 0x40) 0
    let late := run && 16000 < off.natAbs
    let s := if late && !rdB s (at' pgENRG 0x44) 8 then setIrq pgENRG 1 (setFault pgENRG 0x0810 s) else s
    let s := wrF (at' pgENRG 0x44) 8 1 (b2n late) s
    if run then { s with time := s.time - BitVec.ofInt 64 (max (-80) (min 80 off)) }
    else { s with time := BitVec.ofNat 64 now }

/-- The time base as message bytes. -/
def timeBytes (s : State) : List Byte := toBytes 8 s.time

-- Broadcasts at a follower (R283, R311)

/-- The device names the peer of a port as configuration leader and accepts its streams. -/
def fromLeader (s : State) (p : Nat) : Bool :=
  let c := rd s (at' pgENRG 0x40)
  fld c 3 3 = (enrPort s p).peer.toNat && bit c 6

/-- The stream bytes of a CFG_DATA: of the last message those up to TOTAL_LEN. -/
def cfgBytes (s : State) (m : Msg) : List Byte :=
  let off := bodyNat m 2 4
  let bs := (m.body.drop 6).take 218
  let known := s.cfc.eng0.seen
  let head := if off = 0 then bs else known
  if 32 ≤ head.length then bs.take (hTotal head - off) else bs

/-- CFG_DATA at a follower: its bytes go to ENG_0; a broadcast that finds the engine busy is discarded. -/
def takeCfgData (p : Nat) (m : Msg) (s : State) : State :=
  if !fromLeader s p then s
  else
    let first := bodyNat m 2 4 = 0
    let g := s.cfc.eng0
    if first && g.st ≠ .idle then setFault pgCFG 0x0412 s
    else if first || (g.st ≠ .idle && g.src = 3) then feedBytes false 3 (cfgBytes s m) s
    else s

end Sys2Proof.Machine
end

