-- ==== Sys2Proof/Machine/Enrus.lean ====
section
/-! DEFINITION. The commands of the Enrus ports (09). -/

namespace Sys2Proof.Machine

/-- RETRAIN (R266, R273): from FAULT, and from UP, where it ends the link. -/
def retrainPort (p : Nat) (s : State) : State :=
  let e := enrPort s p
  match e.st with
  | .fault => retuneLanes (enrQuadOf s p) e.slow (toTrain p s)
  | .up => setIrq (pgENR p) 0 (retuneLanes (enrQuadOf s p) e.slow (toTrain p (linkDown p s)))
  | _ => s

/-- A write of ENR_CTRL (R15, R260, R266, R274). A change of QUAD takes the port DOWN first. -/
def enrCtrlWrite (p : Nat) (v : Reg) : State → State := guarded (pgENR p) fun s =>
  let a := enrCtrlA p
  let (w, bad) := writtenValue s a v
  let s := if fld w 1 6 = enrQuadOf s p then s else release (0x4000 + enrQuadOf s p) (pgENR p) (toDown p s)
  let cmd := fld v 16 2
  let s := enrEval p (noteReserved (pgENR p) (bad || cmd = 3) (wr a w s))
  let s := if cmd = 1 then retrainPort p s else if cmd = 2 then linkRekey p s else s
  streamAfter s

/-- ENR_CTRL_WRITE (R260). -/
def execEnrCtrlWrite (port : Nat) (val : Reg) (s : State) : Host.Outcome State Fault Refusal := .next (enrCtrlWrite port val s)

/-- A write of ENR_G_CTRL (R15, R281, R284): TIME_HOLDOVER is raised where the new master leaves the device without a port to it. -/
def enrgCtrlWrite (v : Reg) (s : State) : State :=
  guarded pgENRG (fun s =>
    let t := writeReg (at' pgENRG 0x40) v s
    if holdover t && !holdover s then setIrq pgENRG 0 t else t) s

/-- RETRAIN (R266): the command of ENR_CTRL. -/
def execRetrain (port : Nat) (s : State) : Host.Outcome State Fault Refusal :=
  .next (guarded (pgENR port) (fun t => streamAfter (retrainPort port t)) s)

/-- REKEY (R274): the command of ENR_CTRL. -/
def execRekey (port : Nat) (s : State) : Host.Outcome State Fault Refusal := .next (guarded (pgENR port) (linkRekey port) s)

/-- TRAIN_TIMEOUT (R266): the other rate, or TRAIN_FAILS. -/
def execTrainTimeout (port : Nat) (s : State) : Host.Outcome State Fault Refusal :=
  let e := enrPort s port
  let q := enrQuadOf s port
  .next (if e.st ≠ .train then s
    else if rdB s (enrCtrlA port) 12 && !e.slow then retuneLanes q true (setEnrPort port { e with slow := true } s)
    else retuneLanes q false (setEnrPort port { e with slow := false, fails := satAdd e.fails 1 15 } s))

/-- HANDSHAKE_TIMEOUT (R266). -/
def execHandshakeTimeout (port : Nat) (s : State) : Host.Outcome State Fault Refusal :=
  let e := enrPort s port
  .next (if e.st = .hello || e.st = .keyx || e.st = .confirm then updPort port (fun x => { x with cause := 0x080D }) (toTrain port s) else s)

/-- IDLE (R262, R265). -/
def execIdle (port : Nat) (flit : BitVec 2048) (s : State) : Host.Outcome State Fault Refusal :=
  .next (streamAfter (receiveFlit port 0 flit (fun _ t => t) s))

/-- DATA (R265, R270, R275). -/
def execData (port : Nat) (flit : BitVec 2048) (s : State) : Host.Outcome State Fault Refusal :=
  .next (streamAfter (receiveFlit port 1 flit (fun pl t => takeData port (flitHead flit) pl t) s))

/-- NAK (R270, R271). -/
def execNak (port : Nat) (flit : BitVec 2048) (s : State) : Host.Outcome State Fault Refusal :=
  .next (streamAfter (receiveFlit port 2 flit (fun _ t => resendFrom port (flitAck flit) t) s))

/-- HELLO (R265 to R267). -/
def execHello (port : Nat) (flit : BitVec 2048) (s : State) : Host.Outcome State Fault Refusal :=
  .next (if (enrPort s port).st ≠ .hello || (enrPort s port).hello = [] then streamAfter (receiveFlit port 8 flit (fun _ t => t) s)
    else if !flitCrcOk flit then crcFail port s
    else if flitType flit = 8 then takeHello port ((flitPayload flit).take 36) s
    else s)

/-- KEYSHARE (R265 to R267): a flit of the message; the last completes it. -/
def execKeyshare (port : Nat) (flit : BitVec 2048) (s : State) : Host.Outcome State Fault Refusal :=
  .next (if (enrPort s port).st ≠ .keyx then streamAfter (receiveFlit port 9 flit (fun _ t => t) s)
    else if !flitCrcOk flit then crcFail port s
    else if flitType flit = 9 then
      let s := updPort port (fun e => { e with peerShare := shareCut (e.peerShare ++ flitPayload flit) }) s
      if (enrPort s port).peerShare.length < shareSize (enrPort s port).peerShare then s else takeShare port s
    else s)

/-- FINISHED (R266, R267). -/
def execFinished (port : Nat) (flit : BitVec 2048) (s : State) : Host.Outcome State Fault Refusal :=
  .next (if (enrPort s port).st ≠ .confirm then streamAfter (receiveFlit port 10 flit (fun _ t => t) s)
    else if !flitCrcOk flit then crcFail port s
    else if flitType flit = 10 then takeFinished port flit s
    else s)

/-- RETRY_TIMER (R270, R271): the oldest kept flit has waited 500 ns. -/
def execRetryTimer (port : Nat) (s : State) : Host.Outcome State Fault Refusal :=
  let e := enrPort s port
  .next (match e.kept.head? with
    | some k => if e.st = .up then streamAfter (resendFrom port k.seq s) else s
    | none => s)

/-- WIDTH_BLOCK_RECEIVE (R273). -/
def execWidthBlockReceive (port : Nat) (block : Word) (s : State) : Host.Outcome State Fault Refusal :=
  .next (streamAfter (widthReceive port block s))

/-- REKEY_TRIGGER (R274): the counter of the current transmit slot has reached 0xC000_0000. -/
def execRekeyTrigger (port : Nat) (s : State) : Host.Outcome State Fault Refusal :=
  let e := enrPort s port
  .next (if 0xC0000000 ≤ (keySlot e e.slot).txCtr then linkRekey port s else s)

/-- NONCE_END (R274): the counter has reached 0xFFFF_FF00 before the rekey. -/
def execNonceEnd (port : Nat) (s : State) : Host.Outcome State Fault Refusal :=
  let e := enrPort s port
  .next (if 0xFFFFFF00 ≤ (keySlot e e.slot).txCtr then streamAfter (leaveUp port 0x080C s) else s)

/-- A DISPATCH for a basin offline on a fault is discarded (R279): its home ends the service at a notice, which is sent unless one is on its
way. -/
def discardDispatch (p : Nat) (m : Msg) (s : State) : State :=
  let l := dispatchLogical m
  if s.enr.notices.any fun k => k.1 = p && k.2.1 = l then s else noticeOne l p s

/-- DISPATCH (R277): the first of the remote queue that can be acted on. -/
def execDispatchMsg (port : Nat) (s : State) : Host.Outcome State Fault Refusal :=
  .next (match (enrPort s port).waiting.find? (dispatchReady s) with
    | none => s
    | some m =>
      let t := updPort port (fun e => queueDispatch { e with waiting := e.waiting.erase m }) s
      if dispatchFaulted s m then discardDispatch port m t
      else if !dispatchValid s m then sendEnd port (bodyNat m 64 2) m.ref 2 0x080F t
      else match dispatchPort s m, freeGroup s 2 with
        | some k, some g => sendIdle port (presentDispatch port m k g t)
        | _, _ => s)

/-- ARRIVE (R188). -/
def execArrive (port : Nat) (s : State) : Host.Outcome State Fault Refusal :=
  .next (match nextMsg s port 1 with
    | some m => takeArrive port m s
    | none => s)

/-- OUTPUT (R278). -/
def execOutput (port : Nat) (s : State) : Host.Outcome State Fault Refusal :=
  .next (match nextMsg s port 2 with
    | some m => takeOutput port m s
    | none => s)

/-- END (R278). -/
def execEndMsg (port : Nat) (s : State) : Host.Outcome State Fault Refusal :=
  .next (match nextMsg s port 3 with
    | some m => takeEnd port m s
    | none => s)

/-- CREDIT_REPORT (R276). -/
def execCreditReport (port : Nat) (s : State) : Host.Outcome State Fault Refusal :=
  .next (match nextMsg s port 4 with
    | some m => takeReport port m (dropMsg port 4 s)
    | none => s)

/-- CREDIT_REPORT_SEND (R276). -/
def execCreditReportSend (s : State) : Host.Outcome State Fault Refusal :=
  .next (sendAll { kind := 4, ref := 0, body := (List.range 32).flatMap (reportBytes s), flits := 0 } s)

/-- FAULT_NOTICE (R279): the services in the basin end and are reissued, their held outputs go, NOTICE_ACK returns. -/
def execFaultNotice (port : Nat) (s : State) : Host.Outcome State Fault Refusal :=
  .next (match nextMsg s port 5 with
    | none => s
    | some m =>
      let d := (enrPort s port).peer
      let l := bodyNat m 0 1
      let mine (v : Service) : Bool := v.dev = d && v.dev.toNat ≠ devIndex s && v.basin.toNat = l
      let ids := (s.slu.services.filter mine).map fun v => v.id % 65536
      let s := dropHeld (fun h => h.port = port && ids.contains h.service) (reissueWhere mine (dropMsg port 5 s))
      sendMsg port { kind := 6, ref := 0, body := m.body.take 3, flits := 0 } s)

/-- NOTICE_ACK (R210, R279). -/
def execNoticeAck (port : Nat) (s : State) : Host.Outcome State Fault Refusal :=
  .next (match nextMsg s port 6 with
    | none => s
    | some m => dropNotices (fun k => k = (port, bodyNat m 0 1, bodyNat m 1 2)) (dropMsg port 6 s))

/-- TIME_SYNC (R281). -/
def execTimeSync (port : Nat) (s : State) : Host.Outcome State Fault Refusal :=
  .next (match nextMsg s port 7 with
    | some m => takeSync port m (dropMsg port 7 s)
    | none => s)

/-- What a port does as time passes: it sends its HELLO again until the peer's arrives (R266), an IDLE flit where nothing waits (R262), and
leaves UP once its retry budget is spent (R271). How many flits pass between two ticks is not modelled: one goes out at each (log entry
321). -/
def enrTick (s : State) (p : Nat) : State :=
  let e := enrPort s p
  if e.st = .hello && e.hello ≠ [] then sendPlain p 8 e.hello s
  else if e.st ≠ .up then s
  else if retrySpent s p then leaveUp p 0x080A s
  else if (List.range 4).all fun v => (chan e v).txq = [] then sendIdle p s
  else s

/-- DRC_STAT.FILL while CMD FILL runs (R349): how far it has come at a tick is a free value, which never falls (log entry 328). -/
def fillTick (s : State) : State :=
  if drcState s ≠ dFILL then s
  else
    let f := takeFree 32 s
    let n := rdF s drcStatA 8 6
    wrF drcStatA 8 6 (n + f.1.toNat % (64 - n)) f.2

/-- TICK (R200, R262, R266, R271, R281, R519, R521): the time base reaches the next tick, and the ports send what falls due. -/
def execTick (s : State) : Host.Outcome State Fault Refusal :=
  let t := fillTick (uioTick s.time.toNat { s with time := BitVec.ofNat 64 ((s.time.toNat / tickLen s + 1) * tickLen s) })
  .next (if (List.range 7).all fun p => (enrPort s p).st = .down then t else streamAfter ((List.range 7).foldl enrTick t))

/-- TIME_SYNC_SEND (R281): the master's, on every UP port. -/
def execTimeSyncSend (s : State) : Host.Outcome State Fault Refusal :=
  .next (if rdF s (at' pgENRG 0x40) 0 3 = devIndex s then sendAll { kind := 7, ref := 0, body := timeBytes s, flits := 0 } s else s)

/-- DELAY_REQ (R281): answered with its time, and this device's at arrival and at sending. -/
def execDelayReq (port : Nat) (s : State) : Host.Outcome State Fault Refusal :=
  .next (match nextMsg s port 8 with
    | some m => sendMsg port { kind := 9, ref := 0, body := m.body.take 8 ++ timeBytes s ++ timeBytes s, flits := 0 } (dropMsg port 8 s)
    | none => s)

/-- DELAY_REQ_SEND (R281). -/
def execDelayReqSend (port : Nat) (s : State) : Host.Outcome State Fault Refusal :=
  .next (if (enrPort s port).st = .up then
      sendMsg port { kind := 8, ref := 0, body := timeBytes s, flits := 0 } (updPort port (fun e => { e with reqTime := s.time }) s)
    else s)

/-- DELAY_RESP (R281): half the round trip without the peer's own time. -/
def execDelayResp (port : Nat) (s : State) : Host.Outcome State Fault Refusal :=
  .next (match nextMsg s port 9 with
    | none => s
    | some m =>
      let d : Int := (s.time.toNat : Int) - bodyNat m 0 8 - ((bodyNat m 16 8 : Int) - bodyNat m 8 8)
      let s := dropMsg port 9 s
      if bodyNat m 0 8 = (enrPort s port).reqTime.toNat then wr (enrDelayA port) (BitVec.ofInt 32 (d / 2)) s else s)

/-- KEY_UPDATE (R274). -/
def execKeyUpdate (port : Nat) (s : State) : Host.Outcome State Fault Refusal :=
  .next (match nextMsg s port 10 with
    | some m => takeUpdate port m (dropMsg port 10 s)
    | none => s)

/-- CFG_DATA (R283, R311). -/
def execCfgData (port : Nat) (s : State) : Host.Outcome State Fault Refusal :=
  .next (match nextMsg s port 11 with
    | some m => takeCfgData port m (dropMsg port 11 s)
    | none => s)

/-- CFG_END (R283, R299): the source of the broadcast's stream ends. -/
def execCfgEnd (port : Nat) (s : State) : Host.Outcome State Fault Refusal :=
  .next (match nextMsg s port 12 with
    | none => s
    | some _ =>
      let s := dropMsg port 12 s
      if fromLeader s port && s.cfc.eng0.st ≠ .idle && s.cfc.eng0.src = 3 then streamAfter (sourceEnds false s) else s)

end Sys2Proof.Machine
end

