-- ==== Sys2Proof/Machine/Hdma.lean ====
section
/-! DEFINITION. The host DMA channels: their registers, descriptors, the lifeline rings (19). -/

namespace Sys2Proof.Machine

-- Registers

/-- In EMBER channels 0 to 14 halt with HDMA_MODE (R502). -/
def hdmaInEmber (c : Nat) (s : State) : State :=
  if modeOf s = mEMBER && c ≠ 15 && hdmaEn s c && !hdmaHalted s c then hdmaHalt c 0x0D05 0 s else s

/-- The resources that channel `c` holds while it is enabled with a kind (R496, R500). -/
def hdmaNeeds (c kind : Nat) : List Nat := if kind = 4 then [0x5000 + c, 0x6000] else [0x5000 + c]

/-- The kind is one that the channel accepts (R500). -/
def kindFits (c kind : Nat) : Bool := (kind = 5) == (c = 15)

/-- A write of HDMA_CFG (R15, R496, R497, R500): a kind that the channel does not accept is reserved, and a
channel whose KIND is none that it accepts stays disabled. -/
def hdmaCfgWrite (c : Nat) (v : Reg) : State → State := guarded pgHDMA fun s =>
  let a := hdmaA c 0
  let fits := kindFits c (fld v 0 3)
  let v := if fits then v else setFld v 0 3 (rdF s a 0 3)
  let s := noteReserved pgHDMA (!fits) (writeReg a v s)
  let s := if rdB s a 31 && kindFits c (hdmaKind s c) then
      let r := claimAll (hdmaNeeds c (hdmaKind s c)) pgHDMA s
      if r.2 then r.1 else wrF a 31 1 0 r.1
    else wrF a 31 1 0 s
  let keep := if rdB s a 31 then hdmaNeeds c (hdmaKind s c) else []
  let feedElsewhere := (List.range 16).any fun k => k ≠ c && hdmaEn s k && hdmaKind s k = 4
  let s := if keep.contains (0x5000 + c) then s else release (0x5000 + c) pgHDMA s
  let s := if keep.contains 0x6000 || feedElsewhere then s else release 0x6000 pgHDMA s
  hdmaInEmber c s

/-- HDMA_CFG_WRITE (R500, R502). -/
def execHdmaCfgWrite (ch : BitVec 4) (val : Reg) (s : State) : Host.Outcome State Fault Refusal := .next (hdmaCfgWrite ch.toNat val s)

/-- A write of a TAIL (R499, R501). -/
def hdmaTailSet (c : Nat) (b : Bool) (v : Reg) : State → State := guarded pgHDMA fun s => wrF (ringTailA c b) 0 16 (fld v 0 16) s

/-- HDMA_TAIL_WRITE (R499). -/
def execHdmaTailWrite (ch : BitVec 4) (val : Reg) (s : State) : Host.Outcome State Fault Refusal :=
  .next (hdmaTailSet ch.toNat false val s)

/-- A channel leaves its halt. -/
def hdmaGo (c : Nat) (s : State) : State := hdmaInEmber c (wr (hdmaA c 0x14) 0 (withHst (fun h => { h with rxHalt := h.rxHalt && c ≠ 15 }) s))

/-- CMD RESUME (R502): the descriptor starts again from its first byte. -/
def hdmaResumeCmd (c : Nat) : State → State := posted pgHDMA fun s =>
  if hdmaHalted s c then hdmaGo c s else setFault pgHDMA 0x0D06 s

/-- HDMA_RESUME (R502). -/
def execHdmaResume (ch : BitVec 4) (s : State) : Host.Outcome State Fault Refusal := .next (hdmaResumeCmd ch.toNat s)

/-- CMD SKIP (R502): HEAD goes past the descriptor at which the channel halted, and the channel goes on (log entry 84). -/
def hdmaSkipCmd (c : Nat) : State → State := posted pgHDMA fun s =>
  if hdmaHalted s c then
    let b := c = 15 && s.hst.rxHalt
    hdmaGo c (if ringWaiting s c b then ringAdvance c b s else s)
  else setFault pgHDMA 0x0D06 s

/-- HDMA_SKIP (R502). -/
def execHdmaSkip (ch : BitVec 4) (s : State) : Host.Outcome State Fault Refusal := .next (hdmaSkipCmd ch.toNat s)

/-- A write of HDMA_CMD (R502). -/
def hdmaCmdWrite (c : Nat) (v : Reg) (s : State) : State :=
  match fld v 0 2 with
  | 0 => posted pgHDMA (fun t => t) s
  | 1 => hdmaResumeCmd c s
  | 2 => hdmaSkipCmd c s
  | _ => posted pgHDMA (setFault pgHDMA reservedValue) s

-- Descriptors

/-- SRC of a descriptor. -/
def dSrc (d : BitVec 256) : Nat := fld d 0 64
/-- DST of a descriptor. -/
def dDst (d : BitVec 256) : Nat := fld d 64 64
/-- LENGTH of a descriptor. -/
def dLen (d : BitVec 256) : Nat := fld d 128 24
/-- IRQ of a descriptor. -/
def dIrq (d : BitVec 256) : Bool := bit d (128 + 48)
/-- A reserved bit is set or LENGTH is 0 (R499, R502). -/
def descBad (d : BitVec 256) : Bool := fld d (128 + 50) 14 ≠ 0 || fld d (128 + 24) 24 ≠ 0 || dLen d = 0

/-- The bytes beyond a host address, the D4 window, the DRAM's installed capacity (R340, R499, R502). -/
def beyondHost (a n : Nat) : Bool := 2 ^ 64 < a + n
/-- Beyond the BAR 2 window. -/
def beyondD4 (a n : Nat) : Bool := 2 ^ 29 < a + n
/-- Beyond the installed DRAM; before READY the request itself is refused. -/
def beyondDram (s : State) (a n : Nat) : Bool := drcState s = dREADY && 2 ^ capLog2 s < a + n

/-- An address lies outside its target (R502). -/
def descRange (s : State) (kind : Nat) (d : BitVec 256) : Bool :=
  let n := dLen d
  match kind with
  | 0 => beyondHost (dSrc d) n || beyondD4 (dDst d) n
  | 1 => beyondD4 (dSrc d) n || beyondHost (dDst d) n
  | 2 => beyondHost (dSrc d) n || beyondDram s (dDst d) n
  | 3 => beyondDram s (dSrc d) n || beyondHost (dDst d) n
  | _ => beyondHost (dSrc d) n

/-- The refusal of a transfer to or from D4 at window offset `a` (R321, R424, R441, R500): its cause, and the refusals recorded. -/
def d4Refusal (a n : Nat) (s : State) : Option (Nat × State) :=
  let rs := bar2Rows a n
  if s.mod.dieReset = some 4 then some (0x0201, s)
  else if gated s pgBANK then some (0x010A, s)
  else if rs.all fun p => bankOwned s p.1 6 0 then none
  else some (0x0901, bar2Refuse rs s)

/-- What a transfer comes to: complete, halted with a cause after some bytes, or waiting. -/
inductive DmaEnd where
  | complete
  | halt (cause count : Nat)
  | wait

/-- Move up to `n` bytes in pieces that end at multiples of `u`: `go` moves the piece of `k` bytes at offset `o` and answers its end. -/
def dmaPieces (u base : Nat) (go : Nat → Nat → State → DmaEnd × State) : Nat → Nat → Nat → State → DmaEnd × State
  | 0, _, _, s => (.complete, s)
  | fuel + 1, o, n, s =>
    if n ≤ o then (.complete, s)
    else
      let k := min (n - o) (u - (base + o) % u)
      match go o k s with
      | (.complete, t) => dmaPieces u base go fuel (o + k) n t
      | (.halt c _, t) => (.halt c o, t)
      | r => r

/-- Write the piece of `bs` at offset `o` into D4 (R317, R319). -/
def d4Put (a : Nat) (bs : List Byte) (o k : Nat) (s : State) : DmaEnd × State :=
  let bank := (a + o) / 1024 / 4096 % 128
  let row := (a + o) / 1024 % 4096
  let m := rowPart (List.replicate ((a + o) % 1024) none ++ ((bs.drop o).take k).map some)
  let bad := rowWriteErr s bank row m.1
  let t := rowWrite bank row m.1 m.2 s
  (if bad then .halt 0x0903 o else .complete, t)

/-- Read the piece at offset `o` of D4 and write it to host memory at `dst` (R319). -/
def d4Get (a dst : Nat) (o k : Nat) (s : State) : DmaEnd × State :=
  let bank := (a + o) / 1024 / 4096 % 128
  let row := (a + o) / 1024 % 4096
  let lo := (a + o) % 1024
  let bytes := (toBytes (lo + k) (rowData s bank row).1).drop lo
  let bad := rowUe s bank row lo (lo + k)
  let t := rowLog bank row s
  if bad then (.halt 0x0903 o, t) else (.complete, send (.hostWrite (dst + o) bytes) t)

/-- What a DRAM result means for a transfer. -/
def dramEnd (r : DramRes) (o : Nat) : DmaEnd :=
  match r with
  | .ok _ => .complete
  | .err c => .halt c o
  | .refused c => .halt c o
  | .wait => .wait

/-- Write the piece of `bs` at offset `o` to the DRAM (R360, R500). -/
def dramPut (a : Nat) (bs : List Byte) (o k : Nat) (s : State) : DmaEnd × State :=
  let l := (a + o) / 64 * 64
  let m := linePart (a + o) l (((bs.drop o).take k).map some)
  let r := dramWrite srcDma l m.1 m.2 s
  (dramEnd r.1 o, r.2)

/-- Read the piece at offset `o` of the DRAM and write it to host memory at `dst` (R339, R360, R500). -/
def dramGet (a dst : Nat) (o k : Nat) (s : State) : DmaEnd × State :=
  match dramRead srcDma ((a + o) / 64 * 64) s with
  | (.ok v, t) => (.complete, send (.hostWrite (dst + o) (((toBytes 64 v).drop ((a + o) % 64)).take k)) t)
  | (r, t) => (dramEnd r o, t)

/-- The 16-byte records of a list of bytes (R255). -/
def lifeRecords : Nat → List Byte → List (BitVec 128)
  | 0, _ => []
  | n + 1, bs => if bs.length < 16 then [] else ofBytes 128 (bs.take 16) :: lifeRecords n (bs.drop 16)

/-- A transfer to or from D4 (R327, R500): refused, waiting for a bank that it wakes, or carried out. -/
def d4Move (a n : Nat) (go : State → DmaEnd × State) (s : State) : DmaEnd × State :=
  match d4Refusal a n s with
  | some (c, t) => (.halt c 0, t)
  | none =>
    let t := (bar2Rows a n).foldl (fun t p => bankTouch p.1 t) s
    if (bar2Rows a n).all fun p => bankAwake t p.1 then go t else (.wait, t)

/-- The transfer of a descriptor of ring A (R500 to R502); `bs` are the bytes that the host gave. -/
def dmaMove (kind : Nat) (d : BitVec 256) (bs : List Byte) (s : State) : DmaEnd × State :=
  let n := dLen d
  match kind with
  | 0 => d4Move (dDst d) n (dmaPieces 1024 (dDst d) (d4Put (dDst d) bs) (bs.length + 1) 0 bs.length) s
  | 1 => d4Move (dSrc d) n (dmaPieces 1024 (dSrc d) (d4Get (dSrc d) (dDst d)) (n + 1) 0 n) s
  | 2 => if gated s (pgDRC 0) || (imeEn s && gated s pgIME) then (.halt 0x010A 0, s)
    else dmaPieces 64 (dDst d) (dramPut (dDst d) bs) (bs.length + 1) 0 bs.length s
  | 3 => if gated s (pgDRC 0) || (imeEn s && gated s pgIME) then (.halt 0x010A 0, s)
    else dmaPieces 64 (dSrc d) (dramGet (dSrc d) (dDst d)) (n + 1) 0 n s
  | 4 => if gated s pgCFG then (.halt 0x010A 0, s) else (.complete, feedBytes false 2 bs s)
  | _ => (.complete, { s with lan := { s.lan with lifeOut := s.lan.lifeOut ++ lifeRecords bs.length bs } })

/-- A descriptor completes (R499): word 3, HEAD, the interrupt that it asks for. -/
def dmaDone (c : Nat) (b : Bool) (d : BitVec 256) (count : Nat) (s : State) : State :=
  let s := ringAdvance c b (ringFinish c b 0 count s)
  if dIrq d then setChIrq c 0 s else s

/-- The descriptor at HEAD of ring A ends (R499 to R502): `bs` are the bytes that the host gave for it, all of them unless it failed. -/
def dmaRingA (c : Nat) (d : BitVec 256) (bs : List Byte) (hostErr : Bool) (s : State) : State :=
  let kind := hdmaKind s c
  let fromHost := kind ≠ 1 && kind ≠ 3
  let bs := if fromHost then bs.take (dLen d) else []
  if descBad d then hdmaHalt c 0x0D01 0 s
  else if descRange s kind d then hdmaHalt c 0x0D02 0 s
  else if fromHost && !hostErr && bs.length < dLen d then s
  else if hostErr && !fromHost then hdmaHalt c 0x0D03 0 s
  else
    let r := dmaMove kind d bs s
    let t := match r.1 with
      | .complete => if hostErr then hdmaHalt c 0x0D03 bs.length r.2 else dmaDone c false d (dLen d) r.2
      | .halt cause count => hdmaHalt c cause count r.2
      | .wait => if kind < 2 then r.2 else { s with ime := { s.ime with reenc := r.2.ime.reenc } }
    if kind = 4 then streamAfter t else t

/-- Fill the buffer at HEAD of ring B with the first `n` records received, and complete its descriptor (R255, R501). -/
def fillBuffer (d : BitVec 256) (n : Nat) (s : State) : State :=
  let rs := s.lan.lifeIn.take n
  let s := { s with lan := { s.lan with lifeIn := s.lan.lifeIn.drop n } }
  let bytes := rs.flatMap (toBytes 16)
  dmaDone 15 true d bytes.length (if bytes = [] then s else send (.hostWrite (dDst d) bytes) s)

/-- The descriptor at HEAD of ring B (R501, R502): checked, and completed with up to its LENGTH of records where it is full or, `late`,
10 µs after its first record. -/
def dmaRingB (d : BitVec 256) (late hostErr : Bool) (s : State) : State :=
  let room := dLen d / 16
  if descBad d then ringHalt 15 true 0x0D01 0 s
  else if beyondHost (dDst d) (dLen d) then ringHalt 15 true 0x0D02 0 s
  else if hostErr then ringHalt 15 true 0x0D03 0 s
  else if room ≤ s.lan.lifeIn.length || (late && s.lan.lifeIn ≠ []) then fillBuffer d (min room s.lan.lifeIn.length) s
  else s

/-- DESCRIPTOR_COMPLETE (R499 to R502): the descriptor at HEAD of a ring of a running channel completes, or halts the channel. -/
def execDescriptorComplete (ch : BitVec 4) (ringB : Bool) (desc : BitVec 256) (data : List Byte) (hostErr : Bool) (s : State) :
    Host.Outcome State Fault Refusal :=
  let c := ch.toNat
  if hdmaActive s c && ringWaiting s c ringB && (!ringB || c = 15) then
    clocked s (if ringB then dmaRingB desc false hostErr s else dmaRingA c desc data hostErr s)
  else .next s

/-- LIFELINE_BUFFER_TIMEOUT (R501). -/
def execLifelineBufferTimeout (desc : BitVec 256) (s : State) : Host.Outcome State Fault Refusal :=
  .next (if hdmaActive s 15 && ringWaiting s 15 true then dmaRingB desc true false s else s)

-- The endpoint

/-- FLR (R483): the effect of PCIE_PERST_N. -/
def execFlr (s : State) : Host.Outcome State Fault Refusal := .next (hdmaReset s)

/-- PCIE_PERST_N (R483). -/
def execPciePerstN (s : State) : Host.Outcome State Fault Refusal := .next (hdmaReset s)

/-- D3HOT_ENTRY (R483): the channels halt with HDMA_D3. -/
def execD3hotEntry (s : State) : Host.Outcome State Fault Refusal :=
  .next (withHst (fun h => { h with d3 := true }) (reaching pgHDMA (hdmaHaltAll 16 0x0D04) s))

/-- D3HOT_EXIT (R483): requests are served again. -/
def execD3hotExit (s : State) : Host.Outcome State Fault Refusal := .next (withHst (fun h => { h with d3 := false }) s)

/-- PCIE_LINK_CHANGE (R482, R505): HIF_LINK shows the link, LINK_CHANGE is set. -/
def execPcieLinkChange (speed width : BitVec 4) (s : State) : Host.Outcome State Fault Refusal :=
  .next (setIrq pgHIF 0 (wr (at' pgHIF 0x40) (BitVec.ofNat 32 (width.toNat + 16 * speed.toNat)) s))

/-- HIF_APERTURE_WRITE (R15, R485). -/
def execHifApertureWrite (val : Reg) (s : State) : Host.Outcome State Fault Refusal :=
  .next (guarded pgHIF (writeReg (at' pgHIF 0x44) val) s)

end Sys2Proof.Machine
end

