-- ==== Sys2Proof/Machine/Security.lean ====
section
/-! DEFINITION. The commands of the root of trust: OTP programming, attestation, alarms, the seal log, the random source (14). -/

namespace Sys2Proof.Machine

/-- A command of the OTP page ends (R392, R397, R405): BUSY clears, CMD_DONE, the state hash anew. -/
def otpDone (s : State) : State :=
  setIrq pgOTP 0 (setBusy pgOTP false (withSec (fun x => { x with job := none, otpHash := otpStateHash { s with sec := { s.sec with job := none } } }) s))

/-- A command of the OTP page is refused. -/
def otpRefuse (cause : Nat) (s : State) : State := otpDone (setFault pgOTP cause s)

/-- Words that a READ does not show (R405). -/
def hiddenWord (w : Nat) : Bool := 0x200 ≤ w && w < 0x20C

/-- READ (R388, R405): one word into OTP_READ; a hidden word reads 0. -/
def otpReadCmd (v : Reg) (s : State) : State :=
  let w := fld v 0 10
  let s := otpLog w s
  let d := otpRead s w
  let val := if hiddenWord w then 0 else otpSeen s w
  let ecc := if hiddenWord w then 0 else match d with
    | .clean _ => 0
    | .corrected _ _ => 1
    | .uncorrectable _ => 2
  otpDone (wr 0x5048 (BitVec.ofNat 32 (fld val 0 32)) (wr 0x504C (BitVec.ofNat 32 (fld val 32 32)) (wr 0x5050 (BitVec.ofNat 32 ecc) s)))

/-- READ. -/
def execRead (val : Reg) (s : State) : Host.Outcome State Fault Refusal := .next (posted pgOTP (otpReadCmd val) s)

/-- CHALLENGE (R393, R399): 32 bytes of the DRBG, outstanding until a command uses them. -/
def challengeCmd (s : State) : State :=
  match drawBytes 8 s with
  | (some bs, s) =>
    let s := (List.range 8).foldl (fun t i => wr (0x5200 + 4 * i) (ofBytes 32 ((bs.drop (4 * i)).take 4)) t) s
    otpDone (withSec (fun x => { x with challenge := true }) s)
  | (none, s) => otpRefuse 0x0C0B s

/-- CHALLENGE. -/
def execChallenge (_val : Reg) (s : State) : Host.Outcome State Fault Refusal := .next (posted pgOTP challengeCmd s)

-- Authorisation (R393)

/-- BLOCK of an OTP command. -/
def cmdBlock (v : Reg) : Nat := fld v 24 4
/-- GEN of an OTP command. -/
def cmdGen (v : Reg) : Nat := fld v 22 2

/-- The 32 bytes of the challenge. -/
def challengeBytes (s : State) : List Byte := (List.range 8).flatMap fun i => toBytes 4 (rd s (0x5200 + 4 * i))
/-- The 192 bytes of OTP_AUTH. -/
def authBytes (s : State) : List Byte := (List.range 48).flatMap fun i => toBytes 4 (rd s (0x5240 + 4 * i))
/-- Staged data word `j`, from 0. -/
def stagedWord (s : State) (j : Nat) : Word :=
  BitVec.ofNat 64 ((rd s (0x5080 + 8 * j)).toNat + (rd s (0x5084 + 8 * j)).toNat * 2 ^ 32)
/-- The staged data words of a block. -/
def stagedWords (s : State) (b : Nat) : List Word := (List.range (otpBlock b).2).map (stagedWord s)

/-- The message that an authorisation signs, for command code `cmd`. -/
def authMessage (s : State) (cmd : Nat) (v : Reg) : List Byte :=
  challengeBytes s ++ [BitVec.ofNat 8 cmd, BitVec.ofNat 8 (cmdBlock v), BitVec.ofNat 8 (cmdGen v)] ++ toBytes 2 (BitVec.ofNat 16 (fld v 0 10))
    ++ (if cmd = 3 then (stagedWords s (cmdBlock v)).flatMap (toBytes 8) else [])

/-- The authorisation verifies: slot, key, revocation, signature. -/
def authOk (s : State) (cmd : Nat) (v : Reg) : Bool :=
  let slot := fld v 19 2
  let key := (authBytes s).take 96
  let sig := (authBytes s).drop 96
  signerSet s slot && signerHash s slot = hashBytes key && !signerRevoked s slot
    && Config.ecdsaVerify (ofBe 768 key) (Config.sha384 (authMessage s cmd v)) (ofBe 768 sig)

/-- A command that needs authorisation runs `f`, or is refused (R393); the challenge is used up either way. -/
def authorised (cmd : Nat) (v : Reg) (f : State → State) (s : State) : State :=
  if (otpGen s 6).isNone then otpRefuse 0x0C04 s
  else if !s.sec.challenge then otpRefuse 0x0C06 s
  else
    let ok := authOk s cmd v
    let s := withSec (fun x => { x with challenge := false }) s
    if ok then f s else otpRefuse 0x0C03 (secAlarm 0x0C03 s)

/-- Start programming words (R392): refused where one is not blank. -/
def startJob (ws : List (Nat × Word)) (version key : Option Nat) (s : State) : State :=
  if ws.any fun q => !otpBlank s q.1 then otpRefuse 0x0C01 s
  else if ws = [] then otpDone s
  else setBusy pgOTP true (withSec (fun x => { x with job := some ⟨ws, version, key, false⟩ }) s)

/-- A generational block whose commands need authorisation (R388). -/
def authBlock (b : Nat) : Bool := b = 1 || (4 ≤ b && b ≤ 9)

/-- The frame of PROGRAM_GEN and VOID_GEN (R15, R392, R393): `free` says that no authorisation is needed. -/
def genCmd (cmd : Nat) (v : Reg) (free : Bool) (f : State → State) (s : State) : State :=
  if sealed s then otpRefuse 0x0C0F s
  else if 9 < cmdBlock v then otpRefuse reservedValue s
  else if cmdBlock v = 0 then otpRefuse 0x0C05 s
  else if free || !authBlock (cmdBlock v) then f s
  else authorised cmd v f s

/-- PROGRAM_GEN (R392): the staged data words, then the header. -/
def programGen (v : Reg) (s : State) : State :=
  let b := cmdBlock v
  let g := cmdGen v
  genCmd 3 v (b = 6 && (otpGen s 6).isNone)
    (fun s => startJob ((genWords b g).zip (stagedWords s b) ++ [(genBase b g, genHeader b g (stagedWords s b))]) none none s) s

/-- PROGRAM_GEN. -/
def execProgramGen (val : Reg) (s : State) : Host.Outcome State Fault Refusal := .next (posted pgOTP (programGen val) s)

/-- The value of a word that the spec programs without naming its data (void words, version steps): any that is not blank. -/
def markWord (s : State) : Word × State :=
  let r := takeFree 64 s
  (r.1 ||| 1, r.2)

/-- VOID_GEN (R390, R392): the void word is programmed. -/
def voidGen (v : Reg) (s : State) : State :=
  genCmd 4 v false (fun s =>
    let m := markWord s
    startJob [(genVoid (cmdBlock v) (cmdGen v), m.1)] none none m.2) s

/-- VOID_GEN. -/
def execVoidGen (val : Reg) (s : State) : Host.Outcome State Fault Refusal := .next (posted pgOTP (voidGen val) s)

/-- VERSION (R394): steps from the present count to ARG - 1, in ascending order. -/
def versionCmd (v : Reg) (s : State) : State :=
  let t := fld v 0 10
  let c := versionCount s
  if sealed s then otpRefuse 0x0C0F s
  else authorised 5 v (fun s =>
    if t ≤ c || 256 < t then otpRefuse 0x0C07 s
    else
      let r := (List.range (t - c)).foldl (fun (a : List (Nat × Word) × State) i =>
        let m := markWord a.2
        (a.1 ++ [(0x300 + c + i, m.1)], m.2)) ([], s)
      startJob r.1 (some c) none r.2) s

/-- VERSION. -/
def execVersion (val : Reg) (s : State) : Host.Outcome State Fault Refusal := .next (posted pgOTP (versionCmd val) s)

/-- The key in a PROVISION blob (R384, R395): ECDH with the provisioning private key, the KEK, AES-256-GCM with the target byte. -/
def unwrapKey (s : State) (target : Nat) : Option (List Byte) :=
  let b := authBytes s
  (provisionKey s).bind fun d =>
    if b.headD 0 ≠ 4 then none
    else
      let z := beBytes 48 (Config.ecdh d (ofBe 768 ((b.drop 1).take 96)))
      let t := [BitVec.ofNat 8 target]
      let kek := ofBe 256 (kdf z (ascii "RYTIS PROVISION") (t ++ hashBytes (pubBytes (Config.ecPublic d))) 32)
      gcmOpen kek ((b.drop 97).take 12) t ((b.drop 109).take 32) ((b.drop 141).take 16)

/-- PROVISION (R395, R396): GEN 0 the fleet key, 1 the board bond. -/
def provision (v : Reg) (s : State) : State :=
  let base := if cmdGen v = 0 then 0x204 else 0x208
  if sealed s then otpRefuse 0x0C0F s
  else if 1 < cmdGen v then otpRefuse reservedValue s
  else if (hiddenKey s 0x200).isNone then otpRefuse 0x0C11 s
  else if keySet s base then otpRefuse 0x0C08 s
  else match unwrapKey s (cmdGen v) with
    | none => otpRefuse 0x0C09 (secAlarm 0x0C09 s)
    | some k => startJob ((List.range 4).map fun i => (base + i, ofBytes 64 ((k.drop (8 * i)).take 8))) none (some base) s

/-- PROVISION. -/
def execProvision (val : Reg) (s : State) : Host.Outcome State Fault Refusal := .next (posted pgOTP (provision val) s)

/-- OTP_WORD_PROGRAMMED (R392, R402): the next word is written, where the supplies are in range, and the command goes on or ends. -/
def execOtpWordProgrammed (verified : Bool) (s : State) : Host.Outcome State Fault Refusal :=
  .next (match s.sec.job with
    | none => s
    | some j => match j.words with
      | [] => otpDone s
      | (w, d) :: rest =>
        if !verified then otpRefuse 0x0C02 s
        else
          let s := putOtp w (encCode d) s
          if rest ≠ [] then withSec (fun x => { x with job := some { j with words := rest } }) s
          else if j.cut then otpRefuse 0x0C0F s
          else otpDone s)

-- Attestation

/-- A group's local pairs with V = 1. -/
def localPairs (s : State) (g : Nat) : List Nat :=
  ((groupPairs s g).map (·.2)).filter fun p => pairV p && pairDev p = devIndex s

/-- The measurement that a pair contributes (R397): its field, then its plane's measurement or zeros. -/
def pairMeasure (s : State) (p : Nat) : List Byte :=
  let ok := (planeInfo s (physOf s (pairBasin p)) (pairPlane p)).st = .valid
  toBytes 2 (BitVec.ofNat 16 p) ++ toBytes 48 (if ok then tget 0 (16 * pairBasin p + pairPlane p) s.sec.measured else 0)

/-- A group's measurement (R397). -/
def groupMeasure (s : State) (g : Nat) : List Byte := hashBytes ((localPairs s g).flatMap (pairMeasure s))

/-- The groups that a report lists. -/
def reportGroups (s : State) : List Nat := (List.range 256).filter fun g => localPairs s g ≠ []

/-- The attestation report without its signature (R398). -/
def reportBody (s : State) : List Byte :=
  let gs := reportGroups s
  let st := secStat s
  toBytes 4 (0x52415A52 : Reg) ++ toBytes 2 (1 : BitVec 16) ++ toBytes 2 (BitVec.ofNat 16 gs.length)
    ++ toBytes 4 (BitVec.ofNat 32 (160 + 52 * gs.length + 96)) ++ toBytes 4 (0x00005860 : Reg)
    ++ [0x21, BitVec.ofNat 8 (modeOf s), BitVec.ofNat 8 (devIndex s),
        BitVec.ofNat 8 (b2n (bit st 2) + 2 * b2n (bit st 3) + 4 * b2n (bit st 4) + 8 * b2n (bit st 1))]
    ++ toBytes 2 (BitVec.ofNat 16 (versionNow s)) ++ toBytes 2 (BitVec.ofNat 16 (sealCount s)) ++ toBytes 8 s.time
    ++ ((List.range 8).flatMap fun i => toBytes 4 (rd s (0x6060 + 4 * i)))
    ++ toBytes 48 s.sec.otpHash ++ hashBytes (match provisionPub s with
      | some k => pubBytes k
      | none => [])
    ++ gs.flatMap fun g => [BitVec.ofNat 8 g, 0, 0, 0] ++ groupMeasure s g

/-- ATTEST (R396, R398): a snapshot of the state, or a refusal. -/
def attest (s : State) : State :=
  if sealed s then setFault pgSEC 0x0C0F s
  else if (attestKey s).isNone then setFault pgSEC 0x0C11 s
  else setBusy pgSEC true (withSec (fun x => { x with snapshot := some (reportBody s) }) s)

/-- ATTEST. -/
def execAttest (_val : Reg) (s : State) : Host.Outcome State Fault Refusal := .next (posted pgSEC attest s)

/-- ATTEST_DONE (R398): the signed report stands in its window. -/
def execAttestDone (s : State) : Host.Outcome State Fault Refusal :=
  .next (match s.sec.snapshot, attestKey s with
    | some b, some k =>
      let sig := beBytes 96 (Config.ecdsaSign k (Config.sha384 b))
      setIrq pgSEC 1 (setBusy pgSEC false (withSec (fun x => { x with snapshot := none, report := b ++ sig }) s))
    | _, _ => s)

/-- SEAL (R401): only with CONFIRM 0x5EA1. -/
def sealCmd (v : Reg) (s : State) : State := if fld v 16 16 = 0x5EA1 then enterSealed 0x0C0E s else s

/-- SEAL. -/
def execSeal (val : Reg) (s : State) : Host.Outcome State Fault Refusal := .next (posted pgSEC (sealCmd val) s)

/-- GLITCH_VOLTAGE (R400). -/
def execGlitchVoltage (s : State) : Host.Outcome State Fault Refusal := .next (secAlarm 0x0C0C s)

/-- GLITCH_CLOCK (R400). -/
def execGlitchClock (s : State) : Host.Outcome State Fault Refusal := .next (secAlarm 0x0C0D s)

/-- SEAL_LOG_WRITE (R402, R404): the entry goes to the lowest blank word once an OTP word in progress is done and the supplies are in
range; with every entry used SEAL_LOG_FULL is set. -/
def execSealLogWrite (inRange : Bool) (s : State) : Host.Outcome State Fault Refusal :=
  .next (match s.sec.sealPend with
    | none => s
    | some w =>
      if s.sec.job.isSome then s
      else match (List.range 64).find? fun e => otpBlank s (0x2C0 + e) with
        | none => withSec (fun x => { x with sealPend := none, logFull := true }) s
        | some e => if inRange then withSec (fun x => { x with sealPend := none }) (putOtp (0x2C0 + e) (encCode w) s) else s)

/-- ENTROPY_TEST_FAIL (R399): the source restarts; at the third failure in a row the DRBG stops until a warm reset, which is logged. -/
def execEntropyTestFail (s : State) : Host.Outcome State Fault Refusal :=
  .next (if s.sec.drbgFail then s
    else
      let s := withSec (fun x => { x with entFails := x.entFails + 1 }) s
      if s.sec.entFails < 3 then s
      else setIrq pgSEC 2 (setFault pgSEC 0x0C0B (logNote 0x0C0B (withSec (fun x => { x with drbgFail := true }) s))))

/-- DRBG_RESEED (R399): the source has given 384 bits again, which ends a run of failures; the stream of random bits goes on. -/
def execDrbgReseed (s : State) : Host.Outcome State Fault Refusal :=
  .next (if s.sec.drbgFail then s else withSec (fun x => { x with entFails := 0 }) s)

end Sys2Proof.Machine
end

