-- ==== Sys2Proof/Machine/Streams.lean ====
section
/-! DEFINITION. The commands of the stream engines (10). -/

namespace Sys2Proof.Machine

/-- A stream is open in an engine: from its first byte to its end (log entry 325). -/
def streamOpen (g : Engine) : Bool := g.st ≠ .idle && g.st ≠ .discard

/-- START of ENG_1 (R300, R314): another source than the one whose bytes are discarded ends that one. -/
def irpStart (src : Nat) (s : State) : State :=
  let g := s.cfc.eng1
  if 2 ≤ src then setFault pgIRP reservedValue s
  else if !devReady s then setFault pgIRP 0x0416 s
  else if streamOpen g then setFault pgIRP 0x0412 s
  else if g.src = 4 + src then setEng true { g with started := true } s
  else setEng true { Engine.zero with started := true, src := 4 + src } s

/-- ENG_START (R314): reserved in the CFG page. -/
def execEngStart (eng : Bool) (src : BitVec 2) (s : State) : Host.Outcome State Fault Refusal :=
  .next (posted (engPage eng) (fun s => if eng then irpStart src.toNat s else setFault pgCFG reservedValue s) s)

/-- END (R299, R314) of the host feed, of IRP_DATA and of the master source. -/
def engEndCmd (e : Bool) (s : State) : State :=
  let g := engOf s e
  if g.st ≠ .idle && (g.src ≤ 1 || g.src = 3) then s else streamAfter (sourceEnds e s)

/-- ENG_END (R314). -/
def execEngEnd (eng : Bool) (s : State) : Host.Outcome State Fault Refusal := .next (posted (engPage eng) (engEndCmd eng) s)

/-- ABORT (R299): nothing without an open stream or after its last trailer byte. -/
def engAbortCmd (e : Bool) (s : State) : State :=
  let g := engOf s e
  match g.st with
  | .header => if trailerIn g then s else streamAfter (endEarly e 0x040F s)
  | .sections => if trailerIn g then s else streamAfter (endEarly e 0x040F s)
  | _ => s

/-- ENG_ABORT (R299). -/
def execEngAbort (eng : Bool) (s : State) : Host.Outcome State Fault Refusal := .next (posted (engPage eng) (engAbortCmd eng) s)

/-- A write of IRP_DATA (R313): four bytes for ENG_1 while its source IRP_DATA is open. -/
def irpDataWrite (v : Reg) : State → State := posted pgIRP fun s =>
  if s.cfc.eng1.started && s.cfc.eng1.src = 4 then feedBytes true 4 (toBytes 4 v) s else s

/-- IRP_DATA_WRITE (R313). -/
def execIrpDataWrite (val : Reg) (s : State) : Host.Outcome State Fault Refusal := .next (irpDataWrite val s)

/-- A write of IRP_MASTER (R313): refused while ENG_1 has an open stream from the master source. -/
def irpMasterWrite (v : Reg) : State → State := guarded pgIRP fun s =>
  if streamOpen s.cfc.eng1 && s.cfc.eng1.src = 5 then setFault pgIRP 0x0412 s else writeReg (at' pgIRP 0x64) v s

/-- IRP_MASTER_WRITE (R313). -/
def execIrpMasterWrite (val : Reg) (s : State) : Host.Outcome State Fault Refusal := .next (irpMasterWrite val s)

/-- STREAM_HEADER (R283, R295). -/
def execStreamHeader (eng : Bool) (s : State) : Host.Outcome State Fault Refusal :=
  .next (if (engOf s eng).st = .header then streamAfter (takeHeader eng s) else s)

/-- PLANE_SECTION (R111, R290, R296). -/
def execPlaneSection (eng : Bool) (s : State) : Host.Outcome State Fault Refusal := .next (streamAfter (takeSection eng 1 s))

/-- FRAME_SECTION (R112, R290, R296). -/
def execFrameSection (eng : Bool) (s : State) : Host.Outcome State Fault Refusal := .next (streamAfter (takeSection eng 2 s))

/-- REG_SECTION (R292). -/
def execRegSection (eng : Bool) (s : State) : Host.Outcome State Fault Refusal := .next (streamAfter (takeSection eng 3 s))

/-- STORE_IMAGE_SECTION (R293). -/
def execStoreImageSection (eng : Bool) (s : State) : Host.Outcome State Fault Refusal := .next (streamAfter (takeSection eng 4 s))

/-- TRAILER (R297). -/
def execTrailer (eng : Bool) (s : State) : Host.Outcome State Fault Refusal := .next (streamAfter (takeTrailer eng s))

/-- SIGNATURE_VERIFIED (R297, R298): the records that the stream applies may break a clock ratio (R415). -/
def execSignatureVerified (eng : Bool) (s : State) : Host.Outcome State Fault Refusal := clocked s (streamAfter (takeSignature eng s))

/-- STREAM_STALL (R299): no byte for 1 s ends an open stream, and what is discarded. -/
def execStreamStall (eng : Bool) (s : State) : Host.Outcome State Fault Refusal :=
  let g := engOf s eng
  .next (if g.src ≤ 1 && g.st ≠ .idle then s
    else match g.st with
      | .header => if g.seen.length < 256 then streamAfter (endEarly eng 0x040B s) else s
      | .sections => if g.seen.length < hTotal g.seen then streamAfter (endEarly eng 0x040B s) else s
      | .verify =>
        if g.seen.length < hTotal g.seen then
          streamAfter (if g.verdict.isSome then closeEngine eng (beyond g) s else endEarly eng 0x040B s)
        else s
      | .discard => streamAfter (closeEngine eng [] s)
      | _ => s)

end Sys2Proof.Machine
end

