-- ==== Sys2Proof/Machine/Regs.lean ====
section
/-! DEFINITION. Access to the registers of BAR 0: every page's writes, soft resets and reads, over PCIe and over the management port
(13 to 19). -/

namespace Sys2Proof.Machine

-- Soft reset (R489)

/-- An engine of the configuration controller is reset: an open stream ends early. -/
def resetEngine (e : Bool) (s : State) : State :=
  let s := match (engOf s e).st with
    | .idle => s
    | .discard => s
    | _ => endEarly e 0x040F s
  settle (bootNext (setBusy (engPage e) false (resetPage (engPage e) (setEng e .zero s))))

/-- The BIST page: a run in progress is given up. -/
def resetBist (s : State) : State :=
  let run : Bool := match s.ecc.phase with
    | .none => false
    | .d2 => false
    | _ => true
  let s := if run then offlineBack s else s
  let s := withEcc (fun e => { e with phase := .none, bistL := 0, bistP := 0, patterns := false, passed := 0, wasOff := false })
    { s with mem := { s.mem with saved := none } }
  setBusy pgBIST false (resetPage pgBIST s)

/-- The ECC page: the tracker and a rewrite in progress are gone, the rings are empty. -/
def resetEcc (s : State) : State :=
  setBusy pgECC false (resetPage pgECC (withEcc (fun e => { e with track := [], trackNo := 0, rewrite := none }) s))

/-- The IME page: every region OFF, the cache gone, its banks handed to NONE. -/
def resetIme (s : State) : State :=
  let s := if imeEn s then handCacheBanks 0 s else s
  setBusy pgIME false (resetPage pgIME { s with ime := .zero })

/-- An ENR page: the port goes DOWN and is trained anew where its settings ask for it. -/
def resetEnr (p : Nat) (s : State) : State :=
  let s := resetPage (pgENR p) (setEnrPort p .zero (toDown p s))
  streamAfter (enrEval p s)

/-- A DRC page: DRC_0 takes the controller to OFF. -/
def resetDrc (k : Nat) (s : State) : State :=
  let s := setBusy (pgDRC k) false (resetPage (pgDRC k) s)
  if k = 0 then
    let s := (List.range 8).foldl (fun t k => send (.dramCommand k (.reset true)) t) s
    abortQueue (withDrm (fun d => { d with copying := [], debt := [], hot := [], asleep := [], warm := false, resilver := [] }) s)
  else s

/-- A DPH page: a compare burst in progress is given up. -/
def resetDph (k : Nat) (s : State) : State :=
  setBusy (pgDPH k) false (resetPage (pgDPH k) (withDrm (fun d => { d with bursting := d.bursting.filter fun j => decide (j ≠ k) }) s))

/-- The soft reset of a page (R489). -/
def pageReset (p : Nat) (s : State) : State :=
  match pageType p with
  | 0 => s
  | 8 => resetEngine false s
  | 9 => resetEngine true s
  | 10 => resetBist s
  | 11 => resetEcc s
  | 12 => unitReset p s
  | 13 => resetPage p s
  | 14 => resetIme s
  | 16 => setBusy pgHDMA false (hdmaEngineReset s)
  | 17 => resetPage p s
  | 18 => unitReset p s
  | 20 => unitReset p s
  | 21 => resetEnr (p - 0x50) s
  | 22 =>
    let v := rd s (at' p 0x44)
    wr (at' p 0x44) v (resetPage p s)
  | 23 => unitReset p s
  | 24 => resetDrc (p - 0x88) s
  | 25 => resetDph (p - 0x90) s
  | _ => resetRefuse p s

/-- SOFT_RESET (R489): CTRL.SOFT_RESET of a page is written 1. -/
def execSoftReset (page : Nat) (s : State) : Host.Outcome State Fault Refusal := .next (reaching page (pageReset page) s)

-- Writes

/-- Commands in a register's CMD field: command `k` of the list where the field is `k + 1`, nothing for 0, reserved beyond. -/
def cmdField (p x : Nat) (l : List (State → State)) (s : State) : State :=
  if x = 0 then posted p (fun t => t) s
  else match l[x - 1]? with
    | some f => f s
    | none => posted p (setFault p reservedValue) s

/-- A write of OTP_CMD (R15, R405): READ does not use BLOCK, and a reserved one is noted. -/
def otpCmdWrite (v : Reg) (s : State) : State :=
  let s := posted pgOTP (noteReserved pgOTP (fld v 28 4 = 1 && 9 < cmdBlock v)) s
  cmdField pgOTP (fld v 28 4) [fun s => effect s (execRead v s), fun s => effect s (execChallenge v s), fun s => effect s (execProgramGen v s),
    fun s => effect s (execVoidGen v s), fun s => effect s (execVersion v s), fun s => effect s (execProvision v s)] s

/-- A write of SEC_CMD (R405). -/
def secCmdWrite (v : Reg) : State → State :=
  cmdField pgSEC (fld v 0 2) [fun s => effect s (execAttest v s), fun s => effect s (execSeal v s)]

/-- A write of ENG_CMD (R15, R313, R314): a reserved SRC is noted also where the command does not use it. -/
def engCmdWrite (e : Bool) (v : Reg) (s : State) : State :=
  let s := posted (engPage e) (noteReserved (engPage e) (e && fld v 0 2 ≠ 1 && 2 ≤ fld v 2 2)) s
  cmdField (engPage e) (fld v 0 2) [fun s => effect s (execEngStart e (BitVec.ofNat 2 (fld v 2 2)) s), fun s => effect s (execEngEnd e s),
    fun s => effect s (execEngAbort e s)] s

/-- A write of IME_CMD (R380, R381). -/
def imeCmdWrite (v : Reg) : State → State :=
  let r : BitVec 4 := BitVec.ofNat 4 (fld v 0 4)
  cmdField pgIME (fld v 28 4) [fun s => effect s (execImeInit r s), fun s => effect s (execImeOff r s), fun s => effect s (execInitRange r s),
    fun s => effect s (execImeRekey r s), fun s => effect s (execFlush r s)]

/-- A write of an IME_REG register (R361). -/
def imeRegWrite (r : Nat) (a : Nat) (v : Reg) (s : State) : State :=
  if (regFields a).isNone then s
  else guarded pgIME (fun t => if (imeReg t r).st = .off then plainWrite a v t else setFault pgIME 0x0B07 t) s

/-- A write of DRC_CTRL (R346). -/
def drcCtrlWrite (v : Reg) : State → State :=
  cmdField (pgDRC 0) (fld v 0 3) [drcInit, fun s => effect s (execFill s), fun s => effect s (execResume s),
    fun s => effect s (execResilver s)]

/-- A write of a register of the map: a change outside OFF is refused (R346). -/
def drcMapWrite (a : Nat) (v : Reg) : State → State := guarded (pgDRC 0) fun s =>
  if drcState s ≠ dOFF && (writtenValue s a v).1 ≠ rd s a then setFault (pgDRC 0) 0x0A07 s else writeReg a v s

/-- A write of DPH_CMD (R347); the byte that a device answers to a mode-register read is a free value (log entry 18). -/
def dphCmdWrite (k : Nat) (v : Reg) (s : State) : State :=
  let sub : BitVec 3 := BitVec.ofNat 3 k
  match fld v 30 2 with
  | 0 => posted (pgDPH k) (fun t => t) s
  | 1 => effect s (execMrw sub v s)
  | 2 =>
    let b := takeFree 8 s
    effect s (execMrr sub v b.1 b.2)
  | _ => effect s (execMpc sub v s)

/-- A write of DPH_CMP (R347). -/
def dphCmpWrite (k : Nat) (v : Reg) (s : State) : State :=
  if bit v 31 then effect s (execCompareBurst (BitVec.ofNat 3 k) v s) else posted (pgDPH k) (fun t => t) s

/-- A write of BANK_MBIST_CMD (R329, R332). -/
def mbistCmdWrite (v : Reg) : State → State :=
  cmdField pgBANK (fld v 8 2) [fun s => effect s (execMbistStart (BitVec.ofNat 7 (fld v 0 7)) s)]

/-- A write of BANK_REPAIR_CMD (R330, R332): 1 a row, 2 a column. -/
def repairCmdWrite (v : Reg) : State → State :=
  let bank := fld v 20 7
  let spare := fld v 27 3
  cmdField pgBANK (fld v 30 2) [assignSpare bank spare (fld v 0 14) false, assignSpare bank spare (fld v 0 14) true]

/-- A write of the MSI-X table (R486): the mask of an entry, or a word of its message. -/
def msixTableWrite (o : Nat) (v : Reg) : State → State := guarded pgHIF fun s =>
  let k := (o - 0x800) / 16
  if o % 16 = 12 then msixMaskWrite k (bit v 0) s else if o % 4 = 0 then wr (at' pgHIF o) v s else s

/-- A write of a register of a host DMA channel (R502). -/
def hdmaRegWrite (o : Nat) (v : Reg) (s : State) : State :=
  let c := (o - 0x100) / 0x40
  match o % 0x40 with
  | 0x00 => hdmaCfgWrite c v s
  | 0x0C => hdmaTailSet c false v s
  | 0x18 => hdmaCmdWrite c v s
  | 0x24 => if c = 15 then hdmaTailSet c true v s else s
  | _ => plainWrite (at' pgHDMA o) v s

/-- A block-specific register of a page of type 1 to 11: SYS, MODE, CLK, PWR, THM, OTP, SEC, CFG, IRP, BIST, ECC. -/
def coreWrite (p o : Nat) (v : Reg) (s : State) : State :=
  let a := at' p o
  match pageType p, o with
  | 1, 0x44 => guarded p (sysUpdateWrite (BitVec.ofNat 16 (fld v 0 16))) s
  | 1, 0x54 => guarded p (nmaWrite v) s
  | 2, 0x44 => modeCmdWrite v s
  | 3, 0x4C => clkFabPllWrite v s
  | 3, 0x50 => clkBasePllWrite v s
  | 4, 0x44 => dieResetWrite v s
  | 5, 0x44 => thmLimitWrite v s
  | 6, 0x40 => otpCmdWrite v s
  | 7, 0x44 => secCmdWrite v s
  | 8, 0x40 => engCmdWrite false v s
  | 9, 0x40 => engCmdWrite true v s
  | 9, 0x60 => irpDataWrite v s
  | 9, 0x64 => irpMasterWrite v s
  | 10, 0x40 => bistCmdWrite v s
  | 11, 0x48 => rewriteCmd v s
  | 11, 0x54 => if bit v 0 then trackClr s else s
  | t, _ =>
    if t = 6 && 0x240 ≤ o && o < 0x300 && o % 4 = 0 then guarded p (wr a v) s
    else if t = 8 && 0x200 ≤ o && o < 0x220 && o % 4 = 0 then basinMapWrite ((o - 0x200) / 4) v s
    else if t = 11 && 0x100 ≤ o && o < 0x150 && o % 16 = 4 then effect s (execRingTailWrite ((o - 0x100) / 16) v s)
    else match recordRest t o with
      | some rest => recordWrite p o rest v s
      | none => plainWrite a v s

/-- A block-specific register of a page of another type: SLU_X, IME, HIF, HDMA, DBG, BANK, ENR, ENR_G, DRC, DPH. -/
def portWrite (p o : Nat) (v : Reg) (s : State) : State :=
  let a := at' p o
  match pageType p, o with
  | 13, 0x44 => effect s (execRingTailWrite 5 v s)
  | 14, 0x40 => effect s (execImeEnable v s)
  | 14, 0x48 => imeCmdWrite v s
  | 17, 0x40 => dbgTraceWrite v s
  | 19, 0x70 => mbistCmdWrite v s
  | 19, 0xC0 => repairCmdWrite v s
  | 22, 0x40 => enrgCtrlWrite v s
  | 21, 0x40 => enrCtrlWrite (p - 0x50) v s
  | 25, 0x40 => dphCmdWrite (p - 0x90) v s
  | 25, 0x58 => dphCmpWrite (p - 0x90) v s
  | t, _ =>
    if t = 14 && 0x200 ≤ o && o < 0x400 then imeRegWrite ((o - 0x200) / 0x20) a v s
    else if t = 15 && 0x800 ≤ o && o < 0xC00 then msixTableWrite o v s
    else if t = 16 && 0x100 ≤ o && o < 0x500 then hdmaRegWrite o v s
    else if t = 19 && 0x50 ≤ o && o < 0x60 && o % 4 = 0 then effect s (execBankRetWrite (BitVec.ofNat 2 ((o - 0x50) / 4)) v s)
    else if t = 19 && 0x200 ≤ o && o < 0x400 && o % 4 = 0 then bankOwnerWrite ((o - 0x200) / 4) v s
    else if t = 24 && p = pgDRC 0 && o = 0x44 then drcCtrlWrite v s
    else if t = 24 && p = pgDRC 0 && (o = 0x40 || (0x4C ≤ o && o < 0x74)) then drcMapWrite a v s
    else match recordRest t o with
      | some rest => recordWrite p o rest v s
      | none => plainWrite a v s

/-- A single full write of a BAR 0 address (R13 to R16, R492 to R495, R505). -/
def busWrite (a : Nat) (v : Reg) (s : State) : State :=
  let p := a / 0x1000
  let o := a % 0x1000
  if 0x100000 ≤ a then reaching pgSLU (windowWrite a v) s
  else reaching p (fun s =>
    if pageType p = 0 then s
    else if o < 0x40 then headerWrite pageReset p o v s
    else match pageType p with
      | 12 => unitWrite a v s
      | 18 => unitWrite a v s
      | 20 => unitWrite a v s
      | 23 => unitWrite a v s
      | t => if t ≤ 11 then coreWrite p o v s else portWrite p o v s) s

/-- REGISTER_WRITE (R13, R415, R483, R484): a host write to BAR 0; one that is not a single full DWORD is dropped with BAD_ACCESS. -/
def execRegisterWrite (addr : Nat) (val : Reg) (full : Bool) (s : State) : Host.Outcome State Fault Refusal :=
  if s.hst.d3 then .next s
  else if full then clocked s (busWrite addr val s)
  else .next (reaching pgSYS (setFault pgSYS 0x0F05) s)

-- Reads

/-- Four bytes of a window of bytes (R386, R398). -/
def windowBytes (l : List Byte) (o : Nat) : Reg := ofBytes 32 ((l.drop o).take 4)

/-- A read of a block-specific register with an effect of its own, or without (R224, R257, R284, R399, R486). -/
def blockRead (p o : Nat) (s : State) : Reg × State :=
  let a := at' p o
  let v := regValue s a
  match pageType p with
  | 7 => if o = 0x54 then match drawBytes 1 s with
      | (some bs, t) => (ofBytes 32 bs, t)
      | (none, t) => (0, t)
    else (v, s)
  | 12 => if o = 0x5C then (v, withSlu (fun u => { u with tickLatch := BitVec.ofNat 16 ((tickNow s).toNat / 2 ^ 32) }) s) else (v, s)
  | 15 =>
    if 0x800 ≤ o && o < 0xC00 then
      (if o % 16 = 12 then BitVec.ofNat 32 (b2n (bit s.hst.msixMask ((o - 0x800) / 16))) else rd s a, s)
    else if o = 0xC00 then (BitVec.ofNat 32 s.hst.msixPend.toNat, s)
    else if o = 0xC04 then (BitVec.ofNat 32 (s.hst.msixPend.toNat / 2 ^ 32), s)
    else (v, s)
  | 20 => if 0x100 ≤ o && o < 0x200 && o % 0x40 = 0x2C then (v, clearReg a s) else (v, s)
  | 21 => if o = 0x48 then (v, clearReg a s) else (v, s)
  | _ => (v, s)

/-- The address holds a block-specific register, or the MSI-X structures (R16, R486). -/
def holdsReg (p o : Nat) : Bool := (regFields (at' p o)).isSome || (p = pgHIF && 0x800 ≤ o && o < 0xC08 && o % 4 = 0)

/-- A single full read of a BAR 0 address (R13, R16, R176, R386, R398, R424, R487, R505). -/
def busRead (a : Nat) (s : State) : Reg × State :=
  let p := a / 0x1000
  let o := a % 0x1000
  if 0x140000 ≤ a && a < 0x144000 then (windowBytes s.sec.report (a - 0x140000), s)
  else if 0x144000 ≤ a && a < 0x148000 then (windowBytes certBytes (a - 0x144000), s)
  else if 0x100000 ≤ a then (if a % 8 = 0 then tableLowerRead a s else if a % 8 = 4 then tableUpperRead a s else (0, s))
  else if pageType p = 0 then (0, s)
  else if o < 0x40 then (regValue s a, s)
  else if !holdsReg p o then (0, s)
  else if gated s p then (0, setFault p 0x010A s)
  else blockRead p o s

/-- An address that reads as usual in SEALED: the SEC page, SYS_ID, SYS_VER (R403). -/
def sealedReadable (a : Nat) : Bool := a / 0x1000 = pgSEC || a = 0 || a = 4

/-- A host read of BAR 0 by `f` (R403, R428, R483): no answer in DORMANT, Unsupported Request in D3hot, 0 for what SEALED hides. -/
def hostRead (a : Nat) (f : State → Reg × State) (s : State) : State :=
  if modeOf s = mDORMANT then s
  else if s.hst.d3 then send (.unsupported a) s
  else if modeOf s = mSEALED && !sealedReadable a then send (.readData a 0) s
  else
    let r := f s
    send (.readData a r.1) r.2

/-- REGISTER_READ (R424, R483, R484): a read that is not a single full DWORD ends with Completer Abort and BAD_ACCESS. -/
def execRegisterRead (addr : Nat) (full : Bool) (s : State) : Host.Outcome State Fault Refusal :=
  .next (if full || s.hst.d3 then hostRead addr (busRead addr) s
    else if modeOf s = mDORMANT then s
    else send (.completerAbort addr) (reaching pgSYS (setFault pgSYS 0x0F05) s))

/-- TABLE_LOWER_READ (R176). -/
def execTableLowerRead (addr : Nat) (s : State) : Host.Outcome State Fault Refusal :=
  .next (if addr % 8 = 0 then hostRead addr (tableLowerRead addr) s else s)

/-- TABLE_UPPER_READ (R176). -/
def execTableUpperRead (addr : Nat) (s : State) : Host.Outcome State Fault Refusal :=
  .next (if addr % 8 = 4 then hostRead addr (tableUpperRead addr) s else s)

end Sys2Proof.Machine
end

