-- ==== Sys2Proof/Machine/Mgmt.lean ====
section
/-! DEFINITION. The management port and the test access port (19, 20). -/

namespace Sys2Proof.Machine

/-- The addresses that READ32 reaches in every mode (R504). -/
def mailbox (a : Nat) : Bool :=
  a < 0x044 || a = 0x054 || a = 0x1040 || a = 0x1050 || a = 0x3040 || a = 0x2040 || a = 0x4040 || a = 0x4070 || a = 0x6040 || a = 0x6050
    || (0x6400 ≤ a && a < 0x6600)

/-- The management port reaches the mailbox only (R504). -/
def mailboxOnly (s : State) : Bool := modeOf s = mDORMANT || modeOf s = mSEALED

/-- READ32 (R503, R504): status, value. -/
def execRead32 (addr : Nat) (pecOk : Bool) (s : State) : Host.Outcome State Fault Refusal :=
  let answer (st : Nat) (v : Reg) (t : State) : State := send (.mgmt (BitVec.ofNat 8 st :: toBytes 4 v)) t
  .next (if !pecAccepted pecOk s then s
    else if mailboxOnly s then (if mailbox addr then answer 0 (regValue s addr) s else answer 1 0 s)
    else
      let r := busRead addr s
      answer 0 r.1 r.2)

/-- The status that a cause of a write gives (R492, R503): 2 for a dropped write, 3 for a refused one (log entry 85). -/
def writeStatus (cause : Nat) : Byte := if cause = 0 then 0 else if cause = 0x0F02 || cause = 0x010A then 2 else 3

/-- A write over the management port, and its status: ERR_CAUSE holds a value that no cause has while the write is made. -/
def mgmtWrite (a : Nat) (v : Reg) (s : State) : State :=
  let x := errA (recordPage a)
  let old := rd s x
  let t := busWrite a v (wr x 0xFFFFFFFF s)
  let bad := rd t x ≠ 0xFFFFFFFF
  withHst (fun h => { h with mgmtStat := if bad then writeStatus (rd t x).toNat else 0 }) (if bad then t else wr x old t)

/-- WRITE32 (R415, R503, R504). -/
def execWrite32 (addr : Nat) (val : Reg) (pecOk : Bool) (s : State) : Host.Outcome State Fault Refusal :=
  if !pecAccepted pecOk s then .next s
  else if mailboxOnly s then .next (withHst (fun h => { h with mgmtStat := 1 }) s)
  else clocked s (mgmtWrite addr val s)

/-- STATUS (R503): the status of the last WRITE32. -/
def execStatus (pecOk : Bool) (s : State) : Host.Outcome State Fault Refusal :=
  .next (if pecAccepted pecOk s then send (.mgmt [s.hst.mgmtStat]) s else s)

/-- The value that IDCODE shifts out (R516). -/
def jtagIdcode : Reg := 0x158603CF

/-- An instruction of the test access port is available (R516): any other code, or one that is not, acts as BYPASS. -/
def jtagAvailable (s : State) (ir : Byte) : Bool :=
  ir = 0x01 || (ir = 0x02 && modeOf s ≠ mSEALED)
    || (s.mod.testMode && (ir = 0x00 || ir = 0x03 || ir = 0x04 || ir = 0x05 || ir = 0x06))

/-- JTAG_INSTRUCTION (R387, R516): the instruction in force at the test access port, which is not available in DORMANT. -/
def execJtagInstruction (ir : BitVec 8) (s : State) : Host.Outcome State Fault Refusal :=
  .next (if modeOf s = mDORMANT then s else withHst (fun h => { h with jtagIr := if jtagAvailable s ir then ir else 0xFF }) s)

end Sys2Proof.Machine
end

