-- ==== Sys2Proof/Machine/Dispatch.lean ====
section
/-! DEFINITION. The dispatch: one arm per command, each a direct call of that command's meaning. -/

namespace Sys2Proof.Machine

/-- The effect of a command on everything but the queue. -/
def exec (i : Instr) (s : State) : Host.Outcome State Fault Refusal :=
  match i with
  | .registerWrite addr val full => Sys2Proof.Machine.execRegisterWrite addr val full s
  | .stagedWrite addr val => Sys2Proof.Machine.execStagedWrite addr val s
  | .sysUpdate mask => Sys2Proof.Machine.execSysUpdate mask s
  | .stagedUpdateApply => Sys2Proof.Machine.execStagedUpdateApply s
  | .irqStatWrite page val => Sys2Proof.Machine.execIrqStatWrite page val s
  | .msixUnmask vec => Sys2Proof.Machine.execMsixUnmask vec s
  | .sysNmaWrite val alert => Sys2Proof.Machine.execSysNmaWrite val alert s
  | .clrFault page => Sys2Proof.Machine.execClrFault page s
  | .clrDropped page => Sys2Proof.Machine.execClrDropped page s
  | .freeze page on => Sys2Proof.Machine.execFreeze page on s
  | .softReset page => Sys2Proof.Machine.execSoftReset page s
  | .enable page resource => Sys2Proof.Machine.execEnable page resource s
  | .clkEnWrite page val => Sys2Proof.Machine.execClkEnWrite page val s
  | .gateClose page => Sys2Proof.Machine.execGateClose page s
  | .gateForced page => Sys2Proof.Machine.execGateForced page s
  | .gateOpen page => Sys2Proof.Machine.execGateOpen page s
  | .crystalCycle basin rise fall => Sys2Proof.Machine.execCrystalCycle basin rise fall s
  | .nop x f => Sys2Proof.Machine.execNop x f s
  | .pass x f => Sys2Proof.Machine.execPass x f s
  | .add x f => Sys2Proof.Machine.execAdd x f s
  | .addc x f => Sys2Proof.Machine.execAddc x f s
  | .sub x f => Sys2Proof.Machine.execSub x f s
  | .subb x f => Sys2Proof.Machine.execSubb x f s
  | .acc x f => Sys2Proof.Machine.execAcc x f s
  | .and x f => Sys2Proof.Machine.execAnd x f s
  | .or x f => Sys2Proof.Machine.execOr x f s
  | .xor x f => Sys2Proof.Machine.execXor x f s
  | .andn x f => Sys2Proof.Machine.execAndn x f s
  | .shl x f => Sys2Proof.Machine.execShl x f s
  | .shr x f => Sys2Proof.Machine.execShr x f s
  | .sar x f => Sys2Proof.Machine.execSar x f s
  | .rol x f => Sys2Proof.Machine.execRol x f s
  | .cmpeq x f => Sys2Proof.Machine.execCmpeq x f s
  | .cmpltu x f => Sys2Proof.Machine.execCmpltu x f s
  | .cmplts x f => Sys2Proof.Machine.execCmplts x f s
  | .minu x f => Sys2Proof.Machine.execMinu x f s
  | .mins x f => Sys2Proof.Machine.execMins x f s
  | .maxu x f => Sys2Proof.Machine.execMaxu x f s
  | .maxs x f => Sys2Proof.Machine.execMaxs x f s
  | .popcnt x f => Sys2Proof.Machine.execPopcnt x f s
  | .clz x f => Sys2Proof.Machine.execClz x f s
  | .bswap x f => Sys2Proof.Machine.execBswap x f s
  | .extr x f => Sys2Proof.Machine.execExtr x f s
  | .ins x f => Sys2Proof.Machine.execIns x f s
  | .sel x f => Sys2Proof.Machine.execSel x f s
  | .mul32u x f => Sys2Proof.Machine.execMul32u x f s
  | .mul32s x f => Sys2Proof.Machine.execMul32s x f s
  | .crc x f => Sys2Proof.Machine.execCrc x f s
  | .hmix x f => Sys2Proof.Machine.execHmix x f s
  | .ldr x f => Sys2Proof.Machine.execLdr x f s
  | .str x f => Sys2Proof.Machine.execStr x f s
  | .fence x f => Sys2Proof.Machine.execFence x f s
  | .mulCompletion x => Sys2Proof.Machine.execMulCompletion x s
  | .fenceComplete basin port => Sys2Proof.Machine.execFenceComplete basin port s
  | .bsnModeWrite basin val => Sys2Proof.Machine.execBsnModeWrite basin val s
  | .bsnSwBudgetWrite basin val => Sys2Proof.Machine.execBsnSwBudgetWrite basin val s
  | .clear basin frame plane => Sys2Proof.Machine.execClear basin frame plane s
  | .planeClearDone basin => Sys2Proof.Machine.execPlaneClearDone basin s
  | .budgetLimitReached basin => Sys2Proof.Machine.execBudgetLimitReached basin s
  | .budgetWindowEnd basin => Sys2Proof.Machine.execBudgetWindowEnd basin s
  | .dozeEntry basin => Sys2Proof.Machine.execDozeEntry basin s
  | .deepEntry basin => Sys2Proof.Machine.execDeepEntry basin s
  | .deepExit basin => Sys2Proof.Machine.execDeepExit basin s
  | .basinWakeDone basin => Sys2Proof.Machine.execBasinWakeDone basin s
  | .cfgBasinMapWrite k val => Sys2Proof.Machine.execCfgBasinMapWrite k val s
  | .basinStorageClearDone basin => Sys2Proof.Machine.execBasinStorageClearDone basin s
  | .descriptorBeatDelivery basin port => Sys2Proof.Machine.execDescriptorBeatDelivery basin port s
  | .descriptorBeatAccept basin port => Sys2Proof.Machine.execDescriptorBeatAccept basin port s
  | .readRow basin row => Sys2Proof.Machine.execReadRow basin row s
  | .writeRow basin row => Sys2Proof.Machine.execWriteRow basin row s
  | .farRead basin row => Sys2Proof.Machine.execFarRead basin row s
  | .farWrite basin row => Sys2Proof.Machine.execFarWrite basin row s
  | .readRowComplete basin row index => Sys2Proof.Machine.execReadRowComplete basin row index s
  | .writeRowComplete basin row index => Sys2Proof.Machine.execWriteRowComplete basin row index s
  | .farReadLine basin row index => Sys2Proof.Machine.execFarReadLine basin row index s
  | .farWriteComplete basin row index => Sys2Proof.Machine.execFarWriteComplete basin row index s
  | .outletDescriptor basin port => Sys2Proof.Machine.execOutletDescriptor basin port s
  | .outletPayload basin port => Sys2Proof.Machine.execOutletPayload basin port s
  | .commit basin port => Sys2Proof.Machine.execCommit basin port s
  | .abort basin port => Sys2Proof.Machine.execAbort basin port s
  | .commitPoint basin handle => Sys2Proof.Machine.execCommitPoint basin handle s
  | .abortPoint basin handle => Sys2Proof.Machine.execAbortPoint basin handle s
  | .tableLowerWrite addr val => Sys2Proof.Machine.execTableLowerWrite addr val s
  | .tableUpperWrite addr val => Sys2Proof.Machine.execTableUpperWrite addr val s
  | .tableLowerRead addr => Sys2Proof.Machine.execTableLowerRead addr s
  | .tableUpperRead addr => Sys2Proof.Machine.execTableUpperRead addr s
  | .itemArrival flow len mtag delay meta0 bank row => Sys2Proof.Machine.execItemArrival flow len mtag delay meta0 bank row s
  | .dispatch slot => Sys2Proof.Machine.execDispatch slot s
  | .delayExpiry list => Sys2Proof.Machine.execDelayExpiry list s
  | .matchTimeout flow mtag => Sys2Proof.Machine.execMatchTimeout flow mtag s
  | .serviceTimeout service => Sys2Proof.Machine.execServiceTimeout service s
  | .drainTimeout service => Sys2Proof.Machine.execDrainTimeout service s
  | .stagedOutputDiscard basin => Sys2Proof.Machine.execStagedOutputDiscard basin s
  | .failoverReissue basin => Sys2Proof.Machine.execFailoverReissue basin s
  | .sluOfflineWrite val => Sys2Proof.Machine.execSluOfflineWrite val s
  | .sluCtrlWrite val => Sys2Proof.Machine.execSluCtrlWrite val s
  | .tick => Sys2Proof.Machine.execTick s
  | .flowReset flow => Sys2Proof.Machine.execFlowReset flow s
  | .flowResetDone flow => Sys2Proof.Machine.execFlowResetDone flow s
  | .quarantine flow => Sys2Proof.Machine.execQuarantine flow s
  | .ringTailWrite ring val => Sys2Proof.Machine.execRingTailWrite ring val s
  | .windowClose counter => Sys2Proof.Machine.execWindowClose counter s
  | .quadCfgWrite quad val => Sys2Proof.Machine.execQuadCfgWrite quad val s
  | .laneCtrlWrite lane val => Sys2Proof.Machine.execLaneCtrlWrite lane val s
  | .dwellExpiry lane => Sys2Proof.Machine.execDwellExpiry lane s
  | .laneLock lane => Sys2Proof.Machine.execLaneLock lane s
  | .lockLost lane reason => Sys2Proof.Machine.execLockLost lane reason s
  | .polarityTest lane inverted => Sys2Proof.Machine.execPolarityTest lane inverted s
  | .markerReceive lane payload good skewNs => Sys2Proof.Machine.execMarkerReceive lane payload good skewNs s
  | .frameReceive lane bytes decodeError symbols codewords ends => Sys2Proof.Machine.execFrameReceive lane bytes decodeError symbols codewords ends s
  | .segmentFlush lane sub => Sys2Proof.Machine.execSegmentFlush lane sub s
  | .egressSend lane => Sys2Proof.Machine.execEgressSend lane s
  | .berWindowClose lane => Sys2Proof.Machine.execBerWindowClose lane s
  | .forceProtect lane => Sys2Proof.Machine.execForceProtect lane s
  | .forceWorking lane => Sys2Proof.Machine.execForceWorking lane s
  | .switchBlockReceive lane block => Sys2Proof.Machine.execSwitchBlockReceive lane block s
  | .wtrExpiry lane => Sys2Proof.Machine.execWtrExpiry lane s
  | .laneProtWrite lane val => Sys2Proof.Machine.execLaneProtWrite lane val s
  | .lifelineBlockReceive lane payload sync pclk => Sys2Proof.Machine.execLifelineBlockReceive lane payload sync pclk s
  | .lifelineRecordSend => Sys2Proof.Machine.execLifelineRecordSend s
  | .enrCtrlWrite port val => Sys2Proof.Machine.execEnrCtrlWrite port val s
  | .retrain port => Sys2Proof.Machine.execRetrain port s
  | .rekey port => Sys2Proof.Machine.execRekey port s
  | .trainTimeout port => Sys2Proof.Machine.execTrainTimeout port s
  | .handshakeTimeout port => Sys2Proof.Machine.execHandshakeTimeout port s
  | .idle port flit => Sys2Proof.Machine.execIdle port flit s
  | .data port flit => Sys2Proof.Machine.execData port flit s
  | .nak port flit => Sys2Proof.Machine.execNak port flit s
  | .hello port flit => Sys2Proof.Machine.execHello port flit s
  | .keyshare port flit => Sys2Proof.Machine.execKeyshare port flit s
  | .finished port flit => Sys2Proof.Machine.execFinished port flit s
  | .retryTimer port => Sys2Proof.Machine.execRetryTimer port s
  | .widthBlockReceive port block => Sys2Proof.Machine.execWidthBlockReceive port block s
  | .rekeyTrigger port => Sys2Proof.Machine.execRekeyTrigger port s
  | .nonceEnd port => Sys2Proof.Machine.execNonceEnd port s
  | .dispatchMsg port => Sys2Proof.Machine.execDispatchMsg port s
  | .arrive port => Sys2Proof.Machine.execArrive port s
  | .output port => Sys2Proof.Machine.execOutput port s
  | .endMsg port => Sys2Proof.Machine.execEndMsg port s
  | .creditReport port => Sys2Proof.Machine.execCreditReport port s
  | .creditReportSend => Sys2Proof.Machine.execCreditReportSend s
  | .faultNotice port => Sys2Proof.Machine.execFaultNotice port s
  | .noticeAck port => Sys2Proof.Machine.execNoticeAck port s
  | .timeSync port => Sys2Proof.Machine.execTimeSync port s
  | .timeSyncSend => Sys2Proof.Machine.execTimeSyncSend s
  | .delayReq port => Sys2Proof.Machine.execDelayReq port s
  | .delayReqSend port => Sys2Proof.Machine.execDelayReqSend port s
  | .delayResp port => Sys2Proof.Machine.execDelayResp port s
  | .keyUpdate port => Sys2Proof.Machine.execKeyUpdate port s
  | .cfgData port => Sys2Proof.Machine.execCfgData port s
  | .cfgEnd port => Sys2Proof.Machine.execCfgEnd port s
  | .broadcastStart => Sys2Proof.Machine.execBroadcastStart s
  | .engStart eng src => Sys2Proof.Machine.execEngStart eng src s
  | .engEnd eng => Sys2Proof.Machine.execEngEnd eng s
  | .engAbort eng => Sys2Proof.Machine.execEngAbort eng s
  | .irpDataWrite val => Sys2Proof.Machine.execIrpDataWrite val s
  | .irpMasterWrite val => Sys2Proof.Machine.execIrpMasterWrite val s
  | .streamHeader eng => Sys2Proof.Machine.execStreamHeader eng s
  | .planeSection eng => Sys2Proof.Machine.execPlaneSection eng s
  | .frameSection eng => Sys2Proof.Machine.execFrameSection eng s
  | .regSection eng => Sys2Proof.Machine.execRegSection eng s
  | .storeImageSection eng => Sys2Proof.Machine.execStoreImageSection eng s
  | .trailer eng => Sys2Proof.Machine.execTrailer eng s
  | .signatureVerified eng => Sys2Proof.Machine.execSignatureVerified eng s
  | .streamStall eng => Sys2Proof.Machine.execStreamStall eng s
  | .bootLoad => Sys2Proof.Machine.execBootLoad s
  | .releaseLockTimeout => Sys2Proof.Machine.execReleaseLockTimeout s
  | .releasePhase => Sys2Proof.Machine.execReleasePhase s
  | .handover bank val => Sys2Proof.Machine.execHandover bank val s
  | .handoverDone bank => Sys2Proof.Machine.execHandoverDone bank s
  | .drainWrite bank val => Sys2Proof.Machine.execDrainWrite bank val s
  | .retentionEntry bank => Sys2Proof.Machine.execRetentionEntry bank s
  | .bankRetWrite k val => Sys2Proof.Machine.execBankRetWrite k val s
  | .bankWakeDone bank => Sys2Proof.Machine.execBankWakeDone bank s
  | .bar2Read offset len => Sys2Proof.Machine.execBar2Read offset len s
  | .bar2Write offset bytes => Sys2Proof.Machine.execBar2Write offset bytes s
  | .mbistStart bank => Sys2Proof.Machine.execMbistStart bank s
  | .mbistDone fails => Sys2Proof.Machine.execMbistDone fails s
  | .spareRow bank spare addr => Sys2Proof.Machine.execSpareRow bank spare addr s
  | .spareColumn bank spare addr => Sys2Proof.Machine.execSpareColumn bank spare addr s
  | .repairClearDone bank => Sys2Proof.Machine.execRepairClearDone bank s
  | .patrolSweep kind addr => Sys2Proof.Machine.execPatrolSweep kind addr s
  | .init => Sys2Proof.Machine.execInit s
  | .dramInitDone => Sys2Proof.Machine.execDramInitDone s
  | .fill => Sys2Proof.Machine.execFill s
  | .fillDone => Sys2Proof.Machine.execFillDone s
  | .resume => Sys2Proof.Machine.execResume s
  | .resilver => Sys2Proof.Machine.execResilver s
  | .resilverDone => Sys2Proof.Machine.execResilverDone s
  | .mrw sub val => Sys2Proof.Machine.execMrw sub val s
  | .mrr sub val read => Sys2Proof.Machine.execMrr sub val read s
  | .mpc sub val => Sys2Proof.Machine.execMpc sub val s
  | .compareBurst sub val => Sys2Proof.Machine.execCompareBurst sub val s
  | .compareBurstDone sub beats => Sys2Proof.Machine.execCompareBurstDone sub beats s
  | .dramRead source dpa => Sys2Proof.Machine.execDramRead source dpa s
  | .dramWrite source dpa mask line => Sys2Proof.Machine.execDramWrite source dpa mask line s
  | .refresh sub rank busy => Sys2Proof.Machine.execRefresh sub rank busy s
  | .mr4Poll sub rank mr4 => Sys2Proof.Machine.execMr4Poll sub rank mr4 s
  | .zqCalibration => Sys2Proof.Machine.execZqCalibration s
  | .dqsOscRead sub counts => Sys2Proof.Machine.execDqsOscRead sub counts s
  | .powerDownEntry sub rank => Sys2Proof.Machine.execPowerDownEntry sub rank s
  | .readTimeout sub dpa => Sys2Proof.Machine.execReadTimeout sub dpa s
  | .retireCopyDone entry => Sys2Proof.Machine.execRetireCopyDone entry s
  | .bar4Read offset len => Sys2Proof.Machine.execBar4Read offset len s
  | .bar4Write offset bytes => Sys2Proof.Machine.execBar4Write offset bytes s
  | .imeEnable val => Sys2Proof.Machine.execImeEnable val s
  | .imeInit region => Sys2Proof.Machine.execImeInit region s
  | .imeInitDone region => Sys2Proof.Machine.execImeInitDone region s
  | .imeOff region => Sys2Proof.Machine.execImeOff region s
  | .initRange region => Sys2Proof.Machine.execInitRange region s
  | .initRangeDone region => Sys2Proof.Machine.execInitRangeDone region s
  | .imeRekey region => Sys2Proof.Machine.execImeRekey region s
  | .flush region => Sys2Proof.Machine.execFlush region s
  | .flushDone region => Sys2Proof.Machine.execFlushDone region s
  | .rekeyPage => Sys2Proof.Machine.execRekeyPage s
  | .pageReencryptDone region page => Sys2Proof.Machine.execPageReencryptDone region page s
  | .read val => Sys2Proof.Machine.execRead val s
  | .challenge val => Sys2Proof.Machine.execChallenge val s
  | .programGen val => Sys2Proof.Machine.execProgramGen val s
  | .voidGen val => Sys2Proof.Machine.execVoidGen val s
  | .version val => Sys2Proof.Machine.execVersion val s
  | .provision val => Sys2Proof.Machine.execProvision val s
  | .otpWordProgrammed verified => Sys2Proof.Machine.execOtpWordProgrammed verified s
  | .attest val => Sys2Proof.Machine.execAttest val s
  | .attestDone => Sys2Proof.Machine.execAttestDone s
  | .seal val => Sys2Proof.Machine.execSeal val s
  | .glitchVoltage => Sys2Proof.Machine.execGlitchVoltage s
  | .glitchClock => Sys2Proof.Machine.execGlitchClock s
  | .sealLogWrite inRange => Sys2Proof.Machine.execSealLogWrite inRange s
  | .entropyTestFail => Sys2Proof.Machine.execEntropyTestFail s
  | .drbgReseed => Sys2Proof.Machine.execDrbgReseed s
  | .itoJudged stable => Sys2Proof.Machine.execItoJudged stable s
  | .xoJudged => Sys2Proof.Machine.execXoJudged s
  | .xoJudgeTimeout => Sys2Proof.Machine.execXoJudgeTimeout s
  | .refJudged b => Sys2Proof.Machine.execRefJudged b s
  | .monitorWindowClose monitor countA countB => Sys2Proof.Machine.execMonitorWindowClose monitor countA countB s
  | .lossOfEdges source => Sys2Proof.Machine.execLossOfEdges source s
  | .refWtrExpiry b => Sys2Proof.Machine.execRefWtrExpiry b s
  | .pllLock pll => Sys2Proof.Machine.execPllLock pll s
  | .pllLockTimeout pll => Sys2Proof.Machine.execPllLockTimeout pll s
  | .clkFabPllWrite val => Sys2Proof.Machine.execClkFabPllWrite val s
  | .clkBasePllWrite val => Sys2Proof.Machine.execClkBasePllWrite val s
  | .powerGood bootSel devId testMode => Sys2Proof.Machine.execPowerGood bootSel devId testMode s
  | .dieRampDone die => Sys2Proof.Machine.execDieRampDone die s
  | .dieRampTimeout die => Sys2Proof.Machine.execDieRampTimeout die s
  | .otpResolve => Sys2Proof.Machine.execOtpResolve s
  | .selfCalibration readings badLanes => Sys2Proof.Machine.execSelfCalibration readings badLanes s
  | .hardwareFill => Sys2Proof.Machine.execHardwareFill s
  | .bootLbist basins => Sys2Proof.Machine.execBootLbist basins s
  | .simmer => Sys2Proof.Machine.execSimmer s
  | .simmerDrainDone => Sys2Proof.Machine.execSimmerDrainDone s
  | .simmerDrainTimeout => Sys2Proof.Machine.execSimmerDrainTimeout s
  | .wake => Sys2Proof.Machine.execWake s
  | .laneWakeSignal lane => Sys2Proof.Machine.execLaneWakeSignal lane s
  | .simmerWakeDone => Sys2Proof.Machine.execSimmerWakeDone s
  | .dormant val => Sys2Proof.Machine.execDormant val s
  | .exitEmber => Sys2Proof.Machine.execExitEmber s
  | .lateStagesDone => Sys2Proof.Machine.execLateStagesDone s
  | .warmReset val => Sys2Proof.Machine.execWarmReset val s
  | .warmResetApply => Sys2Proof.Machine.execWarmResetApply s
  | .wakeN => Sys2Proof.Machine.execWakeN s
  | .resetN => Sys2Proof.Machine.execResetN s
  | .mgmtWake pecOk => Sys2Proof.Machine.execMgmtWake pecOk s
  | .mgmtReset confirm pecOk => Sys2Proof.Machine.execMgmtReset confirm pecOk s
  | .mgmtDormant confirm pecOk => Sys2Proof.Machine.execMgmtDormant confirm pecOk s
  | .throttleLimit => Sys2Proof.Machine.execThrottleLimit s
  | .pwrDieReset val => Sys2Proof.Machine.execPwrDieReset val s
  | .dieResetDone die => Sys2Proof.Machine.execDieResetDone die s
  | .housekeepingRound readings => Sys2Proof.Machine.execHousekeepingRound readings s
  | .analogTrip site => Sys2Proof.Machine.execAnalogTrip site s
  | .thmLimitWrite val => Sys2Proof.Machine.execThmLimitWrite val s
  | .rewrite val => Sys2Proof.Machine.execRewrite val s
  | .rewriteDone => Sys2Proof.Machine.execRewriteDone s
  | .eccTrackClr => Sys2Proof.Machine.execEccTrackClr s
  | .lbist val => Sys2Proof.Machine.execLbist val s
  | .lbistDrainDone => Sys2Proof.Machine.execLbistDrainDone s
  | .lbistDrainTimeout => Sys2Proof.Machine.execLbistDrainTimeout s
  | .lbistSaveDone => Sys2Proof.Machine.execLbistSaveDone s
  | .lbistTestDone signatures => Sys2Proof.Machine.execLbistTestDone signatures s
  | .lbistRestoreDone => Sys2Proof.Machine.execLbistRestoreDone s
  | .mbistD2 val => Sys2Proof.Machine.execMbistD2 val s
  | .mbistD2Done fails => Sys2Proof.Machine.execMbistD2Done fails s
  | .flr => Sys2Proof.Machine.execFlr s
  | .pciePerstN => Sys2Proof.Machine.execPciePerstN s
  | .d3hotEntry => Sys2Proof.Machine.execD3hotEntry s
  | .hifApertureWrite val => Sys2Proof.Machine.execHifApertureWrite val s
  | .hdmaCfgWrite ch val => Sys2Proof.Machine.execHdmaCfgWrite ch val s
  | .hdmaTailWrite ch val => Sys2Proof.Machine.execHdmaTailWrite ch val s
  | .descriptorComplete ch ringB desc data hostErr => Sys2Proof.Machine.execDescriptorComplete ch ringB desc data hostErr s
  | .hdmaResume ch => Sys2Proof.Machine.execHdmaResume ch s
  | .hdmaSkip ch => Sys2Proof.Machine.execHdmaSkip ch s
  | .lifelineBufferTimeout desc => Sys2Proof.Machine.execLifelineBufferTimeout desc s
  | .read32 addr pecOk => Sys2Proof.Machine.execRead32 addr pecOk s
  | .write32 addr val pecOk => Sys2Proof.Machine.execWrite32 addr val pecOk s
  | .status pecOk => Sys2Proof.Machine.execStatus pecOk s
  | .uioClkWrite bank val => Sys2Proof.Machine.execUioClkWrite bank val s
  | .clockLoopLock bank => Sys2Proof.Machine.execClockLoopLock bank s
  | .uioPinWrite pin val => Sys2Proof.Machine.execUioPinWrite pin val s
  | .dbgTraceWrite val => Sys2Proof.Machine.execDbgTraceWrite val s
  | .powerRemoval => Sys2Proof.Machine.execPowerRemoval s
  | .resetNRelease => Sys2Proof.Machine.execResetNRelease s
  | .refCheckTimeout => Sys2Proof.Machine.execRefCheckTimeout s
  | .prbsCheckerLock lane symbols => Sys2Proof.Machine.execPrbsCheckerLock lane symbols s
  | .registerRead addr full => Sys2Proof.Machine.execRegisterRead addr full s
  | .d3hotExit => Sys2Proof.Machine.execD3hotExit s
  | .pcieLinkChange speed width => Sys2Proof.Machine.execPcieLinkChange speed width s
  | .jtagInstruction ir => Sys2Proof.Machine.execJtagInstruction ir s

end Sys2Proof.Machine
end

