-- ==== Sys2Proof/Safety.lean ====
section
/-! DEFINITION. What counts as a safe run: claims about runs of the block are stated in these terms. -/

namespace Sys2Proof.Machine

/-- The commands of a list have run from `s`, one step each, to `t`, with neither a fault nor a refusal. -/
def runs (s : State) (cs : List Instr) (t : State) : Prop :=
  Host.Core.run Sys2Proof.core cs.length { s with pending := cs } = .next t

/-- A step stops at a clock ratio that the spec gives no effect (R415, log entry 16). -/
def clockFaults (s : State) : Prop := step s = .fault .undefinedClock

-- Frames: what a command leaves unchanged

/-- Nothing but registers differs. -/
def onlyRegs (s t : State) : Prop := { t with regs := s.regs } = s

/-- Nothing differs but registers, the messages sent and the host interface's own record: what an interrupt or a claim touches. -/
def onlyHost (s t : State) : Prop := { t with regs := s.regs, outbox := s.outbox, hst := s.hst } = s

/-- Nothing but the fabric differs. -/
def onlyFab (s t : State) : Prop := { t with fab := s.fab } = s

/-- Every register but those of the list reads as before. -/
def regsBut (l : List Nat) (s t : State) : Prop := ∀ a, a ∉ l → rd t a = rd s a

/-- The pages whose registers the flow of items touches on its way: ECC, SLU, SLU_X, DBG (a full trace), BANK, the quads, the Enrus ports. -/
def workPage (p : Nat) : Bool :=
  p = 0xA || p = 0xB || p = 0xC || p = 0x10 || p = 0x18 || (0x20 ≤ p && p < 0x44) || (0x50 ≤ p && p < 0x58)

/-- Nothing differs but what the flow of items touches: Sluice, the lanes, Enrus, the memory die, error logging, messages and interrupts
sent, and the registers of their pages. The fabric, the configuration controller, the DRAM, the IME, the root of trust, the clocks, the
mode, the sensors, the time base, claims and staged writes stay. -/
def onlyWork (s t : State) : Prop :=
  { t with free := s.free, outbox := s.outbox, regs := s.regs, slu := s.slu, lan := s.lan, enr := s.enr, mem := s.mem, ecc := s.ecc,
           hst := { t.hst with msixPend := s.hst.msixPend } } = s
    ∧ ∀ a, workPage (a / 0x1000) = false → rd t a = rd s a

/-- Nothing differs but what the work of one basin touches: what the flow of items touches (`onlyWork`), the registers of its page, its
items and ports, and the row ports of the fabric. -/
def workOn (n : Nat) (s t : State) : Prop :=
  { t with free := s.free, outbox := s.outbox, regs := s.regs, fab := s.fab, slu := s.slu, lan := s.lan, enr := s.enr, mem := s.mem,
           ecc := s.ecc, hst := { t.hst with msixPend := s.hst.msixPend } } = s
    ∧ (∀ a, workPage (a / 0x1000) = false → a / 0x1000 ≠ pgBSN n → rd t a = rd s a)
    ∧ { t.fab with basins := s.fab.basins, rows := s.fab.rows, seq := s.fab.seq } = s.fab
    ∧ (∀ k, k ≠ n → basinOf t k = basinOf s k) ∧ ∀ k r, k ≠ n → r < 4 → rowPort t k r = rowPort s k r

/-- Settling back-pressure enters nothing: no segment is held, no partner is back-pressured, enabled or has a watermark. -/
def bpStill (s : State) : Prop :=
  s.lan.held = [] ∧ s.slu.bpTold = [] ∧ s.slu.bpPartner = [] ∧ ∀ q ∈ s.slu.partners, bit q.2 30 = false ∧ fld q.2 32 12 = 0

/-- Nothing of a stream waits to be done after a command: no broadcast runs, no boot source has failed, and no slot waits for ENG_0. -/
def streamStill (s : State) : Prop :=
  (∀ b, s.enr.bcast = some b → b.started = false) ∧ ∀ b, s.cfc.boot = some b → b.failed = none ∧ (b.begun = true ∨ 2 ≤ b.cur)

/-- Nothing differs but what sending on the Enrus link touches: the ports, their place in the marker period, the blocks sent. -/
def onlySent (s t : State) : Prop :=
  { t with outbox := s.outbox, lan := { t.lan with txNext := s.lan.txNext }, enr := { t.enr with ports := s.enr.ports } } = s

/-- No stream is being taken from the fleet's broadcast, so that a lost port ends none. -/
def noBcastStream (s : State) : Prop := s.cfc.eng0.st = .idle ∨ s.cfc.eng0.src ≠ 3

/-- The flit payloads of a virtual channel of an Enrus port that have been given to it and are not yet acknowledged: sent and kept, or waiting. -/
def pendingFlits (e : EnrPort) (v : Nat) : List (List Byte) :=
  (e.kept.filter fun k => decide (k.vc = v)).map (fun k => k.payload) ++ (chan e v).txq

/-- Every stored bit of the fabric, the memory die, the DRAM and the OTP is as before: planes, frame planes, state banks, X, Y, flags,
rows, lines, words. -/
def storesKept (s t : State) : Prop :=
  t.fab.planes = s.fab.planes ∧ t.fab.frames = s.fab.frames ∧ t.fab.banks = s.fab.banks ∧ t.fab.xs = s.fab.xs ∧ t.fab.ys = s.fab.ys
    ∧ t.fab.flags = s.fab.flags ∧ t.mem.rows = s.mem.rows ∧ t.drm.words = s.drm.words ∧ t.sec.otp = s.sec.otp

-- Modes

/-- The device has entered EMBER (R437) with the given cause: DEV_READY is low, every basin in DEEP, every bank that is not RETIRED and
has no request waiting in retention, the DRAM in self-refresh or OFF; planes, DRAM words and the root of trust are as before. -/
def inEmber (cause : Nat) (s t : State) : Prop :=
  modeOf t = mEMBER ∧ rdF t modeStatA 16 16 = cause ∧ rdB t 0x040 0 = false ∧ rdB t (irqA pgMODE) 1 = true ∧ t.mod.step = .none
    ∧ (∀ n, n < 34 → (basinOf t n).power = .deep) ∧ (∀ n, n < 128 → (bankOf t n).typ ≠ 15 → bankAwake t n = false
        ∧ (s.lan.held = [] → bankPending s n = false → (bankOf t n).ret = true))
    ∧ drcState t = (if drcState s = dREADY then dSR else if drcState s = dINIT ∨ drcState s = dTRAIN ∨ drcState s = dFILL then dOFF else drcState s)
    ∧ t.fab.planes = s.fab.planes ∧ t.fab.frames = s.fab.frames ∧ t.drm.words = s.drm.words ∧ t.sec = s.sec

/-- The device is in DORMANT (R439): the OTP, the boot store, the straps and the always-on registers and the settings of the IME regions (R379) stay, everything else is as at reset. -/
def inDormant (s t : State) : Prop :=
  modeOf t = mDORMANT ∧ stepOf t = 0 ∧ rdB t 0x040 0 = false ∧ rdF t dieStatA 0 4 = 0 ∧ srcOf t = 0
    ∧ (∀ a, aonRegs.contains a = false → imeSetup a = false → rd t a = rd State.reset a)
    ∧ t.fab = State.reset.fab ∧ t.slu = State.reset.slu ∧ t.mem = State.reset.mem ∧ t.drm = State.reset.drm ∧ t.ime = State.reset.ime
    ∧ t.lan = State.reset.lan ∧ t.enr = State.reset.enr ∧ t.sec.otp = s.sec.otp ∧ t.sec.seeded = false ∧ t.sec.job = none
    ∧ t.cfc.blocks = s.cfc.blocks ∧ t.mod.step = .none ∧ t.mod.power = s.mod.power

/-- The stores of the memory die, the DRAM and the OTP are in canonical form: keys strictly rising, and no word that an unlisted key reads as. -/
def storesWf (s : State) : Prop := twf 0 s.mem.rows = true ∧ twf 0 s.drm.words = true ∧ twf 0 s.sec.otp = true

-- One instruction of a word engine (R62 to R95)

/-- The instruction of an opcode as a command. -/
def weInstr (op : WeOp) (a : CrystalAddr) (f : WeFields) : Instr :=
  match op with
  | .nop => .nop a f
  | .pass => .pass a f
  | .add => .add a f
  | .addc => .addc a f
  | .sub => .sub a f
  | .subb => .subb a f
  | .acc => .acc a f
  | .and => .and a f
  | .or => .or a f
  | .xor => .xor a f
  | .andn => .andn a f
  | .shl => .shl a f
  | .shr => .shr a f
  | .sar => .sar a f
  | .rol => .rol a f
  | .cmpeq => .cmpeq a f
  | .cmpltu => .cmpltu a f
  | .cmplts => .cmplts a f
  | .minu => .minu a f
  | .mins => .mins a f
  | .maxu => .maxu a f
  | .maxs => .maxs a f
  | .popcnt => .popcnt a f
  | .clz => .clz a f
  | .bswap => .bswap a f
  | .extr => .extr a f
  | .ins => .ins a f
  | .sel => .sel a f
  | .mul32u => .mul32u a f
  | .mul32s => .mul32s a f
  | .crc => .crc a f
  | .hmix => .hmix a f
  | .ldr => .ldr a f
  | .str => .str a f
  | .fence => .fence a f

/-- The key of a crystal in the fabric's tables. -/
def weKey (a : CrystalAddr) : Nat := xk a.basin a.addr.toNat

/-- The context whose instruction a crystal runs in the present cycle: none in a quiet cycle and under test. -/
def weCtx (s : State) (a : CrystalAddr) : Option Nat :=
  if (planOf s a.basin a.addr.toNat).quiet || underTest s a.basin then none else (planOf s a.basin a.addr.toNat).ctx

/-- What the instruction sees (R62, R69). -/
def weEnv (s : State) (a : CrystalAddr) (c : Nat) : WeEnv := envOf s a.basin (plansOf s a.basin) UioIn.quiet a.addr.toNat c

/-- Operand A of an instruction (R62). -/
def weA (s : State) (a : CrystalAddr) (c : Nat) (f : WeFields) : Word := operandValue (weEnv s a c) f.imm8 f.srcA
/-- Operand B (R62). -/
def weB (s : State) (a : CrystalAddr) (c : Nat) (f : WeFields) : Word := operandValue (weEnv s a c) f.imm8 f.srcB

/-- The flags of a context of a crystal, as its flag codeword reads (R67). -/
def weFlagsOf (s : State) (a : CrystalAddr) (c : Nat) : WeFlags := ctxFlags (decode72 (flCode s (weKey a))).data c

/-- An instruction starts: the crystal runs context `c`, and no fault condition of R95 holds. -/
def weStarts (op : WeOp) (a : CrystalAddr) (f : WeFields) (c : Nat) (s : State) : Prop :=
  weCtx s a = some c
    ∧ weFault (some op) f (weEnv s a c).rowPort (weEnv s a c).anyPort (weEnv s a c).xLock (weEnv s a c).yLock = none

/-- The condition of an instruction (R72). -/
def weCond (s : State) (a : CrystalAddr) (c : Nat) (f : WeFields) : Bool :=
  condHolds f.cond (weFlagsOf s a c) (weEnv s a c).p0 (weEnv s a c).p1

/-- An instruction starts and its condition holds (R73). -/
def weRuns (op : WeOp) (a : CrystalAddr) (f : WeFields) (c : Nat) (s : State) : Prop :=
  weStarts op a f c s ∧ weCond s a c f = true

/-- No multiply completes in this cycle onto what the instruction writes (R87). -/
def weFree (a : CrystalAddr) (f : WeFields) (c : Nat) (s : State) : Prop :=
  collides f.dst (BitVec.ofNat 4 c) (doneMul (crystalOf s (weKey a))) = false

/-- What an instruction of a crystal leaves alone: everything but the OUT and the multiplies of its crystal, X, Y and the flag codeword of
its crystal, its row port's stage and its port's fences. -/
def weFrame (a : CrystalAddr) (s t : State) : Prop :=
  onlyFab s t
    ∧ { t.fab with crystals := s.fab.crystals, xs := s.fab.xs, ys := s.fab.ys, flags := s.fab.flags, rows := s.fab.rows,
                   fences := s.fab.fences } = s.fab
    ∧ (∀ k, k ≠ weKey a → crystalOf t k = crystalOf s k ∧ flCode t k = flCode s k)
    ∧ { crystalOf t (weKey a) with out := (crystalOf s (weKey a)).out, muls := (crystalOf s (weKey a)).muls } = crystalOf s (weKey a)

/-- An instruction of context `c` has written the result `r` with C and V (none: the flag is not written): the destination of DST has it,
Z and N follow it, a flag that is not written or held keeps its value (R71, R76, R77), and nothing else changes. -/
def weDone (a : CrystalAddr) (f : WeFields) (c : Nat) (s t : State) (r : Word) (cy ov : Option Bool) : Prop :=
  (crystalOf t (weKey a)).out = (if f.dst = 0 ∨ f.dst = 3 then r else (crystalOf s (weKey a)).out)
    ∧ (crystalOf t (weKey a)).muls = (crystalOf s (weKey a)).muls
    ∧ (∀ k d, d < 16 → xCode t k d = if k = weKey a ∧ d = c ∧ (f.dst = 1 ∨ f.dst = 3) then encCode r else xCode s k d)
    ∧ (∀ k d, d < 16 → yCode t k d = if k = weKey a ∧ d = c ∧ f.dst = 2 then encCode r else yCode s k d)
    ∧ weFlagsOf t a c = ⟨if (weEnv s a c).hold.testBit 0 then (weFlagsOf s a c).z else decide (r = 0),
        if (weEnv s a c).hold.testBit 1 then (weFlagsOf s a c).n else r.msb,
        if (weEnv s a c).hold.testBit 2 then (weFlagsOf s a c).c else cy.getD (weFlagsOf s a c).c,
        if (weEnv s a c).hold.testBit 3 then (weFlagsOf s a c).v else ov.getD (weFlagsOf s a c).v⟩
    ∧ (∀ d, d < 16 → d ≠ c → weFlagsOf t a d = weFlagsOf s a d)
    ∧ t.fab.rows = s.fab.rows ∧ t.fab.fences = s.fab.fences ∧ weFrame a s t

end Sys2Proof.Machine
end

