-- ==== Sys2Proof/WellFormed.lean ====
section
/-! DEFINITION. The well-formed commands: every operand within the range that the spec gives it. Operands of a fixed width need no check. -/

namespace Sys2Proof

open Sys2Proof.Machine

/-- A physical basin (R28). -/
def basinOk (n : Nat) : Bool := n < 34
/-- A crystal of the device (R30). -/
def crystalOk (x : CrystalAddr) : Bool := basinOk x.basin
/-- A lane (R217). -/
def laneOk (l : Nat) : Bool := l < 144
/-- An Enrus port (R259). -/
def portOk (p : Nat) : Bool := p < 7
/-- An implemented page of BAR 0 (R490). -/
def pageOk (p : Nat) : Bool := pageType p ≠ 0
/-- A DWORD of BAR 0, which is 16 MiB (R13, R484). -/
def addrOk (a : Nat) : Bool := a % 4 = 0 && a < 0x1000000
/-- A DWORD of a table window (R176, R491). -/
def windowOk (a : Nat) : Bool := addrOk a && 0x100000 ≤ a

/-- Every operand of a command lies within its range. -/
def Instr.wf : Instr → Bool
  | .registerWrite addr _ _ => addrOk addr
  | .stagedWrite addr _ => addrOk addr
  | .sysUpdate _ => true
  | .stagedUpdateApply => true
  | .irqStatWrite page _ => pageOk page
  | .msixUnmask _ => true
  | .sysNmaWrite _ _ => true
  | .clrFault page => pageOk page
  | .clrDropped page => pageOk page
  | .freeze page _ => pageOk page
  | .softReset page => pageOk page
  | .enable page _ => pageOk page
  | .clkEnWrite page _ => pageOk page
  | .gateClose page => pageOk page
  | .gateForced page => pageOk page
  | .gateOpen page => pageOk page
  | .crystalCycle basin _ _ => basinOk basin
  | .nop x _ => crystalOk x
  | .pass x _ => crystalOk x
  | .add x _ => crystalOk x
  | .addc x _ => crystalOk x
  | .sub x _ => crystalOk x
  | .subb x _ => crystalOk x
  | .acc x _ => crystalOk x
  | .and x _ => crystalOk x
  | .or x _ => crystalOk x
  | .xor x _ => crystalOk x
  | .andn x _ => crystalOk x
  | .shl x _ => crystalOk x
  | .shr x _ => crystalOk x
  | .sar x _ => crystalOk x
  | .rol x _ => crystalOk x
  | .cmpeq x _ => crystalOk x
  | .cmpltu x _ => crystalOk x
  | .cmplts x _ => crystalOk x
  | .minu x _ => crystalOk x
  | .mins x _ => crystalOk x
  | .maxu x _ => crystalOk x
  | .maxs x _ => crystalOk x
  | .popcnt x _ => crystalOk x
  | .clz x _ => crystalOk x
  | .bswap x _ => crystalOk x
  | .extr x _ => crystalOk x
  | .ins x _ => crystalOk x
  | .sel x _ => crystalOk x
  | .mul32u x _ => crystalOk x
  | .mul32s x _ => crystalOk x
  | .crc x _ => crystalOk x
  | .hmix x _ => crystalOk x
  | .ldr x _ => crystalOk x
  | .str x _ => crystalOk x
  | .fence x _ => crystalOk x
  | .mulCompletion x => crystalOk x
  | .fenceComplete basin port => basinOk basin && port < 8
  | .bsnModeWrite basin _ => basinOk basin
  | .bsnSwBudgetWrite basin _ => basinOk basin
  | .clear basin _ _ => basinOk basin
  | .planeClearDone basin => basinOk basin
  | .budgetLimitReached basin => basinOk basin
  | .budgetWindowEnd basin => basinOk basin
  | .dozeEntry basin => basinOk basin
  | .deepEntry basin => basinOk basin
  | .deepExit basin => basinOk basin
  | .basinWakeDone basin => basinOk basin
  | .cfgBasinMapWrite _ _ => true
  | .basinStorageClearDone basin => basinOk basin
  | .descriptorBeatDelivery basin port => basinOk basin && port < 2
  | .descriptorBeatAccept basin port => basinOk basin && port < 2
  | .readRow basin row => basinOk basin && row < 4
  | .writeRow basin row => basinOk basin && row < 4
  | .farRead basin row => basinOk basin && row < 4
  | .farWrite basin row => basinOk basin && row < 4
  | .readRowComplete basin row index => basinOk basin && row < 4 && index < 4
  | .writeRowComplete basin row index => basinOk basin && row < 4 && index < 4
  | .farReadLine basin row index => basinOk basin && row < 4 && index < 4
  | .farWriteComplete basin row index => basinOk basin && row < 4 && index < 4
  | .outletDescriptor basin port => basinOk basin && port < 2
  | .outletPayload basin port => basinOk basin && port < 2
  | .commit basin port => basinOk basin && port < 2
  | .abort basin port => basinOk basin && port < 2
  | .commitPoint basin _ => basinOk basin
  | .abortPoint basin _ => basinOk basin
  | .tableLowerWrite addr _ => windowOk addr
  | .tableUpperWrite addr _ => windowOk addr
  | .tableLowerRead addr => windowOk addr
  | .tableUpperRead addr => windowOk addr
  | .itemArrival _ _ _ _ _ _ _ => true
  | .dispatch _ => true
  | .delayExpiry _ => true
  | .matchTimeout _ _ => true
  | .serviceTimeout _ => true
  | .drainTimeout _ => true
  | .stagedOutputDiscard basin => basinOk basin
  | .failoverReissue basin => basinOk basin
  | .sluOfflineWrite _ => true
  | .sluCtrlWrite _ => true
  | .tick => true
  | .flowReset _ => true
  | .flowResetDone _ => true
  | .quarantine _ => true
  | .ringTailWrite ring _ => ring < 6
  | .windowClose _ => true
  | .quadCfgWrite quad _ => quad < 36
  | .laneCtrlWrite lane _ => laneOk lane
  | .dwellExpiry lane => laneOk lane
  | .laneLock lane => laneOk lane
  | .lockLost lane _ => laneOk lane
  | .polarityTest lane _ => laneOk lane
  | .markerReceive lane _ _ _ => laneOk lane
  | .frameReceive lane _ _ _ _ _ => laneOk lane
  | .segmentFlush lane _ => laneOk lane
  | .egressSend lane => laneOk lane
  | .berWindowClose lane => laneOk lane
  | .forceProtect lane => laneOk lane
  | .forceWorking lane => laneOk lane
  | .switchBlockReceive lane _ => laneOk lane
  | .wtrExpiry lane => laneOk lane
  | .laneProtWrite lane _ => laneOk lane
  | .lifelineBlockReceive lane _ _ _ => laneOk lane
  | .lifelineRecordSend => true
  | .enrCtrlWrite port _ => portOk port
  | .retrain port => portOk port
  | .rekey port => portOk port
  | .trainTimeout port => portOk port
  | .handshakeTimeout port => portOk port
  | .idle port _ => portOk port
  | .data port _ => portOk port
  | .nak port _ => portOk port
  | .hello port _ => portOk port
  | .keyshare port _ => portOk port
  | .finished port _ => portOk port
  | .retryTimer port => portOk port
  | .widthBlockReceive port _ => portOk port
  | .rekeyTrigger port => portOk port
  | .nonceEnd port => portOk port
  | .dispatchMsg port => portOk port
  | .arrive port => portOk port
  | .output port => portOk port
  | .endMsg port => portOk port
  | .creditReport port => portOk port
  | .creditReportSend => true
  | .faultNotice port => portOk port
  | .noticeAck port => portOk port
  | .timeSync port => portOk port
  | .timeSyncSend => true
  | .delayReq port => portOk port
  | .delayReqSend port => portOk port
  | .delayResp port => portOk port
  | .keyUpdate port => portOk port
  | .cfgData port => portOk port
  | .cfgEnd port => portOk port
  | .broadcastStart => true
  | .engStart _ _ => true
  | .engEnd _ => true
  | .engAbort _ => true
  | .irpDataWrite _ => true
  | .irpMasterWrite _ => true
  | .streamHeader _ => true
  | .planeSection _ => true
  | .frameSection _ => true
  | .regSection _ => true
  | .storeImageSection _ => true
  | .trailer _ => true
  | .signatureVerified _ => true
  | .streamStall _ => true
  | .bootLoad => true
  | .releaseLockTimeout => true
  | .releasePhase => true
  | .handover _ _ => true
  | .handoverDone _ => true
  | .drainWrite _ _ => true
  | .retentionEntry _ => true
  | .bankRetWrite _ _ => true
  | .bankWakeDone _ => true
  | .bar2Read _ _ => true
  | .bar2Write _ _ => true
  | .mbistStart _ => true
  | .mbistDone _ => true
  | .spareRow _ _ _ => true
  | .spareColumn _ _ _ => true
  | .repairClearDone _ => true
  | .patrolSweep _ _ => true
  | .init => true
  | .dramInitDone => true
  | .fill => true
  | .fillDone => true
  | .resume => true
  | .resilver => true
  | .resilverDone => true
  | .mrw _ _ => true
  | .mrr _ _ _ => true
  | .mpc _ _ => true
  | .compareBurst _ _ => true
  | .compareBurstDone _ beats => beats.length ≤ 2 ^ 28
  | .dramRead _ _ => true
  | .dramWrite _ _ _ _ => true
  | .refresh _ _ _ => true
  | .mr4Poll _ _ _ => true
  | .zqCalibration => true
  | .dqsOscRead _ _ => true
  | .powerDownEntry _ _ => true
  | .readTimeout _ _ => true
  | .retireCopyDone _ => true
  | .bar4Read _ _ => true
  | .bar4Write _ _ => true
  | .imeEnable _ => true
  | .imeInit _ => true
  | .imeInitDone _ => true
  | .imeOff _ => true
  | .initRange _ => true
  | .initRangeDone _ => true
  | .imeRekey _ => true
  | .flush _ => true
  | .flushDone _ => true
  | .rekeyPage => true
  | .pageReencryptDone _ _ => true
  | .read _ => true
  | .challenge _ => true
  | .programGen _ => true
  | .voidGen _ => true
  | .version _ => true
  | .provision _ => true
  | .otpWordProgrammed _ => true
  | .attest _ => true
  | .attestDone => true
  | .seal _ => true
  | .glitchVoltage => true
  | .glitchClock => true
  | .sealLogWrite _ => true
  | .entropyTestFail => true
  | .drbgReseed => true
  | .itoJudged _ => true
  | .xoJudged => true
  | .xoJudgeTimeout => true
  | .refJudged _ => true
  | .monitorWindowClose _ _ _ => true
  | .lossOfEdges _ => true
  | .refWtrExpiry _ => true
  | .pllLock pll => pll < 3
  | .pllLockTimeout pll => pll < 3
  | .clkFabPllWrite _ => true
  | .clkBasePllWrite _ => true
  | .powerGood _ _ _ => true
  | .dieRampDone die => 1 ≤ die && die < 5
  | .dieRampTimeout die => 1 ≤ die && die < 5
  | .otpResolve => true
  | .selfCalibration readings badLanes => readings.length = 96 && badLanes.all laneOk
  | .hardwareFill => true
  | .bootLbist _ => true
  | .simmer => true
  | .simmerDrainDone => true
  | .simmerDrainTimeout => true
  | .wake => true
  | .laneWakeSignal lane => laneOk lane
  | .simmerWakeDone => true
  | .dormant _ => true
  | .exitEmber => true
  | .lateStagesDone => true
  | .warmReset _ => true
  | .warmResetApply => true
  | .wakeN => true
  | .resetN => true
  | .mgmtWake _ => true
  | .mgmtReset _ _ => true
  | .mgmtDormant _ _ => true
  | .throttleLimit => true
  | .pwrDieReset _ => true
  | .dieResetDone die => 1 ≤ die && die < 5
  | .housekeepingRound readings => readings.length = 96
  | .analogTrip site => site < 52
  | .thmLimitWrite _ => true
  | .rewrite _ => true
  | .rewriteDone => true
  | .eccTrackClr => true
  | .lbist _ => true
  | .lbistDrainDone => true
  | .lbistDrainTimeout => true
  | .lbistSaveDone => true
  | .lbistTestDone _ => true
  | .lbistRestoreDone => true
  | .mbistD2 _ => true
  | .mbistD2Done _ => true
  | .flr => true
  | .pciePerstN => true
  | .d3hotEntry => true
  | .hifApertureWrite _ => true
  | .hdmaCfgWrite _ _ => true
  | .hdmaTailWrite _ _ => true
  | .descriptorComplete _ _ _ _ _ => true
  | .hdmaResume _ => true
  | .hdmaSkip _ => true
  | .lifelineBufferTimeout _ => true
  | .read32 addr _ => addrOk addr
  | .write32 addr _ _ => addrOk addr
  | .status _ => true
  | .uioClkWrite _ _ => true
  | .clockLoopLock _ => true
  | .uioPinWrite pin _ => pin < 96
  | .dbgTraceWrite _ => true
  | .powerRemoval => true
  | .resetNRelease => true
  | .refCheckTimeout => true
  | .prbsCheckerLock lane _ => laneOk lane
  | .registerRead addr _ => addrOk addr
  | .d3hotExit => true
  | .pcieLinkChange _ _ => true
  | .jtagInstruction _ => true

end Sys2Proof
end

