-- ==== Sys2Proof/Certificates/Slice0/Obligations.lean ====
section
/-! DEFINITION. The statements for the provers. `next t` in a conclusion is the state that the command's own effect leaves. -/

open Sys2Proof Sys2Proof.Machine

/-- A step takes the front command and runs it with the rest of the queue; with none waiting the block idles (log entry 1). -/
def Obligations.StepRunsFrontCommand : Prop :=
  (∀ (c : Instr) (rest : List Instr) (s : State), step { s with pending := c :: rest } = exec c { s with pending := rest })
    ∧ ∀ s : State, s.pending = [] → step s = .next s

/-- Reset: no command waits, every register reads its reset value, every store is empty, no block is held, and the mode is BRINGUP with STEP 0
(R442); the values that the spec does not give are the model's (log entries 2, 12, 14). The stores are in canonical form after reset, where
every word of them reads 0. -/
def Obligations.ResetStateAndStores : Prop :=
  (State.reset.pending = [] ∧ (∀ a, rd State.reset a = regReset a) ∧ modeOf State.reset = mBRINGUP ∧ rdF State.reset 0x1040 4 4 = 0
    ∧ State.reset.outbox = [] ∧ State.reset.mem.rows = [] ∧ State.reset.drm.words = [] ∧ State.reset.ecc.rings = []
    ∧ State.reset.hst.holders = [] ∧ State.reset.hst.staged = [] ∧ State.reset.slu.flows = []
    ∧ ∀ l, (laneOf State.reset l).state = .disabled)
    ∧ (storesWf State.reset ∧ (∀ b r w, rowCode State.reset b r w = 0) ∧ (∀ k c, dramWord State.reset k c = 0) ∧ ∀ w, otpBlank State.reset w = true)

/-- No command is refused, and only a write of a clock setting can stop with a fault: REGISTER_WRITE, WRITE32, CLK_FAB_PLL_WRITE,
CLK_BASE_PLL_WRITE, UIO_CLK_WRITE, INIT, SIGNATURE_VERIFIED and DESCRIPTOR_COMPLETE (R6, R415; log entry 16); every other command completes
in every state, and these do where they break no clock ratio that held. -/
def Obligations.OnlyClockSettingsStop : Prop :=
  (∀ (c : Instr) (s : State) (r : Refusal), exec c s ≠ .refused r)
    ∧ (∀ (c : Instr) (s : State) (f : Fault), exec c s = .fault f →
        (∃ a v b, c = .registerWrite a v b) ∨ (∃ a v b, c = .write32 a v b) ∨ (∃ v, c = .clkFabPllWrite v) ∨ (∃ v, c = .clkBasePllWrite v)
          ∨ (∃ b v, c = .uioClkWrite b v) ∨ c = .init ∨ (∃ e, c = .signatureVerified e)
          ∨ ∃ ch b d l h, c = .descriptorComplete ch b d l h)
    ∧ (∀ (c : Instr) (s : State), (∀ a v b, c ≠ .registerWrite a v b) → (∀ a v b, c ≠ .write32 a v b) → (∀ v, c ≠ .clkFabPllWrite v) →
        (∀ v, c ≠ .clkBasePllWrite v) → (∀ b v, c ≠ .uioClkWrite b v) → c ≠ .init → (∀ e, c ≠ .signatureVerified e) →
        (∀ ch b d l h, c ≠ .descriptorComplete ch b d l h) → ∃ t, exec c s = .next t)
    ∧ ∀ s : State,
      (∀ a v, s.hst.d3 = false → (clockOk s = true → clockOk (busWrite a v s) = true) → exec (.registerWrite a v true) s = .next (busWrite a v s))
        ∧ (∀ a v b, pecAccepted b s = true → mailboxOnly s = false → (clockOk s = true → clockOk (mgmtWrite a v s) = true) →
          exec (.write32 a v b) s = .next (mgmtWrite a v s))
        ∧ (∀ v, (clockOk s = true → clockOk (clkFabPllWrite v s) = true) → exec (.clkFabPllWrite v) s = .next (clkFabPllWrite v s))
        ∧ (∀ v, (clockOk s = true → clockOk (clkBasePllWrite v s) = true) → exec (.clkBasePllWrite v) s = .next (clkBasePllWrite v s))
        ∧ (∀ b v, (clockOk s = true → clockOk (uioClkWrite b.toNat v s) = true) → exec (.uioClkWrite b v) s = .next (uioClkWrite b.toNat v s))
        ∧ ((clockOk s = true → clockOk (drcInit s) = true) → exec .init s = .next (drcInit s))
        ∧ (∀ e, (clockOk s = true → clockOk (streamAfter (takeSignature e s)) = true) →
          exec (.signatureVerified e) s = .next (streamAfter (takeSignature e s)))
        ∧ ∀ ch b d l h, hdmaActive s ch.toNat = true → ringWaiting s ch.toNat b = true → (b = true → ch = 15) →
          (let t := if b then dmaRingB d false h s else dmaRingA ch.toNat d l h s;
            (clockOk s = true → clockOk t = true) → exec (.descriptorComplete ch b d l h) s = .next t)

/-- CLR_FAULT, CLR_DROPPED and FREEZE of a page that writes reach: the bits of STAT, ERR_CAUSE, and the snapshot (R487, R488); every other
register and every other part of the state stays. IRQ_STAT_WRITE clears the bits written 1, and a summary that stays 1 sends its message
again or is held pending (R486); MSIX_UNMASK unmasks the vector and sends what its summary asks for. -/
def Obligations.PageHeaderAndInterrupts : Prop :=
  (∀ (p : Nat) (s : State), pageType p ≠ 0 → reaches s p = true →
    (∃ t, exec (.clrFault p) s = .next t ∧ rdF t (statA p) 2 2 = 0 ∧ rd t (errA p) = 0
        ∧ (∀ i, i < 32 → i ≠ 2 → i ≠ 3 → rdB t (statA p) i = rdB s (statA p) i) ∧ regsBut [statA p, errA p] s t ∧ onlyRegs s t)
      ∧ (∃ t, exec (.clrDropped p) s = .next t ∧ rdB t (statA p) 4 = false
        ∧ (∀ i, i < 32 → i ≠ 4 → rdB t (statA p) i = rdB s (statA p) i) ∧ regsBut [statA p] s t ∧ onlyRegs s t)
      ∧ ∀ on, ∃ t, exec (.freeze p on) s = .next t ∧ rdB t (statA p) 5 = on
        ∧ (∀ i, i < 32 → i ≠ 5 → rdB t (statA p) i = rdB s (statA p) i) ∧ regsBut [statA p] s t ∧ onlyHost s t ∧ t.outbox = s.outbox
        ∧ (on = true → rdB s (statA p) 5 = false → ∀ a ∈ statusRegs p, tget none a t.hst.frozen = some (liveReg (wrF (statA p) 5 1 1 s) a))
        ∧ (on = false → rdB s (statA p) 5 = true → ∀ a, a / 0x1000 = p → tget none a t.hst.frozen = none))
    ∧ ((∀ (p : Nat) (v : Reg) (s : State), pageType p ≠ 0 → reaches s p = true → p ≠ pgHDMA →
    ∃ t, exec (.irqStatWrite p v) s = .next t ∧ rdF t (irqA p) 0 16 = rdF s (irqA p) 0 16 &&& (65535 - fld v 0 16)
      ∧ regsBut [irqA p] s t ∧ onlyHost s t
      ∧ (vectorSummary t (pageVector p) = true → bit s.hst.msixMask (pageVector p) = false → t.outbox = .msix (pageVector p) :: s.outbox)
      ∧ (vectorSummary t (pageVector p) = false → t.outbox = s.outbox ∧ t.hst = s.hst))
    ∧ ∀ (v : BitVec 6) (s : State), reaches s pgHIF = true → gated s pgHIF = false →
      ∃ t, exec (.msixUnmask v) s = .next t ∧ bit t.hst.msixMask v.toNat = false ∧ bit t.hst.msixPend v.toNat = false ∧ t.regs = s.regs
        ∧ (∀ i, i < 64 → i ≠ v.toNat → bit t.hst.msixMask i = bit s.hst.msixMask i)
        ∧ t.outbox = (if bit s.hst.msixMask v.toNat && vectorSummary s v.toNat then [Out.msix v.toNat] else []) ++ s.outbox ∧ onlyHost s t)

/-- SYS_NMA_WRITE clears the alert's record and keeps an alert of the same cycle (R498); ENABLE gives a free resource to the page that claims
it, leaves a held one and records the conflict (R496, R497). -/
def Obligations.AlertAndClaims : Prop :=
  (∀ (v : Reg) (s : State), reaches s pgSYS = true → gated s pgSYS = false → bit v 31 = true →
    (∃ t, exec (.sysNmaWrite v none) s = .next t ∧ rd t 0x054 = 0 ∧ regsBut [0x054] s t ∧ onlyRegs s t)
      ∧ ∀ c, ∃ t, exec (.sysNmaWrite v (some c)) s = .next t ∧ rd t 0x054 = BitVec.ofNat 32 (2 ^ 31 + c.toNat)
        ∧ t.outbox = .msix 0 :: s.outbox ∧ regsBut [0x054] s t ∧ onlyHost s t)
    ∧ ∀ (p : Nat) (r : BitVec 16) (s : State), pageType p ≠ 0 → resourceOk r.toNat = true →
      ∃ t, exec (.enable p r) s = .next t ∧ onlyHost s t
        ∧ (holderOf s r.toNat = none → holderOf t r.toNat = some p ∧ t.regs = s.regs)
        ∧ (∀ h, holderOf s r.toNat = some h → t.hst.holders = s.hst.holders)
        ∧ (∀ h, holderOf s r.toNat = some h → h ≠ p → rd t (errA p) = 0x0F03 ∧ rdB t (statA p) 3 = true
            ∧ rdB t (irqA pgSYS) 0 = true)

/-- Staged writes (R183, R494, R495): STAGED_WRITE buffers UIO_OWNER or a half of a word of the group table and marks STAGED, SYS_UPDATE notes
the groups asked for, and STAGED_UPDATE_APPLY gives every page of those groups its buffered owner and every group-table word of them its
copy, keeps the others', leaves no request and reports UPDATE_DONE. Gates (R421 to R424): an idle interface or the timeout closes the gate
of a block whose clock is not enabled, an enabled clock opens it; a write of CLK_EN follows its mask, but a block that always runs and a
basin that is not HALTED keep RUN_EN, and a basin whose RUN_EN ends goes to DOZE. -/
def Obligations.StagedUpdatesAndGates : Prop :=
  ((∀ (k : Nat) (v : Reg) (s : State), k < 4 → reaches s (pgUIO k) = true → gated s (pgUIO k) = false →
    ∃ t, exec (.stagedWrite (uioOwnerA k) v) s = .next t ∧ tget none (uioOwnerA k) t.hst.staged = some (v &&& 0x8000001F)
      ∧ rdB t (statA (pgUIO k)) 1 = true ∧ regsBut [statA (pgUIO k)] s t ∧ onlyHost s t ∧ t.outbox = s.outbox)
    ∧ (∀ (a : Nat) (v : Reg) (s : State), windowOf a = some 2 → reaches s pgSLU = true →
      (a % 8 = 0 → ∃ t, exec (.stagedWrite a v) s = .next t ∧ winBufOf t 2 = some (a / 8, v)
        ∧ { t with slu := { t.slu with winBuf := s.slu.winBuf } } = s)
      ∧ (a % 8 = 4 → a / 8 % 8 < 5 → ∀ x : Word, fld x 32 32 = v.toNat → fld x 0 32 = (match winBufOf s 2 with
            | some (k, lo) => if k = a / 8 then lo.toNat else fld (tableBase s a) 0 32
            | none => fld (tableBase s a) 0 32) → tableRefusal s a x = none →
        ∃ t, exec (.stagedWrite a v) s = .next t ∧ tget none ((a - 0x110000) / 8) t.slu.groupsSt = some x
          ∧ rdB t (statA pgSLU) 1 = true ∧ t.slu.groups = s.slu.groups ∧ regsBut [statA pgSLU] s t))
    ∧ (∀ (m : BitVec 16) (s : State), reaches s pgSYS = true → gated s pgSYS = false →
      ∃ t, exec (.sysUpdate m) s = .next t ∧ t.hst.updActive = true ∧ t.hst.updMask = (if s.hst.updActive then s.hst.updMask ||| m else m)
        ∧ t.regs = s.regs ∧ t.outbox = s.outbox ∧ onlyHost s t)
    ∧ ∀ s : State, s.hst.updActive = true → ∃ t, exec .stagedUpdateApply s = .next t ∧ rdB t (irqA pgSYS) 1 = true
        ∧ t.hst.updActive = false ∧ t.hst.updMask = 0
        ∧ (∀ k v, k < 4 → rdB s (statA (pgUIO k)) 1 = true → bit s.hst.updMask (rdF s (stageA (pgUIO k)) 0 4) = true →
          s.hst.staged.filter (fun q => q.1 / 0x1000 = pgUIO k) = [(uioOwnerA k, some v)] →
          tget none (uioOwnerA k) t.hst.staged = none ∧ rdB t (statA (pgUIO k)) 1 = false ∧ rdF t (uioOwnerA k) 0 31 = fld v 0 31)
        ∧ (∀ k, k < 4 → bit s.hst.updMask (rdF s (stageA (pgUIO k)) 0 4) = false →
          tget none (uioOwnerA k) t.hst.staged = tget none (uioOwnerA k) s.hst.staged ∧ rd t (uioOwnerA k) = rd s (uioOwnerA k))
        ∧ (∀ e v, rdB s (statA pgSLU) 1 = true → bit s.hst.updMask (rdF s (stageA pgSLU) 0 4) = true → s.slu.groupsSt = [(e, some v)] →
          tget (groupFill e) e t.slu.groups = v ∧ t.slu.groupsSt = [])
        ∧ (bit s.hst.updMask (rdF s (stageA pgSLU) 0 4) = false → t.slu.groups = s.slu.groups ∧ t.slu.groupsSt = s.slu.groupsSt))
    ∧ (∀ (p : Nat) (s : State), pageType p ≠ 0 →
    (closing s p = true → ∃ t, exec (.gateClose p) s = .next t ∧ rdB t (statA p) 6 = true ∧ regsBut [statA p] s t ∧ onlyRegs s t)
      ∧ (closing s p = true → ∃ t, exec (.gateForced p) s = .next t ∧ rdB t (statA p) 6 = true ∧ rd t (errA p) = 0x0108
        ∧ rdB t (statA p) 2 = true ∧ regsBut [statA p, errA p] s t ∧ onlyRegs s t)
      ∧ (clkEnabled s p = true → rdB s (statA p) 6 = true →
        ∃ t, exec (.gateOpen p) s = .next t ∧ rdB t (statA p) 6 = false ∧ regsBut [statA p] s t ∧ onlyRegs s t)
      ∧ (reaches s p = true → ∀ v : Reg,
        let new := (rdF s (clkEnA p) 0 3 &&& (7 - fld v 16 3)) ||| (fld v 0 3 &&& fld v 16 3)
        let stops : Prop := new % 2 = 0 ∧ rdB s (clkEnA p) 0 = true
        let kept : Prop := alwaysRuns p = true ∨ (pageType p = 23 ∧ halted s (p - 0x60) = false)
        ∃ t, exec (.clkEnWrite p v) s = .next t
          ∧ (stops → kept → rdF t (clkEnA p) 0 3 = new + 1 ∧ rd t (errA p) = 0x0109 ∧ regsBut [clkEnA p, statA p, errA p] s t ∧ onlyRegs s t)
          ∧ (¬(stops ∧ kept) → rdF t (clkEnA p) 0 3 = new ∧ regsBut [clkEnA p] s t ∧ onlyFab { s with regs := t.regs } t)
          ∧ (¬stops ∨ pageType p ≠ 23 → t.fab = s.fab)
          ∧ (stops → ¬kept → pageType p = 23 →
            t.fab = { s.fab with basins := t.fab.basins } ∧ (∀ n, n ≠ p - 0x60 → basinOf t n = basinOf s n)
              ∧ basinOf t (p - 0x60) = (if (basinOf s (p - 0x60)).power = .run then
                  { basinOf s (p - 0x60) with power := .doze, waking := false } else basinOf s (p - 0x60)))))

/-- Register access (R13, R16, R483, R484): a write of a plain RW register is read back under its writable bits; a write or a read that is no
single full DWORD is dropped or aborted with BAD_ACCESS; the SOFT_RESET of a page whose reset is its registers' alone puts every register
above the header at its reset value, and every soft reset that reaches its page completes (R489). -/
def Obligations.RegisterAccess : Prop :=
  (∀ (a : Nat) (v : Reg) (s : State), s.hst.d3 = false → reaches s pgSYS = true →
    (∃ t, exec (.registerWrite a v false) s = .next t ∧ rd t (errA pgSYS) = 0x0F05 ∧ rdB t (statA pgSYS) 2 = true
        ∧ regsBut [statA pgSYS, errA pgSYS] s t ∧ onlyRegs s t)
      ∧ ∃ t, exec (.registerRead a false) s = .next t ∧ rd t (errA pgSYS) = 0x0F05 ∧ t.outbox = .completerAbort a :: s.outbox
        ∧ regsBut [statA pgSYS, errA pgSYS] s t ∧ onlyHost s t)
    ∧ (∀ (v : Reg) (s : State), s.hst.d3 = false → reaches s pgHIF = true → gated s pgHIF = false → fld v 0 8 ≤ 192 →
      ∃ t, exec (.registerWrite (at' pgHIF 0x44) v true) s = .next t ∧ rdF t (at' pgHIF 0x44) 0 8 = fld v 0 8
        ∧ regsBut [at' pgHIF 0x44] s t ∧ onlyRegs s t)
    ∧ (∀ (p : Nat) (s : State), s.hst.d3 = false → modeOf s ≠ mDORMANT → modeOf s ≠ mSEALED → pageType p ≠ 0 →
      ∃ t, exec (.registerRead (irqEnA p) true) s = .next t ∧ t.outbox = .readData (irqEnA p) (rd s (irqEnA p)) :: s.outbox ∧ onlyHost s t
        ∧ t.regs = s.regs ∧ t.hst = s.hst)
    ∧ (∀ (p : Nat) (s : State), pageType p = 13 ∨ pageType p = 17 → reaches s p = true →
      ∃ t, exec (.softReset p) s = .next t ∧ (∀ a, a / 0x1000 = p → 0x40 ≤ a % 0x1000 → rd t a = regReset a)
        ∧ (∀ a, a / 0x1000 ≠ p → rd t a = rd s a) ∧ onlyHost s t ∧ t.outbox = s.outbox)
    ∧ ∀ (p : Nat) (s : State), pageType p ≠ 0 → reaches s p = true → exec (.softReset p) s = .next (pageReset p s)

/-- ADD, ADDC, SUB, SUBB (R76 to R78): the sum or difference modulo 2^64, carry or borrow, signed overflow. ACC (R81): unsigned or signed
saturation, V where the sum is clamped; SH[5:1] is reserved, so that an ACC with a bit of it set is a fault condition (WE_RESERVED). -/
def Obligations.SumsAndSaturation : Prop :=
  (∀ (a : CrystalAddr) (f : WeFields) (c : Nat) (s : State), weFree a f c s →
    (weRuns .add a f c s → ∃ t, exec (.add a f) s = .next t ∧ weDone a f c s t (weA s a c f + weB s a c f)
        (some (decide (2 ^ 64 ≤ (weA s a c f).toNat + (weB s a c f).toNat)))
        (some (decide ((weA s a c f + weB s a c f).toInt ≠ (weA s a c f).toInt + (weB s a c f).toInt))))
      ∧ (weRuns .addc a f c s → ∀ k : Nat, k = (if (weFlagsOf s a c).c then 1 else 0) →
        ∃ t, exec (.addc a f) s = .next t ∧ weDone a f c s t (weA s a c f + weB s a c f + BitVec.ofNat 64 k)
          (some (decide (2 ^ 64 ≤ (weA s a c f).toNat + (weB s a c f).toNat + k)))
          (some (decide ((weA s a c f + weB s a c f + BitVec.ofNat 64 k).toInt ≠ (weA s a c f).toInt + (weB s a c f).toInt + k))))
      ∧ (weRuns .sub a f c s → ∃ t, exec (.sub a f) s = .next t ∧ weDone a f c s t (weA s a c f - weB s a c f)
        (some (decide ((weA s a c f).toNat < (weB s a c f).toNat)))
        (some (decide ((weA s a c f - weB s a c f).toInt ≠ (weA s a c f).toInt - (weB s a c f).toInt))))
      ∧ (weRuns .subb a f c s → ∀ k : Nat, k = (if (weFlagsOf s a c).c then 1 else 0) →
        ∃ t, exec (.subb a f) s = .next t ∧ weDone a f c s t (weA s a c f - weB s a c f - BitVec.ofNat 64 k)
          (some (decide ((weA s a c f).toNat < (weB s a c f).toNat + k)))
          (some (decide ((weA s a c f - weB s a c f - BitVec.ofNat 64 k).toInt ≠ (weA s a c f).toInt - (weB s a c f).toInt - k)))))
    ∧ ((∀ (a : CrystalAddr) (f : WeFields) (c : Nat) (s : State), weFree a f c s → weRuns .acc a f c s →
    ∃ t r, exec (.acc a f) s = .next t
      ∧ (bit f.sh 0 = false → r.toNat = min (2 ^ 64 - 1) ((weA s a c f).toNat + (weB s a c f).toNat)
        ∧ weDone a f c s t r none (some (decide (r.toNat ≠ (weA s a c f).toNat + (weB s a c f).toNat))))
      ∧ (bit f.sh 0 = true → r.toInt = max (-2 ^ 63) (min (2 ^ 63 - 1) ((weA s a c f).toInt + (weB s a c f).toInt))
        ∧ weDone a f c s t r none (some (decide (r.toInt ≠ (weA s a c f).toInt + (weB s a c f).toInt)))))
    ∧ ∀ (f : WeFields) (rp ap xl yl : Bool), f.cond.toNat < 12 → fld f.sh 1 5 ≠ 0 → weFault (some .acc) f rp ap xl yl = some 0x0522)

/-- PASS, AND, OR, XOR, ANDN, SEL and NOP (R74, R76): the bits of the result, no C and no V; SEL takes its condition as the selector; NOP
changes nothing. CMPEQ, CMPLTU, CMPLTS, MINU, MINS, MAXU, MAXS (R76): the comparison as 1 or 0 and in C; the smaller or larger operand, C
where it is A. -/
def Obligations.BitwiseSelectAndCompare : Prop :=
  (∀ (a : CrystalAddr) (f : WeFields) (c : Nat) (s : State), weFree a f c s →
    (weRuns .pass a f c s → ∃ t, exec (.pass a f) s = .next t ∧ weDone a f c s t (weA s a c f) none none)
      ∧ (weRuns .and a f c s → ∃ t r, exec (.and a f) s = .next t ∧ weDone a f c s t r none none
        ∧ ∀ i, i < 64 → bit r i = (bit (weA s a c f) i && bit (weB s a c f) i))
      ∧ (weRuns .or a f c s → ∃ t r, exec (.or a f) s = .next t ∧ weDone a f c s t r none none
        ∧ ∀ i, i < 64 → bit r i = (bit (weA s a c f) i || bit (weB s a c f) i))
      ∧ (weRuns .xor a f c s → ∃ t r, exec (.xor a f) s = .next t ∧ weDone a f c s t r none none
        ∧ ∀ i, i < 64 → bit r i = (bit (weA s a c f) i ^^ bit (weB s a c f) i))
      ∧ (weRuns .andn a f c s → ∃ t r, exec (.andn a f) s = .next t ∧ weDone a f c s t r none none
        ∧ ∀ i, i < 64 → bit r i = (bit (weA s a c f) i && !bit (weB s a c f) i))
      ∧ (weStarts .sel a f c s → ∃ t, exec (.sel a f) s = .next t
        ∧ weDone a f c s t (if weCond s a c f then weA s a c f else weB s a c f) none none)
      ∧ (weStarts .nop a f c s → exec (.nop a f) s = .next s))
    ∧ (∀ (a : CrystalAddr) (f : WeFields) (c : Nat) (s : State), weFree a f c s →
    (weRuns .cmpeq a f c s → ∀ p : Bool, p = decide ((weA s a c f).toNat = (weB s a c f).toNat) →
        ∃ t, exec (.cmpeq a f) s = .next t ∧ weDone a f c s t (if p then 1 else 0) (some p) none)
      ∧ (weRuns .cmpltu a f c s → ∀ p : Bool, p = decide ((weA s a c f).toNat < (weB s a c f).toNat) →
        ∃ t, exec (.cmpltu a f) s = .next t ∧ weDone a f c s t (if p then 1 else 0) (some p) none)
      ∧ (weRuns .cmplts a f c s → ∀ p : Bool, p = decide ((weA s a c f).toInt < (weB s a c f).toInt) →
        ∃ t, exec (.cmplts a f) s = .next t ∧ weDone a f c s t (if p then 1 else 0) (some p) none)
      ∧ (weRuns .minu a f c s → ∃ t r, exec (.minu a f) s = .next t ∧ r.toNat = min (weA s a c f).toNat (weB s a c f).toNat
        ∧ weDone a f c s t r (some (decide (r = weA s a c f))) none)
      ∧ (weRuns .mins a f c s → ∃ t r, exec (.mins a f) s = .next t ∧ r.toInt = min (weA s a c f).toInt (weB s a c f).toInt
        ∧ weDone a f c s t r (some (decide (r = weA s a c f))) none)
      ∧ (weRuns .maxu a f c s → ∃ t r, exec (.maxu a f) s = .next t ∧ r.toNat = max (weA s a c f).toNat (weB s a c f).toNat
        ∧ weDone a f c s t r (some (decide (r = weA s a c f))) none)
      ∧ (weRuns .maxs a f c s → ∃ t r, exec (.maxs a f) s = .next t ∧ r.toInt = max (weA s a c f).toInt (weB s a c f).toInt
        ∧ weDone a f c s t r (some (decide (r = weA s a c f))) none))

/-- SHL, SHR, SAR, ROL (R79): the amount is (B[5:0] + SH) mod 64; of amount 0 the result is A and C keeps its value, but in ROL; with SRCB 7 the
amount is SH alone. -/
def Obligations.ShiftAndRotate : Prop :=
  ∀ (a : CrystalAddr) (f : WeFields) (c : Nat) (s : State) (n : Nat), weFree a f c s →
    n = ((weB s a c f).toNat % 64 + f.sh.toNat) % 64 →
    (f.srcB = 7 → n = f.sh.toNat)
      ∧ (weRuns .shl a f c s → ∃ t r, exec (.shl a f) s = .next t ∧ (∀ i, i < 64 → bit r i = (decide (n ≤ i) && bit (weA s a c f) (i - n)))
        ∧ weDone a f c s t r (if n = 0 then none else some (bit (weA s a c f) (64 - n))) none)
      ∧ (weRuns .shr a f c s → ∃ t r, exec (.shr a f) s = .next t ∧ (∀ i, i < 64 → bit r i = bit (weA s a c f) (i + n))
        ∧ weDone a f c s t r (if n = 0 then none else some (bit (weA s a c f) (n - 1))) none)
      ∧ (weRuns .sar a f c s → ∃ t r, exec (.sar a f) s = .next t ∧ (∀ i, i < 64 → bit r i = bit (weA s a c f) (min 63 (i + n)))
        ∧ weDone a f c s t r (if n = 0 then none else some (bit (weA s a c f) (n - 1))) none)
      ∧ (weRuns .rol a f c s → ∃ t r, exec (.rol a f) s = .next t ∧ (∀ i, i < 64 → bit r ((i + n) % 64) = bit (weA s a c f) i)
        ∧ weDone a f c s t r (some (bit r 0)) none)

/-- POPCNT, CLZ, BSWAP, EXTR, INS (R76, R80). CRC (R82, R83): the state over the bytes S to S+NB-1 of A, from all ones or from B, complemented
where XOROUT is set. -/
def Obligations.CountsFieldsAndCrc : Prop :=
  (∀ (a : CrystalAddr) (f : WeFields) (c : Nat) (s : State), weFree a f c s →
    (weRuns .popcnt a f c s → ∃ t r, exec (.popcnt a f) s = .next t ∧ weDone a f c s t r none none
        ∧ r.toNat = ((List.range 64).filter fun i => bit (weA s a c f) i).length)
      ∧ (weRuns .clz a f c s → ∃ t r, exec (.clz a f) s = .next t ∧ weDone a f c s t r none none ∧ r.toNat ≤ 64
        ∧ (∀ i, i < 64 → 64 ≤ i + r.toNat → bit (weA s a c f) i = false) ∧ (r.toNat < 64 → bit (weA s a c f) (63 - r.toNat) = true))
      ∧ (weRuns .bswap a f c s → ∃ t r, exec (.bswap a f) s = .next t ∧ weDone a f c s t r none none
        ∧ ∀ k, k < 8 → fld r (8 * k) 8 = fld (weA s a c f) (8 * (7 - k)) 8)
      ∧ (weRuns .extr a f c s → ∃ t r, exec (.extr a f) s = .next t ∧ weDone a f c s t r none none
        ∧ ∀ i, i < 64 → bit r i = (if i ≤ fld f.imm8 0 6 then bit (weA s a c f) (f.sh.toNat + i)
            else bit f.imm8 6 && bit (weA s a c f) (f.sh.toNat + fld f.imm8 0 6)))
      ∧ (weRuns .ins a f c s → ∃ t r, exec (.ins a f) s = .next t ∧ weDone a f c s t r none none
        ∧ ∀ i, i < 64 → bit r i = (if f.sh.toNat ≤ i ∧ i ≤ f.sh.toNat + fld f.imm8 0 6 then bit (weA s a c f) (i - f.sh.toNat)
            else bit (weB s a c f) i)))
    ∧ (∀ (a : CrystalAddr) (f : WeFields) (c : Nat) (s : State), weFree a f c s →
    (weRuns .crc a f c s → ∀ w st : Nat, w = (if fld f.imm8 0 2 < 2 then 32 else if fld f.imm8 0 2 = 2 then 16 else 24) →
        st = crcRun (fld f.imm8 0 2) (if bit f.imm8 7 then 2 ^ w - 1 else (weB s a c f).toNat % 2 ^ w)
          ((List.range (fld f.imm8 2 3 + 1)).map fun k => BitVec.ofNat 8 (fld (weA s a c f) (8 * (fld f.sh 0 3 + k)) 8)) →
        ∃ t r, exec (.crc a f) s = .next t ∧ weDone a f c s t r none none ∧ r.toNat < 2 ^ w
          ∧ ∀ i, i < w → bit r i = (st.testBit i != bit f.imm8 6)))

/-- HMIX (R85), bit by bit: bit i of ROL(v, n) is bit (i - n) mod 64 of v. -/
def Obligations.HashMix : Prop :=
  ∀ (a : CrystalAddr) (f : WeFields) (c : Nat) (s : State), weFree a f c s → weRuns .hmix a f c s →
    ∃ t r, exec (.hmix a f) s = .next t ∧ weDone a f c s t r none none
      ∧ ∃ t1 t2 t3 : Nat → Bool, (∀ i, t1 i = (bit (weA s a c f) (i % 64) ^^ bit (weB s a c f) ((i + 32) % 64)))
        ∧ (∀ i, t2 i = (t1 i ^^ t1 (i + 51) ^^ t1 (i + 27))) ∧ (∀ i, t3 i = (t2 i ^^ (t2 (i + 57) && !t2 (i + 21))))
        ∧ ∀ i, i < 64 → bit r i = (t3 i ^^ t3 (i + 35))

/-- MUL32U, MUL32S and MUL_COMPLETION (R86, R88): a multiply joins those in flight; the oldest one writes its product to its destination under
the context that issued it, or in a quiet cycle writes nothing and traps. -/
def Obligations.Multiply : Prop :=
  (∀ (a : CrystalAddr) (f : WeFields) (c : Nat) (s : State),
    let joined (t : State) (m : Mul) : Prop :=
      (crystalOf t (weKey a)).muls = (crystalOf s (weKey a)).muls ++ [m] ∧ m.dst = f.dst ∧ m.ctx.toNat = c
        ∧ (crystalOf t (weKey a)).out = (crystalOf s (weKey a)).out ∧ (∀ k, k ≠ weKey a → crystalOf t k = crystalOf s k)
        ∧ { t.fab with crystals := s.fab.crystals } = s.fab ∧ onlyFab s t
    (weRuns .mul32u a f c s → ∃ t m, exec (.mul32u a f) s = .next t ∧ joined t m
        ∧ m.prod.toNat = (weA s a c f).toNat % 2 ^ 32 * ((weB s a c f).toNat % 2 ^ 32))
      ∧ (weRuns .mul32s a f c s → ∃ t m, exec (.mul32s a f) s = .next t ∧ joined t m
        ∧ m.prod.toInt = (BitVec.ofNat 32 (weA s a c f).toNat).toInt * (BitVec.ofNat 32 (weB s a c f).toNat).toInt))
    ∧ ∀ (a : CrystalAddr) (s : State) (m : Mul) (rest : List Mul), underTest s a.basin = false → (crystalOf s (weKey a)).muls = m :: rest →
      ∃ t, exec (.mulCompletion a) s = .next t ∧ (crystalOf t (weKey a)).muls = rest
        ∧ ((planOf s a.basin a.addr.toNat).quiet = false →
          (crystalOf t (weKey a)).out = (if m.dst = 0 ∨ m.dst = 3 then m.prod else (crystalOf s (weKey a)).out)
            ∧ (∀ k d, d < 16 → xCode t k d = if k = weKey a ∧ d = m.ctx.toNat ∧ (m.dst = 1 ∨ m.dst = 3) then encCode m.prod else xCode s k d)
            ∧ (∀ k d, d < 16 → yCode t k d = if k = weKey a ∧ d = m.ctx.toNat ∧ m.dst = 2 then encCode m.prod else yCode s k d)
            ∧ t.fab.flags = s.fab.flags ∧ weFrame a s t)
        ∧ ((planOf s a.basin a.addr.toNat).quiet = true → (crystalOf t (weKey a)).out = (crystalOf s (weKey a)).out
            ∧ t.fab.xs = s.fab.xs ∧ t.fab.ys = s.fab.ys ∧ t.fab.flags = s.fab.flags
            ∧ (rdB s (at' (pgBSN a.basin) 0x50) 31 = false → rdF t (at' (pgBSN a.basin) 0x50) 0 16 = 0x0526
                ∧ rdF t (at' (pgBSN a.basin) 0x50) 16 9 = a.addr.toNat ∧ rdF t (at' (pgBSN a.basin) 0x50) 26 4 = m.ctx.toNat))

/-- LDR, STR and FENCE (R89 to R93): eight bytes of the stage of the crystal's row port, wrapping at 1,024; the masked bytes stored; a fence on
the crystal's port. -/
def Obligations.StageAndFence : Prop :=
  ∀ (a : CrystalAddr) (f : WeFields) (c : Nat) (s : State) (kind r q o : Nat), portPlace a.addr.toNat = some (kind, r, q) →
    o = ((weA s a c f).toNat % 1024 + f.sh.toNat) % 1024 →
    (weRuns .ldr a f c s → weFree a f c s → ∃ t v, exec (.ldr a f) s = .next t ∧ weDone a f c s t v none none
        ∧ ∀ k, k < 8 → fld v (8 * k) 8 = fld (rowPort s a.basin r).stage (8 * ((o + k) % 1024)) 8)
      ∧ (weRuns .str a f c s → ∃ t, exec (.str a f) s = .next t
        ∧ (∀ b, b < 1024 → fld (rowPort t a.basin r).stage (8 * b) 8 =
            (if bit f.imm8 ((b + 1024 - o) % 1024) then fld (weB s a c f) (8 * ((b + 1024 - o) % 1024)) 8
             else fld (rowPort s a.basin r).stage (8 * b) 8))
        ∧ (rowPort t a.basin r).cmds = (rowPort s a.basin r).cmds ∧ (∀ n k, k < 4 → (n, k) ≠ (a.basin, r) → rowPort t n k = rowPort s n k)
        ∧ { t.fab with rows := s.fab.rows } = s.fab ∧ onlyFab s t)
      ∧ (weRuns .fence a f c s → ∃ t, exec (.fence a f) s = .next t
        ∧ fencesOf t a.basin q = fencesOf s a.basin q ++ [newFence s (BitVec.ofNat 2 (f.imm8.toNat % 4))]
        ∧ (∀ n k, k < 8 → (n, k) ≠ (a.basin, q) → fencesOf t n k = fencesOf s n k)
        ∧ { t.fab with fences := s.fab.fences } = s.fab ∧ onlyFab s t)

/-- An instruction whose condition does not hold changes nothing, SEL apart (R74); one with a fault condition, or a write collision, writes
nothing and traps (R87, R94, R95): the first trap is recorded in BSN_FAULT with the crystal, the context and the cause. -/
def Obligations.ConditionsAndFaults : Prop :=
  ∀ (op : WeOp) (a : CrystalAddr) (f : WeFields) (c : Nat) (s : State),
    (weStarts op a f c s → op ≠ .sel → weCond s a c f = false → exec (weInstr op a f) s = .next s)
      ∧ ∀ cause : BitVec 16, weCtx s a = some c →
        weFault (some op) f (weEnv s a c).rowPort (weEnv s a c).anyPort (weEnv s a c).xLock (weEnv s a c).yLock = some cause →
        ∃ t, exec (weInstr op a f) s = .next t ∧ rdB t (at' (pgBSN a.basin) 0x50) 31 = true ∧ rdB t (irqA (pgBSN a.basin)) 0 = true
          ∧ (rdB s (at' (pgBSN a.basin) 0x50) 31 = false → rdF t (at' (pgBSN a.basin) 0x50) 0 16 = cause.toNat
              ∧ rdF t (at' (pgBSN a.basin) 0x50) 16 9 = a.addr.toNat ∧ rdF t (at' (pgBSN a.basin) 0x50) 26 4 = c)
          ∧ (rdB s (at' (pgBSN a.basin) 0x50) 31 = true → rdB t (at' (pgBSN a.basin) 0x50) 30 = true
              ∧ rdF t (at' (pgBSN a.basin) 0x50) 0 30 = rdF s (at' (pgBSN a.basin) 0x50) 0 30)
          ∧ { t.fab with basins := s.fab.basins } = s.fab

/-- CRYSTAL_CYCLE (R41, R43, R49, R57): at the end of a cycle a crystal that is not quiet holds what its grains produced in OQ and in the
state-bank entry of its context; a quiet one keeps OQ and OUT; no plane, frame plane or lane setting changes; other basins keep their
crystals; a basin whose clock is stopped, or under test, does nothing. The pins' settings are those that the cycle's UIO edges leave. -/
def Obligations.CrystalCycle : Prop :=
  ∀ (n : Nat) (rise fall : BitVec 96) (s : State),
    ((basinOf s n).power ≠ .run ∨ underTest s n = true → exec (.crystalCycle n rise fall) s = .next s)
      ∧ ((basinOf s n).power = .run → underTest s n = false → ∃ t, exec (.crystalCycle n rise fall) s = .next t
        ∧ t.fab.planes = s.fab.planes ∧ t.fab.frames = s.fab.frames ∧ t.fab.laneSets = s.fab.laneSets ∧ t.fab.planeSt = s.fab.planeSt
        ∧ (basinOf t n).taken0 = none ∧ (basinOf t n).taken1 = none
        ∧ (∀ k, k / 512 ≠ n → crystalOf t k = crystalOf s k ∧ flCode t k = flCode s k
          ∧ ∀ c, c < 16 → xCode t k c = xCode s k c ∧ yCode t k c = yCode s k c ∧ bankCode t k (c / 4) = bankCode s k (c / 4))
        ∧ (s.fab.hold.sr = false → ∀ x, x < 512 →
          (∀ c, (planOf s n x).ctx = some c → (planOf s n x).quiet = false →
            (crystalOf t (xk n x)).oq = BitVec.ofNat 16 (grainWord (uioCycle n s) n (plansOf s n) ⟨rise, fall⟩ x c)
              ∧ bankCode t (xk n x) (c / 4) = encCode (setFld (planOf s n x).bank.data (16 * (c % 4)) 16
                  (grainWord (uioCycle n s) n (plansOf s n) ⟨rise, fall⟩ x c)))
            ∧ ((planOf s n x).quiet = true → (crystalOf t (xk n x)).oq = (crystalOf s (xk n x)).oq
              ∧ (crystalOf t (xk n x)).out = (crystalOf s (xk n x)).out
              ∧ ∀ j, j < 4 → bankCode t (xk n x) j = bankCode s (xk n x) j)))

/-- BSN_MODE and BSN_SW_BUDGET (R117, R118, R122): a legal mode is in force at once, a change of MODE or IDLE_NONE while items may be in flight
and a HALT that ends at the border are refused; the window's count is reported and its limit stops both intakes. CLEAR and PLANE_CLEAR_DONE
(R111, R112, R123): the plane is BLANK with its bits 0 in every crystal of the basin and BUSY is 1 until the clear is done; a LOADING or
PENDING plane, or a VALID one in use, is refused with PLANE_IN_USE. -/
def Obligations.BasinModeAndPlanes : Prop :=
  (∀ (n : Nat) (v : Reg) (s : State),
    (reaches s (pgBSN n) = true → gated s (pgBSN n) = false →
      (((rdB s (at' (pgBSN n) 0x40) 1 = bit v 1 ∧ rdB s (at' (pgBSN n) 0x40) 2 = bit v 2) ∨ halted s n = true) →
        ¬(rdB s (at' (pgBSN n) 0x40) 0 = true ∧ bit v 0 = false ∧ (basinOf s n).frame.st ≠ .valid) →
        ∃ t, exec (.bsnModeWrite n v) s = .next t ∧ rd t (at' (pgBSN n) 0x40) = BitVec.ofNat 32 (fld v 0 4)
          ∧ basinOf t n = { basinOf s n with mode := bit v 1 } ∧ (∀ k, k ≠ n → basinOf t k = basinOf s k)
          ∧ regsBut [at' (pgBSN n) 0x40] s t ∧ { t with regs := s.regs, fab := { t.fab with basins := s.fab.basins } } = s)
      ∧ ((rdB s (at' (pgBSN n) 0x40) 1 ≠ bit v 1 ∨ rdB s (at' (pgBSN n) 0x40) 2 ≠ bit v 2) → halted s n = false →
        ∃ t, exec (.bsnModeWrite n v) s = .next t ∧ rd t (errA (pgBSN n)) = 0x0535
          ∧ regsBut [statA (pgBSN n), errA (pgBSN n)] s t ∧ onlyRegs s t)
      ∧ ∃ t, exec (.bsnSwBudgetWrite n v) s = .next t ∧ rdF t (at' (pgBSN n) 0x4C) 21 11 = 0
          ∧ rdF t (at' (pgBSN n) 0x4C) 0 21 = rdF s (at' (pgBSN n) 0x4C) 0 21
          ∧ regsBut [at' (pgBSN n) 0x48, at' (pgBSN n) 0x4C, statA (pgBSN n), errA (pgBSN n)] s t ∧ onlyRegs s t)
      ∧ (switchLimit s n ≤ (basinOf s n).window → ∃ t, exec (.budgetLimitReached n) s = .next t ∧ (basinOf t n).stopped = true
        ∧ { basinOf t n with stopped := (basinOf s n).stopped } = basinOf s n ∧ t.regs = s.regs ∧ onlyFab s t
        ∧ { t.fab with basins := s.fab.basins } = s.fab)
      ∧ ((basinOf s n).power = .run → ∃ t, exec (.budgetWindowEnd n) s = .next t ∧ (basinOf t n).window = 0 ∧ (basinOf t n).stopped = false
        ∧ rdF t (at' (pgBSN n) 0x4C) 0 21 = (basinOf s n).window % 2 ^ 21
        ∧ ((basinOf s n).stopped = true → rdB t (irqA (pgBSN n)) 2 = true)
        ∧ regsBut [at' (pgBSN n) 0x4C, irqA (pgBSN n)] s t ∧ { t.fab with basins := s.fab.basins } = s.fab))
    ∧ (∀ (n : Nat) (s : State),
    (∀ p : BitVec 4, reaches s (pgBSN n) = true → gated s (pgBSN n) = false → busy s (pgBSN n) = false →
      ((planeInfo s n p.toNat).st = .failed ∨ (planeInfo s n p.toNat).st = .valid ∧ inFlightOf s n p.toNat = 0 →
        ∃ t, exec (.clear n false p) s = .next t ∧ busy t (pgBSN n) = true ∧ planeInfo t n p.toNat = ⟨.blank, 0, none⟩
          ∧ (∀ x w, x < 512 → w < 64 → planeCode t (xk n x) p.toNat w = 0)
          ∧ (∀ k q w, q < 16 → w < 64 → (k / 512 ≠ n ∨ q ≠ p.toNat) → planeCode t k q w = planeCode s k q w)
          ∧ (basinOf t n).clearing = some p.toNat ∧ t.fab.frames = s.fab.frames ∧ t.mem = s.mem ∧ t.drm = s.drm ∧ t.slu = s.slu)
      ∧ ((planeInfo s n p.toNat).st = .loading ∨ (planeInfo s n p.toNat).st = .pending
            ∨ (planeInfo s n p.toNat).st = .valid ∧ inFlightOf s n p.toNat ≠ 0 →
        ∃ t, exec (.clear n false p) s = .next t ∧ rd t (errA (pgBSN n)) = 0x0536 ∧ regsBut [statA (pgBSN n), errA (pgBSN n)] s t
          ∧ onlyRegs s t)
      ∧ (halted s n = false → ∃ t, exec (.clear n true p) s = .next t ∧ rd t (errA (pgBSN n)) = 0x0536
          ∧ regsBut [statA (pgBSN n), errA (pgBSN n)] s t ∧ onlyRegs s t))
      ∧ ((basinOf s n).clearing.isSome = true → ∃ t, exec (.planeClearDone n) s = .next t ∧ busy t (pgBSN n) = false
        ∧ (basinOf t n).clearing = none ∧ regsBut [statA (pgBSN n)] s t ∧ { t.fab with basins := s.fab.basins } = s.fab))

/-- A basin's power and map (R119, R144, R425): DOZE stops an idle basin, DEEP follows where it is enabled, a wanted basin wakes, from DEEP
without OQ, OUT and live copies; a basin newly mapped has every plane BLANK. -/
def Obligations.BasinPowerAndMap : Prop :=
  ∀ (n : Nat) (s : State),
    ((basinOf s n).power = .run → basinIdle s n = true → ∃ t, exec (.dozeEntry n) s = .next t ∧ (basinOf t n).power = .doze
        ∧ { t.fab with basins := s.fab.basins } = s.fab ∧ onlyFab s t)
      ∧ ((basinOf s n).power = .doze → (basinOf s n).waking = false → rdF s (at' pgCLK 0x5C) 16 16 ≠ 0 →
        ∃ t, exec (.deepEntry n) s = .next t ∧ (basinOf t n).power = .deep ∧ { t.fab with basins := s.fab.basins } = s.fab ∧ onlyFab s t)
      ∧ ((basinOf s n).power = .deep → wakeWanted s n = true → rdB s (clkEnA (pgBSN n)) 0 = true → workHeld s = false →
        ∃ t, exec (.deepExit n) s = .next t ∧ (basinOf t n).waking = true ∧ (basinOf t n).power = .deep
          ∧ { t.fab with basins := s.fab.basins } = s.fab ∧ onlyFab s t)
      ∧ ((basinOf s n).waking = true → ∃ t, exec (.basinWakeDone n) s = .next t ∧ (basinOf t n).power = .run ∧ (basinOf t n).waking = false
        ∧ ((basinOf s n).power = .deep → ∀ x, x < 512 → (crystalOf t (xk n x)).oq = 0 ∧ (crystalOf t (xk n x)).out = 0
            ∧ (crystalOf t (xk n x)).live = none)
        ∧ t.fab.planes = s.fab.planes ∧ t.fab.xs = s.fab.xs ∧ t.fab.ys = s.fab.ys ∧ t.fab.flags = s.fab.flags ∧ t.fab.banks = s.fab.banks
        ∧ onlyFab s t)
      ∧ (∃ t, exec (.basinStorageClearDone n) s = .next t ∧ (basinOf t n).mapClear = false ∧ { t.fab with basins := s.fab.basins } = s.fab
        ∧ onlyFab s t)
      ∧ ∀ (k : BitVec 3) (v : Reg), reaches s pgCFG = true → gated s pgCFG = false → mapChanges s k.toNat v ≠ [] →
        (∀ i, i < 4 → fld v (8 * i) 6 ≤ 33) →
        (∀ e ∈ mapChanges s k.toNat v, mapBusy s e.2.1 = false ∧ mapBusy s e.2.2 = false) →
        (∀ l m, l < m → m < 32 → (if l / 4 = k.toNat then fld v (8 * (l % 4)) 6 else physOf s l)
          ≠ (if m / 4 = k.toNat then fld v (8 * (m % 4)) 6 else physOf s m)) →
        ∃ t, exec (.cfgBasinMapWrite k v) s = .next t ∧ (∀ i, i < 4 → physOf t (4 * k.toNat + i) = fld v (8 * i) 6)
          ∧ ∀ e ∈ mapChanges s k.toNat v, (basinOf t e.2.2).mapClear = true ∧ (basinOf t e.2.2).frame.st = .blank
            ∧ ∀ p, p < 16 → (planeInfo t e.2.2 p).st = .blank

/-- The intake port (R152, R154, R155, R194) and fences (R172): a delivery is what the item's rows read; an accepted item joins those in flight
with its descriptor beat presented; a fence leaves when what it covers is complete. -/
def Obligations.IntakeAndFences : Prop :=
  ∀ (n q : Nat) (s : State),
    (∀ i d, nextTransit s n q = some (i, d) → bankAwake (bankTouch d.bank.toNat s) d.bank.toNat = true →
      ∃ t e, exec (.descriptorBeatDelivery n q) s = .next t ∧ t.slu = { s.slu with transit := s.slu.transit.eraseIdx i }
        ∧ (intakeOf (basinOf t n) q).waiting = (intakeOf (basinOf s n) q).waiting ++ [e] ∧ { e with beats := d.beats, error := d.error } = d
        ∧ (∀ b r, d.beats = b :: r →
            e.beats.length = 1 + (if fld b.words 4 2 = 0 then (fld b.words 32 13 + 63) / 64 else 0)
            ∧ (fld b.words 4 2 ≠ 0 → e.error = d.error)
            ∧ (fld b.words 4 2 = 0 → e.error = if 0 < fld b.words 32 13 ∧ (dieInReset s 4 = true ∨ d.error = some 0x0201) then some 0x0201
              else if 0 < fld b.words 32 13 ∧ (readBytes s d.bank.toNat d.row.toNat (fld b.words 32 13)).2 = true then some 0x0903 else d.error))
        ∧ (basinOf t n).items = (basinOf s n).items ∧ workOn n s t)
      ∧ (∀ d rest, (intakeOf (basinOf s n) q).waiting = d :: rest → mayAccept s n q d = true →
        ∃ t, exec (.descriptorBeatAccept n q) s = .next t ∧ (basinOf t n).items = (basinOf s n).items ++ [flightOf q d]
          ∧ intakeOf (basinOf t n) q = ⟨rest, d.beats.head?, d.beats.tail, some d.tag⟩
          ∧ (basinOf t n).fixedCtx = (if (basinOf s n).mode then (basinOf s n).fixedCtx else some d.tag)
          ∧ { basinOf t n with items := (basinOf s n).items, in0 := (basinOf s n).in0, in1 := (basinOf s n).in1,
                               fixedCtx := (basinOf s n).fixedCtx } = basinOf s n
          ∧ onlyFab s t ∧ workOn n s t)
      ∧ ∀ f rest, fencesOf s n q = f :: rest → fenceDone s n q f = true → ∃ t, exec (.fenceComplete n q) s = .next t
        ∧ fencesOf t n q = rest ∧ { t.fab with fences := s.fab.fences } = s.fab ∧ onlyFab s t
        ∧ ∀ k p, p < 8 → q < 8 → (k ≠ n ∨ p ≠ q) → fencesOf t k p = fencesOf s k p

/-- A row port accepts the command of its one issuer while it is not full (R156 to R159): the command word is the issuer's OUT, its data the
stage as it stands, its error what acceptance finds (R162); the other commands, the stages and the stored rows stay. Row commands complete
(R158, R162): READ_ROW puts the row into the stage, WRITE_ROW the stage of its acceptance into the row, each leaves the queue; a command
that acceptance found faulty sets ERR and makes its item errored. -/
def Obligations.RowPorts : Prop :=
  (∀ (n r x : Nat) (s : State), r < 4 → basinStill s n = false → (rowPort s n r).taken = none → (rowPort s n r).cmds.length < 4 →
    let accepted (k : Nat) (t : State) : Prop := ∃ c : RowCmd,
        (∀ q, q < 4 → (rowPort t n q).cmds.map (fun d : RowCmd => (d.kind, d.fault, d.word, d.data, d.done, d.reset))
            = ((rowPort s n q).cmds ++ if q = r then [c] else []).map fun d : RowCmd => (d.kind, d.fault, d.word, d.data, d.done, d.reset))
        ∧ c.kind.toNat = k ∧ c.word = (crystalOf s (xk n x)).out ∧ c.data = (rowPort s n r).stage ∧ c.done = 0 ∧ c.reset = false
        ∧ c.failed = none ∧ c.fault = acceptFault s n k (crystalOf s (xk n x)).out
        ∧ (rowPort t n r).taken = some (rowPred s n r) ∧ (∀ q, q < 4 → (rowPort t n q).stage = (rowPort s n q).stage)
        ∧ basinOf t n = basinOf s n ∧ t.mem.rows = s.mem.rows ∧ t.slu = s.slu ∧ t.enr = s.enr ∧ workOn n s t
    (rowIssuers s n r = [(x, 0)] → ∃ t, exec (.readRow n r) s = .next t ∧ accepted 0 t)
      ∧ (rowIssuers s n r = [(x, 1)] → ∃ t, exec (.writeRow n r) s = .next t ∧ accepted 1 t)
      ∧ (rowIssuers s n r = [(x, 2)] → ∃ t, exec (.farRead n r) s = .next t ∧ accepted 2 t)
      ∧ (rowIssuers s n r = [(x, 3)] → ∃ t, exec (.farWrite n r) s = .next t ∧ accepted 3 t))
    ∧ (∀ (n r i : Nat) (s : State) (c : RowCmd), r < 4 → mayComplete s n r i = some c → c.reset = false →
    (c.kind = 0 → c.fault = none → c.race = 0 → (rowData s (cmdBank c.word) (cmdRow c.word)).2 = [] →
      ∃ t, exec (.readRowComplete n r i) s = .next t ∧ (rowPort t n r).stage = (rowData s (cmdBank c.word) (cmdRow c.word)).1
        ∧ (rowPort t n r).cmds = (rowPort s n r).cmds.eraseIdx i ∧ (rowPort t n r).err = (rowPort s n r).err
        ∧ (∀ q, q < 4 → q ≠ r → rowPort t n q = rowPort s n q) ∧ basinOf t n = basinOf s n ∧ t.mem = s.mem ∧ workOn n s t)
      ∧ (c.kind = 1 → c.fault = none → ∃ t, exec (.writeRowComplete n r i) s = .next t
        ∧ (∀ b w k, w < 4096 → k < 128 → rowCode t b w k = if b = cmdBank c.word ∧ w = cmdRow c.word
            then encCode (BitVec.ofNat 64 (fld c.data (64 * k) 64)) else rowCode s b w k)
        ∧ (rowPort t n r).cmds = (rowPort s n r).cmds.eraseIdx i ∧ (rowPort t n r).stage = (rowPort s n r).stage
        ∧ (∀ q, q < 4 → q ≠ r → rowPort t n q = rowPort s n q) ∧ basinOf t n = basinOf s n ∧ workOn n s t)
      ∧ ∀ f, c.fault = some f →
        let failed (t : State) : Prop := (rowPort t n r).err = true ∧ (rowPort t n r).cmds = (rowPort s n r).cmds.eraseIdx i
          ∧ (rowPort t n r).stage = (rowPort s n r).stage
          ∧ (basinOf t n).items = (basinOf s n).items.map (fun j : Flight => if j.handle = cmdHandle c.word then { j with error := some (j.error.getD f) } else j)
          ∧ rdB t (irqA (pgBSN n)) 5 = true ∧ t.mem.rows = s.mem.rows ∧ workOn n s t
        (c.kind = 0 → ∃ t, exec (.readRowComplete n r i) s = .next t ∧ failed t)
          ∧ (c.kind = 1 → ∃ t, exec (.writeRowComplete n r i) s = .next t ∧ failed t))

/-- Far commands move their lines in order (R158, R161, R371): FAR_READ_LINE puts the next line that the DRAM gives into the stage,
FAR_WRITE_COMPLETE gives the lines of its acceptance's stage to the DRAM one after the other; after the last the command leaves. -/
def Obligations.FarCommands : Prop :=
  ∀ (n r i : Nat) (s : State) (c : RowCmd), r < 4 → mayMove s n r i = some c → c.fault = none → c.failed = none → c.reset = false →
    (∀ v u, c.kind = 2 → cmdStageLine c.word + c.done < 16 → bit c.race (cmdStageLine c.word + c.done) = false →
      dramRead srcFar (farDpa c c.done) s = (.ok v, u) →
      ∃ t, exec (.farReadLine n r i) s = .next t ∧ { t with fab := u.fab } = u
        ∧ (rowPort t n r).stage = setFld (rowPort u n r).stage (512 * (cmdStageLine c.word + c.done)) 512 v.toNat
        ∧ (rowPort t n r).cmds = (if c.done + 1 < cmdLines c.word then (rowPort u n r).cmds.set i { c with done := c.done + 1 }
            else (rowPort u n r).cmds.eraseIdx i)
        ∧ { t.fab with rows := u.fab.rows } = u.fab ∧ ∀ k q, q < 4 → (k ≠ n ∨ q ≠ r) → rowPort t k q = rowPort u k q)
      ∧ ∀ u v : Nat → State, c.kind = 3 → c.done = 0 → u 0 = s →
        (∀ k, k < cmdLines c.word → (∃ x, dramWrite srcFar (farDpa c k) (BitVec.allOnes 64)
              (BitVec.ofNat 512 (fld c.data (512 * (cmdStageLine c.word + k)) 512)) (u k) = (.ok x, v k))
          ∧ u (k + 1) = if k + 1 < cmdLines c.word
              then setRowPort n r { rowPort (v k) n r with cmds := (rowPort (v k) n r).cmds.set i { c with done := k + 1 } } (v k)
              else setRowPort n r { rowPort (v k) n r with cmds := (rowPort (v k) n r).cmds.eraseIdx i } (v k)) →
        exec (.farWriteComplete n r i) s = .next (u (cmdLines c.word))

/-- The outlet takes the beat of the present cycle (R165 to R168): DESCRIPTOR opens an output of the item that its handle names, PAYLOAD appends
to the open one, COMMIT and ABORT close the port's output and end the item. The commit point (R168, R169, R190): the item leaves flight and
its outputs go out once they all fit, an errored item and an aborted one are counted and release nothing; while the outputs do not fit
nothing happens. -/
def Obligations.OutletAndCommit : Prop :=
  (∀ (n q : Nat) (s : State), (if q = 0 then (basinOf s n).taken0 else (basinOf s n).taken1) = none → atBorder s n = false →
    basinStill s n = false →
    let taken (t : State) : Prop := (if q = 0 then (basinOf t n).taken0 else (basinOf t n).taken1) = some (outPred s n q)
        ∧ (∀ p, rowPort t n p = rowPort s n p) ∧ t.mem = s.mem ∧ t.slu = s.slu ∧ t.lan = s.lan ∧ t.enr = s.enr ∧ workOn n s t
    let ended (c : Bool) (i : Flight) (t : State) : Prop := taken t ∧ t.regs = s.regs
      ∧ (basinOf t n).items = (basinOf s n).items.map fun j : Flight => if j.handle = BitVec.ofNat 20 (fld (outWord s n q 0) 0 20)
              then { j with ended := some c, endSeq := s.fab.seq,
                            fence := if c && bit (groupW s i.group.toNat 0) 0 then some (newFence s 2) else none } else j
    (outBeat s n q = some 0 → ∃ t, exec (.outletDescriptor n q) s = .next t ∧ taken t)
      ∧ (outBeat s n q = some 1 → ∃ t, exec (.outletPayload n q) s = .next t ∧ taken t)
      ∧ (outBeat s n q = some 2 → ∃ t, exec (.commit n q) s = .next t ∧ taken t)
      ∧ (outBeat s n q = some 3 → ∃ t, exec (.abort n q) s = .next t ∧ taken t)
      ∧ (∀ i, outBeat s n q = some 0 → beatItem s n (BitVec.ofNat 20 (fld (outWord s n q 0) 0 20)) = some i → openItem s n q = none →
        i.outs.length < 4 → (i.outs.map (·.len)).sum + fld (outWord s n q 1) 0 13 ≤ 4096 →
        ∃ t, exec (.outletDescriptor n q) s = .next t
          ∧ (basinOf t n).items = (basinOf s n).items.map (fun j : Flight => if j.handle = BitVec.ofNat 20 (fld (outWord s n q 0) 0 20)
              then { j with outs := j.outs ++ [outputOf q (outWord s n q 0) (outWord s n q 1) (outWord s n q 2) (outWord s n q 3)] }
              else j)
          ∧ t.regs = s.regs)
      ∧ (∀ i, outBeat s n q = some 1 → openItem s n q = some i → ∃ t, exec (.outletPayload n q) s = .next t
          ∧ (basinOf t n).items.length = (basinOf s n).items.length
          ∧ ∀ (k : Nat) (j : Flight), (basinOf s n).items[k]? = some j → ∃ j' : Flight, (basinOf t n).items[k]? = some j' ∧ j'.outs = if j.handle = i.handle
              then j.outs.map (fun o : Output => if o.opened = true ∧ o.port = q then { o with beats := o.beats ++ [outBits s n q] } else o)
              else j.outs)
      ∧ (∀ i, beatItem s n (BitVec.ofNat 20 (fld (outWord s n q 0) 0 20)) = some i → openItem s n q = none →
          (outBeat s n q = some 2 → ∃ t, exec (.commit n q) s = .next t ∧ ended true i t)
            ∧ (outBeat s n q = some 3 → ∃ t, exec (.abort n q) s = .next t ∧ ended false i t)))
    ∧ (∀ (n : Nat) (h : BitVec 20) (i : Flight) (s : State), commitsStopped s n = false → endHeld s n i = false →
    (endedItem s n h false = some i → ∃ t, exec (.abortPoint n h) s = .next t
        ∧ (basinOf t n).items = (basinOf s n).items.eraseP (fun j => decide (j = i))
        ∧ rdF t (at' (pgBSN n) 0xEC) 16 16 = satAdd (rdF s (at' (pgBSN n) 0xEC) 16 16) 1 65535
        ∧ (∀ a, workPage (a / 0x1000) = false → a ≠ at' (pgBSN n) 0xEC → rd t a = rd s a) ∧ t.fab.rows = s.fab.rows ∧ workOn n s t)
      ∧ (endedItem s n h true = some i → implicitFenceDone s n i = true →
        (∀ c, commitError s i = some c → ∃ t, exec (.commitPoint n h) s = .next t
          ∧ (basinOf t n).items = (basinOf s n).items.eraseP (fun j => decide (j = i))
          ∧ rdF t (at' (pgBSN n) 0xEC) 0 16 = satAdd (rdF s (at' (pgBSN n) 0xEC) 0 16) 1 65535
          ∧ (∀ a, workPage (a / 0x1000) = false → a ≠ at' (pgBSN n) 0xEC → rd t a = rd s a) ∧ t.fab.rows = s.fab.rows ∧ workOn n s t)
        ∧ (commitError s i = none → guestOf i = none → (∀ o ∈ i.outs, toMaster s (logicalOf s n) (releaseOf o) = false) →
          (releasesFit (touchPartners (if mayRelease s (i.service / 2) then i.outs.map releaseOf else [])
              (finishService (i.service / 2) (endFlight n i s))) (logicalOf s n)
              (if mayRelease s (i.service / 2) then i.outs.map releaseOf else []) = true →
            ∃ t, exec (.commitPoint n h) s = .next t
              ∧ (basinOf t n).items = (basinOf s n).items.eraseP (fun j => decide (j = i))
              ∧ (∀ a, workPage (a / 0x1000) = false → rd t a = rd s a) ∧ t.fab.rows = s.fab.rows ∧ workOn n s t)
          ∧ (releasesFit (touchPartners (if mayRelease s (i.service / 2) then i.outs.map releaseOf else [])
              (finishService (i.service / 2) (endFlight n i s))) (logicalOf s n)
              (if mayRelease s (i.service / 2) then i.outs.map releaseOf else []) = false →
            exec (.commitPoint n h) s = .next s))
        ∧ (commitError s i = none → guestOf i ≠ none → ∃ t, exec (.commitPoint n h) s = .next t
          ∧ (basinOf t n).items = (basinOf s n).items.eraseP (fun j => decide (j = i)) ∧ t.fab.rows = s.fab.rows ∧ workOn n s t)))

/-- The table windows (R176): a lower half waits in the window's buffer, an upper half makes the word take both halves or is refused as a whole;
a read of a lower half latches the upper half of the same word. -/
def Obligations.TableWindows : Prop :=
  ∀ (a w : Nat) (v : Reg) (s : State), windowOf a = some w →
    (a % 8 = 0 → reaches s pgSLU = true → tableRo a = false → ∃ t, exec (.tableLowerWrite a v) s = .next t
        ∧ winBufOf t w = some (a / 8, v) ∧ (∀ x, x ≠ w → winBufOf t x = winBufOf s x)
        ∧ { t with slu := { t.slu with winBuf := s.slu.winBuf } } = s)
      ∧ (a % 8 = 4 → reaches s pgSLU = true → tableRo a = false →
        ∀ x : Word, fld x 32 32 = v.toNat → fld x 0 32 = (match winBufOf s w with
            | some (k, lo) => if k = a / 8 then lo.toNat else fld (tableBase s a) 0 32
            | none => fld (tableBase s a) 0 32) →
          (tableRefusal s a x = none → ∃ t, exec (.tableUpperWrite a v) s = .next t
            ∧ (w ≠ 2 → tableWord t a = if w = 5 then setFld x 62 1 0 else x)
            ∧ (w = 2 → a / 8 % 8 < 5 → tget none ((a - 0x110000) / 8) t.slu.groupsSt = some x ∧ rdB t (statA pgSLU) 1 = true
                ∧ tableWord t a = tableWord s a)
            ∧ (∀ b, tableRo b = false → b / 8 ≠ a / 8 → tableWord t b = tableWord s b)
            ∧ (∀ lo, winBufOf s w = some (a / 8, lo) → winBufOf t w = none)
            ∧ (∀ b, workPage (b / 0x1000) = false → rd t b = rd s b) ∧ (w ≠ 4 → storesKept s t))
          ∧ ∀ p c, tableRefusal s a x = some (p, c) → ∃ t, exec (.tableUpperWrite a v) s = .next t
            ∧ rd t (errA p) = BitVec.ofNat 32 c ∧ rdB t (statA p) 2 = true ∧ regsBut [statA p, errA p] s t ∧ onlyRegs s t)
      ∧ (modeOf s ≠ mDORMANT → modeOf s ≠ mSEALED → s.hst.d3 = false → s.slu.damage = [] →
        (a % 8 = 0 → ∃ t, exec (.tableLowerRead a) s = .next t
          ∧ t.outbox = .readData a (BitVec.ofNat 32 (fld (tableWord s a) 0 32)) :: s.outbox
          ∧ tget none w t.slu.winLatch = some (a / 8, BitVec.ofNat 32 (fld (tableWord s a) 32 32))
          ∧ { t with outbox := s.outbox, slu := { t.slu with winLatch := s.slu.winLatch } } = s)
        ∧ (a % 8 = 4 → ∃ t, exec (.tableUpperRead a) s = .next t
          ∧ (∀ hi, tget none w s.slu.winLatch = some (a / 8, hi) →
              t.outbox = .readData a hi :: s.outbox ∧ tget none w t.slu.winLatch = none)
          ∧ ((∀ hi, tget none w s.slu.winLatch ≠ some (a / 8, hi)) →
              t.outbox = .readData a (BitVec.ofNat 32 (fld (tableWord s a) 32 32)) :: s.outbox ∧ t.slu = s.slu)
          ∧ { t with outbox := s.outbox, slu := { t.slu with winLatch := s.slu.winLatch } } = s))

/-- TAIL of a ring (R206, R463) takes its value and clears FULL; SLU_CTRL refuses a change of TICK_EXP while DISPATCH_EN is 1 (R200); TICK
brings the time base to the next tick (R200, R281). QUARANTINE and FLOW_RESET (R181, R214): any flow may be quarantined; a reset is accepted
for a quarantined flow only, and its end frees the flow's queue and its quarantine. -/
def Obligations.RingsAndFlowCommands : Prop :=
  ((∀ (k : Nat) (v : Reg) (s : State), k < 6 → reaches s (ringPage k) = true → gated s (ringPage k) = false →
    ∃ t, exec (.ringTailWrite k v) s = .next t ∧ rdF t (ringHeadA k + 4) 0 (ringBits k) = fld v 0 (ringBits k)
      ∧ rdB t (ringHeadA k) (ringBits k) = false ∧ rdF t (ringHeadA k) 0 (ringBits k) = rdF s (ringHeadA k) 0 (ringBits k)
      ∧ regsBut [ringHeadA k, ringHeadA k + 4] s t ∧ onlyRegs s t)
    ∧ (∀ (v : Reg) (s : State), reaches s pgSLU = true → gated s pgSLU = false → fld v 1 5 < 18 →
      (rdB s (at' pgSLU 0x40) 0 = false ∨ fld v 1 5 = rdF s (at' pgSLU 0x40) 1 5 → ∃ t, exec (.sluCtrlWrite v) s = .next t
        ∧ rdB t (at' pgSLU 0x40) 0 = bit v 0 ∧ rdF t (at' pgSLU 0x40) 1 5 = fld v 1 5 ∧ regsBut [at' pgSLU 0x40] s t ∧ onlyRegs s t)
      ∧ (rdB s (at' pgSLU 0x40) 0 = true → fld v 1 5 ≠ rdF s (at' pgSLU 0x40) 1 5 → ∃ t, exec (.sluCtrlWrite v) s = .next t
        ∧ rd t (errA pgSLU) = 0x0642 ∧ rdB t (statA pgSLU) 2 = true ∧ regsBut [statA pgSLU, errA pgSLU] s t ∧ onlyRegs s t))
    ∧ ∀ s : State, ∃ t, exec .tick s = .next t ∧ ((∀ p, p < 7 → (enrPort s p).st = .down) →
      t.time = BitVec.ofNat 64 ((s.time.toNat / tickLen s + 1) * tickLen s)
        ∧ (s.time.toNat + tickLen s < 2 ^ 64 → tickNow t = tickNow s + 1)
        ∧ (drcState s ≠ dFILL → { t with time := s.time, hst := { t.hst with uioCells := s.hst.uioCells } } = s)))
    ∧ (∀ (f : BitVec 16) (s : State),
    (reaches s pgSLU = true → gated s pgSLU = false → busy s pgSLU = false →
      (∃ t, exec (.quarantine f) s = .next t ∧ (flowDyn t f.toNat).quarantined = true ∧ flowState t f.toNat = 3
          ∧ ((flowDyn s f.toNat).quarantined = false → f.toNat ∉ readyList t (fPriority s f.toNat) ∧ rdB t (irqA pgSLU) 3 = true)
          ∧ (∀ h, h ≠ f.toNat → flowDyn t h = flowDyn s h) ∧ t.slu.slots = s.slu.slots ∧ regsBut [irqA pgSLU] s t ∧ onlyWork s t)
        ∧ ((flowDyn s f.toNat).quarantined = true → ∃ t, exec (.flowReset f) s = .next t ∧ busy t pgSLU = true
          ∧ flowDyn t f.toNat = { flowDyn s f.toNat with resetting := true } ∧ (∀ h, h ≠ f.toNat → flowDyn t h = flowDyn s h)
          ∧ regsBut [statA pgSLU] s t ∧ onlyWork s t)
        ∧ ((flowDyn s f.toNat).quarantined = false → ∃ t, exec (.flowReset f) s = .next t ∧ rd t (errA pgSLU) = 0x0640
          ∧ regsBut [statA pgSLU, errA pgSLU] s t ∧ onlyRegs s t))
      ∧ ((flowDyn s f.toNat).resetting = true → ∃ t, exec (.flowResetDone f) s = .next t ∧ busy t pgSLU = false ∧ onlyWork s t
        ∧ (bpStill s → (flowDyn t f.toNat).quarantined = false ∧ (flowDyn t f.toNat).resetting = false ∧ (flowDyn t f.toNat).queue = [])))

/-- Arrival and delay (R187 to R189, R201): an item takes the lowest free slot with the next generation and joins its flow's queue; without one
it stays with its source; an entry leaves its delay list when it expires. A dispatch slot (R192, R194, R451): while dispatch is off, work is
held or the throttle forbids it the slot goes unused; else the flow picked is served at the pair selected, with a service record. -/
def Obligations.ArrivalDelayAndDispatch : Prop :=
  ((∀ (f : BitVec 16) (len : BitVec 13) (g d : BitVec 32) (m : Word) (b : BitVec 7) (r : BitVec 12) (s : State),
    (∃ t, exec (.itemArrival f len g d m b r) s = .next t ∧ onlyWork s t)
      ∧ (fHome s f.toNat = devIndex s → nextFree s = none → exec (.itemArrival f len g d m b r) s = .next s)
      ∧ (∀ k, fHome s f.toNat = devIndex s → nextFree s = some k → bpStill s → sluUe s 1 f.toNat 0 4 = false → fEn s f.toNat = true →
        (flowDyn s f.toNat).quarantined = false → fOperands s f.toNat = 0 → d = 0 → fDefer s f.toNat = 0 →
        ∃ t, exec (.itemArrival f len g d m b r) s = .next t ∧ (flowDyn t f.toNat).queue = (flowDyn s f.toNat).queue ++ [k]
          ∧ (slotOf t k).gen = (slotOf s k).gen + 1 ∧ (slotOf t k).place = .queued ∧ (slotOf t k).flow = f ∧ (slotOf t k).len = len.toNat
          ∧ (slotOf t k).mtag = g ∧ (slotOf t k).meta0 = m ∧ (slotOf t k).bank = b ∧ (slotOf t k).row = r
          ∧ (∀ j, j ≠ k → slotOf t j = slotOf s j) ∧ (∀ h, h ≠ f.toNat → flowDyn t h = flowDyn s h)
          ∧ t.slu.services = s.slu.services ∧ onlyWork s t))
    ∧ ∀ (list : Bool) (e : DelayEntry) (s : State), firstDelay s (!list) = some e →
      (e.expiry ≤ (tickNow s).toNat ∨ sluUe s 5 e.slot 0 2 = true → ∃ t, exec (.delayExpiry list) s = .next t ∧ onlyWork s t
        ∧ (bpStill s → s.slu.damage = [] → t.slu.delays = s.slu.delays.filter (fun d => decide (d ≠ e)) ∧ (slotOf t e.slot).place = .queued
          ∧ (flowDyn t (slotOf s e.slot).flow.toNat).queue = (flowDyn s (slotOf s e.slot).flow.toNat).queue ++ [e.slot]))
      ∧ ((tickNow s).toNat < e.expiry → s.slu.damage = [] → exec (.delayExpiry list) s = .next s))
    ∧ (∀ (b : Bool) (s : State),
    (rdB s (at' pgSLU 0x40) 0 = false ∨ workHeld s = true ∨ throttleAllows s = false → ∃ t, exec (.dispatch b) s = .next t
        ∧ t.thm.slots = (false :: s.thm.slots).take 31 ∧ { t with thm := { t.thm with slots := s.thm.slots } } = s)
      ∧ ∀ (u : State) (f k : Nat) (q : List Nat) (pair : Nat × Nat), rdB s (at' pgSLU 0x40) 0 = true → workHeld s = false →
        throttleAllows s = true → s.slu.damage = [] → u = touchReady (groupEmptyCheck s) → (pickFlow u).1 = some f → (flowDyn u f).queue = k :: q →
        (dispatchReads f k (pickFlow u).2).2 = true → selectPair (dispatchReads f k (pickFlow u).2).1 (fGroup s f) = some pair →
        (fSvcTo s f = 0 ∨ delayUsed (dispatchReads f k (pickFlow u).2).1 < 65536) → emberCondition (settle (dispatchSlot s)) = none →
        ∃ t v, exec (.dispatch b) s = .next t ∧ t.slu.services = s.slu.services ++ [v] ∧ v.id = s.slu.nextSvc ∧ v.slot = k
          ∧ v.flow = BitVec.ofNat 16 f ∧ v.dev.toNat = pairDev pair.2 ∧ v.basin.toNat = pairBasin pair.2
          ∧ v.plane.toNat = pairPlane pair.2 ∧ v.current = true ∧ v.draining = false ∧ v.deadline.isSome = decide (0 < fSvcTo s f)
          ∧ tget 0 (fGroup s f) t.slu.rotor = (pair.1 + 1) % 16 ∧ t.thm.slots = (true :: s.thm.slots).take 31 ∧ storesKept s t)

/-- The timeouts (R198, R205, R209): an incomplete set leaves the matching store; a service that times out ends, or drains where its flow is
atomic; a drain that times out puts its basin offline. Failover and offline bits (R210, R212): the staged outputs of the faulted basin are
discarded, then its services end; a bit of SLU_OFFLINE written 0 is cleared unless the basin's BSN_FAULT.VALID is 1, and a bit written 1 is
set. -/
def Obligations.TimeoutsAndFailover : Prop :=
  (∀ s : State,
    (∀ (f : BitVec 16) (g : BitVec 32) (m : MatchEntry) (d : Nat), s.slu.matching.find? (fun m => m.flow = f && m.mtag = g) = some m →
      m.deadline = some d → matchHead s m d = true → d ≤ (tickNow s).toNat → ∃ t, exec (.matchTimeout f g) s = .next t ∧ onlyWork s t
        ∧ (bpStill s → s.slu.damage = [] → t.slu.matching = s.slu.matching.filter fun k => decide (k ≠ m)))
      ∧ (∀ (id d : Nat) (v : Service), serviceOf s id = some v → v.deadline = some d → v.current = true → serviceFrozen s v = false → serviceHead s v d = true →
        s.slu.damage = [] → d ≤ (tickNow s).toNat → ∃ t, exec (.serviceTimeout id) s = .next t ∧ onlyWork s t
          ∧ t.slu.services = s.slu.services.filter (fun x => decide (x.id ≠ id)) ++ if fAtomic s v.flow.toNat = true
              then [{ v with current := false, draining := true, deadline := some ((tickNow s).toNat + fSvcTo s v.flow.toNat) }] else [])
      ∧ ∀ (id d : Nat) (v : Service), serviceOf s id = some v → v.deadline = some d → v.draining = true → serviceHead s v d = true →
        s.slu.damage = [] → d ≤ (tickNow s).toNat →
        (v.dev.toNat = devIndex s → ∃ t, exec (.drainTimeout id) s = .next t ∧ offline t v.basin.toNat = true
          ∧ tget 0 v.basin.toNat t.slu.failover ≠ 0 ∧ rdB t (irqA pgSLU) 0 = true
          ∧ regsBut [at' pgSLU 0x54, irqA pgSLU] s t ∧ onlyWork s t)
        ∧ (v.dev.toNat ≠ devIndex s → ∃ t, exec (.drainTimeout id) s = .next t
          ∧ t.slu.services = s.slu.services.filter (fun x => decide (x.id ≠ id)) ∧ onlyWork s t))
    ∧ ((∀ (l : Nat) (s : State),
    (tget 0 l s.slu.failover = 2 → ∃ t, exec (.stagedOutputDiscard l) s = .next t ∧ tget 0 l t.slu.failover = 3
        ∧ (∀ i ∈ (basinOf t (physOf s l)).items, i.outs = [] ∧ i.bound = false) ∧ (∀ k, k ≠ physOf s l → basinOf t k = basinOf s k)
        ∧ { basinOf t (physOf s l) with items := (basinOf s (physOf s l)).items } = basinOf s (physOf s l)
        ∧ (basinOf t (physOf s l)).items.map (·.handle) = (basinOf s (physOf s l)).items.map (·.handle)
        ∧ { t with fab := s.fab, slu := { t.slu with failover := s.slu.failover } } = s ∧ { t.fab with basins := s.fab.basins } = s.fab)
      ∧ (tget 0 l s.slu.failover = 3 → ∃ t, exec (.failoverReissue l) s = .next t
        ∧ (∀ v ∈ t.slu.services, ¬(v.dev.toNat = devIndex s ∧ v.basin.toNat = l)) ∧ (∀ g ∈ t.enr.guests, g.basin ≠ physOf s l)
        ∧ (tget 0 l t.slu.failover = 0 ∨ tget 0 l t.slu.failover = 4) ∧ onlyWork s t))
    ∧ ∀ (v : Reg) (s : State), reaches s pgSLU = true → gated s pgSLU = false → ∃ t, exec (.sluOfflineWrite v) s = .next t
      ∧ (∀ l, l < 32 → offline t l = (bit v l || (offline s l && faultValid s l)))
      ∧ (∀ l, l < 32 → bit v l = false → offline s l = true → faultValid s l = true →
          rd t (errA pgSLU) = 0x0641 ∧ rdB t (statA pgSLU) 2 = true)
      ∧ (∀ l, l < 32 → bit v l = true → offline s l = false → rdB t (irqA pgSLU) 0 = true ∧ tget 0 l t.slu.cause = 0x0613)
      ∧ regsBut [at' pgSLU 0x54, irqA pgSLU, statA pgSLU, errA pgSLU] s t ∧ { t.slu with cause := s.slu.cause, flows := s.slu.flows, damage := s.slu.damage } = s.slu
      ∧ onlyWork s t)

/-- A corrected rewrite (R461): where the unit reads no uncorrectable codeword, every correctable codeword of it becomes valid, all others stay,
and BUSY is 1 until REWRITE_DONE; else it is refused and nothing is written. The end of a rewrite (R475), a cleared tracker (R467), a sweep
that logs and changes nothing (R318, R460), and the close of a window (R465). -/
def Obligations.CorrectableErrors : Prop :=
  (∀ (v : Reg) (s : State), reaches s pgECC = true → gated s pgECC = false → busy s pgECC = false → fld v 30 2 = 1 →
    ∀ a, a = rdF s (at' pgECC 0x4C) 0 32 + rdF s (at' pgECC 0x50) 0 8 * 2 ^ 32 →
      (∀ n x p, fld v 26 4 = 0 → planeUnit a = (n, x, p) → n ≤ 33 → unitLoading s n p = false →
        ((∀ c ∈ unitCodes s n x p, (decode72 c.2).isUe = false) → ∃ t, exec (.rewrite v) s = .next t ∧ busy t pgECC = true
          ∧ (∀ w, w < 36 → p < 16 → planeCode t (xk n x) p w = rewritten (planeCode s (xk n x) p w))
          ∧ (p = 16 → tget 0 (xk n x) t.fab.frames = rewritten (tget 0 (xk n x) s.fab.frames))
          ∧ (∀ k q w, q < 16 → w < 64 → (k ≠ xk n x ∨ q ≠ p ∨ 36 ≤ w) → planeCode t k q w = planeCode s k q w)
          ∧ (∀ k, (k ≠ xk n x ∨ p ≠ 16) → tget 0 k t.fab.frames = tget 0 k s.fab.frames)
          ∧ { t.fab with planes := s.fab.planes, frames := s.fab.frames } = s.fab ∧ onlyWork s { t with fab := s.fab })
        ∧ ((∃ c ∈ unitCodes s n x p, (decode72 c.2).isUe = true) → ∃ t, exec (.rewrite v) s = .next t ∧ rd t (errA pgECC) = 0x0E11
          ∧ busy t pgECC = false ∧ t.fab = s.fab ∧ onlyWork s t))
      ∧ (fld v 26 4 = 3 → twf 0 s.mem.rows = true → (bankOf s (a / 2 ^ 19 % 128)).typ ≠ 15 → (rowData s (a / 2 ^ 19 % 128) (a / 2 ^ 7 % 4096)).2 = [] →
        (∀ d ∈ rowDamage s (a / 2 ^ 19 % 128) (a / 2 ^ 7 % 4096), d.ue = false) →
        ∃ t, exec (.rewrite v) s = .next t ∧ busy t pgECC = true
          ∧ (∀ b r w, r < 4096 → w < 128 → rowCode t b r w = if b = a / 2 ^ 19 % 128 ∧ r = a / 2 ^ 7 % 4096
              then rewritten (rowCode s b r w) else rowCode s b r w)
          ∧ (∀ d, d ∈ t.slu.damage ↔ d ∈ s.slu.damage ∧ d ∉ rowDamage s (a / 2 ^ 19 % 128) (a / 2 ^ 7 % 4096))
          ∧ onlyWork s { t with slu := { t.slu with damage := s.slu.damage } }))
    ∧ ((∀ s : State, s.ecc.rewrite.isSome = true → ∃ t, exec .rewriteDone s = .next t ∧ busy t pgECC = false ∧ t.ecc.rewrite = none
      ∧ rdB t (irqA pgECC) 3 = true ∧ regsBut [statA pgECC, irqA pgECC] s t ∧ storesKept s t)
    ∧ (∀ s : State, reaches s pgECC = true → gated s pgECC = false → ∃ t, exec .eccTrackClr s = .next t ∧ t.ecc.track = []
      ∧ { t with ecc := { t.ecc with track := s.ecc.track } } = s)
    ∧ (∀ (k : BitVec 4) (a : BitVec 40) (s : State), ∃ t, exec (.patrolSweep k a) s = .next t
      ∧ { t with free := s.free, outbox := s.outbox, regs := s.regs, ecc := s.ecc, hst := { t.hst with msixPend := s.hst.msixPend } } = s
      ∧ (∀ d y, k = 3 → s.slu.damage = [] → rdB s (at' pgECC 0x40) 30 = true → bankAwake s (a.toNat / 2 ^ 19 % 128) = true →
          (bankOf s (a.toNat / 2 ^ 19 % 128)).typ ≠ 0 → (bankOf s (a.toNat / 2 ^ 19 % 128)).typ ≠ 15 →
          decode72 (rowCode s (a.toNat / 2 ^ 19 % 128) (a.toNat / 2 ^ 7 % 4096) (a.toNat % 128)) = .corrected d y →
          rdF t 0xA20C 0 16 = satAdd (rdF s 0xA20C 0 16) 1 65535))
    ∧ ∀ s : State,
      (∃ t, exec (.windowClose 0) s = .next t ∧ t.ecc.track.map (fun k => (k.kind, k.unit, k.win, k.last))
          = s.ecc.track.map (fun k => (k.kind, k.unit, k.win.close (rdF s (at' pgECC 0x44) 0 8), k.last))
        ∧ { t with ecc := { t.ecc with track := s.ecc.track } } = s)
      ∧ (∃ t, exec (.windowClose 1) s = .next t
        ∧ (∀ l, l < 32 → tget Win.zero l t.slu.windows = (tget Win.zero l s.slu.windows).close (toWindowK s))
        ∧ { t with slu := { t.slu with windows := s.slu.windows } } = s)
      ∧ ∃ t, exec (.windowClose 2) s = .next t ∧ t.sec.alarms = s.sec.alarms.close 3
        ∧ { t with sec := { t.sec with alarms := s.sec.alarms, alarmCts := s.sec.alarmCts } } = s)

/-- An LBIST run from START to its end (R470 to R472): the basin goes offline and drains; the run passes where every pan has the golden
signature; no stored word of the fabric or the memory changes over the run. MBIST of D2 (R474): it runs on a spare basin or a halted one
without loaded planes, and leaves every plane and the frame plane of the basin BLANK and 0. -/
def Obligations.SelfTestOfBasins : Prop :=
  (∀ s : State,
    (∀ (v : Reg) (l : Nat), reaches s pgBIST = true → gated s pgBIST = false → busy s pgBIST = false → fld v 30 2 = 1 → l = fld v 0 6 →
      l < 32 → bistConditions s = true → bistRunning s = false → (bankOf s (fld v 7 7)).typ = 7 → s.mem.saved ≠ some (fld v 7 7) →
      basinLoading s (physOf s l) = false → ∃ t, exec (.lbist v) s = .next t ∧ busy t pgBIST = true ∧ t.ecc.phase = .drain
        ∧ rdF t bistStatA 8 4 = 1 ∧ rdF t bistStatA 0 6 = l ∧ offline t l = true ∧ t.mem.saved = some (fld v 7 7)
        ∧ t.ecc.wasOff = offline s l ∧ regsBut [statA pgBIST, bistStatA, at' pgSLU 0x54, irqA pgSLU] s t ∧ storesKept s t)
      ∧ (s.ecc.phase = .drain → inService s s.ecc.bistL = 0 → basinIdle s s.ecc.bistP = true → (basinOf s s.ecc.bistP).power = .run →
        ∃ t, exec .lbistDrainDone s = .next t ∧ t.ecc.phase = .save ∧ rdF t bistStatA 8 4 = 2 ∧ regsBut [bistStatA] s t
          ∧ { t with regs := s.regs, ecc := { t.ecc with phase := s.ecc.phase } } = s)
      ∧ (s.ecc.phase = .drain → ∃ t, exec .lbistDrainTimeout s = .next t ∧ t.ecc.phase = .none ∧ busy t pgBIST = false
        ∧ rd t (errA pgBIST) = 0x0E03 ∧ rdB t bistStatA 15 = false ∧ t.mem.saved = none ∧ rdB t (irqA pgBIST) 1 = true
        ∧ (s.ecc.wasOff = false → s.ecc.bistL < 32 → faultValid s s.ecc.bistL = false → offline t s.ecc.bistL = false)
        ∧ regsBut [statA pgBIST, errA pgBIST, irqA pgBIST, bistStatA, at' pgSLU 0x54] s t ∧ storesKept s t)
      ∧ (s.ecc.phase = .save → ∃ t, exec .lbistSaveDone s = .next t ∧ t.ecc.phase = .test ∧ rdF t bistStatA 8 4 = 3
        ∧ regsBut [bistStatA] s t ∧ { t with regs := s.regs, ecc := { t.ecc with phase := s.ecc.phase } } = s)
      ∧ (s.ecc.phase = .test → ∀ g : List (BitVec 64), ∃ t, exec (.lbistTestDone g) s = .next t ∧ t.ecc.phase = .restore
        ∧ (∀ p, p < 16 → rdB t bistStatA (16 + p) = decide (g[p]? = some (Config.goldenSignature (b2n s.ecc.patterns))))
        ∧ (∀ p, p < 16 → bit t.ecc.passed p = rdB t bistStatA (16 + p)) ∧ rdF t bistStatA 8 4 = 4
        ∧ regsBut [bistStatA] s t ∧ { t with regs := s.regs, ecc := { t.ecc with phase := s.ecc.phase, passed := s.ecc.passed } } = s)
      ∧ (s.ecc.phase = .restore → ∃ t, exec .lbistRestoreDone s = .next t ∧ t.ecc.phase = .none ∧ busy t pgBIST = false
        ∧ rdB t bistStatA 15 = decide (s.ecc.passed = 0xFFFF) ∧ rdB t (irqA pgBIST) 1 = true ∧ t.mem.saved = none
        ∧ (s.ecc.passed = 0xFFFF → s.ecc.wasOff = false → s.ecc.bistL < 32 → faultValid s s.ecc.bistL = false →
            offline t s.ecc.bistL = false)
        ∧ (s.ecc.passed ≠ 0xFFFF → (s.ecc.bistL < 32 → offline t s.ecc.bistL = true) ∧ tget 0 s.ecc.bistL t.slu.cause = 0x0612
            ∧ rdB t (at' (pgBSN s.ecc.bistP) 0x50) 31 = true ∧ rdB t (irqA pgBIST) 0 = true)
        ∧ storesKept s t))
    ∧ (∀ s : State,
    (∀ (v : Reg) (n : Nat), reaches s pgBIST = true → gated s pgBIST = false → busy s pgBIST = false → fld v 30 2 = 2 → n = fld v 0 6 →
      n < 34 → bistConditions s = true → bistRunning s = false → basinLoading s n = false →
      (spareBasin s n = true ∨ halted s n = true ∧ basinUnloaded s n = true → ∃ t, exec (.mbistD2 v) s = .next t ∧ busy t pgBIST = true
        ∧ t.ecc.phase = .d2 ∧ t.ecc.bistP = n ∧ rdF t bistStatA 8 4 = 5 ∧ rdF t bistStatA 0 6 = n ∧ regsBut [statA pgBIST, bistStatA] s t
        ∧ { t with regs := s.regs, ecc := { t.ecc with phase := s.ecc.phase, bistP := s.ecc.bistP } } = s)
      ∧ (spareBasin s n = false → (halted s n = false ∨ basinUnloaded s n = false) → ∃ t, exec (.mbistD2 v) s = .next t
        ∧ rd t (errA pgBIST) = 0x0E05 ∧ regsBut [statA pgBIST, errA pgBIST] s t ∧ onlyRegs s t))
      ∧ (s.ecc.phase = .d2 → s.ecc.bistP < 34 → ∀ fs : List (BitVec 32), ∃ t, exec (.mbistD2Done fs) s = .next t ∧ t.ecc.phase = .none
        ∧ busy t pgBIST = false ∧ rdB t bistStatA 15 = decide (fs = []) ∧ rdB t (irqA pgBIST) 1 = true
        ∧ (∀ p, p < 16 → planeInfo t s.ecc.bistP p = ⟨.blank, 0, none⟩) ∧ (basinOf t s.ecc.bistP).frame.st = .blank
        ∧ (∀ x p w, x < 512 → p < 16 → w < 64 → planeCode t (xk s.ecc.bistP x) p w = 0)
        ∧ (∀ x, x < 512 → tget 0 (xk s.ecc.bistP x) t.fab.frames = 0)
        ∧ (∀ k p w, p < 16 → w < 64 → k / 512 ≠ s.ecc.bistP → planeCode t k p w = planeCode s k p w)
        ∧ (∀ i, i < 16 → rdB t (at' pgBIST (0x80 + 4 * i)) 31 = decide (i < fs.length))
        ∧ t.mem.rows = s.mem.rows ∧ t.drm = s.drm ∧ t.slu = s.slu))

/-- Ownership of banks (R323 to R325): a handover keeps the owner until it is done, then changes it and clears the bank's rows where CLEAR or
RETIRED asks for it; a bank in use is refused; a write that keeps the owner changes DRAIN alone. Retention (R326, R327), self-test and
repair of the banks (R329, R330): a bank that MBIST or a repair has gone over reads 0 in every row. -/
def Obligations.StateBanks : Prop :=
  (∀ (n : BitVec 7) (s : State),
    (∀ v : Reg, reaches s pgBANK = true → gated s pgBANK = false → busy s pgBANK = false → ownerTypes.contains (fld v 0 4) = true →
      ¬(112 ≤ n.toNat ∧ n.toNat < 120 ∧ dispatchOn s = true) →
      ((fld v 0 4 ≠ (bankOf s n.toNat).typ ∨ fld v 8 5 ≠ (bankOf s n.toNat).basin) →
        (bankInUse s n.toNat (fld v 0 4) = false → ∃ t, exec (.handover n v) s = .next t ∧ busy t pgBANK = true
          ∧ bankOf t n.toNat = { bankOf s n.toNat with
              target := some (fld v 0 4, fld v 8 5, bit v 29 || decide ((bankOf s n.toNat).typ = 15)) }
          ∧ (∀ k, k ≠ n.toNat → bankOf t k = bankOf s k) ∧ t.mem.rows = s.mem.rows ∧ regsBut [statA pgBANK] s t ∧ onlyWork s t)
        ∧ (bankInUse s n.toNat (fld v 0 4) = true → ∃ t, exec (.handover n v) s = .next t ∧ rd t (errA pgBANK) = 0x0902
          ∧ rdB t (statA pgBANK) 2 = true ∧ regsBut [statA pgBANK, errA pgBANK] s t ∧ onlyRegs s t))
      ∧ (fld v 0 4 = (bankOf s n.toNat).typ → fld v 8 5 = (bankOf s n.toNat).basin → ∃ t, exec (.drainWrite n v) s = .next t
          ∧ bankOf t n.toNat = { bankOf s n.toNat with drain := bit v 30 } ∧ (∀ k, k ≠ n.toNat → bankOf t k = bankOf s k)
          ∧ t.mem.rows = s.mem.rows ∧ t.regs = s.regs ∧ onlyWork s t))
      ∧ ∀ typ basin clr, (bankOf s n.toNat).target = some (typ, basin, clr) → bankPending s n.toNat = false →
        ∃ t, exec (.handoverDone n) s = .next t
        ∧ (bankOf t n.toNat).typ = typ ∧ (bankOf t n.toNat).basin = basin ∧ (bankOf t n.toNat).drain = false
        ∧ (bankOf t n.toNat).target = none ∧ busy t pgBANK = false ∧ rdB t (irqA pgBANK) 0 = true
        ∧ (∀ b r w, r < 4096 → w < 128 → rowCode t b r w = if b = n.toNat ∧ (clr = true ∨ typ = 15) then 0 else rowCode s b r w)
        ∧ (∀ k, k ≠ n.toNat → bankOf t k = bankOf s k) ∧ regsBut [statA pgBANK, irqA pgBANK] s t ∧ onlyWork s t)
    ∧ (∀ (n : BitVec 7) (s : State),
    (mayRetain s n.toNat = true → ∃ t, exec (.retentionEntry n) s = .next t ∧ bankOf t n.toNat = { bankOf s n.toNat with ret := true }
        ∧ (∀ k, k ≠ n.toNat → bankOf t k = bankOf s k) ∧ { t with mem := { t.mem with banks := s.mem.banks } } = s)
      ∧ (s.enr.stalled = [] → s.mem.host = [] → ∃ t, exec (.bankWakeDone n) s = .next t ∧ bankOf t n.toNat = { bankOf s n.toNat with waking := false }
        ∧ (∀ k, k ≠ n.toNat → bankOf t k = bankOf s k) ∧ { t with mem := { t.mem with banks := s.mem.banks } } = s)
      ∧ (∀ (k : BitVec 2) (v : Reg), reaches s pgBANK = true → gated s pgBANK = false → ∃ t, exec (.bankRetWrite k v) s = .next t
        ∧ rd t (at' pgBANK (0x50 + 4 * k.toNat)) = v ∧ regsBut [at' pgBANK (0x50 + 4 * k.toNat)] s t ∧ t.mem.rows = s.mem.rows
        ∧ (∀ i, bankOf t i = if i / 32 = k.toNat ∧ rdB s (at' pgBANK (0x50 + 4 * k.toNat)) (i % 32) = true ∧ bit v (i % 32) = false
            ∧ (bankOf s i).ret = true then { bankOf s i with ret := false, waking := true } else bankOf s i) ∧ onlyWork s t)
      ∧ (reaches s pgBANK = true → gated s pgBANK = false → busy s pgBANK = false →
        ((bankOf s n.toNat).typ = 7 → s.mem.saved ≠ some n.toNat → ∃ t, exec (.mbistStart n) s = .next t ∧ busy t pgBANK = true
          ∧ t.mem.mbist = some n.toNat ∧ t.mem.rows = s.mem.rows ∧ t.mem.banks = s.mem.banks ∧ regsBut [statA pgBANK] s t ∧ onlyWork s t)
        ∧ (∀ (k : BitVec 3) (a : BitVec 14), ((bankOf s n.toNat).typ = 7 ∨ (bankOf s n.toNat).typ = 0) →
          (a.toNat < 4096 → (∀ p ∈ (bankOf s n.toNat).rows, p.1 ≠ k.toNat) → ∃ t, exec (.spareRow n k a) s = .next t
            ∧ busy t pgBANK = true ∧ bankOf t n.toNat
                = { bankOf s n.toNat with rows := (bankOf s n.toNat).rows ++ [(k.toNat, a.toNat)], clearing := true }
            ∧ t.mem.rows = s.mem.rows ∧ regsBut [statA pgBANK] s t ∧ onlyWork s t)
          ∧ (a.toNat < 9216 → k.toNat < 4 → (∀ p ∈ (bankOf s n.toNat).cols, p.1 ≠ k.toNat) → ∃ t, exec (.spareColumn n k a) s = .next t
            ∧ busy t pgBANK = true ∧ bankOf t n.toNat
                = { bankOf s n.toNat with cols := (bankOf s n.toNat).cols ++ [(k.toNat, a.toNat)], clearing := true }
            ∧ t.mem.rows = s.mem.rows ∧ regsBut [statA pgBANK] s t ∧ onlyWork s t)))
      ∧ ((bankOf s n.toNat).clearing = true → ∃ t, exec (.repairClearDone n) s = .next t ∧ busy t pgBANK = false
        ∧ (bankOf t n.toNat).clearing = false ∧ (∀ b r w, r < 4096 → w < 128 → rowCode t b r w = if b = n.toNat then 0 else rowCode s b r w)
        ∧ regsBut [statA pgBANK] s t ∧ onlyWork s t)
      ∧ ∀ (b : Nat) (fs : List (Nat × List Nat)), s.mem.mbist = some b → ∃ t, exec (.mbistDone fs) s = .next t ∧ busy t pgBANK = false
        ∧ t.mem.mbist = none ∧ t.mem.banks = s.mem.banks ∧ rdB t (irqA pgBANK) 2 = true
        ∧ (∀ c r w, r < 4096 → w < 128 → rowCode t c r w = if c = b then 0 else rowCode s c r w)
        ∧ (∀ i, i < 16 → rd t (at' pgBANK (0x80 + 4 * i)) = BitVec.ofNat 32 ((mbistRecords fs).getD i 0))
        ∧ (∀ a, a / 0x1000 ≠ pgBANK → rd t a = rd s a) ∧ onlyWork s t)

/-- The window of BAR 2 (R328): a read of rows that HOST owns gives their bytes, poisoned where a requested byte is uncorrectable; a write of
them changes no other row; what HOST does not own is refused; while a bank of it wakes the request waits (R327). -/
def Obligations.HostMemoryWindow : Prop :=
  ∀ (off : BitVec 29) (s : State), s.hst.d3 = false → s.mod.dieReset ≠ some 4 →
    (∀ len, (∀ p ∈ bar2Rows off.toNat len, bankOwned s p.1 6 0 = true ∧ bankAwake s p.1 = true) → s.mem.host = [] →
      ((∀ p ∈ bar2Rows off.toNat len, (rowData s p.1 p.2).2 = []) → ∃ t l, exec (.bar2Read off len) s = .next t
        ∧ t.outbox = .readBytes off.toNat ((readBytes s (off.toNat / 1024 / 4096 % 128) (off.toNat / 1024 % 4096)
            (off.toNat % 1024 + len)).1.drop (off.toNat % 1024)) :: l
        ∧ t.mem.rows = s.mem.rows ∧ onlyWork s t)
      ∧ ((∃ p ∈ bar2Rows off.toNat len, rowUe s p.1 p.2 0 1024 = true) → off.toNat % 1024 = 0 → len % 1024 = 0 → 0 < len →
        ∃ t l, exec (.bar2Read off len) s = .next t ∧ t.outbox = .readPoisoned off.toNat :: l ∧ t.mem.rows = s.mem.rows ∧ onlyWork s t))
      ∧ (∀ len, (∃ p ∈ bar2Rows off.toNat len, bankOwned s p.1 6 0 = false) → ∃ t l, exec (.bar2Read off len) s = .next t
        ∧ t.outbox = .completerAbort off.toNat :: l ∧ t.mem = s.mem ∧ onlyWork s t)
      ∧ (∀ len, (∀ p ∈ bar2Rows off.toNat len, bankOwned s p.1 6 0 = true ∧ (bankOf s p.1).ret = false) →
        (∃ p ∈ bar2Rows off.toNat len, (bankOf s p.1).waking = true) →
        exec (.bar2Read off len) s = .next { s with mem := { s.mem with host := s.mem.host ++ [.read off.toNat len] } })
      ∧ ∀ bs : List (Option Byte),
        ((∀ p ∈ bar2Rows off.toNat bs.length, bankOwned s p.1 6 0 = true ∧ bankAwake s p.1 = true) → s.mem.host = [] → ∃ t, exec (.bar2Write off bs) s = .next t
          ∧ (∀ b r w, r < 4096 → w < 128 → (b, r) ∉ bar2Rows off.toNat bs.length → rowCode t b r w = rowCode s b r w)
          ∧ (∀ d : Word, off.toNat % 8 = 0 → bs = (toBytes 8 d).map some → ∀ b r w, r < 4096 → w < 128 →
              rowCode t b r w = if b = off.toNat / 1024 / 4096 % 128 ∧ r = off.toNat / 1024 % 4096 ∧ w = off.toNat % 1024 / 8
                then encCode d else rowCode s b r w)
          ∧ onlyWork s t)
        ∧ ((∃ p ∈ bar2Rows off.toNat bs.length, bankOwned s p.1 6 0 = false) → ∃ t, exec (.bar2Write off bs) s = .next t
          ∧ t.mem = s.mem ∧ rdB t (irqA pgBANK) 1 = true ∧ rdB t (at' pgBANK 0x40) 31 = true ∧ onlyWork s t)

/-- QUAD_CFG, LANE_CTRL and LANE_PROT (R15, R218, R229, R245, R253): a legal write is stored, a write that the lanes' state forbids changes
nothing but FAULT and ERR_CAUSE; a lane enabled with a valid rung enters its top rung in SEEK. -/
def Obligations.LaneSettings : Prop :=
  ∀ (l : Nat) (v : Reg) (s : State), l < 144 → reaches s (pgQUAD (l / 4)) = true → gated s (pgQUAD (l / 4)) = false →
    (∀ x, writtenValue s (quadCfgA (l / 4)) v = (x, false) → ¬(l / 4 % 2 = 1 ∧ fld x 2 2 = 3) → x ≠ rd s (quadCfgA (l / 4)) →
      ((∀ m ∈ quadAffected s (l / 4) (fld x 2 2), laneStateOf s m = .disabled) → bit x 0 = rdB s (quadCfgA (l / 4)) 0 →
        ¬(fld x 2 2 = 3 ∧ rdF s (quadCfgA (l / 4)) 2 2 ≠ 3 ∧ enrusQuad s (l / 4 + 1) = true) →
        ∃ t, exec (.quadCfgWrite (l / 4) v) s = .next t ∧ rd t (quadCfgA (l / 4)) = x ∧ onlyWork s t)
      ∧ ((∃ m ∈ quadAffected s (l / 4) (fld x 2 2), laneStateOf s m ≠ .disabled) → ∃ t, exec (.quadCfgWrite (l / 4) v) s = .next t
        ∧ rd t (errA (pgQUAD (l / 4))) = 0x0701 ∧ rdB t (statA (pgQUAD (l / 4))) 2 = true
        ∧ regsBut [statA (pgQUAD (l / 4)), errA (pgQUAD (l / 4))] s t ∧ onlyRegs s t))
      ∧ (∀ x, writtenValue s (laneA l 0) v = (x, false) →
        (diagSelected x = false → ∃ t, exec (.laneCtrlWrite l v) s = .next t ∧ rd t (laneA l 0) = x ∧ onlyWork s t
          ∧ (∀ k, (laneOf s l).state = .disabled → groupSize s l = 1 → bit x 0 = true → enrusQuad s (l / 4) = false → modeOf s ≠ mEMBER →
              rdB s 0x7060 14 = false → l ∉ s.lan.dead → 4 + l / 4 ∉ s.clk.failed →
              topRung (wr (laneA l 0) x s) l = some k → rungV s (l / 4) k = true →
              (laneOf t l).state = .seek ∧ (laneOf t l).rung = k ∧ (laneOf t l).rung0 = rungW s (l / 4) k 0
                ∧ (laneOf t l).rung1 = rungW s (l / 4) k 1 ∧ (laneOf t l).mkr = false ∧ (laneOf t l).cdr = false))
        ∧ (diagSelected x = true → ¬(bit x 27 = true ∧ rungV s (l / 4) (fld x 28 4) = true) → ∃ t, exec (.laneCtrlWrite l v) s = .next t
          ∧ rd t (errA (pgQUAD (l / 4))) = 0x0708 ∧ regsBut [statA (pgQUAD (l / 4)), errA (pgQUAD (l / 4))] s t ∧ onlyRegs s t))
      ∧ ∀ x, writtenValue s (protA l) v = (x, false) → ¬(bit x 28 = true ∧ fld x 0 16 = 0) → fld v 24 2 = 0 → x ≠ rd s (protA l) →
        ((∀ m ∈ l :: (protNames (rd s (protA l)) ++ protNames x), m < 144 → rdB s (laneA m 0) 0 = false) →
          (bit x 31 = true → ∀ m ∈ l :: protNames x, m < 144 → groupSize s m ≤ 1) →
          ∃ t, exec (.laneProtWrite l v) s = .next t ∧ rd t (protA l) = x ∧ regsBut [protA l] s t ∧ onlyRegs s t)
        ∧ ((∃ m ∈ l :: (protNames (rd s (protA l)) ++ protNames x), m < 144 ∧ rdB s (laneA m 0) 0 = true) →
          ∃ t, exec (.laneProtWrite l v) s = .next t ∧ rd t (errA (pgQUAD (l / 4))) = 0x070B
            ∧ regsBut [statA (pgQUAD (l / 4)), errA (pgQUAD (l / 4))] s t ∧ onlyRegs s t)

/-- The lane machine (R228 to R231): the dwell moves a seeking lane to the next rung, the lock criteria take it to LOCKED with LINK_CHANGE, a
loss back to its top rung, the polarity test decides once per entry, and a marker counts toward marker lock. -/
def Obligations.LaneMachine : Prop :=
  ∀ (l m : Nat) (s : State), m = leadOf s l → enrusQuad s (l / 4) = false →
    (∀ k w, (laneOf s m).state = .seek → laneForce s m = false → nextRung s m (laneOf s m).rung = some (k, w) → leadOf s m = m →
      ∃ t, exec (.dwellExpiry l) s = .next t ∧ (laneOf t m).state = .seek ∧ (laneOf t m).rung = k
        ∧ (laneOf t m).rung0 = rungW s (m / 4) k 0 ∧ (laneOf t m).rung1 = rungW s (m / 4) k 1
        ∧ (laneOf t m).walks = (if w = true then satAdd (laneOf s m).walks 1 4095 else (laneOf s m).walks)
        ∧ (laneOf t m).cdr = false ∧ (laneOf t m).mkr = false ∧ (laneOf t m).polDone = false
        ∧ (∀ j, j ∉ laneGroup s m → laneOf t j = laneOf s j)
        ∧ { t with regs := s.regs, lan := { t.lan with lanes := s.lan.lanes, txNext := s.lan.txNext } } = s
        ∧ ∀ a, (∀ j ∈ laneGroup s m, a / 0x1000 ≠ pgQUAD (j / 4)) → rd t a = rd s a)
      ∧ ((laneOf s m).state = .seek → (laneMk (laneOf s m) = 0 ∨ markersLocked s m = true) → bondOk s m = true → leadOf s m = m →
        ∃ t, exec (.laneLock l) s = .next t ∧ (laneOf t m).state = .locked ∧ (laneOf t m).cdr = true ∧ (laneOf t m).los = false
          ∧ (laneOf t m).rung = (laneOf s m).rung ∧ rdB t (irqA (pgQUAD (m / 4))) 0 = true ∧ (∀ j, j ≠ m → laneOf t j = laneOf s j)
          ∧ (∀ a, a ≠ irqA (pgQUAD (m / 4)) → (∀ j ∈ laneGroup s m, ∀ k, a ≠ detailA j k) → rd t a = rd s a)
          ∧ onlyHost s { t with lan := s.lan, free := s.free })
      ∧ (∀ r : BitVec 4, (laneOf s m).state = .locked → modeOf s ≠ mSIMMER → 1 ≤ r.toNat → r.toNat ≤ 4 → m < 144 →
        ∃ t, exec (.lockLost l r) s = .next t ∧ (laneOf t m).state = (if (topRung s m).isSome = true then .seek else .noRung)
          ∧ rdB t (irqA (pgQUAD (m / 4))) 0 = true ∧ t.fab = s.fab ∧ t.drm = s.drm ∧ t.cfc = s.cfc ∧ t.mod = s.mod)
      ∧ (∀ n : BitVec 7, (laneOf s m).state = .seek → bit (laneOf s m).rung0 52 = true → laneEnc (laneOf s m) ≠ 0 →
        (laneOf s l).polDone = false → ∃ t, exec (.polarityTest l n) s = .next t ∧ (laneOf t l).polDone = true
          ∧ (laneOf t l).polInv = ((laneOf s l).polInv || decide (48 ≤ n.toNat)) ∧ (laneOf t m).state = .seek
          ∧ (∀ j, j ≠ l → laneOf t j = laneOf s j) ∧ { t with lan := { t.lan with lanes := s.lan.lanes } } = s)
      ∧ ∀ (w : Word) (g : Bool) (ns j : Nat), (laneOf s m).state = .seek ∨ (laneOf s m).state = .locked → laneMk (laneOf s m) ≠ 0 →
        ((laneOf s l).polDone = true ∨ bit (laneOf s m).rung0 52 = false) → markerLane (laneMk (laneOf s m)) w = some j →
        ((j < groupSize s l → (laneMk (laneOf s m) = 2 ∨ g = true) → ∃ t, exec (.markerReceive l w g ns) s = .next t
            ∧ (laneOf t l).mkGood = (laneOf s l).mkGood + 1 ∧ (laneOf t l).mkBad = 0 ∧ (laneOf t l).logical = j
            ∧ (laneOf t l).mkr = ((laneOf s l).mkr && decide (0 < fld (laneOf s m).rung1 36 4)
                || !(laneOf s l).mkr && decide (fld (laneOf s m).rung1 32 4 ≤ (laneOf s l).mkGood + 1))
            ∧ t.fab = s.fab ∧ t.drm = s.drm ∧ t.cfc = s.cfc ∧ t.mod = s.mod)
          ∧ (groupSize s l ≤ j → ∃ t, exec (.markerReceive l w g ns) s = .next t ∧ (laneOf t l).mkGood = 0
            ∧ (laneOf t l).mkBad = (laneOf s l).mkBad + 1 ∧ (∀ k, k ≠ l → laneOf t k = laneOf s k)
            ∧ regsBut [statA (pgQUAD (m / 4)), errA (pgQUAD (m / 4))] s t))

/-- Intake and egress (R236 to R242): a short frame with its partner becomes a record of a segment in a free row group, an open segment closes
when its flush time passes, the head of the highest class goes out on the lanes that carry it or is counted as dropped. -/
def Obligations.IntakeAndEgress : Prop :=
  ∀ (l : Nat) (s : State),
    (∀ (bs : List Byte) (e : Bool) (y c w p g : Nat) (b : BitVec 6), (laneOf s (leadOf s l)).state = .locked → workHeld s = false →
      rxFor s (leadOf s l) = some w → laneEnc (laneOf s (leadOf s l)) ≠ 0 → incomingOf s w = none → bs ≠ [] →
      bs.length ≤ bundleMax s w → b = subOf (laneOf s (leadOf s l)).rung0 bs → findPartner s w b.toNat = some p → s.slu.damage = [] →
      openSeg s w b = none → freeGroup s 2 = some g → (∀ k, k < 128 → (bankOf s k).target = none ∧ (bankOf s k).ret = false) →
      ∃ t q, exec (.frameReceive l bs e y c true) s = .next t ∧ openSeg t w b = some q
        ∧ q.bytes = recordBytes (tick32 s) false (e || decide (0 < c)) bs ∧ q.partner = p ∧ q.bank = g / 1024
        ∧ q.row = g % 1024 * 4 ∧ q.records = true ∧ t.lan.groups = g :: s.lan.groups
        ∧ rdF t (laneA (leadOf s l) 0x18) 0 32 = satAdd (rdF s (laneA (leadOf s l) 0x18) 0 32) y (2 ^ 32 - 1)
        ∧ rdF t (laneA (leadOf s l) 0x1C) 0 32 = satAdd (rdF s (laneA (leadOf s l) 0x1C) 0 32) c (2 ^ 32 - 1)
        ∧ regsBut [laneA (leadOf s l) 0x18, laneA (leadOf s l) 0x1C] s t
        ∧ { t with regs := s.regs, lan := s.lan } = s)
      ∧ (∀ (b : BitVec 6) (g : Segment), openSeg s l b = some g → g.lane < 144 → ∃ t, exec (.segmentFlush l b) s = .next t
        ∧ openSeg t l b = none ∧ (∀ k c, (k ≠ l ∨ c ≠ b) → openSeg t k c = openSeg s k c) ∧ onlyWork s t)
      ∧ ∀ (c : Nat) (o : Egress) (q : List Egress), c < 8 → egressOf s l c = o :: q → (∀ d, c < d → d < 8 → egressOf s l d = []) →
        (laneUp s (carrier s l) = true → laneEnc (laneOf s (leadOf s (carrier s l))) ≠ 0 → fld o.meta0 62 2 = 0 →
            exec (.egressSend l) s = .next (sendFrame l o.bytes (setEgress l c q s)))
          ∧ (∀ outs, laneUp s (carrier s l) = true → (∀ k ∈ txLanes s l, laneEnc (laneOf s k) ≠ 2) →
            (fld o.meta0 62 2 = 0 ∧ laneEnc (laneOf s (leadOf s (carrier s l))) ≠ 0 ∧ outs = (txLanes s l).map (fun k => Out.frame k o.bytes)
              ∨ fld o.meta0 62 2 = 2 ∧ laneEnc (laneOf s (leadOf s (carrier s l))) = 0 ∧ outs = (txLanes s l).map (fun k => Out.raw k o.bytes)
              ∨ fld o.meta0 62 2 = 1 ∧ laneEnc (laneOf s (leadOf s (carrier s l))) ≠ 0 ∧ outs = (recordFrames (o.bytes.length / 8 + 1) o.bytes).flatMap
                  (fun f => (txLanes s l).map fun k => Out.frame k f)) →
            ∃ t, exec (.egressSend l) s = .next t ∧ t.outbox = outs.reverse ++ s.outbox ∧ egressOf t l c = q
              ∧ (∀ k d, d < 8 → (k ≠ l ∨ d ≠ c) → egressOf t k d = egressOf s k d)
              ∧ { t with outbox := s.outbox, lan := { t.lan with egress := s.lan.egress } } = s)
          ∧ (laneUp s (carrier s l) = false → ∃ t, exec (.egressSend l) s = .next t ∧ egressOf t l c = q
            ∧ rdF t (laneA l 0x2C) 0 16 = satAdd (rdF s (laneA l 0x2C) 0 16) 1 65535 ∧ rdB t (irqA (pgQUAD (l / 4))) 4 = true
            ∧ regsBut [laneA l 0x2C, irqA (pgQUAD (l / 4))] s t
            ∧ onlyHost s { t with lan := { t.lan with egress := s.lan.egress, drops := s.lan.drops } })

/-- Protection (R243 to R250): a switch takes a ready protect lane into use and is counted with its cause in both lanes, a switch back returns
to the working lane; a BER window is judged and starts again; a switch block moves the transmit side, and the receive selector goes where
the markers of the protect lane say. The lifeline (R255) and the PRBS checker (R252): a block that is not all idle becomes a record, a
record from the host one block on the lane it names; the checker of a DIAG lane locks and counts. -/
def Obligations.ProtectionLifelineAndPrbs : Prop :=
  (∀ (l p : Nat) (s : State), l < 144 → p = protPeer s l → p ≠ l →
    (reaches s (pgQUAD (l / 4)) = true → gated s (pgQUAD (l / 4)) = false → isWorking s l = true → protActive s l = false →
      protReady s l p = true → ∃ t, exec (.forceProtect l) s = .next t ∧ protActive t l = true ∧ protActive t p = true
        ∧ rdF t (protStatA l) 0 16 = satAdd (rdF s (protStatA l) 0 16) 1 65535 ∧ rdF t (protStatA l) 24 4 = 5
        ∧ rdF t (protStatA p) 0 16 = satAdd (rdF s (protStatA p) 0 16) 1 65535 ∧ rdF t (protStatA p) 24 4 = 5
        ∧ rdB t (irqA (pgQUAD (l / 4))) 1 = true ∧ (manyToOne s l = false → (laneOf t l).rxProt = true)
        ∧ (manyToOne s l = true → rdF t (protStatA p) 16 8 = l % 256) ∧ t.fab = s.fab ∧ t.drm = s.drm ∧ t.mod = s.mod)
      ∧ (isWorking s l = true → protActive s l = true →
        let back (cause : Nat) (t : State) : Prop := protActive t l = false ∧ protActive t p = false
          ∧ rdF t (protStatA l) 0 16 = satAdd (rdF s (protStatA l) 0 16) 1 65535 ∧ rdF t (protStatA l) 24 4 = cause
          ∧ rdB t (irqA (pgQUAD (l / 4))) 1 = true ∧ (manyToOne s l = false → (laneOf t l).rxProt = false)
          ∧ t.fab = s.fab ∧ t.drm = s.drm ∧ t.mod = s.mod
        (reaches s (pgQUAD (l / 4)) = true → gated s (pgQUAD (l / 4)) = false → ∃ t, exec (.forceWorking l) s = .next t ∧ back 5 t)
          ∧ (rdB s (protA l) 28 = true → (laneOf s l).state = .locked → (laneOf s l).degraded = false →
            ∃ t, exec (.wtrExpiry l) s = .next t ∧ back (rdF s (protStatA l) 24 4) t))
      ∧ (∀ (b : Word) (w : Nat), rytisOk b 0x5C = true → fld b 9 3 = 0 → fld b 24 16 = 0 → manyToOne s l = true →
        ((bit b 8 = true → isProtect s l = true → (workingOf s l).find? (fun w => rdF s (laneA w 0x0C) 16 12 = fld b 12 12) = some w →
          ∃ t, exec (.switchBlockReceive l b) s = .next t ∧ onlyWork s t
            ∧ (protActive s w = false → protReady s w l = true → protActive t w = true
              ∧ rdF t (protStatA w) 0 16 = satAdd (rdF s (protStatA w) 0 16) 1 65535)
            ∧ (laneMk (laneOf s l) = 2 → (laneOf t w).rxProt = decide (rdF s (laneA w 0x0C) 16 12 = rdF s (laneA l 0x0C) 16 12)))
        ∧ (bit b 8 = false → isWorking s l = true → ∃ t, exec (.switchBlockReceive l b) s = .next t ∧ onlyWork s t
          ∧ (protActive s l = true → protActive t l = false))))
      ∧ ∀ (m : Nat) (v : Lane) (ev : Bool), m = leadOf s l → v = laneOf s m →
        ev = (decide (rdF s (laneA m 0x10) 16 16 ≤ v.corr) || decide (0 < v.unc)) → ∃ t, exec (.berWindowClose l) s = .next t
          ∧ (laneOf t m).corr = 0 ∧ (laneOf t m).unc = 0 ∧ (laneOf t m).hist = (ev :: v.hist).take 15
          ∧ (laneOf t m).degraded = decide (rdF s (laneA m 0x10) 8 4
              ≤ (((ev :: v.hist).take 15).take (rdF s (laneA m 0x10) 12 4)).countP (fun b => b))
          ∧ rdF t (laneA m 0x14) 16 16 = min v.corr 65535
          ∧ rdF t (laneA m 0x14) 0 16 = (if ev = true then satAdd (rdF s (laneA m 0x14) 0 16) 1 65535 else rdF s (laneA m 0x14) 0 16)
          ∧ ((laneOf t m).degraded = true → v.degraded = false → rdB t (irqA (pgQUAD (m / 4))) 2 = true)
          ∧ t.fab = s.fab ∧ t.drm = s.drm ∧ t.mod = s.mod)
    ∧ (∀ s : State,
    (∀ (l i : Nat) (w : Word) (y : BitVec 2) (p : BitVec 32), s.lan.lifelines.idxOf? l = some i → (laneOf s l).state = .lifeline →
      (laneOf s l).los = false → ¬(y = 2 ∧ w = 0x1E) → ∃ t r, exec (.lifelineBlockReceive l w y p) s = .next t
        ∧ t.lan.lifeIn = s.lan.lifeIn ++ [r] ∧ fld r 0 64 = w.toNat ∧ fld r 64 2 = y.toNat ∧ fld r 66 2 = i % 4 ∧ fld r 68 28 = 0
        ∧ fld r 96 32 = p.toNat ∧ { t with lan := { t.lan with lifeIn := s.lan.lifeIn } } = s)
      ∧ (∀ (r : BitVec 128) (q : List (BitVec 128)) (l : Nat), s.lan.lifeOut = r :: q → s.lan.lifelines[fld r 66 2]? = some l →
        (laneOf s l).state = .lifeline → ∃ t, exec .lifelineRecordSend s = .next t ∧ t.lan.lifeOut = q
          ∧ t.outbox = .block l (BitVec.ofNat 2 (fld r 64 2)) (BitVec.ofNat 64 (fld r 0 64)) :: s.outbox
          ∧ { t with outbox := s.outbox, lan := { t.lan with lifeOut := s.lan.lifeOut } } = s)
      ∧ ∀ (l : Nat) (y : List (BitVec 2)) (p : Bool) (v : Prbs), laneStateOf s l = .diag → p = bit (laneOf s (leadOf s l)).rung0 20 →
        v = tget .zero l s.lan.prbs →
        (rdF s (laneA l 0) 24 3 ≠ 0 → rdF s (laneA l 0) 20 3 = 0 → rdF s (laneA l 0) 18 2 = 0 →
          ∀ r, r = (y.flatMap (symbolBits p)).foldl (prbsCheck (rdF s (laneA l 0) 24 3)) (v, 0) →
          ∃ t, exec (.prbsCheckerLock l y) s = .next t
            ∧ laneOf t l = { laneOf s l with prbsLock := decide (64 ≤ r.1.run) } ∧ (∀ j, j ≠ l → laneOf t j = laneOf s j)
            ∧ rdF t (laneA l 0x20) 0 32 = satAdd (rdF s (laneA l 0x20) 0 32) r.2 (2 ^ 32 - 1) ∧ regsBut [laneA l 0x20] s t
            ∧ tget .zero l t.lan.prbs = { r.1 with gen := v.gen }
            ∧ { t with regs := s.regs, lan := { t.lan with lanes := s.lan.lanes, prbs := s.lan.prbs } } = s)
        ∧ (rdF s (laneA l 0) 20 3 ≠ 0 → rdF s (laneA l 0) 18 2 = 0 → ∃ t, exec (.prbsCheckerLock l y) s = .next t
            ∧ t.outbox = .symbols l (bitSymbols p (prbsBits (rdF s (laneA l 0) 20 3) (y.flatMap (symbolBits p)).length v.gen).1) :: s.outbox
            ∧ (tget .zero l t.lan.prbs).gen = (prbsBits (rdF s (laneA l 0) 20 3) (y.flatMap (symbolBits p)).length v.gen).2))

/-- ENR_CTRL, RETRAIN and REKEY (R260, R266, R274): an enabled port on a free ENRUS quad claims it and trains, a disabled one goes DOWN, RETRAIN
restarts a port in FAULT or UP without its keys, REKEY sends this side's KEY_UPDATE; the timeouts of training and of the handshake. Time,
key updates and broadcasts over the link (R274, R281, R283): the master's time steps or slews the time base, the delay is half the round
trip, a KEY_UPDATE that verifies makes the next epoch's keys, the leader's bytes go to ENG_0. -/
def Obligations.EnrusPortAndTime : Prop :=
  (∀ (p : Nat) (s : State), p < 7 → streamStill s →
    (∀ (v w : Reg), reaches s (pgENR p) = true → gated s (pgENR p) = false → writtenValue s (enrCtrlA p) v = (w, false) →
      fld w 1 6 = enrQuadOf s p → fld v 16 2 = 0 →
      (enrWanted (wr (enrCtrlA p) w s) p = true → enrusQuad s (enrQuadOf s p) = true → (enrPort s p).st = .down →
        holderOf s (0x4000 + enrQuadOf s p) = none → ∃ t, exec (.enrCtrlWrite p v) s = .next t ∧ (enrPort t p).st = .train
          ∧ (enrPort t p).slow = (enrPort s p).slow ∧ holderOf t (0x4000 + enrQuadOf s p) = some (pgENR p) ∧ rd t (enrCtrlA p) = w
          ∧ (∀ l ∈ quadLanes (enrQuadOf s p), laneOf t l = { Lane.zero with rung0 := enrRung0 false, rung1 := enrRung1 })
          ∧ (∀ q, q ≠ p → enrPort t q = enrPort s q) ∧ storesKept s t
          ∧ ∀ a, a ≠ enrCtrlA p → (∀ l ∈ quadLanes (enrQuadOf s p), ∀ k, a ≠ detailA l k) → rd t a = rd s a)
      ∧ (enrWanted (wr (enrCtrlA p) w s) p = false → s.cfc.eng0.st = .idle → ∃ t, exec (.enrCtrlWrite p v) s = .next t
          ∧ (enrPort t p).st = .down ∧ holderOf t (0x4000 + enrQuadOf s p) ≠ some (pgENR p) ∧ rd t (enrCtrlA p) = w
          ∧ ((enrPort s p).st ≠ .down → (enrPort t p).slot0 = KeySlot.zero ∧ (enrPort t p).slot1 = KeySlot.zero
              ∧ (enrPort t p).kept = [] ∧ ∀ l ∈ quadLanes (enrQuadOf s p), laneOf t l = Lane.zero)
          ∧ storesKept s t))
      ∧ (reaches s (pgENR p) = true → gated s (pgENR p) = false →
        ((enrPort s p).st = .fault ∨ (enrPort s p).st = .up ∧ s.cfc.eng0.st = .idle → ∃ t, exec (.retrain p) s = .next t
          ∧ (enrPort t p).st = .train ∧ (enrPort t p).slot0 = KeySlot.zero ∧ (enrPort t p).slot1 = KeySlot.zero ∧ (enrPort t p).kept = []
          ∧ ((enrPort s p).st = .up → rdB t (irqA (pgENR p)) 0 = true) ∧ storesKept s t)
        ∧ (∀ k sh u, (enrPort s p).st = .up → (enrPort s p).upd = none → (keySlot (enrPort s p) (!(enrPort s p).slot)).keys = none →
          newShare s (transcript s (enrPort s p)) = (some (k, sh), u) → ∃ t, exec (.rekey p) s = .next t ∧ (enrPort t p).upd = some sh
            ∧ (enrPort t p).eph = k ∧ (enrPort t p).st = .up ∧ (enrPort t p).epoch = (enrPort s p).epoch
            ∧ pendingFlits (enrPort t p) 3
                = pendingFlits (enrPort s p) 3 ++ msgPayloads { kind := 10, ref := 0, body := sh, flits := 0 } ∧ storesKept s t))
      ∧ ((enrPort s p).st = .train → ∃ t, exec (.trainTimeout p) s = .next t ∧ (enrPort t p).st = .train
        ∧ (enrPort t p).slow = (rdB s (enrCtrlA p) 12 && !(enrPort s p).slow)
        ∧ (enrPort t p).fails = (if rdB s (enrCtrlA p) 12 && !(enrPort s p).slow then (enrPort s p).fails else satAdd (enrPort s p).fails 1 15)
        ∧ (∀ q, q ≠ p → enrPort t q = enrPort s q) ∧ { t with regs := s.regs, enr := { t.enr with ports := s.enr.ports }, lan := s.lan } = s
        ∧ ∀ a, (∀ l ∈ quadLanes (enrQuadOf s p), ∀ k, a ≠ detailA l k) → rd t a = rd s a)
      ∧ ((enrPort s p).st = .hello ∨ (enrPort s p).st = .keyx ∨ (enrPort s p).st = .confirm → ∃ t, exec (.handshakeTimeout p) s = .next t
        ∧ (enrPort t p).st = .train ∧ (enrPort t p).cause = 0x080D ∧ (∀ q, q ≠ p → enrPort t q = enrPort s q)
        ∧ { t with enr := { t.enr with ports := s.enr.ports } } = s))
    ∧ (∀ (p : Nat) (m : Msg) (s : State), p < 7 →
    (nextMsg s p 7 = some m → rdF s (at' pgENRG 0x40) 0 3 ≠ devIndex s → rdF s (at' pgENRG 0x40) 0 3 = (enrPort s p).peer.toNat →
      ∀ now off, now = bodyNat m 0 8 + (rd s (enrDelayA p)).toNat → off = ((s.time.toNat : Int) - (now : Int)) →
        ∃ t, exec (.timeSync p) s = .next t ∧ rd t (at' pgENRG 0x48) = sat32 off
          ∧ (rdB s (at' pgSLU 0x40) 0 = false → t.time = BitVec.ofNat 64 now
              ∧ (now < 2 ^ 64 → tickNow t = BitVec.ofNat 48 (now / (160 * 2 ^ rdF s (at' pgSLU 0x40) 1 5))))
          ∧ (rdB s (at' pgSLU 0x40) 0 = true → t.time = s.time - BitVec.ofInt 64 (max (-80) (min 80 off)))
          ∧ rdB t (at' pgENRG 0x44) 8 = (rdB s (at' pgSLU 0x40) 0 && decide (16000 < off.natAbs))
          ∧ onlySent s { t with time := s.time, regs := s.regs, hst := { t.hst with msixPend := s.hst.msixPend } })
      ∧ (∃ t, exec .timeSyncSend s = .next t ∧ (∀ q, q < 7 → (enrPort s q).st = .up → rdF s (at' pgENRG 0x40) 0 3 = devIndex s →
            pendingFlits (enrPort t q) 3 = pendingFlits (enrPort s q) 3 ++ msgPayloads { kind := 7, ref := 0, body := timeBytes s, flits := 0 })
        ∧ (rdF s (at' pgENRG 0x40) 0 3 ≠ devIndex s → t = s) ∧ onlySent s t)
      ∧ (nextMsg s p 8 = some m → ∃ t, exec (.delayReq p) s = .next t ∧ pendingFlits (enrPort t p) 3 = pendingFlits (enrPort s p) 3
            ++ msgPayloads { kind := 9, ref := 0, body := m.body.take 8 ++ timeBytes s ++ timeBytes s, flits := 0 }
        ∧ onlySent s t)
      ∧ ((enrPort s p).st = .up → ∃ t, exec (.delayReqSend p) s = .next t ∧ (enrPort t p).reqTime = s.time
        ∧ pendingFlits (enrPort t p) 3 = pendingFlits (enrPort s p) 3 ++ msgPayloads { kind := 8, ref := 0, body := timeBytes s, flits := 0 }
        ∧ onlySent s t)
      ∧ (nextMsg s p 9 = some m → bodyNat m 0 8 = (enrPort s p).reqTime.toNat → ∃ t, exec (.delayResp p) s = .next t
        ∧ rd t (enrDelayA p) = BitVec.ofInt 32 (((s.time.toNat : Int) - (bodyNat m 0 8 : Int)
            - ((bodyNat m 16 8 : Int) - (bodyNat m 8 8 : Int))) / 2)
        ∧ regsBut [enrDelayA p] s t ∧ onlySent s { t with regs := s.regs })
      ∧ (nextMsg s p 10 = some m → ∀ b a, b = shareCut m.body → (enrPort s p).st = .up →
        (shareOk s (transcript s (enrPort s p)) b = true → (enrPort s p).upd = some a →
          (keySlot (enrPort s p) (!(enrPort s p).slot)).keys = none → ∃ t, exec (.keyUpdate p) s = .next t
            ∧ (enrPort t p).slot = !(enrPort s p).slot ∧ (enrPort t p).epoch = ((enrPort s p).epoch + 1) % 65536
            ∧ (keySlot (enrPort t p) (!(enrPort s p).slot)).keys
                = epochKeys s (enrPort s p) (enrPort s p).eph b (ordered s (enrPort s p) a b) (((enrPort s p).epoch + 1) % 65536)
            ∧ onlySent s t)
        ∧ (shareOk s (transcript s (enrPort s p)) b = false → (s.sec.alarms.event).activeNow 3 3 8 = false →
          ∃ t, exec (.keyUpdate p) s = .next t ∧ (enrPort t p).slot = (enrPort s p).slot ∧ (enrPort t p).epoch = (enrPort s p).epoch
            ∧ rdF t (at' pgSEC 0x4C) 0 16 = satAdd (rdF s (at' pgSEC 0x4C) 0 16) 1 65535 ∧ storesKept s t))
      ∧ (nextMsg s p 11 = some m → fromLeader s p = true → bodyNat m 2 4 = 0 → s.cfc.eng0.st = .idle → cfgBytes s m ≠ [] →
        ∃ t, exec (.cfgData p) s = .next t ∧ t.cfc.eng0.st = .header ∧ t.cfc.eng0.src = 3 ∧ t.cfc.eng0.seen = cfgBytes s m
          ∧ rd t (engBytesA false) = 0 ∧ regsBut [engBytesA false] s t ∧ t.cfc.eng1 = s.cfc.eng1 ∧ storesKept s t)
      ∧ (nextMsg s p 12 = some m → streamStill s → fromLeader s p = true → s.cfc.eng0.st = .discard → s.cfc.eng0.src = 3 →
        s.cfc.eng0.held = [] → ∃ t, exec (.cfgEnd p) s = .next t ∧ t.cfc.eng0 = { Engine.zero with src := 3 }
          ∧ t.cfc.eng1 = s.cfc.eng1 ∧ t.regs = s.regs ∧ storesKept s t))

/-- A received flit (R262 to R265, R269, R272): one that passes its CRC and its tag acknowledges and returns credits, a DATA flit in order moves
the expected SEQ on; a failing CRC is counted and nothing else, a failing tag takes the port out of UP without its keys. Retry, width, rekey
and the end of the nonces (R270, R271, R273, R274): the retry timer resends every kept flit, a width block leaves two lanes, a spent counter
makes this side rekey or, past its end, takes the port out of UP. -/
def Obligations.EnrusFlitsAndUpkeep : Prop :=
  (∀ (p : Nat) (f : BitVec 2048) (s : State), p < 7 → streamStill s → (enrPort s p).st = .up →
    (∀ (c : Nat) (pl : List Byte), flitCrcOk f = true → openFlit (enrPort s p) f = some (c, pl) →
      (∀ v, v < 4 → (chan (enrPort s p) v).txq = []) →
      let accepted (typ : Nat) (t : State) : Prop := (keySlot (enrPort t p) (bit (flitHead f) 57)).rxLast = some c
        ∧ (enrPort t p).kept = ackKept (flitAck f) (enrPort s p).kept
        ∧ (chan (enrPort t p) (fld (flitHead f) 22 2)).credits = min (vcCredits (fld (flitHead f) 22 2))
            ((chan (enrPort s p) (fld (flitHead f) 22 2)).credits + fld (flitHead f) 16 6)
        ∧ (typ = 1 → fld (flitHead f) 40 16 = (enrPort s p).seqRx → (enrPort t p).acked = some (enrPort s p).seqRx
            ∧ (enrPort t p).seqRx = ((enrPort s p).seqRx + 1) % 65536)
        ∧ ((typ = 0 ∨ fld (flitHead f) 40 16 ≠ (enrPort s p).seqRx) → (enrPort t p).acked = (enrPort s p).acked
            ∧ (enrPort t p).seqRx = (enrPort s p).seqRx)
        ∧ (∀ q, q ≠ p → enrPort t q = enrPort s q) ∧ onlyWork s t
      (flitType f = 0 → ∃ t, exec (.idle p f) s = .next t ∧ accepted 0 t)
        ∧ (flitType f = 1 → ∃ t, exec (.data p f) s = .next t ∧ accepted 1 t))
      ∧ (∀ (c : Nat) (pl : List Byte) (k now : List Kept), flitCrcOk f = true → flitType f = 2 → openFlit (enrPort s p) f = some (c, pl) →
        (∀ v, v < 4 → (chan (enrPort s p) v).txq = []) → k = ackKept ((flitAck f + 65535) % 65536) (enrPort s p).kept →
        now = k.dropWhile (fun x => decide (x.seq ≠ flitAck f)) → now ≠ [] →
        (∀ x ∈ k, x.sends < 8 ∧ ∀ t0, x.since = some t0 → (s.time - t0).toNat < 64000) →
        ∃ t, exec (.nak p f) s = .next t ∧ (enrPort t p).resend = true
          ∧ (enrPort t p).kept = k.take (k.length - now.length) ++ now.map (fun x => { x with sends := x.sends + 1, since := some (x.since.getD s.time) })
          ∧ rdF t (enrErrA p) 12 12 = satAdd (rdF s (enrErrA p) 12 12) now.length 4095
          ∧ (∀ q, q ≠ p → enrPort t q = enrPort s q) ∧ onlyWork s t)
      ∧ (flitCrcOk f = false →
        let counted (t : State) : Prop := rdF t (enrErrA p) 0 12 = satAdd (rdF s (enrErrA p) 0 12) 1 4095
          ∧ rdF t (enrErrA p) 12 20 = rdF s (enrErrA p) 12 20 ∧ regsBut [enrErrA p] s t ∧ onlyRegs s t
        (∃ t, exec (.idle p f) s = .next t ∧ counted t) ∧ (∃ t, exec (.nak p f) s = .next t ∧ counted t)
          ∧ ∃ t, counted t ∧ exec (.data p f) s = .next (sendNak p t))
      ∧ (flitCrcOk f = true → openFlit (enrPort s p) f = none → s.cfc.eng0.st = .idle → (s.sec.alarms.event).activeNow 3 3 8 = false →
        let failed (t : State) : Prop := (enrPort t p).st = .train
          ∧ (enrPort t p).cause = 0x0809 ∧ (enrPort t p).slot0 = KeySlot.zero ∧ (enrPort t p).slot1 = KeySlot.zero
          ∧ rdF t (enrErrA p) 24 8 = satAdd (rdF s (enrErrA p) 24 8) 1 255 ∧ rdB t (irqA (pgENR p)) 2 = true
          ∧ rdF t (at' pgSEC 0x4C) 0 16 = satAdd (rdF s (at' pgSEC 0x4C) 0 16) 1 65535 ∧ storesKept s t
        (flitType f = 0 → ∃ t, exec (.idle p f) s = .next t ∧ failed t) ∧ (flitType f = 1 → ∃ t, exec (.data p f) s = .next t ∧ failed t)
          ∧ (flitType f = 2 → ∃ t, exec (.nak p f) s = .next t ∧ failed t)))
    ∧ (∀ (p : Nat) (s : State), p < 7 → streamStill s → (enrPort s p).st = .up →
    (∀ k r, (enrPort s p).kept = k :: r → k.sends < 8 → (∀ t0, k.since = some t0 → (s.time - t0).toNat < 64000) → ∃ t, exec (.retryTimer p) s = .next t ∧ (enrPort t p).resend = true
        ∧ (enrPort t p).kept = (enrPort s p).kept.map (fun x => { x with sends := x.sends + 1, since := some (x.since.getD s.time) })
        ∧ rdF t (enrErrA p) 12 12 = satAdd (rdF s (enrErrA p) 12 12) (enrPort s p).kept.length 4095
        ∧ (∀ q, q ≠ p → enrPort t q = enrPort s q) ∧ regsBut [enrErrA p] s t ∧ onlyWork s t)
      ∧ (∀ (w : Word) (m : BitVec 4), widthOk w = true →
        m = lowestTwo ((enrPort s p).narrow.getD (enrPort s p).lanes &&& BitVec.ofNat 4 (fld w 8 4)) → 2 ≤ maskCount m →
        ((enrPort s p).narrow.isSome = true ∨ (enrPort s p).lanes ≠ m) → ∃ t, exec (.widthBlockReceive p w) s = .next t
          ∧ (enrPort t p).lanes = m ∧ (enrPort t p).narrow = none ∧ (enrPort t p).st = .up ∧ rdB t (irqA (pgENR p)) 1 = true
          ∧ (∀ q, q ≠ p → enrPort t q = enrPort s q) ∧ regsBut [irqA (pgENR p)] s t ∧ onlyWork s t)
      ∧ (∀ k sh u, 0xC0000000 ≤ (keySlot (enrPort s p) (enrPort s p).slot).txCtr → (enrPort s p).upd = none →
        (keySlot (enrPort s p) (!(enrPort s p).slot)).keys = none → newShare s (transcript s (enrPort s p)) = (some (k, sh), u) →
        ∃ t, exec (.rekeyTrigger p) s = .next t ∧ (enrPort t p).upd = some sh ∧ (enrPort t p).eph = k
          ∧ pendingFlits (enrPort t p) 3 = pendingFlits (enrPort s p) 3 ++ msgPayloads { kind := 10, ref := 0, body := sh, flits := 0 }
          ∧ storesKept s t)
      ∧ (0xFFFFFF00 ≤ (keySlot (enrPort s p) (enrPort s p).slot).txCtr → s.cfc.eng0.st = .idle → ∃ t, exec (.nonceEnd p) s = .next t
        ∧ (enrPort t p).st = .train ∧ (enrPort t p).cause = 0x080C ∧ (enrPort t p).slot0 = KeySlot.zero
        ∧ (enrPort t p).slot1 = KeySlot.zero ∧ rdB t (irqA (pgENR p)) 0 = true ∧ storesKept s t))

/-- The handshake (R266 to R268): a HELLO that passes its checks is answered with this side's KEYSHARE, a peer's whole KEYSHARE that verifies
makes the keys of epoch 0, its FINISHED over the transcript takes the port UP with full credits; each failing check takes the port to FAULT. -/
def Obligations.EnrusHandshake : Prop :=
  ∀ (p : Nat) (f : BitVec 2048) (s : State), p < 7 → flitCrcOk f = true →
    ((enrPort s p).st = .hello → (enrPort s p).hello ≠ [] → flitType f = 8 → ∀ h, h = (flitPayload f).take 36 →
      (∀ c, helloCheck s p h = some c → ∃ t, exec (.hello p f) s = .next t ∧ (enrPort t p).st = .fault
        ∧ (enrPort t p).cause = BitVec.ofNat 16 c ∧ rdB t (irqA (pgENR p)) 0 = true ∧ regsBut [irqA (pgENR p)] s t ∧ onlyWork s t)
      ∧ (∀ k sh u, helloCheck s p h = none → newShare s (if devIndex s < (BitVec.ofNat 3 (leField h 0 1)).toNat
            then (enrPort s p).hello ++ h else h ++ (enrPort s p).hello) = (some (k, sh), u) →
        ∃ t, exec (.hello p f) s = .next t ∧ (enrPort t p).st = .keyx ∧ (enrPort t p).peer = BitVec.ofNat 3 (leField h 0 1)
          ∧ (enrPort t p).peerHello = h ∧ (enrPort t p).share = sh ∧ (enrPort t p).eph = k ∧ (enrPort t p).peerShare = []
          ∧ u.outbox.length + 34 * ((sh.length + 227) / 228) ≤ t.outbox.length ∧ storesKept s t))
      ∧ ((enrPort s p).st = .keyx → flitType f = 9 → ∀ (b : List Byte) (e : EnrPort),
        b = shareCut ((enrPort s p).peerShare ++ flitPayload f) → e = { enrPort s p with peerShare := b } →
        (b.length < shareSize b → ∃ t, exec (.keyshare p f) s = .next t ∧ enrPort t p = e ∧ (∀ q, q ≠ p → enrPort t q = enrPort s q)
          ∧ { t with enr := { t.enr with ports := s.enr.ports } } = s)
        ∧ (shareSize b ≤ b.length → shareOk s (helloScript s e) b = true → e.share ≠ [] → ∃ t, exec (.keyshare p f) s = .next t
          ∧ (enrPort t p).st = .confirm ∧ (enrPort t p).slot0.keys = epochKeys s e e.eph b (transcript s e) 0
          ∧ (enrPort t p).slot = false ∧ (enrPort t p).epoch = 0 ∧ (enrPort t p).slot1 = KeySlot.zero
          ∧ ((epochKeys s e e.eph b (transcript s e) 0).isSome = true → s.outbox.length + 34 ≤ t.outbox.length) ∧ onlySent s t)
        ∧ (shareSize b ≤ b.length → shareOk s (helloScript s e) b = false → (s.sec.alarms.event).activeNow 3 3 8 = false →
          ∃ t, exec (.keyshare p f) s = .next t ∧ (enrPort t p).st = .fault ∧ (enrPort t p).cause = 0x0807
            ∧ rdF t (at' pgSEC 0x4C) 0 16 = satAdd (rdF s (at' pgSEC 0x4C) 0 16) 1 65535 ∧ storesKept s t))
      ∧ ((enrPort s p).st = .confirm → flitType f = 10 →
        (∀ c pl, openFlit (enrPort s p) f = some (c, pl) → pl.take 48 = hashBytes (transcript s (enrPort s p)) →
          ∃ t, exec (.finished p f) s = .next t ∧ (enrPort t p).st = .up ∧ (enrPort t p).slot0.rxLast = some c
            ∧ (enrPort t p).slot0.keys = (enrPort s p).slot0.keys ∧ (enrPort t p).seqTx = 0 ∧ (enrPort t p).seqRx = 0
            ∧ (enrPort t p).kept = [] ∧ (enrPort t p).lanes = 0xF ∧ (∀ v, v < 4 → (chan (enrPort t p) v).credits = vcCredits v)
            ∧ rdB t (irqA (pgENR p)) 0 = true ∧ (∀ q, q ≠ p → enrPort t q = enrPort s q) ∧ regsBut [irqA (pgENR p)] s t ∧ onlyWork s t)
        ∧ ((∀ c pl, openFlit (enrPort s p) f = some (c, pl) → pl.take 48 ≠ hashBytes (transcript s (enrPort s p))) →
          (s.sec.alarms.event).activeNow 3 3 8 = false → ∃ t, exec (.finished p f) s = .next t ∧ (enrPort t p).st = .fault
            ∧ (enrPort t p).cause = 0x0808 ∧ rdF t (at' pgSEC 0x4C) 0 16 = satAdd (rdF s (at' pgSEC 0x4C) 0 16) 1 65535 ∧ storesKept s t))

/-- Items across the mesh (R188, R277, R278): a DISPATCH whose plane is VALID is presented to its basin with its payload in an intake row group,
an ARRIVE enters Sluice, an OUTPUT of the current service is held at home, and END ends the service with its held outputs gone. Reports and
notices (R276, R279): a credit report replaces what is known of the peer's basins and goes to every UP port, a fault notice ends the
services in the basin and is acknowledged, an acknowledgement clears its notice. -/
def Obligations.EnrusItemsAndReports : Prop :=
  (∀ (p : Nat) (m : Msg) (s : State), p < 7 →
    (∀ k g, (enrPort s p).waiting.find? (dispatchReady s) = some m → dispatchFaulted s m = false → dispatchValid s m = true → dispatchPort s m = some k →
      freeGroup s 2 = some g → ∃ t d, exec (.dispatchMsg p) s = .next t
        ∧ t.slu = { s.slu with transit := s.slu.transit ++ [(dispatchBasin s m, k, d)] } ∧ d.handle = m.ref
        ∧ d.tag = BitVec.ofNat 4 (dispatchPlane m) ∧ d.bank.toNat = g / 1024 % 128 ∧ d.row.toNat = 4 * (g % 1024) ∧ d.error = none
        ∧ t.enr.guests = s.enr.guests ++ [⟨p, bodyNat m 64 2, m.ref, dispatchBasin s m⟩] ∧ t.lan.groups = g :: s.lan.groups
        ∧ workOn (dispatchBasin s m) s t)
      ∧ ((enrPort s p).waiting.find? (dispatchReady s) = some m → dispatchFaulted s m = true → ∃ t, exec (.dispatchMsg p) s = .next t
        ∧ (enrPort t p).waiting.length ≤ (enrPort s p).waiting.length ∧ t.enr.guests = s.enr.guests ∧ t.slu = s.slu ∧ t.fab = s.fab
        ∧ (∃ k ∈ t.enr.notices, k.1 = p ∧ k.2.1 = dispatchLogical m) ∧ onlyWork s t)
      ∧ ((enrPort s p).waiting.find? (dispatchReady s) = some m → dispatchFaulted s m = false → dispatchValid s m = false → ∃ t, exec (.dispatchMsg p) s = .next t
        ∧ pendingFlits (enrPort t p) 1 = pendingFlits (enrPort s p) 1 ++ msgPayloads
              ⟨3, m.ref, toBytes 2 (BitVec.ofNat 16 (bodyNat m 64 2)) ++ [2] ++ toBytes 2 (0x080F : BitVec 16), 0⟩
        ∧ t.slu = s.slu ∧ t.lan.groups = s.lan.groups ∧ t.fab = s.fab ∧ onlyWork s t)
      ∧ (nextMsg s p 1 = some m → (bodyNat m 4 2 % 8192 = 0 ∨ (freeGroup s 8).isSome = true) →
        (∃ t, exec (.arrive p) s = .next t ∧ onlyWork s t)
        ∧ ∀ k, fHome s (BitVec.ofNat 16 (bodyNat m 6 2)).toNat = devIndex s → nextFree s = some k → bpStill s →
          ∃ t, exec (.arrive p) s = .next t ∧ (slotOf t k).gen = (slotOf s k).gen + 1)
      ∧ (nextMsg s p 2 = some m → ∀ (w : BitVec 256) (v : Service), w = ofBytes 256 ((m.body.drop 2).take 32) →
        remoteService s p (bodyNat m 0 2) = some v →
        (v.current = true → (fld w 64 13 = 0 ∨ (freeGroup s 8).isSome = true) → ∃ t h, exec (.output p) s = .next t
          ∧ t.enr.held = s.enr.held ++ [h] ∧ h.port = p ∧ h.service = bodyNat m 0 2 ∧ h.words = w
          ∧ h.bytes = (m.body.drop 34).take (fld w 64 13) ∧ h.group = (if fld w 64 13 = 0 then none else freeGroup s 8)
          ∧ t.slu = s.slu ∧ onlyWork s t)
        ∧ (v.current = false → ∃ t, exec (.output p) s = .next t ∧ t.enr.held = s.enr.held ∧ t.slu = s.slu ∧ t.lan.groups = s.lan.groups
          ∧ t.mem = s.mem ∧ onlyWork s t))
      ∧ (nextMsg s p 3 = some m → (∃ t, exec (.endMsg p) s = .next t ∧ onlyWork s t)
        ∧ (∀ v, bodyNat m 2 1 ≠ 0 → s.slu.damage = [] → remoteService s p (bodyNat m 0 2) = some v → v.current = true →
            (∀ x ∈ s.slu.services, x.id = v.id → x = v) → ∃ t, exec (.endMsg p) s = .next t
            ∧ t.slu.services = s.slu.services.filter (fun x => decide (x.id ≠ v.id))
            ∧ t.enr.held = s.enr.held.filter (fun h => decide (¬(h.port = p ∧ h.service = bodyNat m 0 2))))))
    ∧ (∀ (p : Nat) (m : Msg) (s : State), p < 7 →
    (nextMsg s p 4 = some m → ∃ t, exec (.creditReport p) s = .next t
        ∧ (∀ l, l < 32 → tget ⟨0, false, 0⟩ (32 * (enrPort s p).peer.toNat + l) t.enr.peers
            = ⟨bodyNat m (4 * l) 1 % 32, (bodyNat m (4 * l) 1).testBit 7, BitVec.ofNat 16 (bodyNat m (4 * l + 2) 2)⟩)
        ∧ (∀ k, k / 32 ≠ (enrPort s p).peer.toNat → tget ⟨0, false, 0⟩ k t.enr.peers = tget ⟨0, false, 0⟩ k s.enr.peers)
        ∧ (chan (enrPort t p) 3).ready = (chan (enrPort s p) 3).ready.drop 1 ∧ t.slu.services = s.slu.services
        ∧ t.slu.slots = s.slu.slots ∧ onlyWork s t)
      ∧ (∃ t, exec .creditReportSend s = .next t ∧ (∀ q, q < 7 → (enrPort s q).st = .up → pendingFlits (enrPort t q) 3
            = pendingFlits (enrPort s q) 3 ++ msgPayloads { kind := 4, ref := 0, body := (List.range 32).flatMap (reportBytes s), flits := 0 })
        ∧ (∀ q, q < 7 → (enrPort s q).st ≠ .up → enrPort t q = enrPort s q) ∧ onlySent s t)
      ∧ (nextMsg s p 5 = some m → (enrPort s p).peer.toNat ≠ devIndex s → ∃ t, exec (.faultNotice p) s = .next t
        ∧ (∀ v ∈ t.slu.services, ¬(v.dev = (enrPort s p).peer ∧ v.basin.toNat = bodyNat m 0 1))
        ∧ (∀ h ∈ t.enr.held, ∀ v ∈ s.slu.services, v.dev = (enrPort s p).peer → v.basin.toNat = bodyNat m 0 1 →
            ¬(h.port = p ∧ h.service = v.id % 65536)) ∧ onlyWork s t)
      ∧ (nextMsg s p 6 = some m → ∃ t, exec (.noticeAck p) s = .next t
        ∧ t.enr.notices = s.enr.notices.filter (fun k => decide (k ≠ (p, bodyNat m 0 1, bodyNat m 1 2)))
        ∧ (∀ l, l < 32 → tget 0 l s.slu.failover = 4 → (∀ k ∈ t.enr.notices, k.2.1 ≠ l) → tget 0 l t.slu.failover = 0)
        ∧ onlyWork s t))

/-- The sources of a stream engine (R299, R300, R313, R314): START opens ENG_1's source, IRP_DATA appends its four bytes, END closes the source,
ABORT and a stall end an open stream early, whose bytes to come are discarded. The parts of a stream (R290 to R298): an accepted header
opens the sections, a whole plane or frame-plane section stands encoded in its crystals and leaves the plane PENDING, records and blocks are
taken, the trailer is judged, and a verified stream makes its admitted plane VALID. -/
def Obligations.StreamEngines : Prop :=
  (∀ s : State, streamStill s →
    (∀ src : BitVec 2, reaches s pgIRP = true → gated s pgIRP = false → busy s pgIRP = false →
        (src.toNat < 2 → devReady s = true → streamOpen s.cfc.eng1 = false → ∃ t, exec (.engStart true src) s = .next t
          ∧ t.cfc.eng1 = (if s.cfc.eng1.src = 4 + src.toNat then { s.cfc.eng1 with started := true }
              else { Engine.zero with started := true, src := 4 + src.toNat })
          ∧ { t with cfc := { t.cfc with eng1 := s.cfc.eng1 } } = s)
        ∧ (src.toNat < 2 → devReady s = false → ∃ t, exec (.engStart true src) s = .next t ∧ rd t (errA pgIRP) = 0x0416
          ∧ regsBut [statA pgIRP, errA pgIRP] s t ∧ onlyRegs s t))
      ∧ (∀ v : Reg, reaches s pgIRP = true → gated s pgIRP = false → busy s pgIRP = false → s.cfc.eng1.started = true →
        s.cfc.eng1.src = 4 → s.enr.bcast = none →
        ((s.cfc.eng1.st = .header ∨ s.cfc.eng1.st = .sections) → ∃ t, exec (.irpDataWrite v) s = .next t
          ∧ t.cfc.eng1 = { s.cfc.eng1 with seen := s.cfc.eng1.seen ++ toBytes 4 v }
          ∧ { t with cfc := { t.cfc with eng1 := s.cfc.eng1 } } = s)
        ∧ (s.cfc.eng1.st = .idle → ∃ t, exec (.irpDataWrite v) s = .next t ∧ t.cfc.eng1.st = .header ∧ t.cfc.eng1.seen = toBytes 4 v
          ∧ t.cfc.eng1.started = true ∧ rd t (engBytesA true) = 0 ∧ regsBut [engBytesA true] s t
          ∧ { t with regs := s.regs, cfc := { t.cfc with eng1 := s.cfc.eng1 } } = s))
      ∧ (∀ v w : Reg, reaches s pgIRP = true → gated s pgIRP = false → writtenValue s (at' pgIRP 0x64) v = (w, false) →
        ¬(streamOpen s.cfc.eng1 = true ∧ s.cfc.eng1.src = 5) → ∃ t, exec (.irpMasterWrite v) s = .next t ∧ rd t (at' pgIRP 0x64) = w
          ∧ regsBut [at' pgIRP 0x64] s t ∧ onlyRegs s t)
      ∧ ∀ e : Bool, (engOf s e).held = [] →
        (reaches s (engPage e) = true → gated s (engPage e) = false → busy s (engPage e) = false →
          ((engOf s e).st = .idle ∨ (engOf s e).st = .discard → 1 < (engOf s e).src → (engOf s e).src ≠ 3 →
            ∃ t, exec (.engEnd e) s = .next t ∧ (engOf t e).st = .idle ∧ (engOf t e).started = false ∧ (engOf t (!e)) = engOf s (!e)
              ∧ (∀ a, rd t a = rd s a) ∧ storesKept s t)
          ∧ ((engOf s e).st = .header → 1 < (engOf s e).src → (engOf s e).ended = false → (engOf s e).seen.length < 256 →
            (engOf s e).planes = [] → s.cfc.boot = none → ∃ t, exec (.engAbort e) s = .next t ∧ (engOf t e).st = .discard
              ∧ (engOf t e).left = none ∧ (engOf t e).seen = [] ∧ rdF t (engStatA e) 16 16 = 0x040F ∧ rdB t (engStatA e) 4 = false
              ∧ rdB t (irqA (engPage e)) 1 = true ∧ (engOf t (!e)) = engOf s (!e) ∧ storesKept s t))
        ∧ ((engOf s e).st = .header → 1 < (engOf s e).src → (engOf s e).ended = false → (engOf s e).seen.length < 256 →
          (engOf s e).planes = [] → s.cfc.boot = none → ∃ t, exec (.streamStall e) s = .next t ∧ (engOf t e).st = .discard
            ∧ rdF t (engStatA e) 16 16 = 0x040B ∧ rdB t (irqA (engPage e)) 1 = true ∧ storesKept s t)
        ∧ ((engOf s e).st = .discard → 1 < (engOf s e).src → ∃ t, exec (.streamStall e) s = .next t ∧ (engOf t e).st = .idle
          ∧ regsBut [statA pgIRP] s t ∧ storesKept s t))
    ∧ (∀ (e : Bool) (s : State) (g : Engine), g = engOf s e → streamStill s → s.cfc.boot = none → s.enr.bcast = none → 1 < g.src → g.held = [] →
    (g.st = .header → 256 ≤ g.seen.length → (e = true ∨ rdF s (at' pgENRG 0x40) 3 3 ≠ devIndex s) →
        (headerCheck s e g.src (g.seen.take 256) = none → hKind (g.seen.take 256) = 2 → ∃ t, exec (.streamHeader e) s = .next t
          ∧ engOf t e = { g with st := .sections, pos := 256
                                 key := if hEncrypted (g.seen.take 256) then streamKey s (g.seen.take 256) else none }
          ∧ rd t (engBytesA e) = 256 ∧ rdF t (engStatA e) 5 3 = 2 ∧ engOf t (!e) = engOf s (!e) ∧ storesKept s t)
        ∧ ∀ c, headerCheck s e g.src (g.seen.take 256) = some c → c < 65536 → c ≠ 0x0409 → c ≠ 0 → g.planes = [] →
          ∃ t, exec (.streamHeader e) s = .next t
          ∧ rdF t (engStatA e) 16 16 = c ∧ rdB t (irqA (engPage e)) 1 = true ∧ (engOf t e).st ≠ .sections ∧ storesKept s t)
      ∧ (∀ (h payload : List Byte), g.st = .sections → g.begun = false → g.pos + 32 ≤ trailerAt g → h = regionBytes g g.pos 32 →
        badSection (hKind g.seen) g.count h = false → g.pos + 32 + secLen h ≤ trailerAt g → g.pos + 32 + secLen h ≤ g.seen.length →
        payload = regionBytes g (g.pos + 32) (secLen h) →
        (∀ n, leField h 0 1 = 1 → (leField h 8 1).testBit (devIndex s) = true → n = physOf s (leField h 3 1) →
          (basinOf s n).mapClear = false → (planeInfo s n (leField h 2 1)).st = .blank → ∃ t, exec (.planeSection e) s = .next t
            ∧ (planeInfo t n (leField h 2 1)).st = .pending ∧ (engOf t e).pos = g.pos + 32 + secLen h ∧ (engOf t e).count = g.count + 1
            ∧ (n, leField h 2 1) ∈ (engOf t e).planes ∧ (engOf t e).begun = false
            ∧ (∀ i x w, (sectionCrystals h)[i]? = some x → w < 36 → planeCode t (xk n x) (leField h 2 1) w
                = encCode (ofBytes 64 (((if bit (h.getD 1 0) 0 then payload else (payload.drop (288 * i)).take 288).drop (8 * w)).take 8)))
            ∧ (∀ k q w, q < 16 → w < 64 → (k / 512 ≠ n ∨ q ≠ leField h 2 1) → planeCode t k q w = planeCode s k q w)
            ∧ t.fab.frames = s.fab.frames ∧ t.mem = s.mem ∧ t.drm = s.drm)
        ∧ (∀ n, leField h 0 1 = 2 → (leField h 8 1).testBit (devIndex s) = true → n = physOf s (leField h 3 1) →
          (basinOf s n).mapClear = false → (basinOf s n).frame.st = .blank → halted s n = true → ∃ t, exec (.frameSection e) s = .next t
            ∧ (basinOf t n).frame.st = .pending ∧ (engOf t e).pos = g.pos + 32 + secLen h ∧ (engOf t e).count = g.count + 1
            ∧ (n, 16) ∈ (engOf t e).planes
            ∧ (∀ i x, (sectionCrystals h)[i]? = some x → tget 0 (xk n x) t.fab.frames
                = encCode (ofBytes 64 ((if bit (h.getD 1 0) 0 then payload else (payload.drop (8 * i)).take 8).take 8)))
            ∧ t.fab.planes = s.fab.planes ∧ t.mem = s.mem ∧ t.drm = s.drm)
        ∧ (leField h 0 1 = 3 → badRecord g.regs (regRecords payload) = none → ∃ t, exec (.regSection e) s = .next t
          ∧ (engOf t e).recs = (if (leField h 8 1).testBit (devIndex s) then g.recs ++ regRecords payload else g.recs)
          ∧ (engOf t e).regs = g.regs + (regRecords payload).length ∧ (engOf t e).pos = g.pos + 32 + secLen h
          ∧ (engOf t e).count = g.count + 1 ∧ regsBut [engBytesA e] s t ∧ storesKept s t)
        ∧ (leField h 0 1 = 4 → ∃ t, exec (.storeImageSection e) s = .next t ∧ (engOf t e).pos = g.pos + 32 + secLen h
          ∧ (engOf t e).count = g.count + 1
          ∧ (∀ b, b < (payload.length + 4095) / 4096 → b < 8192 →
              (blockKey (hSlot g.seen) b, sealBlock s (hSlot g.seen) b ((payload.drop (4096 * b)).take 4096)) ∈ t.cfc.blocks)
          ∧ regsBut [engBytesA e] s t ∧ storesKept s t))
      ∧ (g.st = .sections → g.begun = false → g.pos = trailerAt g → hTotal g.seen - 96 ≤ g.seen.length →
        (trailerCheck g = none → ∃ t, exec (.trailer e) s = .next t ∧ engOf t e = { g with st := .verify }
          ∧ rd t (engBytesA e) = BitVec.ofNat 32 (hTotal g.seen - 96) ∧ regsBut [engBytesA e] s t ∧ storesKept s t)
        ∧ (trailerCheck g = some 0x040A → g.planes = [] → hKind g.seen ≠ 3 → ∃ t, exec (.trailer e) s = .next t
          ∧ (engOf t e).verdict = some 0x040A ∧ rdF t (engStatA e) 16 16 = 0x040A ∧ rdB t (irqA (engPage e)) 1 = true ∧ storesKept s t))
      ∧ (g.st = .verify → hTotal g.seen = g.seen.length → g.recs = [] → hKind g.seen = 2 →
        (∀ c, g.verdict = some c → ∃ t, exec (.signatureVerified e) s = .next t ∧ (engOf t e).st = .idle
          ∧ rd t (engBytesA e) = BitVec.ofNat 32 (hTotal g.seen) ∧ regsBut [engBytesA e, statA pgIRP] s t ∧ storesKept s t)
        ∧ (∀ n p, g.verdict = none → signatureOk g = true → g.planes = [(n, p)] → n < 34 → p < 16 → (planeInfo s n p).st = .pending →
          admission s n p = none → ∃ t, exec (.signatureVerified e) s = .next t ∧ (planeInfo t n p).st = .valid ∧ (engOf t e).st = .idle
            ∧ rdF t (engStatA e) 16 16 = 0 ∧ rdB t (engStatA e) 4 = true ∧ rdB t (irqA (engPage e)) 0 = true ∧ t.hst.updActive = true
            ∧ t.fab.planes = s.fab.planes ∧ t.fab.frames = s.fab.frames ∧ t.mem = s.mem ∧ t.drm = s.drm)))

/-- The boot load and release (R303 to R307, R311): BOOT_LOAD turns to the first source, a lock timeout fails the source and, with none left,
the boot; the loops' locks begin the release, each phase ends its hold, the last one ends bring-up; a broadcast starts with the followers it
reaches. -/
def Obligations.BootAndRelease : Prop :=
  ∀ s : State,
    (∀ src rest, inStep s 9 = true → s.cfc.boot = none → bootFailed s = false → s.cfc.phases = [] → fld (bootPolicy s) 2 2 ≠ 3 →
        bootSources s = src :: rest → 2 ≤ src → ∃ t, exec .bootLoad s = .next t ∧ t.cfc.boot = some ⟨src, rest, true, false, none, true⟩
          ∧ rdB t bootStatA 15 = true ∧ rdF t bootStatA 8 2 = s.mod.bootSel.toNat % 4 ∧ rdF t bootStatA 16 16 = 0
          ∧ regsBut [bootStatA] s t ∧ { t with regs := s.regs, cfc := { t.cfc with boot := s.cfc.boot } } = s)
      ∧ (∀ b, s.cfc.boot = some b → b.lockWait = true → b.failed = none → b.rest = [] → bootFailed s = false → s.cfc.applied = [] →
        ∃ t, exec .releaseLockTimeout s = .next t ∧ t.cfc.boot = none ∧ t.cfc.phases = [] ∧ rdB t bootStatA 14 = true
          ∧ rdB t bootStatA 11 = true ∧ rdB t 0x040 1 = true
          ∧ (∀ n p, n < 34 → p < 16 → (planeInfo t n p).st = .blank) ∧ (∀ n, n < 34 → (basinOf t n).frame.st = .blank)
          ∧ t.drm = s.drm ∧ t.sec = s.sec)
      ∧ (∀ (k : BitVec 2), rdB s (uioClkA k.toNat) 31 = true → s.cfc.boot = none → ∃ t, exec (.clockLoopLock k) s = .next t
        ∧ rdB t (at' (pgUIO k.toNat) 0x48) 0 = true ∧ regsBut [at' (pgUIO k.toNat) 0x48] s t ∧ onlyRegs s t)
      ∧ (∀ (k : BitVec 2) b, rdB s (uioClkA k.toNat) 31 = true → s.cfc.boot = some b → b.lockWait = true → b.failed = none →
        inStep s 9 = true → loopsLocked (loopLock k.toNat s) = true → ∃ t, exec (.clockLoopLock k) s = .next t
          ∧ rdB t (at' (pgUIO k.toNat) 0x48) 0 = true ∧ inStep t 10 = true ∧ t.cfc.boot = none ∧ rdF t bootStatA 12 2 = b.cur % 4
          ∧ storesKept s t)
      ∧ (∀ k rest, inStep s 10 = true → s.cfc.phases = k :: rest → 1 ≤ k → k ≤ 3 → ∃ t, exec .releasePhase s = .next t
        ∧ t.cfc.phases = rest ∧ rdB t bootStatA (k - 1) = true ∧ t.fab.hold.out = (s.fab.hold.out && decide (k ≠ 1))
        ∧ t.fab.hold.we = (s.fab.hold.we && decide (k ≠ 2)) ∧ t.fab.hold.sr = (s.fab.hold.sr && decide (k ≠ 3))
        ∧ (rest = [] → t.cfc.booted = true ∧ modeOf t ≠ mBRINGUP)
        ∧ t.fab.planes = s.fab.planes ∧ t.fab.frames = s.fab.frames)
      ∧ ∀ b, s.enr.bcast = some b → b.started = false → 1 < b.src → b.bytes.length < b.total → s.cfc.eng0.st ≠ .idle →
        ∃ t, exec .broadcastStart s = .next t
          ∧ t.enr.bcast = some { b with started := true, reached := b.target &&& upPeers s, sent := b.bytes.length }
          ∧ rdF t (at' pgCFG 0x64) 8 8 = (b.target &&& upPeers s).toNat
          ∧ regsBut [at' pgCFG 0x64] s t ∧ onlySent s { t with regs := s.regs, enr := { t.enr with bcast := s.enr.bcast } }

/-- The states of the DRAM controller (R346, R349): INIT needs a valid map, then TRAIN; FILL leaves every line outside the spare region 0 with
its seal and the controller READY; RESUME leaves self-refresh after a warm reset. -/
def Obligations.DramStates : Prop :=
  ∀ s : State,
    (reaches s pgDRC0 = true → gated s pgDRC0 = false → busy s pgDRC0 = false →
      (drcState s = dOFF → mapValid s = true → (clockOk s = true → 125 * dclkMhz s ≤ 100 * bclkMhz s) →
        ∃ t, exec .init s = .next t ∧ drcState t = dINIT ∧ busy t pgDRC0 = true ∧ rdB t drcStatA 7 = false
          ∧ t.drm = { s.drm with rows := [], osc := [] }
          ∧ regsBut [statA pgDRC0, drcStatA] s t ∧ { t with regs := s.regs, outbox := s.outbox, drm := s.drm } = s)
      ∧ (drcState s = dOFF → mapValid s = false → ∃ t, exec .init s = .next t ∧ rd t (errA pgDRC0) = 0x0A06 ∧ drcState t = dOFF
          ∧ regsBut [statA pgDRC0, errA pgDRC0] s t ∧ onlyRegs s t)
      ∧ (drcState s = dTRAIN → mapValid s = true → ∃ t, exec .fill s = .next t ∧ drcState t = dFILL ∧ busy t pgDRC0 = true
          ∧ rdF t drcStatA 8 6 = 0 ∧ (∀ r, r < 16 → (imeMode s r = 0 ∨ (imeReg s r).st ≠ .off) → imeReg t r = imeReg s r)
          ∧ t.fab = s.fab ∧ t.mem = s.mem ∧ t.drm = s.drm ∧ t.slu = s.slu ∧ { t.sec with drbgNo := s.sec.drbgNo } = s.sec
          ∧ (imeBaseKey s ≠ none → s.sec.drbgFail = false → s.sec.seeded = true →
            regsBut [statA pgDRC0, drcStatA, statA pgIME, errA pgIME] s t
            ∧ { t with regs := s.regs, ime := s.ime, sec := { t.sec with drbgNo := s.sec.drbgNo } } = s))
      ∧ (drcState s = dSR → s.drm.warm = true → ∃ t, exec .resume s = .next t ∧ drcState t = dREADY ∧ t.drm = { s.drm with warm := false }
          ∧ regsBut [drcStatA] s t ∧ { t with regs := s.regs, outbox := s.outbox, drm := s.drm } = s))
      ∧ (drcState s = dINIT → ∃ t, exec .dramInitDone s = .next t ∧ drcState t = dTRAIN ∧ busy t pgDRC0 = false
          ∧ regsBut [statA pgDRC0, drcStatA] s t ∧ onlyRegs s t)
      ∧ (drcState s = dFILL → ∃ t, exec .fillDone s = .next t ∧ drcState t = dREADY ∧ rdB t drcStatA 7 = true ∧ rdF t drcStatA 8 6 = 63
          ∧ busy t pgDRC0 = false ∧ rdB t (irqA pgDRC0) 0 = true ∧ t.ime.filling = []
          ∧ (∀ r ∈ s.ime.filling, (imeReg t r).st = .active)
          ∧ (s.ime.filling = [] → ∀ k c, c < 2 → dramWord t k c = if inSpare s (k * 8) then dramWord s k c else 0)
          ∧ regsBut [statA pgDRC0, drcStatA, irqA pgDRC0, irqA pgIME] s t ∧ t.fab = s.fab ∧ t.mem = s.mem ∧ t.sec = s.sec ∧ t.slu = s.slu)

/-- Mirror mode (R351, R352): a subchannel that times out is lost and its partner goes on, a resilver copies the survivor's words into it;
without a mirror the outstanding read is uncorrectable. A retired page (R355): its words stand corrected in the spare page, those of a line
that reads uncorrectable with a complemented seal; the entry acts, and no other page changes. -/
def Obligations.DramLossAndRetirement : Prop :=
  (∀ s : State,
    (∀ (sub : BitVec 3) (dpa : BitVec 40), drcState s = dREADY →
      (mirrored s = true → subLost s sub.toNat = false → subLost s (sub.toNat ^^^ 1) = false →
        ∃ t, exec (.readTimeout sub dpa) s = .next t ∧ subLost t sub.toNat = true ∧ rdB t (irqA pgDRC0) 1 = true
          ∧ (∀ k, k < 8 → k ≠ sub.toNat → subLost t k = subLost s k) ∧ t.drm = s.drm ∧ t.ime = s.ime ∧ t.sec = s.sec)
      ∧ (mirrored s = false → ∃ t, exec (.readTimeout sub dpa) s = .next t ∧ t.drm = { s.drm with timeouts := s.drm.timeouts ++ [dpa.toNat / 64] }
          ∧ drcState t = dREADY ∧ onlyWork s { t with drm := s.drm }))
      ∧ (reaches s pgDRC0 = true → gated s pgDRC0 = false → busy s pgDRC0 = false → drcState s = dREADY → mirrored s = true →
        (∃ k, k < 8 ∧ subLost s k = true ∧ subLost s (k ^^^ 1) = false) →
        ∃ t, exec .resilver s = .next t ∧ busy t pgDRC0 = true
          ∧ (∀ k, k ∈ t.drm.resilver ↔ k < 8 ∧ subLost s k = true ∧ subLost s (k ^^^ 1) = false) ∧ t.drm.words = s.drm.words
          ∧ regsBut [statA pgDRC0] s t ∧ { t with regs := s.regs, drm := { t.drm with resilver := s.drm.resilver } } = s)
      ∧ (s.drm.resilver ≠ [] → twf 0 s.drm.words = true → ∃ t, exec .resilverDone s = .next t ∧ busy t pgDRC0 = false ∧ t.drm.resilver = []
          ∧ (∀ k ∈ s.drm.resilver, k < 8 → subLost t k = false)
          ∧ (∀ w c, c < 2 → 2 * dramChannel s (w * 8) + c ∈ s.drm.resilver → 2 * dramChannel s (w * 8) + (1 - c) ∉ s.drm.resilver →
              dramWord t w c = dramWord s w (1 - c))
          ∧ (∀ w c, c < 2 → 2 * dramChannel s (w * 8) + c ∉ s.drm.resilver → dramWord t w c = dramWord s w c)
          ∧ regsBut [statA pgDRC0, drcStatA] s t
          ∧ { t with regs := s.regs, drm := { t.drm with words := s.drm.words, resilver := s.drm.resilver } } = s))
    ∧ (∀ (e : BitVec 10) (w : Word) (s : State), e.toNat ∈ s.drm.copying → w = tget 0 e.toNat s.drm.retire → mirrored s = false → s.drm.timeouts = [] → s.drm.queue = [] →
    fld w 0 26 ≠ fld w 32 26 → retireOf s (fld w 0 26) = some (e.toNat, w) → retireOf s (fld w 32 26) = none →
    ∃ t, exec (.retireCopyDone e) s = .next t ∧ e.toNat ∉ t.drm.copying ∧ rdB t (irqA pgDRC0) 4 = true
      ∧ (∀ i j, i < 64 → j < 8 → dramWord t (fld w 32 26 * 512 + 8 * i + j) 0
          = BitVec.ofNat 80 ((encCode (decode80 (dramWord s (fld w 0 26 * 512 + 8 * i + j) 0)).data).toNat
              + (if (lineRead s (fld w 0 26 * 4096 + 64 * i) 0 255).any (fun p => p.2.ue) then 255 else 0) * 2 ^ 72))
      ∧ (∀ k c, c < 2 → (c ≠ 0 ∨ k / 512 ≠ fld w 32 26) → dramWord t k c = dramWord s k c)
      ∧ t.drm.retire = s.drm.retire ∧ t.ime = s.ime ∧ t.mem = s.mem ∧ t.fab = s.fab ∧ t.sec = s.sec)

/-- The training helpers (R347): in TRAIN they go to the DRAM, a mode register read stores the byte, a compare burst clears and then reports the
errors of each bit lane; elsewhere they are refused. The DRAM's upkeep (R334, R345): no more than 4 refreshes are owed or ahead and the rest
is issued; MR4 sets the double rate of its rank; every rank fitted is calibrated; an idle rank powers down. -/
def Obligations.DramTrainingAndUpkeep : Prop :=
  (∀ (sub : BitVec 3) (v : Reg) (s : State),
    (reaches s (pgDPH sub.toNat) = true → gated s (pgDPH sub.toNat) = false → busy s (pgDPH sub.toNat) = false →
      (mayTrain s sub.toNat = true →
        (fld v 25 4 ≤ 9 → (∃ t, exec (.mrw sub v) s = .next t
            ∧ t.outbox = .dramCommand sub.toNat (.mrw (fld v 24 1) (if bit v 29 then some (fld v 25 4) else none) (fld v 16 8) (fld v 0 8)) :: s.outbox
            ∧ { t with outbox := s.outbox } = s)
          ∧ ∀ b : Byte, ∃ t, exec (.mrr sub v b) s = .next t ∧ rd t (at' (pgDPH sub.toNat) 0x44) = BitVec.ofNat 32 b.toNat
            ∧ t.outbox = .dramCommand sub.toNat (.mrr (fld v 24 1) (fld v 25 4) (fld v 16 8)) :: s.outbox
            ∧ regsBut [at' (pgDPH sub.toNat) 0x44] s t ∧ { t with outbox := s.outbox, regs := s.regs } = s)
        ∧ (∃ t, exec (.mpc sub v) s = .next t ∧ t.outbox = .dramCommand sub.toNat (.mpc (fld v 24 1) (fld v 0 8)) :: s.outbox
            ∧ { t with outbox := s.outbox } = s)
        ∧ ∃ t, exec (.compareBurst sub v) s = .next t ∧ busy t (pgDPH sub.toNat) = true
          ∧ (∀ b, b < 40 → rd t (at' (pgDPH sub.toNat) (0x100 + 4 * b)) = 0)
          ∧ t.outbox = .dramCommand sub.toNat (.bursts (bit v 30) (fld v 0 24) (rd s (at' (pgDPH sub.toNat) 0x5C))) :: s.outbox
          ∧ t.drm = { s.drm with bursting := s.drm.bursting ++ [sub.toNat] }
          ∧ (∀ a, a ≠ statA (pgDPH sub.toNat) → (∀ b, b < 40 → a ≠ at' (pgDPH sub.toNat) (0x100 + 4 * b)) → rd t a = rd s a)
          ∧ { t with outbox := s.outbox, regs := s.regs, drm := s.drm } = s)
      ∧ (mayTrain s sub.toNat = false → ∃ t, (exec (.mrw sub v) s = .next t ∧ (∀ b, exec (.mrr sub v b) s = .next t)
            ∧ exec (.mpc sub v) s = .next t ∧ exec (.compareBurst sub v) s = .next t)
          ∧ rd t (errA (pgDPH sub.toNat)) = 0x0A08 ∧ rdB t (statA (pgDPH sub.toNat)) 2 = true
          ∧ regsBut [statA (pgDPH sub.toNat), errA (pgDPH sub.toNat)] s t ∧ onlyRegs s t))
      ∧ (s.drm.bursting.contains sub.toNat = true → ∀ beats : List (BitVec 40), ∃ t, exec (.compareBurstDone sub beats) s = .next t
          ∧ busy t (pgDPH sub.toNat) = false ∧ sub.toNat ∉ t.drm.bursting
          ∧ (∀ b, b < 40 → rd t (at' (pgDPH sub.toNat) (0x100 + 4 * b)) = BitVec.ofNat 32 (min 65535 (((beats.zip (patternBits s sub.toNat b beats.length)).filter fun q => bit q.1 b != q.2).length)))
          ∧ (∀ a, a ≠ statA (pgDPH sub.toNat) → (∀ b, b < 40 → a ≠ at' (pgDPH sub.toNat) (0x100 + 4 * b)) → rd t a = rd s a)
          ∧ { t with regs := s.regs, drm := { t.drm with bursting := s.drm.bursting } } = s))
    ∧ (∀ (sub : BitVec 3) (rank : BitVec 1) (s : State),
    (refreshes s = true →
      (∀ b : Bool, ∃ t, exec (.refresh sub rank b) s = .next t
        ∧ tget 0 (2 * sub.toNat + rank.toNat) t.drm.debt = (if b then min (tget 0 (2 * sub.toNat + rank.toNat) s.drm.debt + 1) 4
            else max (min (tget 0 (2 * sub.toNat + rank.toNat) s.drm.debt - 1) (-1)) (-4))
        ∧ (∀ k, k ≠ 2 * sub.toNat + rank.toNat → tget 0 k t.drm.debt = tget 0 k s.drm.debt)
        ∧ t.outbox = List.replicate (tget 0 (2 * sub.toNat + rank.toNat) s.drm.debt + 1 - tget 0 (2 * sub.toNat + rank.toNat) t.drm.debt).toNat
            (.dramCommand sub.toNat (.refresh rank.toNat (rdB s (at' pgDRC0 0x80) 0))) ++ s.outbox
        ∧ { t with outbox := s.outbox, drm := { t.drm with debt := s.drm.debt, rows := s.drm.rows, nextSb := s.drm.nextSb } } = s)
      ∧ (∀ mr4 : Byte, ∃ t, exec (.mr4Poll sub rank mr4) s = .next t ∧ (2 * sub.toNat + rank.toNat ∈ t.drm.hot ↔ 3 ≤ fld mr4 0 3)
        ∧ (∀ k, k ≠ 2 * sub.toNat + rank.toNat → (k ∈ t.drm.hot ↔ k ∈ s.drm.hot))
        ∧ (rdB t drcStatA (20 + sub.toNat / 2) = true ↔ ∃ k ∈ t.drm.hot, k / 4 = sub.toNat / 2)
        ∧ (5 ≤ fld mr4 0 3 → rdB t (irqA pgDRC0) 3 = true)
        ∧ (fld mr4 0 3 < 5 → regsBut [drcStatA] s t) ∧ { t.drm with hot := s.drm.hot } = s.drm ∧ t.ime = s.ime ∧ t.mem = s.mem ∧ t.fab = s.fab)
      ∧ (∃ t, exec .zqCalibration s = .next t
        ∧ t.outbox = ((populated s).flatMap fun k => (ranks s).map fun r => Out.dramCommand k (.zq r)).reverse ++ s.outbox
        ∧ { t with outbox := s.outbox } = s)
      ∧ ∀ counts : List Nat, ∃ t, exec (.dqsOscRead sub counts) s = .next t
        ∧ t.outbox = (((ranks s).take counts.length).map fun r => Out.dramCommand sub.toNat (.oscRead r)).reverse ++ s.outbox
        ∧ (∀ r c, (r, c) ∈ (ranks s).zip counts → tget none (2 * sub.toNat + r) t.drm.osc
            = some (((tget none (2 * sub.toNat + r) s.drm.osc).getD (c, c)).1, c))
        ∧ { t with outbox := s.outbox, drm := { t.drm with osc := s.drm.osc } } = s)
      ∧ (drcState s = dREADY → 2 * sub.toNat + rank.toNat ∉ s.drm.asleep → ∃ t, exec (.powerDownEntry sub rank) s = .next t
        ∧ t.drm = { s.drm with asleep := s.drm.asleep ++ [2 * sub.toNat + rank.toNat], rows := t.drm.rows }
        ∧ (∀ q ∈ t.drm.rows, q.1 / 32 ≠ 2 * sub.toNat + rank.toNat)
        ∧ t.outbox = .dramCommand sub.toNat (.powerDown rank.toNat) :: s.outbox ∧ { t with outbox := s.outbox, drm := s.drm } = s))

/-- Requests of the DRAM outside every encrypted region (R338, R339, R340, R343, R346, R350): a whole-line write is stored with its check bits
and seal and read back; a read gives its data, the mirror's where its own are uncorrectable, or is poisoned; a refused one is aborted. BAR 4
(R339, R484): offsets are those of the aperture; a whole line written is stored and an aligned part of a line is read; Unsupported Request
in D3hot, Completer Abort where the DRAM refuses. -/
def Obligations.DramRequestsAndWindow : Prop :=
  (∀ (src : BitVec 4) (dpa : BitVec 40) (s : State) (a : Nat), a = dpa.toNat / 64 * 64 → srcWaits s src.toNat = false →
    ((drcState s ≠ dREADY ∨ 2 ^ capLog2 s ≤ a ∨ inSpare s a = true ∨ inMeta s a = true) →
      (∃ t, exec (.dramRead src dpa) s = .next t ∧ t.outbox = .completerAbort a :: s.outbox ∧ { t with outbox := s.outbox } = s)
      ∧ ∀ mask line, exec (.dramWrite src dpa mask line) s = .next s)
      ∧ (regionOf s a = none → pageBlocked s a = false → a / 64 ∉ s.drm.timeouts →
        (imeRefusal s src.toNat a false = none → ∀ ws vs : List (Nat × DramWordRead), ws = lineRead s (remap s a) 0 255 → vs = lineRead s (remap s a) 1 255 →
          (mirrored s = false ∨ subLost s (dramSub s (remap s a)) = false) →
          ((∀ p ∈ ws, p.2.ue = false) → ∃ t l, exec (.dramRead src dpa) s = .next t ∧ t.outbox = .readBytes a (toBytes 64 (lineData ws)) :: l
              ∧ t.drm.words = s.drm.words ∧ t.ime = s.ime ∧ t.mem = s.mem ∧ ((∀ p ∈ ws, p.2.err = none) → l = s.outbox ∧ t.regs = s.regs))
          ∧ ((∃ p ∈ ws, p.2.ue = true) → mirrored s = true → subLost s (dramSub s (remap s a) + 1) = false → (∀ p ∈ vs, p.2.ue = false) →
              ∃ t l, exec (.dramRead src dpa) s = .next t ∧ t.outbox = .readBytes a (toBytes 64 (lineData vs)) :: l ∧ t.drm.words = s.drm.words)
          ∧ ((∃ p ∈ ws, p.2.ue = true) → (mirrored s = false ∨ ∃ p ∈ vs, p.2.ue = true) →
              ∃ t l, exec (.dramRead src dpa) s = .next t ∧ t.outbox = .readPoisoned a :: l ∧ t.drm.words = s.drm.words
                ∧ rdB t (irqA pgDRC0) 2 = true))
        ∧ (imeRefusal s src.toNat a true = none → mirrored s = false → ∀ line : BitVec 512,
          ∃ t, exec (.dramWrite src dpa (BitVec.allOnes 64) line) s = .next t
            ∧ (∀ i, i < 8 → dramWord t (remap s a / 8 + i) 0 = BitVec.ofNat 80 (encCode (BitVec.ofNat 64 (fld line (64 * i) 64))).toNat)
            ∧ (∀ k c, c < 2 → (c ≠ 0 ∨ k < remap s a / 8 ∨ remap s a / 8 + 8 ≤ k) → dramWord t k c = dramWord s k c)
            ∧ { t with drm := { t.drm with words := s.drm.words, asleep := s.drm.asleep, rows := s.drm.rows } } = s
            ∧ ∃ u, exec (.dramRead src dpa) t = .next u ∧ u.outbox = .readBytes a (toBytes 64 line) :: t.outbox)))
    ∧ (∀ (off : BitVec 36) (s : State) (a : Nat), a = bar4Dpa s off.toNat → srcWaits s srcBar4 = false →
    (s.hst.d3 = true → (∀ len, ∃ t, exec (.bar4Read off len) s = .next t ∧ t.outbox = .unsupported off.toNat :: s.outbox ∧ { t with outbox := s.outbox } = s)
      ∧ ∀ bs, exec (.bar4Write off bs) s = .next s)
      ∧ (s.hst.d3 = false → drcState s ≠ dREADY →
        (∀ len, ∃ t, exec (.bar4Read off len) s = .next t ∧ t.outbox = .completerAbort off.toNat :: s.outbox ∧ { t with outbox := s.outbox } = s)
        ∧ ∀ bs, exec (.bar4Write off bs) s = .next s)
      ∧ (s.hst.d3 = false → mirrored s = false → regionOf s (a / 64 * 64) = none → pageBlocked s (a / 64 * 64) = false →
        a / 64 ∉ s.drm.timeouts →
        (imeRefusal s srcBar4 (a / 64 * 64) false = none → (∀ p ∈ lineRead s (remap s (a / 64 * 64)) 0 255, p.2.err = none) →
          ∀ len, 0 < len → a % 64 + len ≤ 64 → ∃ t, exec (.bar4Read off len) s = .next t
            ∧ t.outbox = .readBytes off.toNat (((toBytes 64 (lineData (lineRead s (remap s (a / 64 * 64)) 0 255))).drop (a % 64)).take len) :: s.outbox
            ∧ t.drm.words = s.drm.words ∧ t.regs = s.regs)
        ∧ (imeRefusal s srcBar4 (a / 64 * 64) true = none → a % 64 = 0 → ∀ line : BitVec 512,
          ∃ t, exec (.bar4Write off ((toBytes 64 line).map some)) s = .next t
            ∧ (∀ i, i < 8 → dramWord t (remap s a / 8 + i) 0 = BitVec.ofNat 80 (encCode (BitVec.ofNat 64 (fld line (64 * i) 64))).toNat)
            ∧ (∀ k c, c < 2 → (c ≠ 0 ∨ k < remap s a / 8 ∨ remap s a / 8 + 8 ≤ k) → dramWord t k c = dramWord s k c)
            ∧ { t with drm := { t.drm with words := s.drm.words, asleep := s.drm.asleep, rows := s.drm.rows } } = s)))

/-- Regions of inline memory encryption (R361 to R363, R367, R373, R374, R377 to R379, R381): the enable takes the four banks, INIT keys a
region from the device secret and fresh random bytes, OFF forgets it, and the engine's commands start under the region's state. -/
def Obligations.ImeRegions : Prop :=
  ∀ s : State,
    (∀ v : Reg, reaches s pgIME = true → gated s pgIME = false → bit v 0 ≠ imeEn s →
      ((bit v 0 = true → ∀ n, 120 ≤ n → n < 124 → (bankOf s n).typ = 0 ∧ (bankOf s n).target = none) → (bit v 0 = false → encryptedOff s = true) →
        ∃ t, exec (.imeEnable v) s = .next t ∧ imeEn t = bit v 0 ∧ (bit v 0 = false → t.ime.cache = [])
          ∧ (∀ n, 120 ≤ n → n < 124 → (bankOf t n).typ = (if bit v 0 then 5 else 0) ∧ ∀ r w, r < 4096 → w < 128 → rowCode t n r w = 0)
          ∧ (∀ n r w, (n < 120 ∨ 124 ≤ n) → r < 4096 → w < 128 → bankOf t n = bankOf s n ∧ rowCode t n r w = rowCode s n r w)
          ∧ rdB t (irqA pgBANK) 0 = true ∧ regsBut [at' pgIME 0x40, irqA pgBANK] s t ∧ { t.ime with cache := s.ime.cache } = s.ime
          ∧ { t with regs := s.regs, mem := s.mem, ime := s.ime, outbox := s.outbox, hst := { t.hst with msixPend := s.hst.msixPend } } = s)
      ∧ (bit v 0 = true → (∃ n, 120 ≤ n ∧ n < 124 ∧ (bankOf s n).typ ≠ 0) → ∃ t, exec (.imeEnable v) s = .next t ∧ rd t (errA pgIME) = 0x0B0A
          ∧ imeEn t = false ∧ regsBut [statA pgIME, errA pgIME] s t ∧ onlyRegs s t))
      ∧ ∀ r : BitVec 4,
        (reaches s pgIME = true → gated s pgIME = false → busy s pgIME = false →
          ((imeReg s r.toNat).st = .off → drcState s = dREADY → placementOk s r.toNat = true →
            (imeMode s r.toNat = 0 → ∃ t, exec (.imeInit r) s = .next t ∧ busy t pgIME = true ∧ t.ime.running = some (1, r.toNat, 0, 0)
              ∧ (∀ q, imeReg t q = if q = r.toNat then { ImeRegion.zero with st := .init } else imeReg s q) ∧ t.sec = s.sec
              ∧ regsBut [statA pgIME] s t ∧ { t with regs := s.regs, ime := s.ime } = s)
            ∧ (∀ base m : List Byte, imeMode s r.toNat ≠ 0 → imeBaseKey s = some base → s.sec.drbgFail = false → s.sec.seeded = true →
              m = kdf base (ascii "IME REGION") (BitVec.ofNat 8 r.toNat :: (List.range 8).flatMap fun i => toBytes 4 (Config.drbg (s.sec.drbgNo + i))) 32 →
              ∃ t, exec (.imeInit r) s = .next t ∧ busy t pgIME = true ∧ t.ime.running = some (1, r.toNat, 0, 0)
                ∧ imeReg t r.toNat = { ImeRegion.zero with
                    st := .init, master := ofBe 256 m, key := ofBe 256 (kdf m (ascii "IME EPOCH") (beNat 2 0) 32)
                    tree := ofBe 256 (kdf m (ascii "IME TREE") [] 32) }
                ∧ (∀ q, q ≠ r.toNat → imeReg t q = imeReg s q) ∧ t.sec = { s.sec with drbgNo := s.sec.drbgNo + 8 }
                ∧ regsBut [statA pgIME] s t ∧ { t with regs := s.regs, ime := s.ime, sec := s.sec } = s))
          ∧ ((imeReg s r.toNat).st ≠ .init → s.ime.serving ≠ some r.toNat → s.drm.queue = [] → ∃ t, exec (.imeOff r) s = .next t ∧ imeReg t r.toNat = .zero
            ∧ (∀ k j, k < 9 → j < 2 ^ 36 → cacheOf t r.toNat k j = none ∧ metaKey r.toNat k j ∉ t.ime.lost
              ∧ ∀ q, q ≠ r.toNat → imeReg t q = imeReg s q ∧ cacheOf t q k j = cacheOf s q k j)
            ∧ t.regs = s.regs ∧ { t with ime := s.ime } = s)
          ∧ ((imeReg s r.toNat).st = .init → ∃ t, exec (.imeOff r) s = .next t ∧ rd t (errA pgIME) = 0x0B07 ∧ regsBut [statA pgIME, errA pgIME] s t
            ∧ onlyRegs s t)
          ∧ (∀ k j, k = fld (rd s (at' pgIME 0x4C)) 28 4 → j = fld (rd s (at' pgIME 0x4C)) 0 26 → (imeReg s r.toNat).st = .active →
            (imeReg s r.toNat).pend = false →
            (imeMode s r.toNat ≠ 0 → k ≤ imeTop s r.toNat → j < levelSize s r.toNat k → (imeReg s r.toNat).high < 0xFFFFFFFF →
              ∃ t, exec (.initRange r) s = .next t ∧ busy t pgIME = true ∧ t.ime = { s.ime with running := some (3, r.toNat, k, j) }
                ∧ regsBut [statA pgIME] s t ∧ { t with regs := s.regs, ime := s.ime } = s)
            ∧ ((imeTop s r.toNat < k ∨ levelSize s r.toNat k ≤ j) →
              ∃ t, exec (.initRange r) s = .next t ∧ rd t (errA pgIME) = 0x0B08 ∧ regsBut [statA pgIME, errA pgIME] s t ∧ onlyRegs s t))
          ∧ ((imeReg s r.toNat).st = .active → (imeReg s r.toNat).epoch ≠ 0xFFFF →
            (∀ q, s.ime.serving = some q → ∃ t, exec (.imeRekey r) s = .next t ∧ imeReg t r.toNat = { imeReg s r.toNat with pend := true }
              ∧ (∀ p, p ≠ r.toNat → imeReg t p = imeReg s p) ∧ t.ime.serving = some q ∧ t.regs = s.regs ∧ { t with ime := s.ime } = s)
            ∧ (s.ime.serving = none → (∀ q, q < 16 → (imeReg s q).pend = false) → ∃ t, exec (.imeRekey r) s = .next t
              ∧ imeReg t r.toNat = { imeReg s r.toNat with
                  st := .rekey, pend := false, bound := 0
                  next := ofBe 256 (kdf (beBytes 32 (imeReg s r.toNat).master) (ascii "IME EPOCH") (beNat 2 ((imeReg s r.toNat).epoch + 1)) 32) }
              ∧ (∀ p, p ≠ r.toNat → imeReg t p = imeReg s p) ∧ t.ime.serving = some r.toNat ∧ rd t (at' pgIME 0x44) = BitVec.ofNat 32 (16 + r.toNat)
              ∧ rd t (at' pgIME 0x50) = 0 ∧ regsBut [at' pgIME 0x44, at' pgIME 0x50] s t ∧ { t with regs := s.regs, ime := s.ime } = s))
          ∧ ∃ t, exec (.flush r) s = .next t ∧ busy t pgIME = true ∧ t.ime = { s.ime with running := some (5, r.toNat, 0, 0) }
            ∧ regsBut [statA pgIME] s t ∧ { t with regs := s.regs, ime := s.ime } = s)
        ∧ (∀ k j, s.ime.running = some (1, r.toNat, k, j) → ∃ t, exec (.imeInitDone r) s = .next t ∧ busy t pgIME = false
            ∧ (imeReg t r.toNat).st = .active ∧ t.ime.running = none ∧ rdB t (irqA pgIME) 4 = true ∧ (∀ q, q ≠ r.toNat → imeReg t q = imeReg s q)
            ∧ (imeMode s r.toNat = 0 → t.drm = s.drm) ∧ regsBut [statA pgIME, irqA pgIME] s t ∧ t.fab = s.fab ∧ t.mem = s.mem ∧ t.sec = s.sec)

/-- The engine of inline memory encryption (R363, R369, R373, R374, R377): a range initialised advances the high-water major and its root
counter, a flush leaves no dirty entry of its region, a rekey goes page by page to the next epoch, and a page re-encrypted stands under the
next MAJOR. -/
def Obligations.ImeEngine : Prop :=
  ∀ (r : BitVec 4) (s : State),
    (∀ j, s.ime.running = some (3, r.toNat, imeTop s r.toNat, j) → tget 0 j (imeReg s r.toNat).root + 1 < 2 ^ 56 - 1 →
      (imeReg s r.toNat).high + 1 < 2 ^ 31 →
      ∃ t, exec (.initRangeDone r) s = .next t ∧ busy t pgIME = false ∧ t.ime.running = none
        ∧ imeReg t r.toNat = { imeReg s r.toNat with high := (imeReg s r.toNat).high + 1, root := (imeReg t r.toNat).root }
        ∧ (∀ i, tget 0 i (imeReg t r.toNat).root = tget 0 i (imeReg s r.toNat).root + if i = j then 1 else 0)
        ∧ (∀ q, q ≠ r.toNat → imeReg t q = imeReg s q)
        ∧ (∀ k i, k ≤ imeTop s r.toNat → k < 8 → i < 2 ^ 36 → i / 8 ^ (imeTop s r.toNat - k) = j → metaKey r.toNat k i ∉ t.ime.lost)
        ∧ regsBut [statA pgIME] s t ∧ t.fab = s.fab ∧ t.mem = s.mem ∧ t.sec = s.sec)
      ∧ (∀ k j, s.ime.running = some (5, r.toNat, k, j) → ∃ t, exec (.flushDone r) s = .next t ∧ busy t pgIME = false ∧ t.ime.running = none
        ∧ ∀ k i c, k < 9 → i < 2 ^ 36 → cacheOf t r.toNat k i = some c → c.dirty = false)
      ∧ (s.ime.serving = some r.toNat → (imeReg s r.toNat).st = .rekey → drcState s = dREADY →
        (∀ e ∈ s.ime.reenc, ¬(e.region = r.toNat ∧ e.page = (imeReg s r.toNat).bound / 64)) →
        (imePages s r.toNat ≤ (imeReg s r.toNat).bound / 64 → (∀ q, q < 16 → (imeReg s q).pend = false) →
          ∃ t, exec .rekeyPage s = .next t ∧ imeReg t r.toNat = { imeReg s r.toNat with
              st := .active, epoch := (imeReg s r.toNat).epoch + 1, key := (imeReg s r.toNat).next, next := 0, bound := 0 }
            ∧ (∀ q, q ≠ r.toNat → imeReg t q = imeReg s q) ∧ t.ime.serving = none ∧ rdB t (irqA pgIME) 2 = true ∧ rdB t (at' pgIME 0x44) 4 = false
            ∧ regsBut [at' pgIME 0x44, irqA pgIME] s t ∧ t.drm = s.drm ∧ t.sec = s.sec)
        ∧ ((imeReg s r.toNat).bound / 64 + 1 < imePages s r.toNat → ∃ t, exec .rekeyPage s = .next t
            ∧ ((imeReg t r.toNat).st = .rekey → (imeReg t r.toNat).bound = 64 * ((imeReg s r.toNat).bound / 64 + 1)
              ∧ rd t (at' pgIME 0x50) = BitVec.ofNat 32 (64 * ((imeReg s r.toNat).bound / 64 + 1)))))
      ∧ ∀ (p : BitVec 26) (c : CacheLine) (e : Reenc), s.ime.reenc.find? (fun x => x.region = r.toNat && x.page = p.toNat) = some e →
        s.drm.queue = [] → s.ime.cache.length ≤ 200000 → cacheOf s r.toNat 0 p.toNat = some c → imeMode s r.toNat = 1 → majorOf c.block + 1 ≠ 2 ^ 31 → majorOf c.block + 1 < 2 ^ 32 →
        (∀ i, i ≤ imeTop s r.toNat → metaKey r.toNat i (p.toNat / 8 ^ i) ∉ s.ime.lost
          ∧ ∀ d, cacheOf s r.toNat i (p.toNat / 8 ^ i) = some d → d.bad = false) →
        ∃ t, exec (.pageReencryptDone r p) s = .next t
          ∧ cacheOf t r.toNat 0 p.toNat = some ⟨BitVec.ofNat 512 (majorOf c.block + 1), true, false⟩
          ∧ imeReg t r.toNat = { imeReg s r.toNat with high := max (imeReg s r.toNat).high (majorOf c.block + 1) }
          ∧ t.ime.reenc = s.ime.reenc.filter (fun x => !(x.region = r.toNat && x.page = p.toNat))
          ∧ t.fab = s.fab ∧ t.mem = s.mem ∧ t.slu = s.slu

/-- OTP reads and challenges (R388, R393, R399, R405): a word is shown with how it decodes, a hidden one reads 0; a challenge is the DRBG's next
32 bytes, refused while the DRBG is stopped. Programming the OTP (R390, R392 to R396): an authorised command starts with the words that its
block, generation, count or key needs, all of them blank, and uses up the challenge; a word is written once and stays; what cannot be
verified ends the command. -/
def Obligations.OneTimeProgrammable : Prop :=
  (∀ (v : Reg) (s : State), reaches s pgOTP = true → gated s pgOTP = false → busy s pgOTP = false →
    (∃ t, exec (.read v) s = .next t ∧ busy t pgOTP = false ∧ rdB t (irqA pgOTP) 0 = true ∧ t.sec.otp = s.sec.otp
        ∧ (hiddenWord (fld v 0 10) = true → rd t 0x5048 = 0 ∧ rd t 0x504C = 0 ∧ rd t 0x5050 = 0)
        ∧ (hiddenWord (fld v 0 10) = false →
          rd t 0x5050 = (match otpRead s (fld v 0 10) with
            | .clean _ => 0
            | .corrected _ _ => 1
            | .uncorrectable _ => 2)
          ∧ (∀ d, decodedData (otpRead s (fld v 0 10)) = some d → (rd t 0x5048).toNat + (rd t 0x504C).toNat * 2 ^ 32 = d.toNat))
        ∧ (∀ d, otpRead s (fld v 0 10) = .clean d → regsBut [0x5048, 0x504C, 0x5050, statA pgOTP, irqA pgOTP] s t ∧ t.ecc = s.ecc)
        ∧ t.fab = s.fab ∧ t.mem = s.mem ∧ t.slu = s.slu ∧ t.drm = s.drm)
      ∧ (s.sec.drbgFail = false → s.sec.seeded = true → modeOf s ≠ mSEALED → ∃ t, exec (.challenge v) s = .next t ∧ busy t pgOTP = false
        ∧ (∀ i, i < 8 → rd t (0x5200 + 4 * i) = Config.drbg (s.sec.drbgNo + i)) ∧ t.sec.challenge = true ∧ t.sec.drbgNo = s.sec.drbgNo + 8
        ∧ t.sec.otp = s.sec.otp ∧ rdB t (irqA pgOTP) 0 = true
        ∧ (∀ a, a ≠ statA pgOTP → a ≠ irqA pgOTP → (∀ i, i < 8 → a ≠ 0x5200 + 4 * i) → rd t a = rd s a)
        ∧ onlyHost s { t with sec := s.sec })
      ∧ (s.sec.drbgFail = true → ∃ t, exec (.challenge v) s = .next t ∧ rd t (errA pgOTP) = 0x0C0B ∧ t.sec.challenge = s.sec.challenge
        ∧ t.sec.otp = s.sec.otp ∧ regsBut [statA pgOTP, errA pgOTP, irqA pgOTP] s t ∧ onlyHost s { t with sec := s.sec }))
    ∧ (∀ (v : Reg) (s : State),
    (reaches s pgOTP = true → gated s pgOTP = false → busy s pgOTP = false → modeOf s ≠ mSEALED →
      (1 ≤ cmdBlock v → cmdBlock v ≤ 9 →
        ((authBlock (cmdBlock v) = false ∨ cmdBlock v = 6 ∧ otpGen s 6 = none
            ∨ (otpGen s 6).isSome = true ∧ s.sec.challenge = true ∧ authOk s 3 v = true) →
          ((∀ w ∈ genBase (cmdBlock v) (cmdGen v) :: genWords (cmdBlock v) (cmdGen v), otpBlank s w = true) →
            ∃ t, exec (.programGen v) s = .next t ∧ busy t pgOTP = true
              ∧ t.sec.job = some ⟨(genWords (cmdBlock v) (cmdGen v)).zip (stagedWords s (cmdBlock v))
                  ++ [(genBase (cmdBlock v) (cmdGen v), genHeader (cmdBlock v) (cmdGen v) (stagedWords s (cmdBlock v)))], none, none, false⟩
              ∧ t.sec.otp = s.sec.otp ∧ regsBut [statA pgOTP] s t
              ∧ { t with regs := s.regs, sec := { t.sec with job := s.sec.job, challenge := s.sec.challenge } } = s)
          ∧ ((∃ w ∈ genBase (cmdBlock v) (cmdGen v) :: genWords (cmdBlock v) (cmdGen v), otpBlank s w = false) →
            ∃ t, exec (.programGen v) s = .next t ∧ busy t pgOTP = false ∧ rd t (errA pgOTP) = 0x0C01 ∧ t.sec.otp = s.sec.otp ∧ t.sec.job = none
              ∧ regsBut [statA pgOTP, errA pgOTP, irqA pgOTP] s t ∧ onlyHost s { t with sec := s.sec }))
        ∧ ((authBlock (cmdBlock v) = false ∨ (otpGen s 6).isSome = true ∧ s.sec.challenge = true ∧ authOk s 4 v = true) →
          otpBlank s (genVoid (cmdBlock v) (cmdGen v)) = true → ∃ t d, exec (.voidGen v) s = .next t ∧ busy t pgOTP = true ∧ d ≠ 0
            ∧ t.sec.job = some ⟨[(genVoid (cmdBlock v) (cmdGen v), d)], none, none, false⟩ ∧ t.sec.otp = s.sec.otp ∧ regsBut [statA pgOTP] s t
            ∧ { t with regs := s.regs, free := s.free, sec := { t.sec with job := s.sec.job, challenge := s.sec.challenge } } = s)
        ∧ (authBlock (cmdBlock v) = true → (otpGen s 6).isSome = true → s.sec.challenge = true → authOk s 4 v = false →
          ∃ t, exec (.voidGen v) s = .next t ∧ rd t (errA pgOTP) = 0x0C03 ∧ t.sec.otp = s.sec.otp ∧ t.sec.challenge = false ∧ t.sec.job = none
            ∧ rdB t (irqA pgSEC) 0 = true))
      ∧ ((otpGen s 6).isSome = true → s.sec.challenge = true → authOk s 5 v = true →
        (versionCount s < fld v 0 10 → fld v 0 10 ≤ 256 → ∃ t ws, exec (.version v) s = .next t ∧ busy t pgOTP = true
          ∧ t.sec.job = some ⟨ws, some (versionCount s), none, false⟩
          ∧ ws.map (fun p => p.1) = (List.range (fld v 0 10 - versionCount s)).map (fun i => 0x300 + versionCount s + i)
          ∧ (∀ p ∈ ws, p.2 ≠ 0) ∧ t.sec.otp = s.sec.otp ∧ versionNow t = versionCount s ∧ regsBut [statA pgOTP] s t
          ∧ { t with regs := s.regs, free := s.free, sec := { t.sec with job := s.sec.job, challenge := s.sec.challenge } } = s)
        ∧ ((fld v 0 10 ≤ versionCount s ∨ 256 < fld v 0 10) → ∃ t, exec (.version v) s = .next t ∧ rd t (errA pgOTP) = 0x0C07
          ∧ t.sec.otp = s.sec.otp ∧ t.sec.challenge = false ∧ regsBut [statA pgOTP, errA pgOTP, irqA pgOTP] s t))
      ∧ (cmdGen v ≤ 1 → (hiddenKey s 0x200).isSome = true → ∀ b, b = (if cmdGen v = 0 then 0x204 else 0x208) →
        (keySet s b = false → ∀ k, unwrapKey s (cmdGen v) = some k → ∃ t, exec (.provision v) s = .next t ∧ busy t pgOTP = true
          ∧ t.sec.job = some ⟨(List.range 4).map fun i => (b + i, ofBytes 64 ((k.drop (8 * i)).take 8)), none, some b, false⟩
          ∧ t.sec.otp = s.sec.otp ∧ regsBut [statA pgOTP] s t ∧ { t with regs := s.regs, sec := { t.sec with job := s.sec.job } } = s)
        ∧ (keySet s b = true → ∃ t, exec (.provision v) s = .next t ∧ rd t (errA pgOTP) = 0x0C08 ∧ t.sec.otp = s.sec.otp
          ∧ regsBut [statA pgOTP, errA pgOTP, irqA pgOTP] s t)))
      ∧ ∀ (j : OtpJob) (w : Nat) (d : Word) (rest : List (Nat × Word)), s.sec.job = some j → j.words = (w, d) :: rest →
        (∃ t, exec (.otpWordProgrammed true) s = .next t ∧ (∀ k, otpCode t k = if k = w then encCode d else otpCode s k)
          ∧ (rest ≠ [] → t.sec.job = some { j with words := rest } ∧ t.regs = s.regs)
          ∧ (rest = [] → t.sec.job = none ∧ busy t pgOTP = false ∧ rdB t (irqA pgOTP) 0 = true ∧ (j.cut = true → rd t (errA pgOTP) = 0x0C0F))
          ∧ t.fab = s.fab ∧ t.mem = s.mem ∧ t.drm = s.drm)
        ∧ ∃ t, exec (.otpWordProgrammed false) s = .next t ∧ t.sec.otp = s.sec.otp ∧ t.sec.job = none ∧ busy t pgOTP = false
          ∧ rd t (errA pgOTP) = 0x0C02 ∧ regsBut [statA pgOTP, errA pgOTP, irqA pgOTP] s t ∧ onlyHost s { t with sec := s.sec })

/-- Attestation, SEALED, alarms and the random source (R398 to R402, R404): the report is the snapshot with its signature; SEAL takes keys,
planes, banks and engines away; an alarm is counted and recorded and seals at the threshold; the seal log takes the lowest blank word; three
failures stop the DRBG. -/
def Obligations.AttestSealAndAlarms : Prop :=
  ∀ s : State,
    (∀ v : Reg, reaches s pgSEC = true → gated s pgSEC = false → busy s pgSEC = false → modeOf s ≠ mSEALED →
      (∀ k, attestKey s = some k → ∃ t, exec (.attest v) s = .next t ∧ busy t pgSEC = true ∧ t.sec = { s.sec with snapshot := some (reportBody s) }
        ∧ regsBut [statA pgSEC] s t ∧ { t with regs := s.regs, sec := s.sec } = s)
      ∧ (attestKey s = none → ∃ t, exec (.attest v) s = .next t ∧ rd t (errA pgSEC) = 0x0C11 ∧ regsBut [statA pgSEC, errA pgSEC] s t ∧ onlyRegs s t)
      ∧ (fld v 16 16 ≠ 0x5EA1 → exec (.seal v) s = .next s)
      ∧ (fld v 16 16 = 0x5EA1 → ∃ t, exec (.seal v) s = .next t ∧ modeOf t = mSEALED ∧ rdF t (at' pgSEC 0x50) 0 16 = 0x0C0E ∧ drcState t = dOFF
        ∧ t.fab = { Fabric.zero with hold := s.fab.hold } ∧ t.mem.rows = [] ∧ t.ime = .zero ∧ t.enr = .zero ∧ t.lan.lanes = []
        ∧ (∀ n, n < 128 → (bankOf t n).typ = 0) ∧ t.hst.holders = [] ∧ t.sec.seeded = false ∧ t.sec.challenge = false
        ∧ t.sec.sealPend.isSome = true ∧ t.sec.otp = s.sec.otp ∧ dus t = none ∧ attestKey t = none ∧ fleetKey t = none ∧ boardBond t = none
        ∧ rdB t 0x054 31 = true))
      ∧ (∀ b k, s.sec.snapshot = some b → attestKey s = some k → ∃ t, exec .attestDone s = .next t
        ∧ t.sec = { s.sec with snapshot := none, report := b ++ beBytes 96 (Config.ecdsaSign k (Config.sha384 b)) }
        ∧ busy t pgSEC = false ∧ rdB t (irqA pgSEC) 1 = true ∧ regsBut [statA pgSEC, irqA pgSEC] s t ∧ onlyHost s { t with sec := s.sec })
      ∧ (let alarmed (c : Nat) (t : State) : Prop := rdF t (at' pgSEC 0x4C) 0 16 = satAdd (rdF s (at' pgSEC 0x4C) 0 16) 1 65535 ∧ rdB t (irqA pgSEC) 0 = true
        ∧ rd t (at' pgSEC 0x48) = (if rdB s (at' pgSEC 0x48) 31 then setFld (rd s (at' pgSEC 0x48)) 30 1 1 else BitVec.ofNat 32 (0x80000000 + c))
        ∧ t.sec.alarms = s.sec.alarms.event ∧ t.sec.otp = s.sec.otp
        ∧ (s.sec.alarms.event.activeNow 3 3 8 = true → modeOf t = mSEALED)
        ∧ (s.sec.alarms.event.activeNow 3 3 8 = false → modeOf t = modeOf s ∧ regsBut [at' pgSEC 0x48, at' pgSEC 0x4C, irqA pgSEC] s t
          ∧ { t.sec with alarms := s.sec.alarms } = s.sec ∧ onlyHost s { t with sec := s.sec });
        (∃ t, exec .glitchVoltage s = .next t ∧ alarmed 0x0C0C t) ∧ ∃ t, exec .glitchClock s = .next t ∧ alarmed 0x0C0D t)
      ∧ (∀ w, s.sec.sealPend = some w → s.sec.job = none →
        (∀ e, e < 64 → otpBlank s (0x2C0 + e) = true → (∀ f, f < e → otpBlank s (0x2C0 + f) = false) → ∃ t, exec (.sealLogWrite true) s = .next t
          ∧ (∀ k, otpCode t k = if k = 0x2C0 + e then encCode w else otpCode s k) ∧ t.sec.sealPend = none
          ∧ { t with sec := { t.sec with otp := s.sec.otp, sealPend := s.sec.sealPend } } = s)
        ∧ ∀ b, (∀ e, e < 64 → otpBlank s (0x2C0 + e) = false) → ∃ t, exec (.sealLogWrite b) s = .next t
          ∧ t.sec = { s.sec with sealPend := none, logFull := true } ∧ { t with sec := s.sec } = s)
      ∧ (s.sec.drbgFail = false →
        (∃ t, exec .entropyTestFail s = .next t ∧ t.sec = { s.sec with entFails := s.sec.entFails + 1, drbgFail := decide (2 ≤ s.sec.entFails) }
          ∧ (2 ≤ s.sec.entFails → rd t (errA pgSEC) = 0x0C0B ∧ rdB t (irqA pgSEC) 2 = true
            ∧ (rdB s 0xA100 8 = false → fld (tget 0 (2 * rdF s 0xA100 0 8) t.ecc.rings) 0 16 = 0x0C0B)
            ∧ (rdB s 0xA100 8 = true → rdF t 0xA108 0 32 = satAdd (rdF s 0xA108 0 32) 1 0xFFFFFFFF)
            ∧ regsBut [statA pgSEC, errA pgSEC, irqA pgSEC, irqA pgECC, 0xA100, 0xA108, at' pgDBG 0x40] s t
            ∧ onlyHost s { t with sec := s.sec, ecc := s.ecc, free := s.free })
          ∧ (s.sec.entFails < 2 → { t with sec := s.sec } = s))
        ∧ ∃ t, exec .drbgReseed s = .next t ∧ t.sec = { s.sec with entFails := 0 } ∧ { t with sec := s.sec } = s)

/-- The clock sources (R409 to R411, R416 to R419): a judged source is good, one that fails is not; the reference in use gives way to the other,
XO is chosen where neither is good, the third start failure leads to DORMANT, and a reference that is good again is taken back. The PLLs and
the clock settings (R412 to R415): a lock is shown and ends bring-up step 5, three starts without lock fail a PLL and a failed fabric, base
or DRAM PLL leads to EMBER; a new rate unlocks its PLL, and is refused with CLK_BUSY while work runs. -/
def Obligations.ClocksAndPlls : Prop :=
  (∀ s : State,
    (modeOf s = mBRINGUP → stepOf s ≠ 0 → srcOf s = 0 →
      (stepOf s ≤ 3 → ∃ t, exec (.itoJudged true) s = .next t ∧ srcGood t 3 = true ∧ srcOf t = 1
        ∧ stepOf t = (if stepOf s = 3 then 4 else stepOf s) ∧ modeOf t = mBRINGUP ∧ regsBut [srcStatA, modeStatA] s t ∧ onlyRegs s t)
      ∧ (rdF s srcStatA 8 2 < 2 → ∃ t, exec (.itoJudged false) s = .next t ∧ srcOf t = 0 ∧ rdF t srcStatA 8 2 = rdF s srcStatA 8 2 + 1
        ∧ (∀ k, k < 4 → srcGood t k = false) ∧ regsBut [srcStatA, modeStatA] s t ∧ { t with regs := s.regs, clk := s.clk } = s)
      ∧ (2 ≤ rdF s srcStatA 8 2 → ∃ t, exec (.itoJudged false) s = .next t ∧ inDormant s t ∧ t.mod.wakeFault = true))
      ∧ (modeOf s ≠ mDORMANT → srcGood s 3 = true → srcOf s ≠ 0 → ∃ t, exec .xoJudged s = .next t ∧ srcGood t 2 = true
        ∧ srcOf t = (if srcOf s = 5 then 4 else srcOf s) ∧ (srcOf s = 5 → rdB t (irqA pgCLK) 0 = true) ∧ regsBut [srcStatA, irqA pgCLK] s t ∧ onlyHost s t)
      ∧ (inStep s 4 = true → srcOf s = 1 → srcGood s 2 = false → noBcastStream s → ∃ t, exec .xoJudgeTimeout s = .next t ∧ inEmber 0x0103 s t ∧ srcOf t = 5
        ∧ rdB t 0x054 31 = true)
      ∧ (∀ b : Bool, modeOf s ≠ mDORMANT → srcGood s 2 = true → srcOf s ≠ 0 → ∃ t, exec (.refJudged b) s = .next t ∧ srcGood t (b2n b) = true
        ∧ (∀ k, k < 4 → k ≠ b2n b → srcGood t k = srcGood s k) ∧ srcOf t = srcOf s ∧ regsBut [srcStatA] s t
        ∧ { t with regs := s.regs, clk := s.clk } = s)
      ∧ (inStep s 4 = true → srcOf s = 1 → srcGood s 2 = true → rdB s pllStatA 31 = false → ∃ t, exec .refCheckTimeout s = .next t ∧ stepOf t = 5
        ∧ srcOf t = (if srcGood s (prefRef s) = true then 2 + prefRef s else if srcGood s (1 - prefRef s) = true then 3 - prefRef s else 4)
        ∧ t.clk.tries = [] ∧ regsBut [srcStatA, modeStatA] s t ∧ { t with regs := s.regs, clk := s.clk } = s)
      ∧ (modeOf s ≠ mDORMANT → (modeOf s ≠ mBRINGUP ∨ stepOf s ≠ 0) →
        (∀ k : BitVec 2, srcGood s k.toNat = true → ∃ t, exec (.lossOfEdges k) s = .next t ∧ (noBcastStream s → srcGood t k.toNat = false)
          ∧ (k.toNat < 2 → 2 ≤ srcOf s → srcOf s ≠ 2 + k.toNat → srcOf t = srcOf s ∧ rdF t srcStatA 16 16 = 0x0101 + k.toNat
            ∧ regsBut [srcStatA, irqA pgCLK] s t ∧ onlyHost s { t with clk := s.clk })
          ∧ (k.toNat < 2 → srcOf s = 2 + k.toNat → srcGood s (1 - k.toNat) = true → srcOf t = 3 - k.toNat ∧ rdB t (irqA pgCLK) 0 = true
            ∧ rdB t (irqA pgCLK) 1 = true ∧ regsBut [srcStatA, irqA pgCLK] s t ∧ onlyHost s { t with clk := s.clk })
          ∧ (k.toNat < 2 → srcOf s = 2 + k.toNat → srcGood s (1 - k.toNat) = false → srcGood s 2 = true → srcOf t = 4 ∧ modeOf t = modeOf s)
          ∧ (k.toNat = 2 → srcOf s = 4 → srcGood s 3 = true → noBcastStream s → (modeOf s = mSERVICE ∨ modeOf s = mSIMMER) → inEmber 0x0103 s t ∧ srcOf t = 5)
          ∧ (k.toNat = 3 → srcOf s = 5 → modeOf s ≠ mSEALED → inDormant s t)
          ∧ (k.toNat = 3 → srcOf s = 5 → modeOf s = mSEALED → modeOf t = mSEALED ∧ t.sec = s.sec))
        ∧ (∀ a b : Nat, srcGood s 2 = true → srcGood s 0 = true → srcGood s 1 = true → srcOf s = 2 → refWindowBad b = false →
          refSumBad s ((b :: s.clk.refB).take 64) = false →
          (refWindowBad a = true → ∃ t, exec (.monitorWindowClose 0 a b) s = .next t ∧ srcGood t 0 = false ∧ srcOf t = 3
            ∧ rdF t srcStatA 16 16 = 0x0101 ∧ regsBut [srcStatA, irqA pgCLK] s t ∧ onlyHost s { t with clk := s.clk })
          ∧ (refWindowBad a = false → refSumBad s ((a :: s.clk.refA).take 64) = false → ∃ t, exec (.monitorWindowClose 0 a b) s = .next t
            ∧ t.clk = { s.clk with refA := (a :: s.clk.refA).take 64, refB := (b :: s.clk.refB).take 64 } ∧ { t with clk := s.clk } = s)))
      ∧ ∀ b : Bool, srcGood s (b2n b) = true → (srcOf s = 4 ∨ srcOf s = 3 - b2n b ∧ rdB s (at' pgCLK 0x44) 17 = true ∧ prefRef s = b2n b) →
        ∃ t, exec (.refWtrExpiry b) s = .next t ∧ srcOf t = 2 + b2n b ∧ rdB t (irqA pgCLK) 0 = true
          ∧ (∀ k, k < 4 → srcGood t k = srcGood s k) ∧ regsBut [srcStatA, irqA pgCLK] s t ∧ onlyHost s t)
    ∧ (∀ s : State,
    (∀ p : Nat, pllRuns s p = true →
      (p < 4 → modeOf s ≠ mBRINGUP → ∃ t, exec (.pllLock p) s = .next t ∧ pllLocked t p = true ∧ tget 0 p t.clk.tries = 0 ∧ p ∉ t.clk.failed
        ∧ regsBut [pllStatA] s t ∧ { t with regs := s.regs, clk := { t.clk with tries := s.clk.tries, failed := s.clk.failed } } = s)
      ∧ (p < 2 → inStep s 5 = true → noBcastStream s → pllLocked s (1 - p) = true → s.mod.testMode = false → ∃ t, exec (.pllLock p) s = .next t ∧ pllLocked t p = true
        ∧ inStep t 6 = true ∧ t.fab = s.fab ∧ t.drm = s.drm ∧ t.sec = s.sec)
      ∧ (4 ≤ p → noBcastStream s → ∃ t, exec (.pllLock p) s = .next t ∧ p ∉ t.clk.failed ∧ (∀ k, k ≠ p → (k ∈ t.clk.failed ↔ k ∈ s.clk.failed)) ∧ modeOf t = modeOf s
        ∧ t.fab = s.fab ∧ t.drm = s.drm ∧ t.sec = s.sec)
      ∧ (p < 40 → pllLocked s p = false → p ∉ s.clk.failed →
        (tget 0 p s.clk.tries < 2 → ∃ t, exec (.pllLockTimeout p) s = .next t ∧ tget 0 p t.clk.tries = tget 0 p s.clk.tries + 1
          ∧ (∀ k, k ≠ p → tget 0 k t.clk.tries = tget 0 k s.clk.tries) ∧ { t with clk := { t.clk with tries := s.clk.tries } } = s)
        ∧ (2 ≤ tget 0 p s.clk.tries → noBcastStream s → ∃ t, exec (.pllLockTimeout p) s = .next t ∧ p ∈ t.clk.failed ∧ tget 0 p t.clk.tries = 0
          ∧ (p = 3 → rd t (errA pgCLK) = 0x0106 ∧ rdB t (irqA pgCLK) 2 = true ∧ regsBut [statA pgCLK, errA pgCLK, irqA pgCLK] s t
            ∧ onlyHost s { t with clk := s.clk })
          ∧ (p < 3 → (modeOf s = mSERVICE ∨ modeOf s = mSIMMER) → inEmber 0x0106 s t ∧ rdB t 0x054 31 = true))))
      ∧ (∀ v : Reg, reaches s pgCLK = true → gated s pgCLK = false → 20 ≤ fld v 0 6 → fld v 0 6 ≤ 32 → fld v 0 6 ≠ rdF s (at' pgCLK 0x4C) 0 6 →
        (rdB s (at' pgSLU 0x40) 0 = false → (∀ n, n < 34 → halted s n = true) →
          (clockOk s = true → (gradeS2 s = true → fld v 0 6 ≤ 28) ∧ 2 * bclkMhz s ≤ 100 * fld v 0 6
            ∧ ∀ k, k < 4 → rdB s (at' (pgUIO k) 0x44) 31 = true → 100 * fld v 0 6 ≤ 800 * rdF s (at' (pgUIO k) 0x44) 0 6) →
          ∃ t, exec (.clkFabPllWrite v) s = .next t ∧ rdF t (at' pgCLK 0x4C) 0 6 = fld v 0 6 ∧ pllLocked t 0 = false
            ∧ (∀ p, 0 < p → pllLocked t p = pllLocked s p) ∧ regsBut [at' pgCLK 0x4C, pllStatA] s t ∧ onlyRegs s t)
        ∧ ((rdB s (at' pgSLU 0x40) 0 = true ∨ ∃ n, n < 34 ∧ halted s n = false) → ∃ t, exec (.clkFabPllWrite v) s = .next t
          ∧ rd t (errA pgCLK) = 0x0107 ∧ regsBut [statA pgCLK, errA pgCLK] s t ∧ onlyRegs s t))
      ∧ ∀ v : Reg, reaches s pgCLK = true → gated s pgCLK = false → fld v 0 2 ≠ 3 → fld v 0 2 ≠ rdF s (at' pgCLK 0x50) 0 2 →
        (rdB s (at' pgSLU 0x40) 0 = false → (∀ c, c < 16 → hdmaRuns s c = false) →
          (clockOk s = true → 2 * (if fld v 0 2 = 0 then 1000 else if fld v 0 2 = 1 then 1200 else 1600) ≤ fclkMhz s
            ∧ (rdF s (at' (pgDRC 0) 0x48) 0 3 = 0
              ∨ 125 * dclkMhz s ≤ 100 * (if fld v 0 2 = 0 then 1000 else if fld v 0 2 = 1 then 1200 else 1600))) →
          ∃ t, exec (.clkBasePllWrite v) s = .next t ∧ rdF t (at' pgCLK 0x50) 0 2 = fld v 0 2 ∧ pllLocked t 1 = false
            ∧ (∀ p, p ≠ 1 → pllLocked t p = pllLocked s p) ∧ regsBut [at' pgCLK 0x50, pllStatA] s t ∧ onlyRegs s t)
        ∧ ((rdB s (at' pgSLU 0x40) 0 = true ∨ ∃ c, c < 16 ∧ hdmaRuns s c = true) → ∃ t, exec (.clkBasePllWrite v) s = .next t
          ∧ rd t (errA pgCLK) = 0x0107 ∧ regsBut [statA pgCLK, errA pgCLK] s t ∧ onlyRegs s t))

/-- SIMMER (R429, R434, R435): the command starts the drain; once drained, basins sleep, banks are retained and the DRAM refreshes itself; a
wake asks each LOCKED lane to lock again and ends in SERVICE, or in EMBER where a condition of R436 holds. EMBER (R436 to R438, R451): a
throttle that lasts leads there; the exit is refused while a condition holds, goes on with bring-up step 5 where EMBER cut it short, else
runs the late stages and ends in SERVICE with DEV_READY. -/
def Obligations.SimmerAndEmber : Prop :=
  (∀ s : State,
    (reaches s pgMODE = true → gated s pgMODE = false → s.mod.step = .none →
      (modeOf s = mSERVICE → ∃ t, exec .simmer s = .next t ∧ t.mod = { s.mod with step := .simmerDrain } ∧ busy t pgMODE = true
        ∧ regsBut [statA pgMODE] s t ∧ { t with regs := s.regs, mod := s.mod } = s)
      ∧ (modeOf s ≠ mSERVICE → ∃ t, exec .simmer s = .next t ∧ rd t (errA pgMODE) = 0x0205 ∧ rdB t (irqA pgMODE) 2 = true
        ∧ regsBut [statA pgMODE, errA pgMODE, irqA pgMODE] s t ∧ onlyHost s t))
      ∧ (s.mod.step = .simmerDrain → allDrained s = true → noBcastStream s → ∃ t, exec .simmerDrainDone s = .next t ∧ modeOf t = mSIMMER ∧ t.mod.step = .none
        ∧ busy t pgMODE = false ∧ t.mod.laneWake = rdB s (at' pgMODE 0x4C) 16 ∧ (∀ n, n < 34 → (basinOf t n).power = .deep)
        ∧ (∀ n, n < 128 → bankOf t n = if (bankOf s n).typ = 15 then bankOf s n else { bankOf s n with ret := !bankPending s n, waking := bankPending s n })
        ∧ rdB t pllStatA 31 = false ∧ rdB t pllStatA 29 = false ∧ (drcState s = dREADY → drcState t = dSR)
        ∧ t.fab.planes = s.fab.planes ∧ t.mem.rows = s.mem.rows ∧ t.drm.words = s.drm.words ∧ t.sec = s.sec)
      ∧ (s.mod.step = .simmerDrain → allDrained s = false → ∃ t, exec .simmerDrainTimeout s = .next t ∧ t.mod = { s.mod with step := .none }
        ∧ busy t pgMODE = false ∧ rd t (errA pgMODE) = 0x0207 ∧ modeOf t = modeOf s ∧ regsBut [statA pgMODE, errA pgMODE] s t
        ∧ { t with regs := s.regs, mod := s.mod } = s)
      ∧ (modeOf s = mSIMMER → s.mod.step = .none →
        let woken (t : State) : Prop := t.mod = { s.mod with step := .simmerWake } ∧ busy t pgMODE = true ∧ modeOf t = mSIMMER
          ∧ (∀ k, k < 144 → laneOf t k = if (laneOf s k).state = .locked then { laneOf s k with cdr := false, blk := false, fec := false, mkr := false }
              else laneOf s k)
          ∧ regsBut [statA pgMODE] s t ∧ { t with regs := s.regs, mod := s.mod, lan := { t.lan with lanes := s.lan.lanes } } = s
        (∃ t, exec .wakeN s = .next t ∧ woken t) ∧ (gated s pgMODE = false → ∃ t, exec .wake s = .next t ∧ woken t)
          ∧ (s.mod.laneWake = true → ∀ l : Nat, (laneOf s (leadOf s l)).state = .locked → ∃ t, exec (.laneWakeSignal l) s = .next t ∧ woken t))
      ∧ (s.mod.step = .simmerWake → rdB s pllStatA 31 = true → rdB s pllStatA 30 = true → noBcastStream s → ∃ t, exec .simmerWakeDone s = .next t
        ∧ (modeOf t = mSERVICE ∨ modeOf t = mEMBER) ∧ t.mod.step = .none ∧ busy t pgMODE = false
        ∧ (srcOf s ≠ 5 → (∀ p ∈ s.clk.failed, 3 ≤ p) → rdF s (at' pgTHM 0x5C) 0 23 = 0 → s.mod.throttle = 0 → rdB s (at' pgMODE 0x48) 16 = false →
            modeOf t = mSERVICE ∧ ∀ n, n < 128 → (bankOf t n).typ ≠ 0 → (bankOf t n).typ ≠ 15 →
              rdB s (at' pgBANK (0x50 + 4 * (n / 32))) (n % 32) = false → (bankOf t n).ret = false)
        ∧ t.fab.planes = s.fab.planes ∧ t.drm.words = s.drm.words ∧ t.sec = s.sec))
    ∧ (∀ s : State,
    (reaches s pgMODE = true → gated s pgMODE = false → s.mod.step = .none → modeOf s = mEMBER →
      (emberCondition s ≠ none → ∃ t, exec .exitEmber s = .next t ∧ rd t (errA pgMODE) = 0x0206 ∧ rdB t (irqA pgMODE) 2 = true ∧ modeOf t = mEMBER
        ∧ regsBut [statA pgMODE, errA pgMODE, irqA pgMODE] s t ∧ onlyHost s t)
      ∧ (emberCondition s = none → s.mod.emberAt = 0 → ∃ t, exec .exitEmber s = .next t ∧ t.mod = { s.mod with step := .lateStages }
        ∧ modeOf t = mBRINGUP ∧ stepOf t = 0 ∧ busy t pgMODE = true ∧ onlyWork s { t with mod := s.mod, regs := s.regs }
        ∧ ∀ a, workPage (a / 0x1000) = false → a ∉ [statA pgMODE, irqA pgMODE, modeStatA] → rd t a = rd s a)
      ∧ (emberCondition s = none → s.mod.emberAt ≠ 0 → rdB s pllStatA 31 = false → ∃ t, exec .exitEmber s = .next t ∧ inStep t 5 = true
        ∧ t.mod = { s.mod with emberAt := 0 } ∧ onlyWork s { t with mod := s.mod, regs := s.regs }
        ∧ ∀ a, workPage (a / 0x1000) = false → a ∉ [irqA pgMODE, modeStatA] → rd t a = rd s a))
      ∧ (s.mod.step = .lateStages → rdB s pllStatA 31 = true → rdB s pllStatA 30 = true → noBcastStream s → ∃ t, exec .lateStagesDone s = .next t
        ∧ (modeOf t = mSERVICE ∨ modeOf t = mEMBER) ∧ t.mod.step = .none ∧ busy t pgMODE = false
        ∧ (srcOf s ≠ 5 → (∀ p ∈ s.clk.failed, 3 ≤ p) → rdF s (at' pgTHM 0x5C) 0 23 = 0 → s.mod.throttle = 0 → rdB s (at' pgMODE 0x48) 16 = false →
            modeOf t = mSERVICE ∧ rdB t 0x040 0 = true)
        ∧ t.fab.planes = s.fab.planes ∧ t.drm.words = s.drm.words ∧ t.sec = s.sec)
      ∧ (rdB s (at' pgTHM 0x40) 17 = true → noBcastStream s → ∃ t, exec .throttleLimit s = .next t ∧ t.mod.throttle = 1
        ∧ ((modeOf s = mSERVICE ∨ modeOf s = mSIMMER) → ∃ c, inEmber c s t)
        ∧ (modeOf s ≠ mSERVICE → modeOf s ≠ mSIMMER → { t with mod := { t.mod with throttle := s.mod.throttle } } = s)))

/-- DORMANT and power (R402, R428, R429, R439, R503): the confirmed command loses everything outside the always-on domain, a wake begins
bring-up at step 1, and the removal of power keeps the OTP and the boot store only. Warm reset (R346, R440, R503): it stops work and
DEV_READY; what is applied resets D0 to D4 but the OTP, the alarm window and the DRAM with its settings, which waits in self-refresh, and
bring-up goes on at step 2, after the release of RESET_N where that is low. -/
def Obligations.DormantAndWarmReset : Prop :=
  (∀ s : State,
    (∀ (v : Reg) (p : Bool), s.mod.step = .none → (modeOf s = mSERVICE ∨ modeOf s = mSIMMER ∨ modeOf s = mEMBER) →
      (fld v 16 16 = 0x5AFE → gated s pgMODE = false → ∃ t, exec (.dormant v) s = .next t ∧ inDormant s t)
      ∧ (pecAccepted p s = true → ∃ t, exec (.mgmtDormant 0x5AFE p) s = .next t ∧ inDormant s t))
      ∧ (∀ v : Reg, reaches s pgMODE = true → gated s pgMODE = false →
        (fld v 16 16 ≠ 0x5AFE → exec (.dormant v) s = .next s)
        ∧ (fld v 16 16 = 0x5AFE → modeOf s = mBRINGUP → ∃ t, exec (.dormant v) s = .next t ∧ rd t (errA pgMODE) = 0x0205
          ∧ rdB t (irqA pgMODE) 2 = true ∧ regsBut [statA pgMODE, errA pgMODE, irqA pgMODE] s t ∧ onlyHost s t))
      ∧ (modeOf s = mDORMANT → s.mod.step = .none →
        let woken (t : State) : Prop := inStep t 1 = true ∧ rdB t (irqA pgMODE) 0 = true ∧ srcOf t = 0 ∧ t.mod = { s.mod with wakeFault := false }
          ∧ t.thm = { s.thm with tripped := false } ∧ regsBut [srcStatA, modeStatA, irqA pgMODE] s t
          ∧ onlyHost s { t with mod := s.mod, thm := s.thm }
        (s.mod.power = true → ∃ t, exec .wakeN s = .next t ∧ woken t)
          ∧ ∀ p, pecAccepted p s = true → ∃ t, exec (.mgmtWake p) s = .next t ∧ woken t)
      ∧ (∀ p, pecAccepted p s = true → modeOf s ≠ mSEALED → modeOf s ≠ mDORMANT → ∃ t, exec (.mgmtWake p) s = .next t ∧ rd t (errA pgMODE) = 0x0205
        ∧ rdB t (irqA pgMODE) 2 = true ∧ regsBut [statA pgMODE, errA pgMODE, irqA pgMODE] s t ∧ onlyHost s t)
      ∧ ∃ t, exec .powerRemoval s = .next t ∧ (∀ a, rd t a = rd State.reset a) ∧ t.sec = { Sec.zero with otp := s.sec.otp, drbgNo := s.sec.drbgNo }
        ∧ t.cfc.blocks = s.cfc.blocks ∧ t.mod.power = false ∧ t.fab = State.reset.fab ∧ t.slu = State.reset.slu ∧ t.mem = State.reset.mem
        ∧ t.drm = State.reset.drm ∧ t.ime = State.reset.ime ∧ t.lan = State.reset.lan ∧ t.enr = State.reset.enr ∧ t.hst = State.reset.hst)
    ∧ (∀ s : State,
    (modeOf s ≠ mSEALED →
      let begun (t : State) : Prop := t.mod = { s.mod with step := .warmReset } ∧ busy t pgMODE = true ∧ rdB t 0x040 0 = false
        ∧ regsBut [statA pgMODE, 0x040] s t ∧ { t with regs := s.regs, mod := s.mod } = s
      (∀ v : Reg, fld v 16 16 = 0x5AFE → reaches s pgMODE = true → gated s pgMODE = false → s.mod.step = .none →
          ∃ t, exec (.warmReset v) s = .next t ∧ begun t)
        ∧ ∀ p, pecAccepted p s = true → ∃ t, exec (.mgmtReset 0x5AFE p) s = .next t ∧ begun t)
      ∧ (modeOf s ≠ mSEALED → ∃ t, exec .resetN s = .next t
        ∧ t.mod = { s.mod with resetHeld := true, step := if s.mod.power then .warmReset else s.mod.step }
        ∧ (s.mod.power = true → rdB t 0x040 0 = false ∧ busy t pgMODE = true) ∧ regsBut [statA pgMODE, 0x040] s t
        ∧ { t with regs := s.regs, mod := s.mod } = s)
      ∧ (s.mod.step = .warmReset → modeOf s ≠ mSEALED → modeOf s ≠ mDORMANT → rdF s dieStatA 0 4 = 15 →
        ∃ t, exec .warmResetApply s = .next t ∧ modeOf t = mBRINGUP ∧ stepOf t = (if s.mod.resetHeld then 0 else 2) ∧ t.mod.step = .none
          ∧ t.mod.warmBoot = true ∧ t.drm.words = s.drm.words ∧ t.drm.retire = s.drm.retire
          ∧ drcState t = (if drcState s = dREADY then dSR else if drcState s = dINIT ∨ drcState s = dTRAIN ∨ drcState s = dFILL then dOFF
              else drcState s)
          ∧ t.drm.warm = decide (drcState t = dSR) ∧ (s.sec.job = none → t.sec.otp = s.sec.otp) ∧ t.sec.alarms = s.sec.alarms
          ∧ (∀ a, 0x88 ≤ a / 0x1000 → a / 0x1000 < 0x98 → 0x40 ≤ a % 0x1000 → a ≠ drcStatA → rd t a = rd s a)
          ∧ (∀ a, warmRegs a = false → a ≠ irqA pgMODE → rd t a = rd State.reset a)
          ∧ t.fab = State.reset.fab ∧ t.slu = State.reset.slu ∧ t.mem = State.reset.mem ∧ t.ime = State.reset.ime ∧ t.enr = State.reset.enr)
      ∧ (s.mod.resetHeld = true → ∃ t, exec .resetNRelease s = .next t ∧ t.mod = { s.mod with resetHeld := false }
        ∧ (inStep s 0 = true → s.mod.power = true → s.mod.step = .none → stepOf t = (if s.mod.warmBoot then 2 else 1) ∧ modeOf t = mBRINGUP)
        ∧ regsBut [modeStatA] s t ∧ { t with regs := s.regs, mod := s.mod } = s))

/-- Bring-up (R391, R430 to R433, R445, R514): power good samples the straps, the dies go on in their order with one retry, the OTP is resolved
and its keys stand, lanes that fail calibration stay off, the fill clears the stores, and the boot LBIST marks the basins that fail.
Die-level reset (R441): a logic die loses its state banks, OQ, OUT and multiplies and every basin traps with DIE_RESET; planes and the other
stores stay; D4 is refused while dispatch or IME needs it; its end clears IN_RESET. -/
def Obligations.BringUpAndDieReset : Prop :=
  (∀ s : State,
    (s.mod.power = false → s.mod.resetHeld = false → ∀ b d m, ∃ t, exec (.powerGood b d m) s = .next t ∧ inStep t 1 = true ∧ devIndex t = d.toNat
        ∧ t.mod = { s.mod with power := true, bootSel := b, devId := d, testMode := m, wakeFault := false } ∧ srcOf t = 0
        ∧ regsBut [0x040, srcStatA, modeStatA, irqA pgMODE] s t ∧ onlyHost s { t with mod := s.mod, thm := s.thm })
      ∧ (∀ d : Nat, ramping s d = true →
        (∃ t, exec (.dieRampDone d) s = .next t ∧ diePowered t d = true ∧ (∀ e, 1 ≤ e → e ≤ 4 → e ≠ d → diePowered t e = diePowered s e)
          ∧ ((∀ e, 1 ≤ e → e ≤ 4 → e ≠ d → diePowered s e = true) → inStep t 2 = true)
          ∧ ((∃ e, 1 ≤ e ∧ e ≤ 4 ∧ e ≠ d ∧ diePowered s e = false) → inStep t 1 = true)
          ∧ regsBut [dieStatA, modeStatA] s t ∧ onlyRegs s t)
        ∧ (s.mod.retried.contains d = false → ∃ t, exec (.dieRampTimeout d) s = .next t ∧ t.mod = { s.mod with retried := d :: s.mod.retried }
          ∧ { t with mod := s.mod } = s)
        ∧ (s.mod.retried.contains d = true → ∃ t, exec (.dieRampTimeout d) s = .next t ∧ rdB t dieStatA (8 + d - 1) = true
          ∧ rdB t (irqA pgPWR) 1 = true ∧ inStep t 1 = true ∧ regsBut [dieStatA, irqA pgPWR] s t ∧ onlyHost s t))
      ∧ (inStep s 2 = true → srcOf s = 0 → ∃ t, exec .otpResolve s = .next t ∧ inStep t 3 = true ∧ t.sec.seeded = true ∧ t.sec.otp = s.sec.otp
        ∧ rd t (at' pgOTP 0x44) = resolvedReg s ∧ t.fab = s.fab ∧ t.drm = s.drm ∧ t.mem.rows = s.mem.rows)
      ∧ (inStep s 6 = true → ∀ (rs : List (Option Int)) (bad : List Nat), ∃ t, exec (.selfCalibration rs bad) s = .next t ∧ inStep t 7 = true
        ∧ (s.mod.warmBoot = false → ∀ l, l ∈ bad → l < 144 → l ∈ t.lan.dead ∧ rd t (errA (pgQUAD (l / 4))) = 0x020A)
        ∧ (s.mod.warmBoot = true → t.lan = s.lan) ∧ t.thm.power0 = stackPower (sensed s rs)
        ∧ t.fab = s.fab ∧ t.mem = s.mem ∧ t.drm = s.drm ∧ t.sec = s.sec)
      ∧ (inStep s 7 = true → ∃ t, exec .hardwareFill s = .next t ∧ inStep t 8 = true ∧ (∀ b r w, rowCode t b r w = 0)
        ∧ (∀ k p w, planeCode t k p w = 0) ∧ (∀ k, tget 0 k t.fab.frames = 0) ∧ (∀ k c, xCode t k c = 0 ∧ yCode t k c = 0)
        ∧ t.ecc.rings = [] ∧ t.ime.cache = [] ∧ t.drm = s.drm ∧ t.sec = s.sec
        ∧ ∀ n, n < 34 → ((basinOf s n).frame.st ≠ .blank ∨ ∃ p, p < 16 ∧ (planeInfo s n p).st ≠ .blank) → rdB t (irqA (pgBSN n)) 3 = true)
      ∧ ∀ bs : List (Nat × BitVec 16), inStep s 8 = true →
        (lbistBoot s = true → lbistSkipped s = false → ∃ t, exec (.bootLbist bs) s = .next t ∧ inStep t 9 = true
          ∧ t.mod = { s.mod with marked := bs.filter fun q => decide (q.1 < 34 ∧ q.2 ≠ 0xFFFF) }
          ∧ (∀ n, n < 34 → (rdB t (at' pgBIST (0x60 + 4 * (n / 32))) (n % 32) = true
              ↔ rdB s (at' pgBIST (0x60 + 4 * (n / 32))) (n % 32) = true ∨ ∃ q ∈ bs, q.1 = n ∧ q.2 ≠ 0xFFFF))
          ∧ regsBut [modeStatA, at' pgBIST 0x60, at' pgBIST 0x64] s t ∧ { t with regs := s.regs, mod := s.mod } = s)
        ∧ ((lbistBoot s = false ∨ lbistSkipped s = true) → ∃ t, exec (.bootLbist bs) s = .next t ∧ inStep t 9 = true ∧ t.mod = s.mod ∧ t.fab = s.fab))
    ∧ (∀ s : State,
    (∀ (v : Reg) (d : Nat), reaches s pgPWR = true → gated s pgPWR = false → busy s pgPWR = false → 1 ≤ d → d ≤ 4 → fld v 0 4 = 2 ^ (d - 1) →
      ((d = 4 → dispatchOn s = false ∧ imeOn s = false) → ∃ t, exec (.pwrDieReset v) s = .next t ∧ busy t pgPWR = true ∧ t.mod.dieReset = some d
        ∧ rdB t dieStatA (3 + d) = true ∧ t.fab.planes = s.fab.planes ∧ t.fab.frames = s.fab.frames ∧ t.fab.xs = s.fab.xs ∧ t.fab.ys = s.fab.ys
        ∧ t.drm = s.drm ∧ t.sec = s.sec ∧ t.ime = s.ime
        ∧ (∀ k, onDie d k = true → (crystalOf t k).oq = 0 ∧ (crystalOf t k).out = 0 ∧ (crystalOf t k).muls = []
          ∧ ∀ j, j < 4 → bankCode t k j = 0)
        ∧ (∀ k, onDie d k = false → (crystalOf t k).oq = (crystalOf s k).oq ∧ (crystalOf t k).out = (crystalOf s k).out
          ∧ ∀ j, j < 4 → bankCode t k j = bankCode s k j)
        ∧ (d ≠ 4 → ∀ n, n < 34 → (basinOf t n).trapped = true)
        ∧ ((d = 1 ∨ d = 3) → ∀ n, n < 34 → (intakeOf (basinOf t n) (if d = 3 then 1 else 0)).waiting = []
          ∧ (intakeOf (basinOf t n) (if d = 3 then 1 else 0)).beat = none))
      ∧ (d = 4 → (dispatchOn s = true ∨ imeOn s = true) → ∃ t, exec (.pwrDieReset v) s = .next t ∧ rd t (errA pgPWR) = 0x0209
        ∧ regsBut [statA pgPWR, errA pgPWR] s t ∧ onlyRegs s t))
      ∧ ∀ d : Nat, s.mod.dieReset = some d → ∃ t, exec (.dieResetDone d) s = .next t ∧ t.mod = { s.mod with dieReset := none } ∧ busy t pgPWR = false
        ∧ rdF t dieStatA 4 4 = 0 ∧ rdB t (irqA pgPWR) 0 = true ∧ regsBut [statA pgPWR, dieStatA, irqA pgPWR] s t ∧ onlyHost s { t with mod := s.mod })

/-- The housekeeping round (R446, R448, R454): it counts, shows every reading, makes a channel SUSPECT by K of its last M rounds, a rail in
breach by K of its last M events; before bring-up step 3 and in DORMANT there is none. Trips and limits (R451 to R453, R455): an analog trip
takes the device to DORMANT with THERM_TRIP_N low and its record, in SEALED it opens the switches alone; a limit above the OTP's is refused,
a legal write is stored. -/
def Obligations.RoundsTripsAndLimits : Prop :=
  (∀ (l : List (Option Int)) (s : State),
    (roundRuns s = false → exec (.housekeepingRound l) s = .next s)
      ∧ (roundRuns s = true → noBcastStream s → ∃ t, exec (.housekeepingRound l) s = .next t ∧ (modeOf t ≠ mDORMANT →
        rd t (at' pgTHM 0x60) = rd s (at' pgTHM 0x60) + 1
        ∧ (∀ c, c < 96 → rdF t (at' pgTHM (0x100 + 4 * c)) 0 16
            = (match sensed s l c with
              | some v => (BitVec.ofInt 16 v).toNat
              | none => 0x8000))
        ∧ (∀ c, c < 52 → isSuspect t c = lasting (((chargedChans s (sensed s l)).contains c :: tget [] c s.thm.charges).take 16)
            (rdF s (at' pgTHM 0x4C) 0 8) (rdF s (at' pgTHM 0x4C) 8 8))
        ∧ (rdB t (at' pgTHM 0x40) 18 = true ↔ ∃ c, c < 52 ∧ isSuspect t c = true)
        ∧ (∀ k, k < 11 → ∀ c ∈ railChans.getD k [], rdB t (at' pgTHM 0x5C) (c - 52)
            = lasting ((railEvent s (sensed s l) (railChans.getD k []) :: tget [] k s.thm.events).take 16)
                (rdF s (at' pgTHM 0x50) 0 8) (rdF s (at' pgTHM 0x50) 8 8)))))
    ∧ (∀ s : State,
    (∀ k : Nat, (modeOf s = mDORMANT → exec (.analogTrip k) s = .next s)
      ∧ (modeOf s ≠ mDORMANT → modeOf s ≠ mSEALED → ∃ t, exec (.analogTrip k) s = .next t ∧ inDormant s t ∧ t.thm.trip = true ∧ t.thm.tripped = true
        ∧ rdF t (at' pgTHM 0x70) 16 16 = 0x0302 ∧ rdF t (at' pgTHM 0x70) 0 16 = rdF s (at' pgTHM 0x40) 0 16)
      ∧ (modeOf s = mSEALED → ∃ t, exec (.analogTrip k) s = .next t ∧ modeOf t = mSEALED ∧ rdF t dieStatA 0 4 = 0 ∧ t.thm = { s.thm with trip := true }
        ∧ rdF t (at' pgTHM 0x70) 16 16 = 0x0302 ∧ regsBut [at' pgTHM 0x70, dieStatA] s t ∧ { t with regs := s.regs, thm := s.thm } = s))
      ∧ ∀ v : Reg, reaches s pgTHM = true → gated s pgTHM = false →
        (aboveOtp s v = true → ∃ t, exec (.thmLimitWrite v) s = .next t ∧ rd t (errA pgTHM) = 0x0305 ∧ rdB t (statA pgTHM) 2 = true
          ∧ regsBut [statA pgTHM, errA pgTHM] s t ∧ onlyRegs s t)
        ∧ (aboveOtp s v = false → fld v 0 8 < fld v 8 8 → fld v 8 8 < fld v 16 8 → ∃ t, exec (.thmLimitWrite v) s = .next t
          ∧ rdF t (at' pgTHM 0x44) 0 24 = fld v 0 24 ∧ regsBut [at' pgTHM 0x44] s t ∧ onlyRegs s t)
        ∧ (aboveOtp s v = false → fld v 16 8 ≤ fld v 8 8 → ∃ t, exec (.thmLimitWrite v) s = .next t
          ∧ rdF t (at' pgTHM 0x44) 16 8 = fld v 16 8 ∧ rdF t (at' pgTHM 0x44) 8 8 = rdF s (at' pgTHM 0x44) 8 8 ∧ rd t (errA pgTHM) = 0x0F01
          ∧ regsBut [at' pgTHM 0x44, statA pgTHM, errA pgTHM] s t ∧ onlyRegs s t))

/-- The endpoint (R482, R483, R485, R505): a reset of the function returns the HDMA page, its claims and the aperture to reset, D3hot halts
every enabled channel and is left again, a link change is shown, the aperture is written. The host DMA channels' registers (R496, R497,
R499, R500, R502): a channel is enabled with its resources or stays disabled, TAIL is written, RESUME and SKIP end a halt and are refused
without one. -/
def Obligations.EndpointAndDmaChannels : Prop :=
  (∀ s : State,
    (let endpointReset (t : State) : Prop := t.hst.d3 = false ∧ t.hst.chIrq = 0
        ∧ (∀ a, a / 0x1000 = pgHDMA → 0x40 ≤ a % 0x1000 → rd t a = rd State.reset a) ∧ rd t (at' pgHIF 0x44) = rd State.reset (at' pgHIF 0x44)
        ∧ (∀ r, holderOf t r ≠ some pgHDMA) ∧ (∀ h, h.2 ≠ pgHDMA → (h ∈ t.hst.holders ↔ h ∈ s.hst.holders))
        ∧ (∀ a, a / 0x1000 ≠ pgHDMA → endpointReg a = false → rd t a = rd s a) ∧ t.lan.lifeIn = [] ∧ t.lan.lifeOut = []
        ∧ (∀ off len, HostReq.read off len ∉ t.mem.host) ∧ (∀ off bs, HostReq.write off bs ∈ t.mem.host ↔ HostReq.write off bs ∈ s.mem.host)
        ∧ { t with regs := s.regs, hst := s.hst, mem := { t.mem with host := s.mem.host },
                   lan := { t.lan with lifeIn := s.lan.lifeIn, lifeOut := s.lan.lifeOut } } = s;
      (∃ t, exec .flr s = .next t ∧ endpointReset t) ∧ ∃ t, exec .pciePerstN s = .next t ∧ endpointReset t)
      ∧ (∃ t, exec .d3hotEntry s = .next t ∧ t.hst.d3 = true ∧ (reaches s pgHDMA = true → ∀ c, c < 16 → hdmaEn s c = true →
            hdmaHalted t c = true ∧ (hdmaHalted s c = false → rdF t (hdmaA c 0x14) 0 16 = 0x0D04))
          ∧ (∀ a, a / 0x1000 ≠ pgHDMA → rd t a = rd s a) ∧ onlyHost s t)
      ∧ (∃ t, exec .d3hotExit s = .next t ∧ t.hst = { s.hst with d3 := false } ∧ { t with hst := s.hst } = s)
      ∧ (∀ x w : BitVec 4, ∃ t, exec (.pcieLinkChange x w) s = .next t ∧ rdF t (at' pgHIF 0x40) 0 4 = w.toNat ∧ rdF t (at' pgHIF 0x40) 4 4 = x.toNat
          ∧ rdB t (irqA pgHIF) 0 = true ∧ regsBut [at' pgHIF 0x40, irqA pgHIF] s t ∧ onlyHost s t)
      ∧ ∀ v : Reg, reaches s pgHIF = true → gated s pgHIF = false →
        (fld v 0 8 ≤ 192 → ∃ t, exec (.hifApertureWrite v) s = .next t ∧ rdF t (at' pgHIF 0x44) 0 8 = fld v 0 8
          ∧ regsBut [at' pgHIF 0x44] s t ∧ onlyRegs s t)
        ∧ (192 < fld v 0 8 → ∃ t, exec (.hifApertureWrite v) s = .next t ∧ rd t (errA pgHIF) = 0x0F01
          ∧ rdF t (at' pgHIF 0x44) 0 8 = rdF s (at' pgHIF 0x44) 0 8))
    ∧ (∀ (ch : BitVec 4) (v : Reg) (s : State), reaches s pgHDMA = true → gated s pgHDMA = false →
    (fld v 0 3 ≤ 5 → kindFits ch.toNat (fld v 0 3) = true →
      (bit v 31 = true → modeOf s ≠ mEMBER → (∀ r ∈ hdmaNeeds ch.toNat (fld v 0 3), holderOf s r = none ∨ holderOf s r = some pgHDMA) →
        ∃ t, exec (.hdmaCfgWrite ch v) s = .next t ∧ hdmaEn t ch.toNat = true ∧ hdmaKind t ch.toNat = fld v 0 3
          ∧ (∀ r ∈ hdmaNeeds ch.toNat (fld v 0 3), holderOf t r = some pgHDMA)
          ∧ regsBut [hdmaA ch.toNat 0, statA pgHDMA, errA pgHDMA] s t
          ∧ { t with regs := s.regs, hst := { t.hst with holders := s.hst.holders } } = s)
      ∧ (bit v 31 = true → (∃ r ∈ hdmaNeeds ch.toNat (fld v 0 3), ∃ p, holderOf s r = some p ∧ p ≠ pgHDMA) →
        ∃ t, exec (.hdmaCfgWrite ch v) s = .next t ∧ hdmaEn t ch.toNat = false ∧ rd t (errA pgHDMA) = 0x0F03 ∧ rdB t (statA pgHDMA) 3 = true)
      ∧ (bit v 31 = false → ∃ t, exec (.hdmaCfgWrite ch v) s = .next t ∧ hdmaEn t ch.toNat = false ∧ hdmaKind t ch.toNat = fld v 0 3
          ∧ holderOf t (0x5000 + ch.toNat) ≠ some pgHDMA ∧ regsBut [hdmaA ch.toNat 0, statA pgHDMA, errA pgHDMA] s t
          ∧ { t with regs := s.regs, hst := { t.hst with holders := s.hst.holders } } = s))
      ∧ (∃ t, exec (.hdmaTailWrite ch v) s = .next t ∧ rdF t (ringTailA ch.toNat false) 0 16 = fld v 0 16
        ∧ regsBut [ringTailA ch.toNat false] s t ∧ onlyRegs s t)
      ∧ (busy s pgHDMA = false →
        (hdmaHalted s ch.toNat = true → (ch.toNat = 15 ∨ modeOf s ≠ mEMBER) →
          (∃ t, exec (.hdmaResume ch) s = .next t ∧ hdmaHalted t ch.toNat = false ∧ regsBut [hdmaA ch.toNat 0x14] s t
            ∧ { t with regs := s.regs, hst := { t.hst with rxHalt := s.hst.rxHalt } } = s)
          ∧ ((ch.toNat ≠ 15 ∨ s.hst.rxHalt = false) → ringWaiting s ch.toNat false = true → ∃ t, exec (.hdmaSkip ch) s = .next t
            ∧ hdmaHalted t ch.toNat = false ∧ rdF t (ringHdA ch.toNat false) 0 16 = (ringHd s ch.toNat false + 1) % hdmaSize s ch.toNat
            ∧ regsBut [hdmaA ch.toNat 0x14, ringHdA ch.toNat false] s t
            ∧ { t with regs := s.regs, hst := { t.hst with rxHalt := s.hst.rxHalt } } = s))
        ∧ (hdmaHalted s ch.toNat = false →
          let refused (t : State) : Prop := rd t (errA pgHDMA) = 0x0D06 ∧ regsBut [statA pgHDMA, errA pgHDMA] s t ∧ onlyRegs s t
          (∃ t, exec (.hdmaResume ch) s = .next t ∧ refused t) ∧ ∃ t, exec (.hdmaSkip ch) s = .next t ∧ refused t)))

/-- Descriptors (R499 to R502): a word from the host reaches its row of D4, bytes of a row reach the host, word 3 and HEAD follow and the
interrupt asked for; a bad descriptor halts its channel and moves nothing; records that wait complete ring B's buffer at its timeout. -/
def Obligations.Descriptors : Prop :=
  ∀ (ch : BitVec 4) (d : BitVec 256) (s : State), hdmaActive s ch.toNat = true →
    (ringWaiting s ch.toNat false = true →
      (descBad d = true → ∀ bs e, ∃ t, exec (.descriptorComplete ch false d bs e) s = .next t ∧ hdmaHalted t ch.toNat = true
        ∧ rdF t (hdmaA ch.toNat 0x14) 0 16 = 0x0D01 ∧ bit t.hst.chIrq (2 * ch.toNat + 1) = true
        ∧ regsBut [hdmaA ch.toNat 0x14, irqA pgHDMA] s t ∧ onlyHost s t)
      ∧ (hdmaKind s ch.toNat = 0 → descBad d = false → dLen d = 8 → dDst d % 8 = 0 → dDst d + 8 ≤ 2 ^ 29 → dSrc d + 8 ≤ 2 ^ 64 →
        s.mod.dieReset ≠ some 4 → gated s pgBANK = false → bankOwned s (dDst d / 1024 / 4096 % 128) 6 0 = true →
        bankAwake s (dDst d / 1024 / 4096 % 128) = true → ∀ w : Word,
        ∃ t, exec (.descriptorComplete ch false d (toBytes 8 w) false) s = .next t
          ∧ (∀ b r x, r < 4096 → x < 128 → rowCode t b r x
              = if b = dDst d / 1024 / 4096 % 128 ∧ r = dDst d / 1024 % 4096 ∧ x = dDst d % 1024 / 8 then encCode w else rowCode s b r x)
          ∧ rdF t (ringHdA ch.toNat false) 0 16 = (ringHd s ch.toNat false + 1) % hdmaSize s ch.toNat
          ∧ Out.hostWrite (ringWord3 s ch.toNat false) (toBytes 8 (BitVec.ofNat 64 (8 + 2 ^ 63))) ∈ t.outbox
          ∧ (dIrq d = true → bit t.hst.chIrq (2 * ch.toNat) = true) ∧ regsBut [ringHdA ch.toNat false, irqA pgHDMA] s t
          ∧ onlyHost s { t with mem := s.mem })
      ∧ (hdmaKind s ch.toNat = 1 → descBad d = false → dSrc d % 1024 + dLen d ≤ 1024 → dSrc d + dLen d ≤ 2 ^ 29 → dDst d + dLen d ≤ 2 ^ 64 →
        s.mod.dieReset ≠ some 4 → gated s pgBANK = false → bankOwned s (dSrc d / 1024 / 4096 % 128) 6 0 = true → bankAwake s (dSrc d / 1024 / 4096 % 128) = true →
        rowUe s (dSrc d / 1024 / 4096 % 128) (dSrc d / 1024 % 4096) (dSrc d % 1024) (dSrc d % 1024 + dLen d) = false →
        ∃ t, exec (.descriptorComplete ch false d [] false) s = .next t
          ∧ Out.hostWrite (dDst d) ((toBytes (dSrc d % 1024 + dLen d)
              (rowData s (dSrc d / 1024 / 4096 % 128) (dSrc d / 1024 % 4096)).1).drop (dSrc d % 1024)) ∈ t.outbox
          ∧ t.mem.rows = s.mem.rows ∧ rdF t (ringHdA ch.toNat false) 0 16 = (ringHd s ch.toNat false + 1) % hdmaSize s ch.toNat
          ∧ t.fab = s.fab ∧ t.drm = s.drm ∧ t.sec = s.sec))
      ∧ (ch = 15 → ringWaiting s 15 true = true → descBad d = false → dDst d + dLen d ≤ 2 ^ 64 → 16 ≤ dLen d → ∀ q, q ≠ [] →
        s.lan.lifeIn = q → q.length ≤ dLen d / 16 → ∃ t, exec (.lifelineBufferTimeout d) s = .next t ∧ t.lan.lifeIn = []
          ∧ Out.hostWrite (dDst d) (q.flatMap (toBytes 16)) ∈ t.outbox
          ∧ rdF t (ringHdA 15 true) 0 16 = (ringHd s 15 true + 1) % hdmaSize s 15 ∧ regsBut [ringHdA 15 true, irqA pgHDMA] s t
          ∧ onlyHost s { t with lan := { t.lan with lifeIn := s.lan.lifeIn } })

/-- The management port and the test access port (R503, R504, R516): the mailbox is all that DORMANT and SEALED show, a write gives its status
and STATUS answers it, a command whose check fails does nothing, and an instruction that is not available acts as BYPASS. User I/O and the
trace port (R496, R497, R519, R521 to R523): a pin with a direction holds its resource or its DIR reads 0, and its settings but DLY stay in
force until its next clock edge; a clock loop that is changed locks anew; the trace port takes pins 72 to 95, or stays off. -/
def Obligations.ManagementTestAndPins : Prop :=
  (∀ s : State,
    (∀ p, pecAccepted p s = false → ∀ (a : Nat) (v : Reg),
        exec (.read32 a p) s = .next s ∧ exec (.write32 a v p) s = .next s ∧ exec (.status p) s = .next s)
      ∧ (∀ p, pecAccepted p s = true →
        (∃ t, exec (.status p) s = .next t ∧ t.outbox = .mgmt [s.hst.mgmtStat] :: s.outbox ∧ { t with outbox := s.outbox } = s)
        ∧ (mailboxOnly s = true → ∀ (a : Nat) (v : Reg),
          (∃ t, exec (.read32 a p) s = .next t ∧ t.outbox = .mgmt (if mailbox a then 0 :: toBytes 4 (regValue s a) else 1 :: toBytes 4 (0 : Reg)) :: s.outbox
            ∧ { t with outbox := s.outbox } = s)
          ∧ ∃ t, exec (.write32 a v p) s = .next t ∧ t.hst = { s.hst with mgmtStat := 1 } ∧ { t with hst := s.hst } = s)
        ∧ (mailboxOnly s = false →
          (∀ k, pageType k ≠ 0 → ∃ t, exec (.read32 (irqEnA k) p) s = .next t ∧ t.outbox = .mgmt (0 :: toBytes 4 (rd s (irqEnA k))) :: s.outbox
            ∧ { t with outbox := s.outbox } = s)
          ∧ ∀ v : Reg, gated s pgHIF = false →
            (fld v 0 8 ≤ 192 → ∃ t, exec (.write32 (at' pgHIF 0x44) v p) s = .next t ∧ rdF t (at' pgHIF 0x44) 0 8 = fld v 0 8
              ∧ t.hst = { s.hst with mgmtStat := 0 } ∧ regsBut [at' pgHIF 0x44] s t ∧ { t with regs := s.regs, hst := s.hst } = s)
            ∧ (192 < fld v 0 8 → ∃ t, exec (.write32 (at' pgHIF 0x44) v p) s = .next t ∧ t.hst = { s.hst with mgmtStat := 3 }
              ∧ rdF t (at' pgHIF 0x44) 0 8 = rdF s (at' pgHIF 0x44) 0 8 ∧ rd t (errA pgHIF) = 0x0F01 ∧ { t with regs := s.regs, hst := s.hst } = s)))
      ∧ ∀ ir : BitVec 8, modeOf s ≠ mDORMANT → ∃ t, exec (.jtagInstruction ir) s = .next t
        ∧ t.hst = { s.hst with jtagIr := if jtagAvailable s ir then ir else 0xFF } ∧ { t with hst := s.hst } = s)
    ∧ (∀ (v : Reg) (s : State),
    let inForce (p : Nat) (t : State) : Prop := setFld (pinCell t p) 16 7 0 = setFld (pinCell s p) 16 7 0
      ∧ { uioCellOf t p with force := (uioCellOf s p).force } = uioCellOf s p ∧ ∀ q, q ≠ p → uioCellOf t q = uioCellOf s q
    (∀ k j, k < 4 → j < 24 → reaches s (pgUIO k) = true → gated s (pgUIO k) = false → writtenValue s (uioPinA k j) v = (v, false) →
      (fld v 2 2 ≠ 0 → rdB s (uioOwnerA k) 31 = true → (holderOf s (pinRes k j) = none ∨ holderOf s (pinRes k j) = some (pgUIO k)) →
        ∃ t, exec (.uioPinWrite (24 * k + j) v) s = .next t ∧ rd t (uioPinA k j) = v ∧ holderOf t (pinRes k j) = some (pgUIO k)
          ∧ inForce (24 * k + j) t ∧ regsBut [uioPinA k j] s t
          ∧ { t with regs := s.regs, hst := { t.hst with holders := s.hst.holders, uioCells := s.hst.uioCells } } = s)
      ∧ (∀ p, fld v 2 2 ≠ 0 → rdB s (uioOwnerA k) 31 = true → holderOf s (pinRes k j) = some p → p ≠ pgUIO k →
        ∃ t, exec (.uioPinWrite (24 * k + j) v) s = .next t ∧ rdF t (uioPinA k j) 2 2 = 0 ∧ rd t (errA (pgUIO k)) = 0x0F03
          ∧ rdB t (statA (pgUIO k)) 3 = true ∧ t.hst.holders = s.hst.holders ∧ rdB t (irqA pgSYS) 0 = true)
      ∧ ((fld v 2 2 = 0 ∨ rdB s (uioOwnerA k) 31 = false) → ∃ t, exec (.uioPinWrite (24 * k + j) v) s = .next t ∧ rd t (uioPinA k j) = v
          ∧ holderOf t (pinRes k j) ≠ some (pgUIO k) ∧ inForce (24 * k + j) t ∧ regsBut [uioPinA k j] s t
          ∧ { t with regs := s.regs, hst := { t.hst with holders := s.hst.holders, uioCells := s.hst.uioCells } } = s))
      ∧ (∀ b : BitVec 2, reaches s (pgUIO b.toNat) = true → gated s (pgUIO b.toNat) = false → writtenValue s (uioClkA b.toNat) v = (v, false) →
        (bit v 31 = true → (holderOf s (0x7000 + b.toNat) = none ∨ holderOf s (0x7000 + b.toNat) = some (pgUIO b.toNat))
          ∧ (clockOk s = true → fclkMhz s ≤ 800 * fld v 0 6)) →
        ∃ t, exec (.uioClkWrite b v) s = .next t ∧ rd t (uioClkA b.toNat) = v
          ∧ (holderOf t (0x7000 + b.toNat) = some (pgUIO b.toNat) ↔ bit v 31 = true)
          ∧ (rd s (uioClkA b.toNat) ≠ v → rdB t (at' (pgUIO b.toNat) 0x48) 0 = false)
          ∧ regsBut [uioClkA b.toNat, at' (pgUIO b.toNat) 0x48] s t ∧ { t with regs := s.regs, hst := { t.hst with holders := s.hst.holders } } = s)
      ∧ (reaches s pgDBG = true → gated s pgDBG = false → writtenValue s (at' pgDBG 0x40) v = (v, false) →
        (bit v 31 = true → (∀ j, j < 24 → holderOf s (pinRes 3 j) = none ∨ holderOf s (pinRes 3 j) = some pgDBG) →
          ∃ t, exec (.dbgTraceWrite v) s = .next t ∧ rd t (at' pgDBG 0x40) = v ∧ (∀ j, j < 24 → holderOf t (pinRes 3 j) = some pgDBG)
            ∧ regsBut [at' pgDBG 0x40] s t ∧ { t with regs := s.regs, hst := { t.hst with holders := s.hst.holders } } = s)
        ∧ (bit v 31 = true → (∃ j p, j < 24 ∧ holderOf s (pinRes 3 j) = some p ∧ p ≠ pgDBG) → ∃ t, exec (.dbgTraceWrite v) s = .next t
            ∧ rdB t (at' pgDBG 0x40) 31 = false ∧ rd t (errA pgDBG) = 0x0F03 ∧ t.hst.holders = s.hst.holders)
        ∧ (bit v 31 = false → ∃ t, exec (.dbgTraceWrite v) s = .next t ∧ rd t (at' pgDBG 0x40) = v ∧ (∀ j, j < 24 → holderOf t (pinRes 3 j) ≠ some pgDBG)
            ∧ regsBut [at' pgDBG 0x40] s t ∧ { t with regs := s.regs, hst := { t.hst with holders := s.hst.holders } } = s)))

/-- A read of any codeword (R458): syndrome 0 is no error; a syndrome equal to the column of a data bit inverts it, and one of a check bit
leaves the data, both correctable; any other syndrome is uncorrectable. The example of the rule: data 0x81 has check bits 0x1E, and bit 7 is
restored. -/
def Obligations.ReadDecoding : Prop :=
  (∀ (d : Word) (k : BitVec 8) (cw : Code) (syn : Nat), cw = BitVec.ofNat 72 (d.toNat + 2 ^ 64 * k.toNat) → syn = checkBits d ^^^ k.toNat →
    (syn = 0 → decode72 cw = .clean d)
      ∧ (∀ i, i < 64 → syn = hColumns.getD i 0 → decode72 cw = .corrected (d ^^^ BitVec.ofNat 64 (2 ^ i)) syn)
      ∧ (∀ i, i < 8 → syn = 2 ^ i → decode72 cw = .corrected d syn)
      ∧ (syn ≠ 0 → (∀ i, i < 64 → syn ≠ hColumns.getD i 0) → (∀ i, i < 8 → syn ≠ 2 ^ i) → decode72 cw = .uncorrectable syn))
    ∧ checkBits 0x81 = 0x1E ∧ decode72 (encCode 0x81 ^^^ BitVec.ofNat 72 (2 ^ 7)) = .corrected 0x81 0x19

/-- The (72,64) code (R457, R458): every data word written with its check bits reads clean, with any one bit inverted it reads corrected to the
same data, its syndrome the column of that bit, and with any two inverted it is uncorrectable. -/
def Obligations.CodewordCorrection : Prop :=
  ∀ d : Word,
    decode72 (encCode d) = .clean d
      ∧ (∀ i, i < 72 → decode72 (encCode d ^^^ BitVec.ofNat 72 (2 ^ i))
          = .corrected d (if i < 64 then hColumns.getD i 0 else 2 ^ (i - 64)))
      ∧ ∀ i j, i < j → j < 72 → ∃ y, decode72 (encCode d ^^^ BitVec.ofNat 72 (2 ^ i) ^^^ BitVec.ofNat 72 (2 ^ j)) = .uncorrectable y

/-- Every step keeps the stores in canonical form, so that equal contents are equal data. -/
def Obligations.StoresCanonical : Prop := ∀ s t : State, storesWf s → step s = .next t → storesWf t
end

