-- ==== Sys2Proof/Laws/Bits.lean ====
section
/-! SUPPORT. Reading a bit field after writing one. -/

namespace Sys2Proof.Machine

theorem setFld_toNat {w : Nat} (v : BitVec w) (lo n x : Nat) (h : lo + n ≤ w) :
    (setFld v lo n x).toNat = v.toNat % 2 ^ lo + (x % 2 ^ n) * 2 ^ lo + (v.toNat >>> (lo + n)) * 2 ^ (lo + n) := by
  unfold setFld
  rw [BitVec.toNat_ofNat]
  apply Nat.mod_eq_of_lt
  have h1 : v.toNat % 2 ^ lo < 2 ^ lo := Nat.mod_lt _ (by positivity)
  have h2 : x % 2 ^ n < 2 ^ n := Nat.mod_lt _ (by positivity)
  have h3 : v.toNat >>> (lo + n) < 2 ^ (w - (lo + n)) := by
    rw [Nat.shiftRight_eq_div_pow, Nat.div_lt_iff_lt_mul (by positivity), ← pow_add]
    rw [Nat.sub_add_cancel h]; exact v.isLt
  have h4 : (x % 2 ^ n) * 2 ^ lo + 2 ^ lo ≤ 2 ^ (lo + n) := by
    rw [pow_add]; nlinarith [Nat.zero_le (2 ^ lo)]
  have h5 : (v.toNat >>> (lo + n)) * 2 ^ (lo + n) + 2 ^ (lo + n) ≤ 2 ^ w := by
    calc (v.toNat >>> (lo + n)) * 2 ^ (lo + n) + 2 ^ (lo + n) = (v.toNat >>> (lo + n) + 1) * 2 ^ (lo + n) := by ring
      _ ≤ 2 ^ (w - (lo + n)) * 2 ^ (lo + n) := Nat.mul_le_mul_right _ h3
      _ = 2 ^ w := by rw [← pow_add, Nat.sub_add_cancel h]
  omega

theorem setFld_testBit {w : Nat} (v : BitVec w) (lo n x i : Nat) (h : lo + n ≤ w) :
    (setFld v lo n x).toNat.testBit i = if lo ≤ i ∧ i < lo + n then x.testBit (i - lo) else v.toNat.testBit i := by
  rw [setFld_toNat v lo n x h]
  have e : v.toNat % 2 ^ lo + (x % 2 ^ n) * 2 ^ lo + (v.toNat >>> (lo + n)) * 2 ^ (lo + n)
      = 2 ^ lo * (2 ^ n * (v.toNat >>> (lo + n)) + x % 2 ^ n) + v.toNat % 2 ^ lo := by rw [pow_add]; ring
  have h2 : x % 2 ^ n < 2 ^ n := Nat.mod_lt _ (by positivity)
  rw [e, Nat.testBit_two_pow_mul_add _ (Nat.mod_lt _ (by positivity)), Nat.testBit_mod_two_pow]
  by_cases h1 : i < lo
  · simp [h1, show ¬ lo ≤ i by omega]
  · rw [if_neg h1, Nat.testBit_two_pow_mul_add _ h2, Nat.testBit_mod_two_pow, Nat.testBit_shiftRight]
    by_cases h3 : i - lo < n
    · simp [h3, show lo ≤ i by omega, show i < lo + n by omega]
    · simp [h3, show ¬ i < lo + n by omega, show lo + n + (i - lo - n) = i by omega]

theorem fld_testBit {w : Nat} (v : BitVec w) (lo n i : Nat) :
    (fld v lo n).testBit i = (decide (i < n) && v.toNat.testBit (lo + i)) := by
  simp [fld, Nat.testBit_mod_two_pow, Nat.testBit_shiftRight]

/-- A field reads as it was written. -/
theorem fld_setFld_same {w : Nat} (v : BitVec w) (lo n x : Nat) (h : lo + n ≤ w) : fld (setFld v lo n x) lo n = x % 2 ^ n := by
  apply Nat.eq_of_testBit_eq
  intro i
  rw [fld_testBit, setFld_testBit v lo n x _ h, Nat.testBit_mod_two_pow]
  by_cases hi : i < n <;> simp [hi]

/-- A field apart from the one written reads as before. -/
theorem fld_setFld_other {w : Nat} (v : BitVec w) (lo n x lo' n' : Nat) (h : lo + n ≤ w) (hd : lo' + n' ≤ lo ∨ lo + n ≤ lo') :
    fld (setFld v lo n x) lo' n' = fld v lo' n' := by
  apply Nat.eq_of_testBit_eq
  intro i
  rw [fld_testBit, fld_testBit, setFld_testBit v lo n x _ h]
  by_cases hi : i < n'
  · rw [if_neg (by omega)]
  · simp [hi]

theorem bit_eq_testBit {w : Nat} (v : BitVec w) (i : Nat) : bit v i = v.toNat.testBit i := rfl

/-- A bit of the field written. -/
theorem bit_setFld_same {w : Nat} (v : BitVec w) (lo n x i : Nat) (h : lo + n ≤ w) (hi : lo ≤ i ∧ i < lo + n) :
    bit (setFld v lo n x) i = x.testBit (i - lo) := by
  rw [bit_eq_testBit, setFld_testBit v lo n x _ h, if_pos hi]

/-- A bit outside the field written. -/
theorem bit_setFld_other {w : Nat} (v : BitVec w) (lo n x i : Nat) (h : lo + n ≤ w) (hi : i < lo ∨ lo + n ≤ i) :
    bit (setFld v lo n x) i = bit v i := by
  rw [bit_eq_testBit, setFld_testBit v lo n x _ h, if_neg (by omega), bit_eq_testBit]

@[simp] theorem b2n_true : b2n true = 1 := rfl
@[simp] theorem b2n_false : b2n false = 0 := rfl

/-- A field is below its width's bound. -/
theorem fld_lt {w : Nat} (v : BitVec w) (lo n : Nat) : fld v lo n < 2 ^ n := Nat.mod_lt _ (Nat.two_pow_pos n)

/-- The low field of a number that fits. -/
theorem fld_ofNat_low (x n : Nat) (h : x < 2 ^ n) (hn : n ≤ 32) : fld (BitVec.ofNat 32 x) 0 n = x := by
  have : (2 : Nat) ^ n ≤ 2 ^ 32 := Nat.pow_le_pow_right (by omega) hn
  simp only [fld, BitVec.toNat_ofNat, Nat.shiftRight_zero]
  rw [Nat.mod_eq_of_lt (Nat.lt_of_lt_of_le h this), Nat.mod_eq_of_lt h]

/-- One bit of a mask. -/
theorem bit_twoPow64 (v i : Nat) (hi : i < 64) : bit (BitVec.ofNat 64 (2 ^ v)) i = decide (v = i) := by
  simp only [bit, BitVec.getLsbD_ofNat, hi, decide_true, Bool.true_and, Nat.testBit_two_pow]

/-- A mask with one bit taken away. -/
theorem bit_clear64 (x : BitVec 64) (v i : Nat) (h : i < 64) :
    bit (x &&& ~~~BitVec.ofNat 64 (2 ^ v)) i = (bit x i && !decide (v = i)) := by
  rw [← bit_twoPow64 v i h]
  simp only [bit, BitVec.getLsbD_and, BitVec.getLsbD_not, h, decide_true, Bool.true_and]

end Sys2Proof.Machine
end

