-- ==== Sys2Proof/Laws/Code.lean ====
section
/-! SUPPORT. The (72,64) code (R457, R458). -/

namespace Sys2Proof.Machine

theorem foldColumns_lt (l : List Nat) (h : ∀ x ∈ l, x < 256) : ∀ n, foldColumns l n < 256 := by
  induction l with
  | nil => intro n; simp [foldColumns]
  | cons a t ih =>
    intro n
    have h1 := ih (fun x hx => h x (by simp [hx])) (n / 2)
    have h2 : (if n % 2 = 1 then a else 0) < 256 := by
      split
      · exact h a (by simp)
      · omega
    exact Nat.xor_lt_two_pow (n := 8) h2 h1

theorem checkBits_lt (d : Word) : checkBits d < 256 := foldColumns_lt hColumns (by decide) _

/-- The data bits of an encoded word. -/
@[simp] theorem codeData_encCode (d : Word) : codeData (encCode d) = d := by
  have h := checkBits_lt d
  have hd := d.isLt
  apply BitVec.eq_of_toNat_eq
  unfold codeData encCode
  rw [BitVec.toNat_ofNat, BitVec.toNat_ofNat]
  omega

/-- A word that was written with valid check bits decodes clean (R458). -/
@[simp] theorem decode72_encCode (d : Word) : decode72 (encCode d) = .clean d := by
  have h := checkBits_lt d
  have hd := d.isLt
  have hs : syndrome (encCode d) = 0 := by
    unfold syndrome
    rw [codeData_encCode, Nat.xor_eq_zero_iff]
    unfold encCode
    rw [BitVec.toNat_ofNat, Nat.shiftRight_eq_div_pow]
    omega
  unfold decode72
  simp [hs]

end Sys2Proof.Machine
end

