-- ==== Sys2Proof/Laws/Flits.lean ====
section
/-! SUPPORT. A flit that is built and sealed under a key passes its CRC and opens under that key (R262 to R264). -/

namespace Sys2Proof.Machine

theorem ofBytes_lt (w : Nat) : ∀ bs : List Byte, 8 * bs.length ≤ w → (ofBytes w bs).toNat < 2 ^ (8 * bs.length)
  | [], _ => by simp [ofBytes]
  | b :: t, h => by
    rw [List.length_cons] at h ⊢
    have ih := ofBytes_lt w t (by omega)
    have hb := b.isLt
    refine Nat.lt_of_le_of_lt (Nat.mod_le _ _) ?_
    rw [Nat.mul_add, pow_add]
    omega

theorem ofBytes_cons (w : Nat) (b : Byte) (t : List Byte) (h : 8 * (b :: t).length ≤ w) :
    (ofBytes w (b :: t)).toNat = b.toNat + 256 * (ofBytes w t).toNat := by
  rw [List.length_cons] at h
  have ih := ofBytes_lt w t (by omega)
  have hb := b.isLt
  refine Nat.mod_eq_of_lt (Nat.lt_of_lt_of_le ?_ (Nat.pow_le_pow_right (by omega) h))
  rw [Nat.mul_add, pow_add]
  omega

/-- Byte `k` of the vector is the `k`-th of the list. -/
theorem byteOf_ofBytes (w : Nat) : ∀ (bs : List Byte) (k : Nat) (h : k < bs.length), 8 * bs.length ≤ w → byteOf (ofBytes w bs) k = bs[k]
  | b :: t, 0, _, hw => by
    apply BitVec.eq_of_toNat_eq
    rw [byteOf, ofBytes_cons w b t hw, BitVec.toNat_ofNat]
    have hb := b.isLt
    show (b.toNat + 256 * (ofBytes w t).toNat) % 256 = b.toNat
    omega
  | b :: t, k + 1, h, hw => by
    have ht : 8 * t.length ≤ w := by rw [List.length_cons] at hw; omega
    have := byteOf_ofBytes w t k (by simpa using h) ht
    rw [List.getElem_cons_succ, ← this, byteOf, byteOf, ofBytes_cons w b t hw]
    have hb := b.isLt
    rw [show 8 * (k + 1) = 8 + 8 * k by omega, Nat.shiftRight_add, show (b.toNat + 256 * (ofBytes w t).toNat) >>> 8 = (ofBytes w t).toNat by
      rw [Nat.shiftRight_eq_div_pow]; omega]

/-- The first bytes of a vector are those of the list. -/
theorem toBytes_ofBytes (w n : Nat) (bs : List Byte) (hn : n ≤ bs.length) (hw : 8 * bs.length ≤ w) : toBytes n (ofBytes w bs) = bs.take n := by
  apply List.ext_getElem
  · simp [toBytes, hn]
  · intro k h1 h2
    have hk : k < n := by simpa [toBytes] using h1
    simp only [toBytes, List.getElem_map, List.getElem_range, List.getElem_take]
    exact byteOf_ofBytes w bs k (by omega) hw

theorem toBytes_length {w : Nat} (n : Nat) (v : BitVec w) : (toBytes n v).length = n := by simp [toBytes]

theorem padBytes_length (n : Nat) (bs : List Byte) : (padBytes n bs).length = n := by simp [padBytes]; omega

theorem padBytes_self (bs : List Byte) (n : Nat) (h : bs.length = n) : padBytes n bs = bs := by
  subst h; simp [padBytes]

theorem toNat_ofBytes_toBytes8 (h : Word) (rest : List Byte) (w : Nat) (hw : 8 * (8 + rest.length) ≤ w) :
    BitVec.ofNat 64 (fld (ofBytes w (toBytes 8 h ++ rest)) 0 64) = h := by
  apply BitVec.eq_of_toNat_eq
  have e : toBytes 8 h ++ rest = byteOf h 0 :: byteOf h 1 :: byteOf h 2 :: byteOf h 3 :: byteOf h 4 :: byteOf h 5 :: byteOf h 6 :: byteOf h 7 :: rest := rfl
  rw [e]
  have hl : ∀ k : Nat, k ≤ 8 → 8 * (k + rest.length) ≤ w := by intro k hk; omega
  rw [BitVec.toNat_ofNat, fld]
  rw [ofBytes_cons, ofBytes_cons, ofBytes_cons, ofBytes_cons, ofBytes_cons, ofBytes_cons, ofBytes_cons, ofBytes_cons]
  · simp only [byteOf, BitVec.toNat_ofNat, Nat.shiftRight_eq_div_pow]
    have := h.isLt
    omega
  all_goals (simp only [List.length_cons]; omega)

/-- The parts of a built flit. -/
theorem mkFlit_bytes (h : Word) (payload tag : List Byte) :
    toBytes 256 (mkFlit h payload tag) = toBytes 8 h ++ padBytes 228 payload ++ padBytes 16 tag
      ++ toBytes 4 (BitVec.ofNat 32 (2 ^ 32 - 1 - crcRun 0 (2 ^ 32 - 1) (toBytes 8 h ++ padBytes 228 payload ++ padBytes 16 tag))) := by
  unfold mkFlit
  dsimp only
  rw [toBytes_ofBytes, List.take_of_length_le]
  all_goals simp [toBytes_length, padBytes_length]

theorem mkFlit_head (h : Word) (payload tag : List Byte) : flitHead (mkFlit h payload tag) = h := by
  unfold flitHead mkFlit
  dsimp only
  rw [List.append_assoc, List.append_assoc]
  exact toNat_ofBytes_toBytes8 h _ 2048 (by simp [toBytes_length, padBytes_length])

theorem mkFlit_payload (h : Word) (payload tag : List Byte) : flitPayload (mkFlit h payload tag) = padBytes 228 payload := by
  unfold flitPayload
  rw [mkFlit_bytes]
  simp [toBytes_length, padBytes_length]

theorem mkFlit_tag (h : Word) (payload tag : List Byte) : flitTag (mkFlit h payload tag) = padBytes 16 tag := by
  unfold flitTag
  rw [mkFlit_bytes]
  simp [List.drop_append, toBytes_length, padBytes_length, List.drop_of_length_le]

/-- A shift by whole bytes drops them. -/
theorem ofBytes_shift (w : Nat) : ∀ (k : Nat) (bs : List Byte), 8 * bs.length ≤ w →
    (ofBytes w bs).toNat >>> (8 * k) = (ofBytes w (bs.drop k)).toNat
  | 0, _, _ => by simp
  | k + 1, [], _ => by simp [ofBytes]
  | k + 1, b :: t, h => by
    have ht : 8 * t.length ≤ w := by rw [List.length_cons] at h; omega
    rw [List.drop_succ_cons, ← ofBytes_shift w k t ht, ofBytes_cons w b t h, show 8 * (k + 1) = 8 + 8 * k by omega, Nat.shiftRight_add]
    have hb := b.isLt
    congr 1
    rw [Nat.shiftRight_eq_div_pow]
    omega

theorem crcBits_reflected_lt (p : Nat) (hp : p < 2 ^ 32) : ∀ n s : Nat, s < 2 ^ 32 → crcBits 32 p true n s < 2 ^ 32
  | 0, _, h => h
  | n + 1, s, h => by
    refine crcBits_reflected_lt p hp n _ ?_
    simp only [if_true]
    refine Nat.xor_lt_two_pow (by rw [Nat.shiftRight_eq_div_pow]; omega) ?_
    split
    · exact hp
    · decide

theorem crcRun_lt (ds : List Byte) : ∀ s : Nat, s < 2 ^ 32 → crcRun 0 s ds < 2 ^ 32 := by
  induction ds with
  | nil => exact fun s h => h
  | cons d ds ih =>
    intro s h
    exact ih _ (crcBits_reflected_lt _ (by decide) 8 _
      (Nat.xor_lt_two_pow h (Nat.lt_of_lt_of_le d.isLt (by decide))))

theorem ofBytes_toBytes4 (w : Nat) (v : BitVec 32) (hw : 32 ≤ w) : (ofBytes w (toBytes 4 v)).toNat = v.toNat := by
  have e : toBytes 4 v = [byteOf v 0, byteOf v 1, byteOf v 2, byteOf v 3] := rfl
  have e0 : (ofBytes w []).toNat = 0 := by simp [ofBytes]
  rw [e, ofBytes_cons, ofBytes_cons, ofBytes_cons, ofBytes_cons, e0]
  · simp only [byteOf, BitVec.toNat_ofNat, Nat.shiftRight_eq_div_pow]
    have := v.isLt
    omega
  all_goals (simp only [List.length_cons, List.length_nil]; omega)

/-- The bytes after the first `k`, four of them, as a field. -/
theorem fld_tail4 (w k : Nat) (bs : List Byte) (v : BitVec 32) (hk : bs.length = k) (hw : 8 * (k + 4) ≤ w) :
    fld (ofBytes w (bs ++ toBytes 4 v)) (8 * k) 32 = v.toNat := by
  unfold fld
  rw [ofBytes_shift w k _ (by rw [List.length_append, toBytes_length, hk]; exact hw), List.drop_append, hk,
    List.drop_of_length_le (by omega), Nat.sub_self, List.drop_zero, List.nil_append, ofBytes_toBytes4 w v (by omega)]
  exact Nat.mod_eq_of_lt v.isLt

/-- A built flit passes its CRC (R262, R265). -/
theorem mkFlit_crc (h : Word) (payload tag : List Byte) : flitCrcOk (mkFlit h payload tag) = true := by
  unfold flitCrcOk mkFlit
  dsimp only
  generalize hb : toBytes 8 h ++ padBytes 228 payload ++ padBytes 16 tag = bs
  have hl : bs.length = 252 := by rw [← hb, List.length_append, List.length_append, toBytes_length, padBytes_length, padBytes_length]
  have hc := crcRun_lt bs (2 ^ 32 - 1) (by decide)
  have hv : (BitVec.ofNat 32 (2 ^ 32 - 1 - crcRun 0 (2 ^ 32 - 1) bs)).toNat = 2 ^ 32 - 1 - crcRun 0 (2 ^ 32 - 1) bs :=
    Nat.mod_eq_of_lt (by omega)
  rw [fld_tail4 2048 252 bs _ hl (by decide), hv, toBytes_ofBytes, List.take_append, hl, List.take_of_length_le (by omega), Nat.sub_self,
    List.take_zero, List.append_nil]
  · have e : crcRun 0 (2 ^ 32 - 1) bs = 2 ^ 32 - 1 - (2 ^ 32 - 1 - crcRun 0 (2 ^ 32 - 1) bs) := by omega
    exact decide_eq_true e
  · rw [List.length_append, hl]; omega
  · rw [List.length_append, hl, toBytes_length]

theorem gcmStream_length (key : BitVec 256) (nonce : List Byte) (n : Nat) : n ≤ (gcmStream key nonce n).length := by
  have e : (gcmStream key nonce n).length = (n + 15) / 16 * 16 := by
    simp [gcmStream, List.length_flatMap, beBytes, toBytes_length]
  rw [e]
  omega

theorem xorBytes_length (a b : List Byte) (h : a.length ≤ b.length) : (xorBytes a b).length = a.length := by simp [xorBytes, h]

theorem xorBytes_twice : ∀ (a b : List Byte), a.length ≤ b.length → xorBytes (xorBytes a b) b = a
  | [], _, _ => by simp [xorBytes]
  | x :: a, [], h => by simp at h
  | x :: a, y :: b, h => by
    have ih := xorBytes_twice a b (by simpa using h)
    simp only [xorBytes, List.zip_cons_cons, List.map_cons] at ih ⊢
    rw [ih, BitVec.xor_assoc, BitVec.xor_self, BitVec.xor_zero]

/-- What is sealed opens under the same key, nonce and associated data (R263). -/
theorem gcmOpen_seal (key : BitVec 256) (nonce aad data : List Byte) :
    gcmOpen key nonce aad (gcmSeal key nonce aad data).1 (gcmSeal key nonce aad data).2 = some data := by
  have h := gcmStream_length key nonce data.length
  unfold gcmOpen gcmSeal
  dsimp only
  rw [if_pos rfl, xorBytes_length _ _ h, xorBytes_twice _ _ h]

/-- A flit sealed under the receive key of the slot that its header names opens (R263, R264). -/
theorem openFlit_seal (e : EnrPort) (h : Word) (ks : KeySet) (pl : List Byte) (c : Nat) (hl : pl.length = 228)
    (hk : (keySlot e (bit h 57)).keys = some ks) (hc : rebuildCtr (keySlot e (bit h 57)).rxLast (fld h 0 16) = c) :
    openFlit e (mkFlit h (gcmSeal ks.rxKey (flitNonce ks.rxSalt c) (toBytes 8 h) pl).1
      (gcmSeal ks.rxKey (flitNonce ks.rxSalt c) (toBytes 8 h) pl).2) = some (c, pl) := by
  have h1 : (gcmSeal ks.rxKey (flitNonce ks.rxSalt c) (toBytes 8 h) pl).1.length = 228 := by
    rw [← hl]; exact xorBytes_length _ _ (gcmStream_length _ _ _)
  have h2 : (gcmSeal ks.rxKey (flitNonce ks.rxSalt c) (toBytes 8 h) pl).2.length = 16 := by simp [gcmSeal, beBytes, toBytes_length]
  unfold openFlit
  dsimp only
  rw [mkFlit_head, hk, Option.bind_some, hc, mkFlit_payload, mkFlit_tag, padBytes_self _ _ h1, padBytes_self _ _ h2, gcmOpen_seal,
    Option.map_some]

end Sys2Proof.Machine
end

