-- ==== Sys2Proof/Laws/State.lean ====
section
/-! SUPPORT. What each update of the state leaves in each field, one lemma each. -/

namespace Sys2Proof.Machine

variable (s : State)

@[simp] theorem wr_pending (a : Nat) (v : Reg) : (wr a v s).pending = s.pending := rfl
@[simp] theorem wr_free (a : Nat) (v : Reg) : (wr a v s).free = s.free := rfl
@[simp] theorem wr_outbox (a : Nat) (v : Reg) : (wr a v s).outbox = s.outbox := rfl
@[simp] theorem wr_fab (a : Nat) (v : Reg) : (wr a v s).fab = s.fab := rfl
@[simp] theorem wr_slu (a : Nat) (v : Reg) : (wr a v s).slu = s.slu := rfl
@[simp] theorem wr_lan (a : Nat) (v : Reg) : (wr a v s).lan = s.lan := rfl
@[simp] theorem wr_enr (a : Nat) (v : Reg) : (wr a v s).enr = s.enr := rfl
@[simp] theorem wr_cfc (a : Nat) (v : Reg) : (wr a v s).cfc = s.cfc := rfl
@[simp] theorem wr_mem (a : Nat) (v : Reg) : (wr a v s).mem = s.mem := rfl
@[simp] theorem wr_drm (a : Nat) (v : Reg) : (wr a v s).drm = s.drm := rfl
@[simp] theorem wr_ime (a : Nat) (v : Reg) : (wr a v s).ime = s.ime := rfl
@[simp] theorem wr_sec (a : Nat) (v : Reg) : (wr a v s).sec = s.sec := rfl
@[simp] theorem wr_clk (a : Nat) (v : Reg) : (wr a v s).clk = s.clk := rfl
@[simp] theorem wr_mod (a : Nat) (v : Reg) : (wr a v s).mod = s.mod := rfl
@[simp] theorem wr_thm (a : Nat) (v : Reg) : (wr a v s).thm = s.thm := rfl
@[simp] theorem wr_ecc (a : Nat) (v : Reg) : (wr a v s).ecc = s.ecc := rfl
@[simp] theorem wr_hst (a : Nat) (v : Reg) : (wr a v s).hst = s.hst := rfl
@[simp] theorem wr_time (a : Nat) (v : Reg) : (wr a v s).time = s.time := rfl

@[simp] theorem wrF_pending (a lo n x : Nat) : (wrF a lo n x s).pending = s.pending := rfl
@[simp] theorem wrF_free (a lo n x : Nat) : (wrF a lo n x s).free = s.free := rfl
@[simp] theorem wrF_outbox (a lo n x : Nat) : (wrF a lo n x s).outbox = s.outbox := rfl
@[simp] theorem wrF_fab (a lo n x : Nat) : (wrF a lo n x s).fab = s.fab := rfl
@[simp] theorem wrF_slu (a lo n x : Nat) : (wrF a lo n x s).slu = s.slu := rfl
@[simp] theorem wrF_lan (a lo n x : Nat) : (wrF a lo n x s).lan = s.lan := rfl
@[simp] theorem wrF_enr (a lo n x : Nat) : (wrF a lo n x s).enr = s.enr := rfl
@[simp] theorem wrF_cfc (a lo n x : Nat) : (wrF a lo n x s).cfc = s.cfc := rfl
@[simp] theorem wrF_mem (a lo n x : Nat) : (wrF a lo n x s).mem = s.mem := rfl
@[simp] theorem wrF_drm (a lo n x : Nat) : (wrF a lo n x s).drm = s.drm := rfl
@[simp] theorem wrF_ime (a lo n x : Nat) : (wrF a lo n x s).ime = s.ime := rfl
@[simp] theorem wrF_sec (a lo n x : Nat) : (wrF a lo n x s).sec = s.sec := rfl
@[simp] theorem wrF_clk (a lo n x : Nat) : (wrF a lo n x s).clk = s.clk := rfl
@[simp] theorem wrF_mod (a lo n x : Nat) : (wrF a lo n x s).mod = s.mod := rfl
@[simp] theorem wrF_thm (a lo n x : Nat) : (wrF a lo n x s).thm = s.thm := rfl
@[simp] theorem wrF_ecc (a lo n x : Nat) : (wrF a lo n x s).ecc = s.ecc := rfl
@[simp] theorem wrF_hst (a lo n x : Nat) : (wrF a lo n x s).hst = s.hst := rfl
@[simp] theorem wrF_time (a lo n x : Nat) : (wrF a lo n x s).time = s.time := rfl

@[simp] theorem incF_pending (a lo n k : Nat) : (incF a lo n k s).pending = s.pending := rfl
@[simp] theorem incF_free (a lo n k : Nat) : (incF a lo n k s).free = s.free := rfl
@[simp] theorem incF_outbox (a lo n k : Nat) : (incF a lo n k s).outbox = s.outbox := rfl
@[simp] theorem incF_fab (a lo n k : Nat) : (incF a lo n k s).fab = s.fab := rfl
@[simp] theorem incF_slu (a lo n k : Nat) : (incF a lo n k s).slu = s.slu := rfl
@[simp] theorem incF_lan (a lo n k : Nat) : (incF a lo n k s).lan = s.lan := rfl
@[simp] theorem incF_enr (a lo n k : Nat) : (incF a lo n k s).enr = s.enr := rfl
@[simp] theorem incF_cfc (a lo n k : Nat) : (incF a lo n k s).cfc = s.cfc := rfl
@[simp] theorem incF_mem (a lo n k : Nat) : (incF a lo n k s).mem = s.mem := rfl
@[simp] theorem incF_drm (a lo n k : Nat) : (incF a lo n k s).drm = s.drm := rfl
@[simp] theorem incF_ime (a lo n k : Nat) : (incF a lo n k s).ime = s.ime := rfl
@[simp] theorem incF_sec (a lo n k : Nat) : (incF a lo n k s).sec = s.sec := rfl
@[simp] theorem incF_clk (a lo n k : Nat) : (incF a lo n k s).clk = s.clk := rfl
@[simp] theorem incF_mod (a lo n k : Nat) : (incF a lo n k s).mod = s.mod := rfl
@[simp] theorem incF_thm (a lo n k : Nat) : (incF a lo n k s).thm = s.thm := rfl
@[simp] theorem incF_ecc (a lo n k : Nat) : (incF a lo n k s).ecc = s.ecc := rfl
@[simp] theorem incF_hst (a lo n k : Nat) : (incF a lo n k s).hst = s.hst := rfl
@[simp] theorem incF_time (a lo n k : Nat) : (incF a lo n k s).time = s.time := rfl

@[simp] theorem setFault_pending (p c : Nat) : (setFault p c s).pending = s.pending := rfl
@[simp] theorem setFault_free (p c : Nat) : (setFault p c s).free = s.free := rfl
@[simp] theorem setFault_outbox (p c : Nat) : (setFault p c s).outbox = s.outbox := rfl
@[simp] theorem setFault_fab (p c : Nat) : (setFault p c s).fab = s.fab := rfl
@[simp] theorem setFault_slu (p c : Nat) : (setFault p c s).slu = s.slu := rfl
@[simp] theorem setFault_lan (p c : Nat) : (setFault p c s).lan = s.lan := rfl
@[simp] theorem setFault_enr (p c : Nat) : (setFault p c s).enr = s.enr := rfl
@[simp] theorem setFault_cfc (p c : Nat) : (setFault p c s).cfc = s.cfc := rfl
@[simp] theorem setFault_mem (p c : Nat) : (setFault p c s).mem = s.mem := rfl
@[simp] theorem setFault_drm (p c : Nat) : (setFault p c s).drm = s.drm := rfl
@[simp] theorem setFault_ime (p c : Nat) : (setFault p c s).ime = s.ime := rfl
@[simp] theorem setFault_sec (p c : Nat) : (setFault p c s).sec = s.sec := rfl
@[simp] theorem setFault_clk (p c : Nat) : (setFault p c s).clk = s.clk := rfl
@[simp] theorem setFault_mod (p c : Nat) : (setFault p c s).mod = s.mod := rfl
@[simp] theorem setFault_thm (p c : Nat) : (setFault p c s).thm = s.thm := rfl
@[simp] theorem setFault_ecc (p c : Nat) : (setFault p c s).ecc = s.ecc := rfl
@[simp] theorem setFault_hst (p c : Nat) : (setFault p c s).hst = s.hst := rfl
@[simp] theorem setFault_time (p c : Nat) : (setFault p c s).time = s.time := rfl

@[simp] theorem setBusy_pending (p : Nat) (b : Bool) : (setBusy p b s).pending = s.pending := rfl
@[simp] theorem setBusy_free (p : Nat) (b : Bool) : (setBusy p b s).free = s.free := rfl
@[simp] theorem setBusy_outbox (p : Nat) (b : Bool) : (setBusy p b s).outbox = s.outbox := rfl
@[simp] theorem setBusy_fab (p : Nat) (b : Bool) : (setBusy p b s).fab = s.fab := rfl
@[simp] theorem setBusy_slu (p : Nat) (b : Bool) : (setBusy p b s).slu = s.slu := rfl
@[simp] theorem setBusy_lan (p : Nat) (b : Bool) : (setBusy p b s).lan = s.lan := rfl
@[simp] theorem setBusy_enr (p : Nat) (b : Bool) : (setBusy p b s).enr = s.enr := rfl
@[simp] theorem setBusy_cfc (p : Nat) (b : Bool) : (setBusy p b s).cfc = s.cfc := rfl
@[simp] theorem setBusy_mem (p : Nat) (b : Bool) : (setBusy p b s).mem = s.mem := rfl
@[simp] theorem setBusy_drm (p : Nat) (b : Bool) : (setBusy p b s).drm = s.drm := rfl
@[simp] theorem setBusy_ime (p : Nat) (b : Bool) : (setBusy p b s).ime = s.ime := rfl
@[simp] theorem setBusy_sec (p : Nat) (b : Bool) : (setBusy p b s).sec = s.sec := rfl
@[simp] theorem setBusy_clk (p : Nat) (b : Bool) : (setBusy p b s).clk = s.clk := rfl
@[simp] theorem setBusy_mod (p : Nat) (b : Bool) : (setBusy p b s).mod = s.mod := rfl
@[simp] theorem setBusy_thm (p : Nat) (b : Bool) : (setBusy p b s).thm = s.thm := rfl
@[simp] theorem setBusy_ecc (p : Nat) (b : Bool) : (setBusy p b s).ecc = s.ecc := rfl
@[simp] theorem setBusy_hst (p : Nat) (b : Bool) : (setBusy p b s).hst = s.hst := rfl
@[simp] theorem setBusy_time (p : Nat) (b : Bool) : (setBusy p b s).time = s.time := rfl

@[simp] theorem dropWrite_pending (p : Nat) : (dropWrite p s).pending = s.pending := rfl
@[simp] theorem dropWrite_free (p : Nat) : (dropWrite p s).free = s.free := rfl
@[simp] theorem dropWrite_outbox (p : Nat) : (dropWrite p s).outbox = s.outbox := rfl
@[simp] theorem dropWrite_fab (p : Nat) : (dropWrite p s).fab = s.fab := rfl
@[simp] theorem dropWrite_slu (p : Nat) : (dropWrite p s).slu = s.slu := rfl
@[simp] theorem dropWrite_lan (p : Nat) : (dropWrite p s).lan = s.lan := rfl
@[simp] theorem dropWrite_enr (p : Nat) : (dropWrite p s).enr = s.enr := rfl
@[simp] theorem dropWrite_cfc (p : Nat) : (dropWrite p s).cfc = s.cfc := rfl
@[simp] theorem dropWrite_mem (p : Nat) : (dropWrite p s).mem = s.mem := rfl
@[simp] theorem dropWrite_drm (p : Nat) : (dropWrite p s).drm = s.drm := rfl
@[simp] theorem dropWrite_ime (p : Nat) : (dropWrite p s).ime = s.ime := rfl
@[simp] theorem dropWrite_sec (p : Nat) : (dropWrite p s).sec = s.sec := rfl
@[simp] theorem dropWrite_clk (p : Nat) : (dropWrite p s).clk = s.clk := rfl
@[simp] theorem dropWrite_mod (p : Nat) : (dropWrite p s).mod = s.mod := rfl
@[simp] theorem dropWrite_thm (p : Nat) : (dropWrite p s).thm = s.thm := rfl
@[simp] theorem dropWrite_ecc (p : Nat) : (dropWrite p s).ecc = s.ecc := rfl
@[simp] theorem dropWrite_hst (p : Nat) : (dropWrite p s).hst = s.hst := rfl
@[simp] theorem dropWrite_time (p : Nat) : (dropWrite p s).time = s.time := rfl

@[simp] theorem send_pending (o : Out) : (send o s).pending = s.pending := rfl
@[simp] theorem send_free (o : Out) : (send o s).free = s.free := rfl
@[simp] theorem send_outbox (o : Out) : (send o s).outbox = o :: s.outbox := rfl
@[simp] theorem send_regs (o : Out) : (send o s).regs = s.regs := rfl
@[simp] theorem send_fab (o : Out) : (send o s).fab = s.fab := rfl
@[simp] theorem send_slu (o : Out) : (send o s).slu = s.slu := rfl
@[simp] theorem send_lan (o : Out) : (send o s).lan = s.lan := rfl
@[simp] theorem send_enr (o : Out) : (send o s).enr = s.enr := rfl
@[simp] theorem send_cfc (o : Out) : (send o s).cfc = s.cfc := rfl
@[simp] theorem send_mem (o : Out) : (send o s).mem = s.mem := rfl
@[simp] theorem send_drm (o : Out) : (send o s).drm = s.drm := rfl
@[simp] theorem send_ime (o : Out) : (send o s).ime = s.ime := rfl
@[simp] theorem send_sec (o : Out) : (send o s).sec = s.sec := rfl
@[simp] theorem send_clk (o : Out) : (send o s).clk = s.clk := rfl
@[simp] theorem send_mod (o : Out) : (send o s).mod = s.mod := rfl
@[simp] theorem send_thm (o : Out) : (send o s).thm = s.thm := rfl
@[simp] theorem send_ecc (o : Out) : (send o s).ecc = s.ecc := rfl
@[simp] theorem send_hst (o : Out) : (send o s).hst = s.hst := rfl
@[simp] theorem send_time (o : Out) : (send o s).time = s.time := rfl

@[simp] theorem withFab_pending (u : Fabric → Fabric) : (withFab u s).pending = s.pending := rfl
@[simp] theorem withFab_free (u : Fabric → Fabric) : (withFab u s).free = s.free := rfl
@[simp] theorem withFab_outbox (u : Fabric → Fabric) : (withFab u s).outbox = s.outbox := rfl
@[simp] theorem withFab_regs (u : Fabric → Fabric) : (withFab u s).regs = s.regs := rfl
@[simp] theorem withFab_fab (u : Fabric → Fabric) : (withFab u s).fab = u s.fab := rfl
@[simp] theorem withFab_slu (u : Fabric → Fabric) : (withFab u s).slu = s.slu := rfl
@[simp] theorem withFab_lan (u : Fabric → Fabric) : (withFab u s).lan = s.lan := rfl
@[simp] theorem withFab_enr (u : Fabric → Fabric) : (withFab u s).enr = s.enr := rfl
@[simp] theorem withFab_cfc (u : Fabric → Fabric) : (withFab u s).cfc = s.cfc := rfl
@[simp] theorem withFab_mem (u : Fabric → Fabric) : (withFab u s).mem = s.mem := rfl
@[simp] theorem withFab_drm (u : Fabric → Fabric) : (withFab u s).drm = s.drm := rfl
@[simp] theorem withFab_ime (u : Fabric → Fabric) : (withFab u s).ime = s.ime := rfl
@[simp] theorem withFab_sec (u : Fabric → Fabric) : (withFab u s).sec = s.sec := rfl
@[simp] theorem withFab_clk (u : Fabric → Fabric) : (withFab u s).clk = s.clk := rfl
@[simp] theorem withFab_mod (u : Fabric → Fabric) : (withFab u s).mod = s.mod := rfl
@[simp] theorem withFab_thm (u : Fabric → Fabric) : (withFab u s).thm = s.thm := rfl
@[simp] theorem withFab_ecc (u : Fabric → Fabric) : (withFab u s).ecc = s.ecc := rfl
@[simp] theorem withFab_hst (u : Fabric → Fabric) : (withFab u s).hst = s.hst := rfl
@[simp] theorem withFab_time (u : Fabric → Fabric) : (withFab u s).time = s.time := rfl

@[simp] theorem withSlu_pending (u : Sluice → Sluice) : (withSlu u s).pending = s.pending := rfl
@[simp] theorem withSlu_free (u : Sluice → Sluice) : (withSlu u s).free = s.free := rfl
@[simp] theorem withSlu_outbox (u : Sluice → Sluice) : (withSlu u s).outbox = s.outbox := rfl
@[simp] theorem withSlu_regs (u : Sluice → Sluice) : (withSlu u s).regs = s.regs := rfl
@[simp] theorem withSlu_fab (u : Sluice → Sluice) : (withSlu u s).fab = s.fab := rfl
@[simp] theorem withSlu_slu (u : Sluice → Sluice) : (withSlu u s).slu = u s.slu := rfl
@[simp] theorem withSlu_lan (u : Sluice → Sluice) : (withSlu u s).lan = s.lan := rfl
@[simp] theorem withSlu_enr (u : Sluice → Sluice) : (withSlu u s).enr = s.enr := rfl
@[simp] theorem withSlu_cfc (u : Sluice → Sluice) : (withSlu u s).cfc = s.cfc := rfl
@[simp] theorem withSlu_mem (u : Sluice → Sluice) : (withSlu u s).mem = s.mem := rfl
@[simp] theorem withSlu_drm (u : Sluice → Sluice) : (withSlu u s).drm = s.drm := rfl
@[simp] theorem withSlu_ime (u : Sluice → Sluice) : (withSlu u s).ime = s.ime := rfl
@[simp] theorem withSlu_sec (u : Sluice → Sluice) : (withSlu u s).sec = s.sec := rfl
@[simp] theorem withSlu_clk (u : Sluice → Sluice) : (withSlu u s).clk = s.clk := rfl
@[simp] theorem withSlu_mod (u : Sluice → Sluice) : (withSlu u s).mod = s.mod := rfl
@[simp] theorem withSlu_thm (u : Sluice → Sluice) : (withSlu u s).thm = s.thm := rfl
@[simp] theorem withSlu_ecc (u : Sluice → Sluice) : (withSlu u s).ecc = s.ecc := rfl
@[simp] theorem withSlu_hst (u : Sluice → Sluice) : (withSlu u s).hst = s.hst := rfl
@[simp] theorem withSlu_time (u : Sluice → Sluice) : (withSlu u s).time = s.time := rfl

@[simp] theorem withLan_pending (u : Lanes → Lanes) : (withLan u s).pending = s.pending := rfl
@[simp] theorem withLan_free (u : Lanes → Lanes) : (withLan u s).free = s.free := rfl
@[simp] theorem withLan_outbox (u : Lanes → Lanes) : (withLan u s).outbox = s.outbox := rfl
@[simp] theorem withLan_regs (u : Lanes → Lanes) : (withLan u s).regs = s.regs := rfl
@[simp] theorem withLan_fab (u : Lanes → Lanes) : (withLan u s).fab = s.fab := rfl
@[simp] theorem withLan_slu (u : Lanes → Lanes) : (withLan u s).slu = s.slu := rfl
@[simp] theorem withLan_lan (u : Lanes → Lanes) : (withLan u s).lan = u s.lan := rfl
@[simp] theorem withLan_enr (u : Lanes → Lanes) : (withLan u s).enr = s.enr := rfl
@[simp] theorem withLan_cfc (u : Lanes → Lanes) : (withLan u s).cfc = s.cfc := rfl
@[simp] theorem withLan_mem (u : Lanes → Lanes) : (withLan u s).mem = s.mem := rfl
@[simp] theorem withLan_drm (u : Lanes → Lanes) : (withLan u s).drm = s.drm := rfl
@[simp] theorem withLan_ime (u : Lanes → Lanes) : (withLan u s).ime = s.ime := rfl
@[simp] theorem withLan_sec (u : Lanes → Lanes) : (withLan u s).sec = s.sec := rfl
@[simp] theorem withLan_clk (u : Lanes → Lanes) : (withLan u s).clk = s.clk := rfl
@[simp] theorem withLan_mod (u : Lanes → Lanes) : (withLan u s).mod = s.mod := rfl
@[simp] theorem withLan_thm (u : Lanes → Lanes) : (withLan u s).thm = s.thm := rfl
@[simp] theorem withLan_ecc (u : Lanes → Lanes) : (withLan u s).ecc = s.ecc := rfl
@[simp] theorem withLan_hst (u : Lanes → Lanes) : (withLan u s).hst = s.hst := rfl
@[simp] theorem withLan_time (u : Lanes → Lanes) : (withLan u s).time = s.time := rfl

@[simp] theorem withCfc_pending (u : Cfc → Cfc) : (withCfc u s).pending = s.pending := rfl
@[simp] theorem withCfc_free (u : Cfc → Cfc) : (withCfc u s).free = s.free := rfl
@[simp] theorem withCfc_outbox (u : Cfc → Cfc) : (withCfc u s).outbox = s.outbox := rfl
@[simp] theorem withCfc_regs (u : Cfc → Cfc) : (withCfc u s).regs = s.regs := rfl
@[simp] theorem withCfc_fab (u : Cfc → Cfc) : (withCfc u s).fab = s.fab := rfl
@[simp] theorem withCfc_slu (u : Cfc → Cfc) : (withCfc u s).slu = s.slu := rfl
@[simp] theorem withCfc_lan (u : Cfc → Cfc) : (withCfc u s).lan = s.lan := rfl
@[simp] theorem withCfc_enr (u : Cfc → Cfc) : (withCfc u s).enr = s.enr := rfl
@[simp] theorem withCfc_cfc (u : Cfc → Cfc) : (withCfc u s).cfc = u s.cfc := rfl
@[simp] theorem withCfc_mem (u : Cfc → Cfc) : (withCfc u s).mem = s.mem := rfl
@[simp] theorem withCfc_drm (u : Cfc → Cfc) : (withCfc u s).drm = s.drm := rfl
@[simp] theorem withCfc_ime (u : Cfc → Cfc) : (withCfc u s).ime = s.ime := rfl
@[simp] theorem withCfc_sec (u : Cfc → Cfc) : (withCfc u s).sec = s.sec := rfl
@[simp] theorem withCfc_clk (u : Cfc → Cfc) : (withCfc u s).clk = s.clk := rfl
@[simp] theorem withCfc_mod (u : Cfc → Cfc) : (withCfc u s).mod = s.mod := rfl
@[simp] theorem withCfc_thm (u : Cfc → Cfc) : (withCfc u s).thm = s.thm := rfl
@[simp] theorem withCfc_ecc (u : Cfc → Cfc) : (withCfc u s).ecc = s.ecc := rfl
@[simp] theorem withCfc_hst (u : Cfc → Cfc) : (withCfc u s).hst = s.hst := rfl
@[simp] theorem withCfc_time (u : Cfc → Cfc) : (withCfc u s).time = s.time := rfl

@[simp] theorem withDrm_pending (u : Dram → Dram) : (withDrm u s).pending = s.pending := rfl
@[simp] theorem withDrm_free (u : Dram → Dram) : (withDrm u s).free = s.free := rfl
@[simp] theorem withDrm_outbox (u : Dram → Dram) : (withDrm u s).outbox = s.outbox := rfl
@[simp] theorem withDrm_regs (u : Dram → Dram) : (withDrm u s).regs = s.regs := rfl
@[simp] theorem withDrm_fab (u : Dram → Dram) : (withDrm u s).fab = s.fab := rfl
@[simp] theorem withDrm_slu (u : Dram → Dram) : (withDrm u s).slu = s.slu := rfl
@[simp] theorem withDrm_lan (u : Dram → Dram) : (withDrm u s).lan = s.lan := rfl
@[simp] theorem withDrm_enr (u : Dram → Dram) : (withDrm u s).enr = s.enr := rfl
@[simp] theorem withDrm_cfc (u : Dram → Dram) : (withDrm u s).cfc = s.cfc := rfl
@[simp] theorem withDrm_mem (u : Dram → Dram) : (withDrm u s).mem = s.mem := rfl
@[simp] theorem withDrm_drm (u : Dram → Dram) : (withDrm u s).drm = u s.drm := rfl
@[simp] theorem withDrm_ime (u : Dram → Dram) : (withDrm u s).ime = s.ime := rfl
@[simp] theorem withDrm_sec (u : Dram → Dram) : (withDrm u s).sec = s.sec := rfl
@[simp] theorem withDrm_clk (u : Dram → Dram) : (withDrm u s).clk = s.clk := rfl
@[simp] theorem withDrm_mod (u : Dram → Dram) : (withDrm u s).mod = s.mod := rfl
@[simp] theorem withDrm_thm (u : Dram → Dram) : (withDrm u s).thm = s.thm := rfl
@[simp] theorem withDrm_ecc (u : Dram → Dram) : (withDrm u s).ecc = s.ecc := rfl
@[simp] theorem withDrm_hst (u : Dram → Dram) : (withDrm u s).hst = s.hst := rfl
@[simp] theorem withDrm_time (u : Dram → Dram) : (withDrm u s).time = s.time := rfl

@[simp] theorem withIme_pending (u : Ime → Ime) : (withIme u s).pending = s.pending := rfl
@[simp] theorem withIme_free (u : Ime → Ime) : (withIme u s).free = s.free := rfl
@[simp] theorem withIme_outbox (u : Ime → Ime) : (withIme u s).outbox = s.outbox := rfl
@[simp] theorem withIme_regs (u : Ime → Ime) : (withIme u s).regs = s.regs := rfl
@[simp] theorem withIme_fab (u : Ime → Ime) : (withIme u s).fab = s.fab := rfl
@[simp] theorem withIme_slu (u : Ime → Ime) : (withIme u s).slu = s.slu := rfl
@[simp] theorem withIme_lan (u : Ime → Ime) : (withIme u s).lan = s.lan := rfl
@[simp] theorem withIme_enr (u : Ime → Ime) : (withIme u s).enr = s.enr := rfl
@[simp] theorem withIme_cfc (u : Ime → Ime) : (withIme u s).cfc = s.cfc := rfl
@[simp] theorem withIme_mem (u : Ime → Ime) : (withIme u s).mem = s.mem := rfl
@[simp] theorem withIme_drm (u : Ime → Ime) : (withIme u s).drm = s.drm := rfl
@[simp] theorem withIme_ime (u : Ime → Ime) : (withIme u s).ime = u s.ime := rfl
@[simp] theorem withIme_sec (u : Ime → Ime) : (withIme u s).sec = s.sec := rfl
@[simp] theorem withIme_clk (u : Ime → Ime) : (withIme u s).clk = s.clk := rfl
@[simp] theorem withIme_mod (u : Ime → Ime) : (withIme u s).mod = s.mod := rfl
@[simp] theorem withIme_thm (u : Ime → Ime) : (withIme u s).thm = s.thm := rfl
@[simp] theorem withIme_ecc (u : Ime → Ime) : (withIme u s).ecc = s.ecc := rfl
@[simp] theorem withIme_hst (u : Ime → Ime) : (withIme u s).hst = s.hst := rfl
@[simp] theorem withIme_time (u : Ime → Ime) : (withIme u s).time = s.time := rfl

@[simp] theorem withSec_pending (u : Sec → Sec) : (withSec u s).pending = s.pending := rfl
@[simp] theorem withSec_free (u : Sec → Sec) : (withSec u s).free = s.free := rfl
@[simp] theorem withSec_outbox (u : Sec → Sec) : (withSec u s).outbox = s.outbox := rfl
@[simp] theorem withSec_regs (u : Sec → Sec) : (withSec u s).regs = s.regs := rfl
@[simp] theorem withSec_fab (u : Sec → Sec) : (withSec u s).fab = s.fab := rfl
@[simp] theorem withSec_slu (u : Sec → Sec) : (withSec u s).slu = s.slu := rfl
@[simp] theorem withSec_lan (u : Sec → Sec) : (withSec u s).lan = s.lan := rfl
@[simp] theorem withSec_enr (u : Sec → Sec) : (withSec u s).enr = s.enr := rfl
@[simp] theorem withSec_cfc (u : Sec → Sec) : (withSec u s).cfc = s.cfc := rfl
@[simp] theorem withSec_mem (u : Sec → Sec) : (withSec u s).mem = s.mem := rfl
@[simp] theorem withSec_drm (u : Sec → Sec) : (withSec u s).drm = s.drm := rfl
@[simp] theorem withSec_ime (u : Sec → Sec) : (withSec u s).ime = s.ime := rfl
@[simp] theorem withSec_sec (u : Sec → Sec) : (withSec u s).sec = u s.sec := rfl
@[simp] theorem withSec_clk (u : Sec → Sec) : (withSec u s).clk = s.clk := rfl
@[simp] theorem withSec_mod (u : Sec → Sec) : (withSec u s).mod = s.mod := rfl
@[simp] theorem withSec_thm (u : Sec → Sec) : (withSec u s).thm = s.thm := rfl
@[simp] theorem withSec_ecc (u : Sec → Sec) : (withSec u s).ecc = s.ecc := rfl
@[simp] theorem withSec_hst (u : Sec → Sec) : (withSec u s).hst = s.hst := rfl
@[simp] theorem withSec_time (u : Sec → Sec) : (withSec u s).time = s.time := rfl

@[simp] theorem withClk_pending (u : Clk → Clk) : (withClk u s).pending = s.pending := rfl
@[simp] theorem withClk_free (u : Clk → Clk) : (withClk u s).free = s.free := rfl
@[simp] theorem withClk_outbox (u : Clk → Clk) : (withClk u s).outbox = s.outbox := rfl
@[simp] theorem withClk_regs (u : Clk → Clk) : (withClk u s).regs = s.regs := rfl
@[simp] theorem withClk_fab (u : Clk → Clk) : (withClk u s).fab = s.fab := rfl
@[simp] theorem withClk_slu (u : Clk → Clk) : (withClk u s).slu = s.slu := rfl
@[simp] theorem withClk_lan (u : Clk → Clk) : (withClk u s).lan = s.lan := rfl
@[simp] theorem withClk_enr (u : Clk → Clk) : (withClk u s).enr = s.enr := rfl
@[simp] theorem withClk_cfc (u : Clk → Clk) : (withClk u s).cfc = s.cfc := rfl
@[simp] theorem withClk_mem (u : Clk → Clk) : (withClk u s).mem = s.mem := rfl
@[simp] theorem withClk_drm (u : Clk → Clk) : (withClk u s).drm = s.drm := rfl
@[simp] theorem withClk_ime (u : Clk → Clk) : (withClk u s).ime = s.ime := rfl
@[simp] theorem withClk_sec (u : Clk → Clk) : (withClk u s).sec = s.sec := rfl
@[simp] theorem withClk_clk (u : Clk → Clk) : (withClk u s).clk = u s.clk := rfl
@[simp] theorem withClk_mod (u : Clk → Clk) : (withClk u s).mod = s.mod := rfl
@[simp] theorem withClk_thm (u : Clk → Clk) : (withClk u s).thm = s.thm := rfl
@[simp] theorem withClk_ecc (u : Clk → Clk) : (withClk u s).ecc = s.ecc := rfl
@[simp] theorem withClk_hst (u : Clk → Clk) : (withClk u s).hst = s.hst := rfl
@[simp] theorem withClk_time (u : Clk → Clk) : (withClk u s).time = s.time := rfl

@[simp] theorem withMod_pending (u : Modes → Modes) : (withMod u s).pending = s.pending := rfl
@[simp] theorem withMod_free (u : Modes → Modes) : (withMod u s).free = s.free := rfl
@[simp] theorem withMod_outbox (u : Modes → Modes) : (withMod u s).outbox = s.outbox := rfl
@[simp] theorem withMod_regs (u : Modes → Modes) : (withMod u s).regs = s.regs := rfl
@[simp] theorem withMod_fab (u : Modes → Modes) : (withMod u s).fab = s.fab := rfl
@[simp] theorem withMod_slu (u : Modes → Modes) : (withMod u s).slu = s.slu := rfl
@[simp] theorem withMod_lan (u : Modes → Modes) : (withMod u s).lan = s.lan := rfl
@[simp] theorem withMod_enr (u : Modes → Modes) : (withMod u s).enr = s.enr := rfl
@[simp] theorem withMod_cfc (u : Modes → Modes) : (withMod u s).cfc = s.cfc := rfl
@[simp] theorem withMod_mem (u : Modes → Modes) : (withMod u s).mem = s.mem := rfl
@[simp] theorem withMod_drm (u : Modes → Modes) : (withMod u s).drm = s.drm := rfl
@[simp] theorem withMod_ime (u : Modes → Modes) : (withMod u s).ime = s.ime := rfl
@[simp] theorem withMod_sec (u : Modes → Modes) : (withMod u s).sec = s.sec := rfl
@[simp] theorem withMod_clk (u : Modes → Modes) : (withMod u s).clk = s.clk := rfl
@[simp] theorem withMod_mod (u : Modes → Modes) : (withMod u s).mod = u s.mod := rfl
@[simp] theorem withMod_thm (u : Modes → Modes) : (withMod u s).thm = s.thm := rfl
@[simp] theorem withMod_ecc (u : Modes → Modes) : (withMod u s).ecc = s.ecc := rfl
@[simp] theorem withMod_hst (u : Modes → Modes) : (withMod u s).hst = s.hst := rfl
@[simp] theorem withMod_time (u : Modes → Modes) : (withMod u s).time = s.time := rfl

@[simp] theorem withThm_pending (u : Thm → Thm) : (withThm u s).pending = s.pending := rfl
@[simp] theorem withThm_free (u : Thm → Thm) : (withThm u s).free = s.free := rfl
@[simp] theorem withThm_outbox (u : Thm → Thm) : (withThm u s).outbox = s.outbox := rfl
@[simp] theorem withThm_regs (u : Thm → Thm) : (withThm u s).regs = s.regs := rfl
@[simp] theorem withThm_fab (u : Thm → Thm) : (withThm u s).fab = s.fab := rfl
@[simp] theorem withThm_slu (u : Thm → Thm) : (withThm u s).slu = s.slu := rfl
@[simp] theorem withThm_lan (u : Thm → Thm) : (withThm u s).lan = s.lan := rfl
@[simp] theorem withThm_enr (u : Thm → Thm) : (withThm u s).enr = s.enr := rfl
@[simp] theorem withThm_cfc (u : Thm → Thm) : (withThm u s).cfc = s.cfc := rfl
@[simp] theorem withThm_mem (u : Thm → Thm) : (withThm u s).mem = s.mem := rfl
@[simp] theorem withThm_drm (u : Thm → Thm) : (withThm u s).drm = s.drm := rfl
@[simp] theorem withThm_ime (u : Thm → Thm) : (withThm u s).ime = s.ime := rfl
@[simp] theorem withThm_sec (u : Thm → Thm) : (withThm u s).sec = s.sec := rfl
@[simp] theorem withThm_clk (u : Thm → Thm) : (withThm u s).clk = s.clk := rfl
@[simp] theorem withThm_mod (u : Thm → Thm) : (withThm u s).mod = s.mod := rfl
@[simp] theorem withThm_thm (u : Thm → Thm) : (withThm u s).thm = u s.thm := rfl
@[simp] theorem withThm_ecc (u : Thm → Thm) : (withThm u s).ecc = s.ecc := rfl
@[simp] theorem withThm_hst (u : Thm → Thm) : (withThm u s).hst = s.hst := rfl
@[simp] theorem withThm_time (u : Thm → Thm) : (withThm u s).time = s.time := rfl

@[simp] theorem withEcc_pending (u : Ecc → Ecc) : (withEcc u s).pending = s.pending := rfl
@[simp] theorem withEcc_free (u : Ecc → Ecc) : (withEcc u s).free = s.free := rfl
@[simp] theorem withEcc_outbox (u : Ecc → Ecc) : (withEcc u s).outbox = s.outbox := rfl
@[simp] theorem withEcc_regs (u : Ecc → Ecc) : (withEcc u s).regs = s.regs := rfl
@[simp] theorem withEcc_fab (u : Ecc → Ecc) : (withEcc u s).fab = s.fab := rfl
@[simp] theorem withEcc_slu (u : Ecc → Ecc) : (withEcc u s).slu = s.slu := rfl
@[simp] theorem withEcc_lan (u : Ecc → Ecc) : (withEcc u s).lan = s.lan := rfl
@[simp] theorem withEcc_enr (u : Ecc → Ecc) : (withEcc u s).enr = s.enr := rfl
@[simp] theorem withEcc_cfc (u : Ecc → Ecc) : (withEcc u s).cfc = s.cfc := rfl
@[simp] theorem withEcc_mem (u : Ecc → Ecc) : (withEcc u s).mem = s.mem := rfl
@[simp] theorem withEcc_drm (u : Ecc → Ecc) : (withEcc u s).drm = s.drm := rfl
@[simp] theorem withEcc_ime (u : Ecc → Ecc) : (withEcc u s).ime = s.ime := rfl
@[simp] theorem withEcc_sec (u : Ecc → Ecc) : (withEcc u s).sec = s.sec := rfl
@[simp] theorem withEcc_clk (u : Ecc → Ecc) : (withEcc u s).clk = s.clk := rfl
@[simp] theorem withEcc_mod (u : Ecc → Ecc) : (withEcc u s).mod = s.mod := rfl
@[simp] theorem withEcc_thm (u : Ecc → Ecc) : (withEcc u s).thm = s.thm := rfl
@[simp] theorem withEcc_ecc (u : Ecc → Ecc) : (withEcc u s).ecc = u s.ecc := rfl
@[simp] theorem withEcc_hst (u : Ecc → Ecc) : (withEcc u s).hst = s.hst := rfl
@[simp] theorem withEcc_time (u : Ecc → Ecc) : (withEcc u s).time = s.time := rfl

@[simp] theorem withHst_pending (u : HostIf → HostIf) : (withHst u s).pending = s.pending := rfl
@[simp] theorem withHst_free (u : HostIf → HostIf) : (withHst u s).free = s.free := rfl
@[simp] theorem withHst_outbox (u : HostIf → HostIf) : (withHst u s).outbox = s.outbox := rfl
@[simp] theorem withHst_regs (u : HostIf → HostIf) : (withHst u s).regs = s.regs := rfl
@[simp] theorem withHst_fab (u : HostIf → HostIf) : (withHst u s).fab = s.fab := rfl
@[simp] theorem withHst_slu (u : HostIf → HostIf) : (withHst u s).slu = s.slu := rfl
@[simp] theorem withHst_lan (u : HostIf → HostIf) : (withHst u s).lan = s.lan := rfl
@[simp] theorem withHst_enr (u : HostIf → HostIf) : (withHst u s).enr = s.enr := rfl
@[simp] theorem withHst_cfc (u : HostIf → HostIf) : (withHst u s).cfc = s.cfc := rfl
@[simp] theorem withHst_mem (u : HostIf → HostIf) : (withHst u s).mem = s.mem := rfl
@[simp] theorem withHst_drm (u : HostIf → HostIf) : (withHst u s).drm = s.drm := rfl
@[simp] theorem withHst_ime (u : HostIf → HostIf) : (withHst u s).ime = s.ime := rfl
@[simp] theorem withHst_sec (u : HostIf → HostIf) : (withHst u s).sec = s.sec := rfl
@[simp] theorem withHst_clk (u : HostIf → HostIf) : (withHst u s).clk = s.clk := rfl
@[simp] theorem withHst_mod (u : HostIf → HostIf) : (withHst u s).mod = s.mod := rfl
@[simp] theorem withHst_thm (u : HostIf → HostIf) : (withHst u s).thm = s.thm := rfl
@[simp] theorem withHst_ecc (u : HostIf → HostIf) : (withHst u s).ecc = s.ecc := rfl
@[simp] theorem withHst_hst (u : HostIf → HostIf) : (withHst u s).hst = u s.hst := rfl
@[simp] theorem withHst_time (u : HostIf → HostIf) : (withHst u s).time = s.time := rfl

@[simp] theorem takeFree_pending (w : Nat) : (takeFree w s).2.pending = s.pending := rfl
@[simp] theorem takeFree_outbox (w : Nat) : (takeFree w s).2.outbox = s.outbox := rfl
@[simp] theorem takeFree_regs (w : Nat) : (takeFree w s).2.regs = s.regs := rfl
@[simp] theorem takeFree_fab (w : Nat) : (takeFree w s).2.fab = s.fab := rfl
@[simp] theorem takeFree_slu (w : Nat) : (takeFree w s).2.slu = s.slu := rfl
@[simp] theorem takeFree_lan (w : Nat) : (takeFree w s).2.lan = s.lan := rfl
@[simp] theorem takeFree_enr (w : Nat) : (takeFree w s).2.enr = s.enr := rfl
@[simp] theorem takeFree_cfc (w : Nat) : (takeFree w s).2.cfc = s.cfc := rfl
@[simp] theorem takeFree_mem (w : Nat) : (takeFree w s).2.mem = s.mem := rfl
@[simp] theorem takeFree_drm (w : Nat) : (takeFree w s).2.drm = s.drm := rfl
@[simp] theorem takeFree_ime (w : Nat) : (takeFree w s).2.ime = s.ime := rfl
@[simp] theorem takeFree_sec (w : Nat) : (takeFree w s).2.sec = s.sec := rfl
@[simp] theorem takeFree_clk (w : Nat) : (takeFree w s).2.clk = s.clk := rfl
@[simp] theorem takeFree_mod (w : Nat) : (takeFree w s).2.mod = s.mod := rfl
@[simp] theorem takeFree_thm (w : Nat) : (takeFree w s).2.thm = s.thm := rfl
@[simp] theorem takeFree_ecc (w : Nat) : (takeFree w s).2.ecc = s.ecc := rfl
@[simp] theorem takeFree_hst (w : Nat) : (takeFree w s).2.hst = s.hst := rfl
@[simp] theorem takeFree_time (w : Nat) : (takeFree w s).2.time = s.time := rfl
@[simp] theorem takeFree_free (w : Nat) : (takeFree w s).2.free = s.free + 1 := rfl

-- An interrupt bit changes IRQ_STAT, and may send or hold back a message.

@[simp] theorem sendVector_pending (v : Nat) : (sendVector v s).pending = s.pending := by unfold sendVector; split <;> rfl
@[simp] theorem risen_pending (v : Nat) (t : State) : (risen v s t).pending = t.pending := by unfold risen; split <;> simp
@[simp] theorem setIrq_pending (p b : Nat) : (setIrq p b s).pending = s.pending := by simp [setIrq]
@[simp] theorem sendVector_free (v : Nat) : (sendVector v s).free = s.free := by unfold sendVector; split <;> rfl
@[simp] theorem risen_free (v : Nat) (t : State) : (risen v s t).free = t.free := by unfold risen; split <;> simp
@[simp] theorem setIrq_free (p b : Nat) : (setIrq p b s).free = s.free := by simp [setIrq]
@[simp] theorem sendVector_fab (v : Nat) : (sendVector v s).fab = s.fab := by unfold sendVector; split <;> rfl
@[simp] theorem risen_fab (v : Nat) (t : State) : (risen v s t).fab = t.fab := by unfold risen; split <;> simp
@[simp] theorem setIrq_fab (p b : Nat) : (setIrq p b s).fab = s.fab := by simp [setIrq]
@[simp] theorem sendVector_slu (v : Nat) : (sendVector v s).slu = s.slu := by unfold sendVector; split <;> rfl
@[simp] theorem risen_slu (v : Nat) (t : State) : (risen v s t).slu = t.slu := by unfold risen; split <;> simp
@[simp] theorem setIrq_slu (p b : Nat) : (setIrq p b s).slu = s.slu := by simp [setIrq]
@[simp] theorem sendVector_lan (v : Nat) : (sendVector v s).lan = s.lan := by unfold sendVector; split <;> rfl
@[simp] theorem risen_lan (v : Nat) (t : State) : (risen v s t).lan = t.lan := by unfold risen; split <;> simp
@[simp] theorem setIrq_lan (p b : Nat) : (setIrq p b s).lan = s.lan := by simp [setIrq]
@[simp] theorem sendVector_enr (v : Nat) : (sendVector v s).enr = s.enr := by unfold sendVector; split <;> rfl
@[simp] theorem risen_enr (v : Nat) (t : State) : (risen v s t).enr = t.enr := by unfold risen; split <;> simp
@[simp] theorem setIrq_enr (p b : Nat) : (setIrq p b s).enr = s.enr := by simp [setIrq]
@[simp] theorem sendVector_cfc (v : Nat) : (sendVector v s).cfc = s.cfc := by unfold sendVector; split <;> rfl
@[simp] theorem risen_cfc (v : Nat) (t : State) : (risen v s t).cfc = t.cfc := by unfold risen; split <;> simp
@[simp] theorem setIrq_cfc (p b : Nat) : (setIrq p b s).cfc = s.cfc := by simp [setIrq]
@[simp] theorem sendVector_mem (v : Nat) : (sendVector v s).mem = s.mem := by unfold sendVector; split <;> rfl
@[simp] theorem risen_mem (v : Nat) (t : State) : (risen v s t).mem = t.mem := by unfold risen; split <;> simp
@[simp] theorem setIrq_mem (p b : Nat) : (setIrq p b s).mem = s.mem := by simp [setIrq]
@[simp] theorem sendVector_drm (v : Nat) : (sendVector v s).drm = s.drm := by unfold sendVector; split <;> rfl
@[simp] theorem risen_drm (v : Nat) (t : State) : (risen v s t).drm = t.drm := by unfold risen; split <;> simp
@[simp] theorem setIrq_drm (p b : Nat) : (setIrq p b s).drm = s.drm := by simp [setIrq]
@[simp] theorem sendVector_ime (v : Nat) : (sendVector v s).ime = s.ime := by unfold sendVector; split <;> rfl
@[simp] theorem risen_ime (v : Nat) (t : State) : (risen v s t).ime = t.ime := by unfold risen; split <;> simp
@[simp] theorem setIrq_ime (p b : Nat) : (setIrq p b s).ime = s.ime := by simp [setIrq]
@[simp] theorem sendVector_sec (v : Nat) : (sendVector v s).sec = s.sec := by unfold sendVector; split <;> rfl
@[simp] theorem risen_sec (v : Nat) (t : State) : (risen v s t).sec = t.sec := by unfold risen; split <;> simp
@[simp] theorem setIrq_sec (p b : Nat) : (setIrq p b s).sec = s.sec := by simp [setIrq]
@[simp] theorem sendVector_clk (v : Nat) : (sendVector v s).clk = s.clk := by unfold sendVector; split <;> rfl
@[simp] theorem risen_clk (v : Nat) (t : State) : (risen v s t).clk = t.clk := by unfold risen; split <;> simp
@[simp] theorem setIrq_clk (p b : Nat) : (setIrq p b s).clk = s.clk := by simp [setIrq]
@[simp] theorem sendVector_mod (v : Nat) : (sendVector v s).mod = s.mod := by unfold sendVector; split <;> rfl
@[simp] theorem risen_mod (v : Nat) (t : State) : (risen v s t).mod = t.mod := by unfold risen; split <;> simp
@[simp] theorem setIrq_mod (p b : Nat) : (setIrq p b s).mod = s.mod := by simp [setIrq]
@[simp] theorem sendVector_thm (v : Nat) : (sendVector v s).thm = s.thm := by unfold sendVector; split <;> rfl
@[simp] theorem risen_thm (v : Nat) (t : State) : (risen v s t).thm = t.thm := by unfold risen; split <;> simp
@[simp] theorem setIrq_thm (p b : Nat) : (setIrq p b s).thm = s.thm := by simp [setIrq]
@[simp] theorem sendVector_ecc (v : Nat) : (sendVector v s).ecc = s.ecc := by unfold sendVector; split <;> rfl
@[simp] theorem risen_ecc (v : Nat) (t : State) : (risen v s t).ecc = t.ecc := by unfold risen; split <;> simp
@[simp] theorem setIrq_ecc (p b : Nat) : (setIrq p b s).ecc = s.ecc := by simp [setIrq]
@[simp] theorem sendVector_time (v : Nat) : (sendVector v s).time = s.time := by unfold sendVector; split <;> rfl
@[simp] theorem risen_time (v : Nat) (t : State) : (risen v s t).time = t.time := by unfold risen; split <;> simp
@[simp] theorem setIrq_time (p b : Nat) : (setIrq p b s).time = s.time := by simp [setIrq]
@[simp] theorem sendVector_regs (v : Nat) : (sendVector v s).regs = s.regs := by unfold sendVector; split <;> rfl
@[simp] theorem risen_regs (v : Nat) (t : State) : (risen v s t).regs = t.regs := by unfold risen; split <;> simp
@[simp] theorem setIrq_regs (p b : Nat) : (setIrq p b s).regs = (wrF (irqA p) b 1 1 s).regs := by simp [setIrq]

end Sys2Proof.Machine
end

