-- ==== Sys2Proof/Laws/Tab.lean ====
section
/-! SUPPORT. What the operations of sparse tables do: reads after writes, and the canonical form. -/

namespace Sys2Proof.Machine

variable {α : Type}

theorem tget_terase_same (d : α) (k : Nat) (t : Tab α) : tget d k (terase k t) = d := by
  induction t with
  | nil => rfl
  | cons p t ih =>
    obtain ⟨j, w⟩ := p
    by_cases h : k = j
    · simp [terase, h] at ih ⊢; exact ih
    · simp [terase, tget, h, ih]

theorem tget_terase_other (d : α) {k i : Nat} (h : i ≠ k) (t : Tab α) : tget d i (terase k t) = tget d i t := by
  induction t with
  | nil => rfl
  | cons p t ih =>
    obtain ⟨j, w⟩ := p
    by_cases hk : k = j
    · subst hk; simp [terase, tget, h, ih]
    · simp [terase, tget, hk, ih]

theorem tget_tins_same (d : α) (k : Nat) (v : α) (t : Tab α) (h : ∀ p ∈ t, p.1 ≠ k) : tget d k (tins k v t) = v := by
  induction t with
  | nil => simp [tins, tget]
  | cons p t ih =>
    obtain ⟨j, w⟩ := p
    have hj : k ≠ j := fun e => h (j, w) (by simp) e.symm
    have ht := ih fun q hq => h q (by simp [hq])
    by_cases hk : k < j <;> simp [tins, tget, hk, hj, ht]

theorem tget_tins_other (d : α) {k i : Nat} (h : i ≠ k) (v : α) (t : Tab α) : tget d i (tins k v t) = tget d i t := by
  induction t with
  | nil => simp [tins, tget, h]
  | cons p t ih =>
    obtain ⟨j, w⟩ := p
    by_cases hk : k < j <;> simp [tins, tget, hk, h, ih]

theorem not_mem_terase (k : Nat) (t : Tab α) : ∀ p ∈ terase k t, p.1 ≠ k := by
  induction t with
  | nil => simp [terase]
  | cons p t ih =>
    obtain ⟨j, w⟩ := p
    by_cases hk : k = j
    · subst hk; simpa [terase] using ih
    · intro q hq
      simp [terase, hk] at hq
      rcases hq with rfl | hq
      · exact fun e => hk e.symm
      · exact ih q hq

variable [DecidableEq α]

/-- A read after a write to the same key gives the value written. -/
@[simp] theorem tget_tput_same (d : α) (k : Nat) (v : α) (t : Tab α) : tget d k (tput d k v t) = v := by
  unfold tput
  split
  · next h => rw [tget_terase_same, h]
  · exact tget_tins_same d k v _ (not_mem_terase k t)

/-- A write leaves every other key alone. -/
theorem tget_tput_other (d d' : α) {k i : Nat} (h : i ≠ k) (v : α) (t : Tab α) : tget d' i (tput d k v t) = tget d' i t := by
  unfold tput
  split
  · exact tget_terase_other d' h t
  · rw [tget_tins_other d' h, tget_terase_other d' h]

theorem tget_tput (d : α) (k i : Nat) (v : α) (t : Tab α) : tget d i (tput d k v t) = if i = k then v else tget d i t := by
  split
  · next h => subst h; exact tget_tput_same d i v t
  · next h => exact tget_tput_other d d h v t

omit [DecidableEq α] in
theorem mem_terase {k : Nat} {t : Tab α} {p : Nat × α} (h : p ∈ terase k t) : p ∈ t := by
  induction t with
  | nil => simp [terase] at h
  | cons q t ih =>
    obtain ⟨j, w⟩ := q
    by_cases hk : k = j
    · simp [terase, hk] at h; exact List.mem_cons_of_mem _ (ih (hk ▸ h))
    · simp [terase, hk] at h
      rcases h with rfl | h
      · simp
      · exact List.mem_cons_of_mem _ (ih h)

omit [DecidableEq α] in
theorem tsorted_terase (k : Nat) (t : Tab α) (h : tsorted t = true) : tsorted (terase k t) = true := by
  induction t with
  | nil => rfl
  | cons q t ih =>
    obtain ⟨j, w⟩ := q
    simp [tsorted] at h
    by_cases hk : k = j
    · simp [terase, hk]; exact hk ▸ ih h.2
    · simp only [terase, hk, if_false, tsorted, Bool.and_eq_true, List.all_eq_true, decide_eq_true_eq]
      exact ⟨fun p hp => h.1 p.1 p.2 (mem_terase hp), ih h.2⟩

omit [DecidableEq α] in
theorem mem_tins {k : Nat} {v : α} {t : Tab α} {p : Nat × α} (h : p ∈ tins k v t) : p = (k, v) ∨ p ∈ t := by
  induction t with
  | nil => simp [tins] at h; exact .inl h
  | cons q t ih =>
    obtain ⟨j, w⟩ := q
    by_cases hk : k < j
    · simp [tins, hk] at h; rcases h with h | h | h <;> simp [h]
    · simp [tins, hk] at h
      rcases h with rfl | h
      · simp
      · rcases ih h with h | h <;> simp [h]

omit [DecidableEq α] in
theorem tsorted_tins (k : Nat) (v : α) (t : Tab α) (h : tsorted t = true) (hk : ∀ p ∈ t, p.1 ≠ k) :
    tsorted (tins k v t) = true := by
  induction t with
  | nil => rfl
  | cons q t ih =>
    obtain ⟨j, w⟩ := q
    simp only [tsorted, Bool.and_eq_true, List.all_eq_true, decide_eq_true_eq] at h
    by_cases hj : k < j
    · simp only [tins, hj, if_true, tsorted, Bool.and_eq_true, List.all_eq_true, decide_eq_true_eq]
      refine ⟨fun p hp => ?_, h⟩
      rcases List.mem_cons.1 hp with rfl | hp
      · exact hj
      · exact hj.trans (h.1 p hp)
    · have hne : j ≠ k := hk (j, w) (by simp)
      simp only [tins, hj, if_false, tsorted, Bool.and_eq_true, List.all_eq_true, decide_eq_true_eq]
      refine ⟨fun p hp => ?_, ih h.2 fun p hp => hk p (by simp [hp])⟩
      rcases mem_tins hp with rfl | hp
      · show j < k; omega
      · exact h.1 p hp

/-- A write keeps the canonical form. -/
theorem twf_tput (d : α) (k : Nat) (v : α) (t : Tab α) (h : twf d t = true) : twf d (tput d k v t) = true := by
  simp only [twf, Bool.and_eq_true, List.all_eq_true, decide_eq_true_eq] at h ⊢
  unfold tput
  split
  · exact ⟨tsorted_terase k t h.1, fun p hp => h.2 p (mem_terase hp)⟩
  · next hv =>
    refine ⟨tsorted_tins k v _ (tsorted_terase k t h.1) (not_mem_terase k t), fun p hp => ?_⟩
    rcases mem_tins hp with rfl | hp
    · exact hv
    · exact h.2 p (mem_terase hp)

omit [DecidableEq α] in
theorem tsorted_filter (f : Nat × α → Bool) (t : Tab α) (h : tsorted t = true) : tsorted (t.filter f) = true := by
  induction t with
  | nil => rfl
  | cons q t ih =>
    obtain ⟨j, w⟩ := q
    simp only [tsorted, Bool.and_eq_true, List.all_eq_true, decide_eq_true_eq] at h
    by_cases hf : f (j, w)
    · simp only [List.filter_cons, hf, if_true, tsorted, Bool.and_eq_true, List.all_eq_true, decide_eq_true_eq]
      exact ⟨fun p hp => h.1 p (List.mem_of_mem_filter hp), ih h.2⟩
    · simpa [List.filter_cons, hf] using ih h.2

/-- Leaving entries out keeps the canonical form. -/
theorem twf_filter (d : α) (f : Nat × α → Bool) (t : Tab α) (h : twf d t = true) : twf d (t.filter f) = true := by
  simp only [twf, Bool.and_eq_true, List.all_eq_true, decide_eq_true_eq] at h ⊢
  exact ⟨tsorted_filter f t h.1, fun p hp => h.2 p (List.mem_of_mem_filter hp)⟩

/-- Clearing a range of keys keeps the canonical form. -/
theorem twf_tclear (d : α) (lo hi : Nat) (t : Tab α) (h : twf d t = true) : twf d (tclear lo hi t) = true :=
  twf_filter d _ t h

omit [DecidableEq α] in
/-- A read after a filter over keys. -/
theorem tget_filter (d : α) (f : Nat → Bool) (k : Nat) (t : Tab α) :
    tget d k (t.filter fun p => f p.1) = if f k then tget d k t else d := by
  induction t with
  | nil => simp [tget]
  | cons q t ih =>
    obtain ⟨j, w⟩ := q
    cases hf : f j
    · rw [List.filter_cons_of_neg (by simp [hf]), ih]
      by_cases hk : k = j
      · subst hk; simp [hf]
      · simp [tget, hk]
    · rw [List.filter_cons_of_pos (by simp [hf])]
      by_cases hk : k = j
      · subst hk; simp [tget, hf]
      · simp only [tget, hk, if_false, ih]

/-- A read after many writes, all of which give key `k` the same value. -/
theorem tget_foldl_tput {β : Type} (d : α) (k : Nat) (v : α) (key : β → Nat) (val : β → α) (l : List β) (t : Tab α)
    (h : ∀ q ∈ l, key q = k → val q = v) (hk : (∃ q ∈ l, key q = k) ∨ tget d k t = v) :
    tget d k (l.foldl (fun m q => tput d (key q) (val q) m) t) = v := by
  induction l generalizing t with
  | nil => simpa using hk
  | cons q l ih =>
    refine ih _ (fun r hr => h r (by simp [hr])) ?_
    by_cases hq : key q = k
    · right; show tget d k (tput d (key q) (val q) t) = v
      rw [hq, tget_tput_same]; exact h q (by simp) hq
    · rcases hk with ⟨r, hr, e⟩ | hk
      · rcases List.mem_cons.1 hr with rfl | hr
        · exact absurd e hq
        · exact .inl ⟨r, hr, e⟩
      · right; show tget d k (tput d (key q) (val q) t) = v
        rw [tget_tput_other _ _ (fun e => hq e.symm), hk]

@[simp] theorem twf_nil (d : α) : twf d ([] : Tab α) = true := rfl

end Sys2Proof.Machine
end

