-- ==== Sys2Proof/Laws/Registers.lean ====
section
/-! SUPPORT. Reading registers after the shared operations. -/

namespace Sys2Proof.Machine

variable (s : State)

/-- A register reads as it was written. -/
@[simp] theorem rd_wr_same (a : Nat) (v : Reg) : rd (wr a v s) a = v := by simp [rd, wr]

/-- A write leaves every other register alone. -/
theorem rd_wr_other {a b : Nat} (h : b ≠ a) (v : Reg) : rd (wr a v s) b = rd s b := by simp [rd, wr, tget_tput_other _ _ h]

theorem rd_wr (a b : Nat) (v : Reg) : rd (wr a v s) b = if b = a then v else rd s b := by
  split
  · next h => subst h; simp
  · next h => exact rd_wr_other s h v

/-- What a register holds depends on the register file alone. -/
theorem rd_congr {s t : State} (h : s.regs = t.regs) (a : Nat) : rd s a = rd t a := by simp [rd, h]

theorem rd_wrF_same (a lo n x : Nat) : rd (wrF a lo n x s) a = setFld (rd s a) lo n x := by simp [wrF]

theorem rd_wrF_other {a b : Nat} (h : b ≠ a) (lo n x : Nat) : rd (wrF a lo n x s) b = rd s b := rd_wr_other s h _

/-- A register field reads as it was written. -/
theorem rdF_wrF_same (a lo n x : Nat) (h : lo + n ≤ 32) : rdF (wrF a lo n x s) a lo n = x % 2 ^ n := by
  simp [rdF, rd_wrF_same, fld_setFld_same _ _ _ _ h]

/-- A field apart from the one written reads as before. -/
theorem rdF_wrF_other (a lo n x lo' n' : Nat) (h : lo + n ≤ 32) (hd : lo' + n' ≤ lo ∨ lo + n ≤ lo') :
    rdF (wrF a lo n x s) a lo' n' = rdF s a lo' n' := by
  simp [rdF, rd_wrF_same, fld_setFld_other _ _ _ _ _ _ h hd]

theorem rdB_wrF_same (a lo n x i : Nat) (h : lo + n ≤ 32) (hi : lo ≤ i ∧ i < lo + n) :
    rdB (wrF a lo n x s) a i = x.testBit (i - lo) := by
  simp [rdB, rd_wrF_same, bit_setFld_same _ _ _ _ _ h hi]

theorem rdB_wrF_other (a lo n x i : Nat) (h : lo + n ≤ 32) (hi : i < lo ∨ lo + n ≤ i) :
    rdB (wrF a lo n x s) a i = rdB s a i := by
  simp [rdB, rd_wrF_same, bit_setFld_other _ _ _ _ _ h hi]

@[simp] theorem rd_send (o : Out) (a : Nat) : rd (send o s) a = rd s a := rfl
@[simp] theorem rd_withFab (u : Fabric → Fabric) (a : Nat) : rd (withFab u s) a = rd s a := rfl
@[simp] theorem rd_withSlu (u : Sluice → Sluice) (a : Nat) : rd (withSlu u s) a = rd s a := rfl
@[simp] theorem rd_withLan (u : Lanes → Lanes) (a : Nat) : rd (withLan u s) a = rd s a := rfl
@[simp] theorem rd_withCfc (u : Cfc → Cfc) (a : Nat) : rd (withCfc u s) a = rd s a := rfl
@[simp] theorem rd_withDrm (u : Dram → Dram) (a : Nat) : rd (withDrm u s) a = rd s a := rfl
@[simp] theorem rd_withIme (u : Ime → Ime) (a : Nat) : rd (withIme u s) a = rd s a := rfl
@[simp] theorem rd_withSec (u : Sec → Sec) (a : Nat) : rd (withSec u s) a = rd s a := rfl
@[simp] theorem rd_withClk (u : Clk → Clk) (a : Nat) : rd (withClk u s) a = rd s a := rfl
@[simp] theorem rd_withMod (u : Modes → Modes) (a : Nat) : rd (withMod u s) a = rd s a := rfl
@[simp] theorem rd_withThm (u : Thm → Thm) (a : Nat) : rd (withThm u s) a = rd s a := rfl
@[simp] theorem rd_withEcc (u : Ecc → Ecc) (a : Nat) : rd (withEcc u s) a = rd s a := rfl
@[simp] theorem rd_withHst (u : HostIf → HostIf) (a : Nat) : rd (withHst u s) a = rd s a := rfl
@[simp] theorem rd_takeFree (w a : Nat) : rd (takeFree w s).2 a = rd s a := rfl
@[simp] theorem rd_sendVector (v a : Nat) : rd (sendVector v s) a = rd s a := rd_congr (by simp) a
@[simp] theorem rd_risen (v a : Nat) (t : State) : rd (risen v s t) a = rd t a := rd_congr (by simp) a

/-- A vector's summary depends on the registers and the channels' interrupts alone. -/
theorem vectorSummary_congr {s t : State} (h : s.regs = t.regs) (k : s.hst.chIrq = t.hst.chIrq) (v : Nat) :
    vectorSummary s v = vectorSummary t v := by
  have : pageSummary s = pageSummary t := by
    funext p
    have e : ∀ a, rd s a = rd t a := rd_congr h
    rw [Bool.eq_iff_iff]; simp only [pageSummary, decide_eq_true_eq, rdF, e]; exact decide_eq_true_iff.symm
  have e : ∀ a, rd s a = rd t a := rd_congr h
  unfold vectorSummary
  rw [this]
  split
  · rw [Bool.eq_iff_iff]; simp only [k, decide_eq_true_eq, rdF, e]; exact decide_eq_true_iff.symm
  · rfl

@[simp] theorem sendVector_chIrq (v : Nat) : (sendVector v s).hst.chIrq = s.hst.chIrq := by unfold sendVector; split <;> rfl

/-- The registers that the clock ratios depend on (R415). -/
def clockRegs : List Nat := [0x004, 0x204C, 0x2050, at' (pgDRC 0) 0x40, at' (pgDRC 0) 0x48] ++ (List.range 4).map fun k => at' (pgUIO k) 0x44

/-- The clock ratios depend on the clock settings alone (R415). -/
theorem clockOk_congr {s t : State} (h : ∀ a ∈ clockRegs, rd t a = rd s a) : clockOk t = clockOk s := by
  have h1 := h 0x204C (by decide)
  have h2 := h 0x2050 (by decide)
  have h3 := h (at' (pgDRC 0) 0x40) (by decide)
  have h4 := h (at' (pgDRC 0) 0x48) (by decide)
  have h5 : ∀ k ∈ List.range 4, rd t (at' (pgUIO k) 0x44) = rd s (at' (pgUIO k) 0x44) := fun k hk =>
    h _ (List.mem_append.2 (.inr (List.mem_map.2 ⟨k, hk, rfl⟩)))
  have e1 : fclkMhz t = fclkMhz s := by unfold fclkMhz rdF; rw [h1]
  have e2 : bclkMhz t = bclkMhz s := by unfold bclkMhz rdF; rw [h2]
  have e3 : dclkMhz t = dclkMhz s := by unfold dclkMhz rdF; rw [h3]
  have h0 := h 0x004 (by decide)
  have e0 : gradeS2 t = gradeS2 s := by unfold gradeS2 rdB; rw [h0]
  unfold clockOk
  rw [e0, e1, e2, e3]
  congr 1
  · congr 1
    unfold rdF; rw [h4]
  · rw [Bool.eq_iff_iff, List.all_eq_true, List.all_eq_true]
    refine forall₂_congr fun k hk => ?_
    unfold rdB rdF; rw [h5 k hk]

/-- A command that keeps the clock settings stops with no clock fault. -/
theorem clocked_of_regs {s t : State} (h : ∀ a ∈ clockRegs, rd t a = rd s a) : clocked s t = .next t := by
  unfold clocked; rw [clockOk_congr h]; cases clockOk s <;> rfl

/-- Sending a vector changes nothing of the host interface but the pending bits of masked vectors (R486). -/
theorem sendVector_hst_proj {α : Type} (f : HostIf → α) (hf : ∀ h x, f { h with msixPend := x } = f h) (v : Nat) :
    f (sendVector v s).hst = f s.hst := by
  unfold sendVector; split
  · exact hf _ _
  · rfl
/-- Setting an interrupt changes nothing of the host interface but the pending bits of masked vectors (R486). -/
theorem setIrq_hst_proj {α : Type} (f : HostIf → α) (hf : ∀ h x, f { h with msixPend := x } = f h) (p b : Nat) :
    f (setIrq p b s).hst = f s.hst := by
  unfold setIrq risen; split
  · rw [sendVector_hst_proj _ f hf]; rfl
  · rfl

@[simp] theorem sendVector_holders (v : Nat) : (sendVector v s).hst.holders = s.hst.holders := by unfold sendVector; split <;> rfl
@[simp] theorem risen_holders (v : Nat) (t : State) : (risen v s t).hst.holders = t.hst.holders := by
  unfold risen; split
  · exact sendVector_holders _ _
  · rfl
@[simp] theorem setIrq_holders (p b : Nat) : (setIrq p b s).hst.holders = s.hst.holders := by
  unfold setIrq; rw [risen_holders]; simp

/-- Setting an interrupt bit changes IRQ_STAT of its page alone. -/
theorem rd_setIrq (p b a : Nat) : rd (setIrq p b s) a = rd (wrF (irqA p) b 1 1 s) a := by simp [setIrq]

/-- An interrupt bit reads 1 once it is set (R487). -/
theorem rdB_setIrq_same (p b : Nat) (h : b < 32) : rdB (setIrq p b s) (irqA p) b = true := by
  simp only [rdB, rd_setIrq]
  exact (rdB_wrF_same s (irqA p) b 1 1 b (by omega) (by omega)).trans (by simp)

/-- A refusal leaves its cause in ERR_CAUSE (R487). -/
theorem rd_setFault_err (p c : Nat) : rd (setFault p c s) (errA p) = BitVec.ofNat 32 c := by simp [setFault]

/-- A refusal sets FAULT (R487). -/
theorem rdB_setFault_stat (p c : Nat) : rdB (setFault p c s) (statA p) 2 = true := by
  have h : statA p ≠ errA p := by simp [statA, errA]
  simp only [rdB, setFault, rd_wr_other _ h]
  exact (rdB_wrF_same s (statA p) 2 1 1 2 (by omega) (by omega)).trans (by simp)

/-- A refusal leaves every register but the STAT and ERR_CAUSE of its page alone. -/
theorem rd_setFault_other (p c a : Nat) (h1 : a ≠ statA p) (h2 : a ≠ errA p) : rd (setFault p c s) a = rd s a := by
  simp only [setFault]
  rw [rd_wr_other _ h2, rd_wrF_other _ h1]

/-- A write of a register keeps the register file canonical (R13). -/
theorem regs_wr (a : Nat) (v : Reg) : (wr a v s).regs = tput (regReset a) a v s.regs := rfl

end Sys2Proof.Machine
end

