-- ==== Sys2Proof/Laws/Frames.lean ====
section
/-! SUPPORT. The frames of Safety.lean over the shared operations: each says that an operation touches nothing but what the frame lets go. -/

namespace Sys2Proof.Machine

variable {s t : State}

theorem onlyRegs_refl (s : State) : onlyRegs s s := rfl
theorem onlyHost_refl (s : State) : onlyHost s s := rfl
theorem regsBut_refl (l : List Nat) (s : State) : regsBut l s s := fun _ _ => rfl

theorem onlyRegs_trans {u : State} (h : onlyRegs s t) (k : onlyRegs t u) : onlyRegs s u := by
  unfold onlyRegs at *; rw [← h, ← k]
theorem onlyHost_trans {u : State} (h : onlyHost s t) (k : onlyHost t u) : onlyHost s u := by
  unfold onlyHost at *; rw [← h, ← k]
theorem regsBut_trans {u : State} {l : List Nat} (h : regsBut l s t) (k : regsBut l t u) : regsBut l s u :=
  fun a ha => (k a ha).trans (h a ha)

theorem onlyHost_of_onlyRegs (h : onlyRegs s t) : onlyHost s t := by
  unfold onlyRegs at h; unfold onlyHost; rw [← h]

theorem onlyRegs_wr (h : onlyRegs s t) (a : Nat) (v : Reg) : onlyRegs s (wr a v t) := h
theorem onlyRegs_wrF (h : onlyRegs s t) (a lo n x : Nat) : onlyRegs s (wrF a lo n x t) := h
theorem onlyRegs_setFault (h : onlyRegs s t) (p c : Nat) : onlyRegs s (setFault p c t) := h
theorem onlyHost_wr (h : onlyHost s t) (a : Nat) (v : Reg) : onlyHost s (wr a v t) := h
theorem onlyHost_wrF (h : onlyHost s t) (a lo n x : Nat) : onlyHost s (wrF a lo n x t) := h
theorem onlyHost_setFault (h : onlyHost s t) (p c : Nat) : onlyHost s (setFault p c t) := h
theorem onlyHost_withHst (h : onlyHost s t) (u : HostIf → HostIf) : onlyHost s (withHst u t) := h
theorem onlyHost_send (h : onlyHost s t) (o : Out) : onlyHost s (send o t) := h

theorem onlyHost_sendVector (h : onlyHost s t) (v : Nat) : onlyHost s (sendVector v t) := by
  unfold sendVector; split <;> exact h

theorem onlyHost_risen (h : onlyHost s t) (v : Nat) (r : State) : onlyHost s (risen v r t) := by
  unfold risen; split
  · exact onlyHost_sendVector h v
  · exact h

/-- Setting an interrupt bit touches registers and the host interface alone (R486). -/
theorem onlyHost_setIrq (h : onlyHost s t) (p b : Nat) : onlyHost s (setIrq p b t) := by
  unfold setIrq; exact onlyHost_risen (onlyHost_wrF h _ _ _ _) _ _

theorem regsBut_wr {l : List Nat} (h : regsBut l s t) {a : Nat} (ha : a ∈ l) (v : Reg) : regsBut l s (wr a v t) := fun b hb => by
  rw [rd_wr_other t (by rintro rfl; exact hb ha)]; exact h b hb
theorem regsBut_wrF {l : List Nat} (h : regsBut l s t) {a : Nat} (ha : a ∈ l) (lo n x : Nat) : regsBut l s (wrF a lo n x t) :=
  regsBut_wr h ha _
theorem regsBut_setIrq {l : List Nat} (h : regsBut l s t) {p : Nat} (ha : irqA p ∈ l) (b : Nat) : regsBut l s (setIrq p b t) := fun a hl => by
  rw [rd_setIrq]; exact regsBut_wrF h ha b 1 1 a hl
theorem regsBut_setFault {l : List Nat} (h : regsBut l s t) {p : Nat} (h1 : statA p ∈ l) (h2 : errA p ∈ l) (c : Nat) :
    regsBut l s (setFault p c t) := regsBut_wr (regsBut_wrF h h1 _ _ _) h2 _
theorem regsBut_of_regs {l : List Nat} (h : t.regs = s.regs) : regsBut l s t := fun a _ => rd_congr h a

end Sys2Proof.Machine
end

