-- ==== Sys2Proof/Laws/Resource.lean ====
section
/-! SUPPORT. What claims and releases of shared resources do (R496, R497). -/

namespace Sys2Proof.Machine

/-- A part of the state that both branches leave alone. -/
theorem ite_proj {α : Type} (f : State → α) (b : Bool) (s x y : State) (hx : f x = f s) (hy : f y = f s) :
    f (if b then x else y) = f s := by
  cases b <;> assumption

/-- A refused claim leaves the holders as they are (R497). -/
theorem conflict_holders (r p h : Nat) (s : State) : (conflict r p h s).hst.holders = s.hst.holders := by
  unfold conflict
  rw [setIrq_holders, ite_proj State.hst _ s]
  · rw [wrF_hst, wr_hst, wrF_hst]
  · rw [wr_hst, wr_hst, wr_hst, wrF_hst]

/-- A refused claim touches registers and the host interface alone. -/
theorem onlyHost_conflict (r p h : Nat) (s : State) : onlyHost s (conflict r p h s) := by
  unfold conflict; simp only
  apply onlyHost_setIrq
  have : onlyHost s (wr (errA p) 0x0F03 (wrF (statA p) 3 1 1 s)) := rfl
  split
  · exact onlyHost_wrF this _ _ _ _
  · exact onlyHost_wr (onlyHost_wr this _ _) _ _

/-- The registers that a refused claim leaves alone: all but SYS_CONFLICT, SYS_CONFLICT_P, the SYS page's IRQ_STAT and the STAT and ERR_CAUSE
of the page that claims. -/
theorem rd_conflict_other (r p h : Nat) (s : State) (a : Nat) (h1 : a ≠ 0x4C) (h2 : a ≠ 0x50) (h3 : a ≠ irqA pgSYS) :
    rd (conflict r p h s) a = rd (wr (errA p) 0x0F03 (wrF (statA p) 3 1 1 s)) a := by
  unfold conflict; simp only; rw [rd_setIrq, rd_wrF_other _ h3]; split
  · rw [rd_wrF_other _ h1]
  · rw [rd_wr_other _ h2, rd_wr_other _ h1]

/-- A claim of a free resource makes the page its holder and touches nothing else (R496). -/
theorem claim_free (r p : Nat) (s : State) (h : holderOf s r = none) :
    claim r p s = (withHst (fun h => { h with holders := h.holders ++ [(BitVec.ofNat 16 r, p)] }) s, true) := by
  unfold claim; rw [h]

/-- A claim of a resource that the page holds already changes nothing (R496). -/
theorem claim_own (r p : Nat) (s : State) (h : holderOf s r = some p) : claim r p s = (s, true) := by
  unfold claim; rw [h]; simp

/-- A claim of a resource that another page holds is refused (R497). -/
theorem claim_held (r p h : Nat) (s : State) (hh : holderOf s r = some h) (hn : h ≠ p) :
    claim r p s = (conflict r p h s, false) := by
  unfold claim; rw [hh]; simp [hn]

/-- Everything a claim can do stays within registers and the host interface. -/
theorem onlyHost_claim (r p : Nat) (s : State) : onlyHost s (claim r p s).1 := by
  cases h : holderOf s r with
  | none => rw [claim_free r p s h]; exact onlyHost_withHst (onlyHost_refl s) _
  | some q =>
    by_cases hq : q = p
    · subst hq; rw [claim_own r q s h]; exact onlyHost_refl s
    · rw [claim_held r p q s h hq]; exact onlyHost_conflict _ _ _ _

/-- After a claim of a free resource the page holds it. -/
theorem holderOf_claim_free (r p : Nat) (s : State) (hr : r < 65536) (h : holderOf s r = none) :
    holderOf (claim r p s).1 r = some p := by
  rw [claim_free r p s h]
  simp only [holderOf, withHst_hst, List.find?_append] at h ⊢
  have h0 : (s.hst.holders.find? fun h => h.1.toNat = r) = none := by simpa using h
  rw [h0]; simp; omega

end Sys2Proof.Machine
end

