-- ==== Sys2Proof/Laws/Stores.lean ====
section
/-! SUPPORT. The stores stay in canonical form (`storesWf` of Safety.lean) under every operation that writes one: the rows of the memory die,
the words of the DRAM, the OTP. -/

namespace Sys2Proof.Machine

variable {s t : State}

/-- An operation that writes no store keeps their form. -/
theorem storesWf_congr (h : storesWf s) (h1 : t.mem.rows = s.mem.rows) (h2 : t.drm.words = s.drm.words) (h3 : t.sec.otp = s.sec.otp) :
    storesWf t := by
  unfold storesWf at *; rw [h1, h2, h3]; exact h

theorem storesWf_foldl {β : Type} (f : State → β → State) (hf : ∀ t b, storesWf t → storesWf (f t b)) (l : List β) :
    ∀ s, storesWf s → storesWf (l.foldl f s) := by
  induction l with
  | nil => intro s h; exact h
  | cons b l ih => intro s h; exact ih _ (hf s b h)

theorem storesWf_ite (b : Bool) {x y : State} (hx : storesWf x) (hy : storesWf y) : storesWf (if b then x else y) := by
  cases b <;> assumption

theorem storesWf_wr (h : storesWf s) (a : Nat) (v : Reg) : storesWf (wr a v s) := h
theorem storesWf_wrF (h : storesWf s) (a lo n x : Nat) : storesWf (wrF a lo n x s) := h
theorem storesWf_incF (h : storesWf s) (a lo n k : Nat) : storesWf (incF a lo n k s) := h
theorem storesWf_setFault (h : storesWf s) (p c : Nat) : storesWf (setFault p c s) := h
theorem storesWf_setBusy (h : storesWf s) (p : Nat) (b : Bool) : storesWf (setBusy p b s) := h
theorem storesWf_dropWrite (h : storesWf s) (p : Nat) : storesWf (dropWrite p s) := h
theorem storesWf_send (h : storesWf s) (o : Out) : storesWf (send o s) := h
theorem storesWf_withFab (h : storesWf s) (u : Fabric → Fabric) : storesWf (withFab u s) := h
theorem storesWf_withSlu (h : storesWf s) (u : Sluice → Sluice) : storesWf (withSlu u s) := h
theorem storesWf_withLan (h : storesWf s) (u : Lanes → Lanes) : storesWf (withLan u s) := h
theorem storesWf_withHst (h : storesWf s) (u : HostIf → HostIf) : storesWf (withHst u s) := h
theorem storesWf_setBank (h : storesWf s) (n : Nat) (b : Bank) : storesWf (setBank n b s) := h
theorem storesWf_takeFree (h : storesWf s) (w : Nat) : storesWf (takeFree w s).2 := h

theorem storesWf_setIrq (h : storesWf s) (p b : Nat) : storesWf (setIrq p b s) := storesWf_congr h (by simp) (by simp) (by simp)

theorem storesWf_withEcc (h : storesWf s) (u : Ecc → Ecc) : storesWf (withEcc u s) := h

theorem storesWf_traceOut (h : storesWf s) (src : Nat) (v : BitVec 192) : storesWf (traceOut src v s) := by
  unfold traceOut
  split
  · simp only
    split
    · exact storesWf_incF (storesWf_takeFree h 1) _ _ _ _
    · exact storesWf_send (storesWf_takeFree h 1) _
  · exact h

theorem storesWf_ringEntry (h : storesWf s) (d : Nat) (w0 w1 : Word) : storesWf (ringEntry d w0 w1 s) := by
  unfold ringEntry; simp only
  split
  · exact storesWf_setIrq (storesWf_incF h _ _ _ _) _ _
  · exact storesWf_wr (storesWf_traceOut (storesWf_withEcc h fun e => { e with rings := _ }) _ _) _ _

theorem storesWf_chargeTrack (h : storesWf s) (k u : Nat) : storesWf (chargeTrack k u s).1 := by
  unfold chargeTrack; simp only
  split
  · exact h
  · split
    · exact h
    · split <;> exact h

/-- A log entry keeps the stores (R463). -/
theorem storesWf_logErr (h : storesWf s) (kind addr syn cause : Nat) (ue sweep : Bool) : storesWf (logErr kind addr syn cause ue sweep s) := by
  unfold logErr; simp only
  have h1 := storesWf_chargeTrack h kind (trackUnit kind addr)
  generalize chargeTrack kind (trackUnit kind addr) s = q at h1
  have h2 := storesWf_incF (storesWf_ringEntry h1 (logDie kind addr)
    (BitVec.ofNat 64 (cause % 2 ^ 16 + syn % 256 * 2 ^ 16 + addr % 2 ^ 40 * 2 ^ 24))
    (BitVec.ofNat 64 (fld q.1.time 4 48 + kind % 16 * 2 ^ 52 + b2n sweep * 2 ^ 61 + b2n q.2 * 2 ^ 62 + b2n ue * 2 ^ 63)))
    (0xA200 + 4 * kind) (if ue then 16 else 0) 16 1
  generalize incF _ _ _ _ _ = u at h2 ⊢
  have h3 : ∀ (b : Bool) (n : Nat) (w : State), storesWf w → storesWf (if b then setIrq pgECC n w else w) := fun b n w hw =>
    storesWf_ite b (storesWf_setIrq hw _ _) hw
  refine h3 _ _ _ (h3 _ _ _ (storesWf_ite _ ?_ h2))
  exact storesWf_wr (storesWf_wr (storesWf_wr (storesWf_wr h2 _ _) _ _) _ _) _ _

theorem storesWf_logDecoded (h : storesWf s) (k a c : Nat) (d : Decoded) (sw : Bool) : storesWf (logDecoded k a c d sw s) := by
  unfold logDecoded
  cases d <;> first | exact h | exact storesWf_logErr h _ _ _ _ _ _

-- The memory die

/-- A written codeword keeps the stores. -/
theorem storesWf_putRowCode (h : storesWf s) (b r w : Nat) (c : Code) : storesWf (putRowCode b r w c s) :=
  ⟨twf_tput 0 _ c _ h.1, h.2⟩

theorem storesWf_rowLogOne (h : storesWf s) (b r w : Nat) (d : Decoded) : storesWf (rowLogOne b r w d s) := by
  unfold rowLogOne
  cases d
  · exact storesWf_logDecoded h _ _ _ _ _
  · exact storesWf_logDecoded h _ _ _ _ _
  · exact storesWf_setIrq (storesWf_logDecoded h _ _ _ _ _) _ _

theorem storesWf_rowLog (h : storesWf s) (b r : Nat) : storesWf (rowLog b r s) :=
  storesWf_foldl _ (fun _ _ k => storesWf_rowLogOne k _ _ _ _) _ _ h

theorem storesWf_writeCode (h : storesWf s) (b r w m : Nat) (v : Word) : storesWf (writeCode b r w m v s) := by
  unfold writeCode
  split
  · exact h
  · split
    · exact storesWf_putRowCode h _ _ _ _
    · split
      · exact storesWf_putRowCode h _ _ _ _
      · exact h

/-- A masked write of a row keeps the stores (R317). -/
theorem storesWf_rowWrite (h : storesWf s) (b r : Nat) (m : BitVec 1024) (d : BitVec 8192) : storesWf (rowWrite b r m d s) :=
  storesWf_foldl _ (fun _ _ k => storesWf_writeCode k _ _ _ _ _) _ _ (storesWf_ite _ (storesWf_rowLog h _ _) h)

/-- A list of bytes written keeps the stores (R154). -/
theorem storesWf_writeBytes (h : storesWf s) (b r o : Nat) (bs : List Byte) : storesWf (writeBytes b r o bs s) :=
  storesWf_foldl _ (fun _ _ k => storesWf_rowWrite k _ _ _ _) _ _ h

/-- A cleared bank keeps the stores (R323). -/
theorem storesWf_clearBank (h : storesWf s) (b : Nat) : storesWf (clearBank b s) := ⟨twf_tclear 0 _ _ _ h.1, h.2⟩

theorem storesWf_bankTouch (h : storesWf s) (b : Nat) : storesWf (bankTouch b s) := by
  unfold bankTouch; dsimp only; split
  · exact h
  · exact h

-- The DRAM

theorem storesWf_withDrm (h : storesWf s) (u : Dram → Dram) (hu : twf 0 (u s.drm).words = true) : storesWf (withDrm u s) := ⟨h.1, hu, h.2.2⟩

theorem storesWf_wakeRank (h : storesWf s) (a : Nat) : storesWf (wakeRank a s) :=
  storesWf_withDrm h _ h.2.1

theorem storesWf_logLine (h : storesWf s) (a : Nat) (c : Option Nat) (ws : List (Nat × DramWordRead)) : storesWf (logLine a c ws s) := by
  unfold logLine
  refine storesWf_foldl _ (fun t p k => ?_) _ _ h
  split <;> first | exact k | exact storesWf_logErr k _ _ _ _ _ _

theorem storesWf_countRead (h : storesWf s) (k : Nat) (b : Bool) : storesWf (countRead k b s) := storesWf_incF h _ _ _ _

theorem storesWf_noteLine (h : storesWf s) (a k : Nat) (ws : List (Nat × DramWordRead)) : storesWf (noteLine a k ws s) := by
  unfold noteLine; split
  · exact storesWf_countRead (storesWf_logLine h _ _ _) _ _
  · exact h

/-- A read of the DRAM keeps the stores (R338). -/
theorem storesWf_rawRead (h : storesWf s) (a m : Nat) : storesWf (rawRead a m s).2 := by
  unfold rawRead
  extract_lets b k w
  have hw : storesWf w := storesWf_wakeRank h _
  clear_value w
  split
  · exact storesWf_setIrq (storesWf_countRead (storesWf_withDrm hw _ hw.2.1) _ _) _ _
  · split
    · exact storesWf_setIrq (storesWf_countRead hw _ _) _ _
    · split
      · exact storesWf_noteLine hw _ _ _
      · split
        · split
          · exact storesWf_setIrq (storesWf_noteLine (storesWf_noteLine hw _ _ _) _ _ _) _ _
          · exact storesWf_noteLine (storesWf_countRead (storesWf_logLine hw _ _ _) _ _) _ _ _
        · exact storesWf_setIrq (storesWf_noteLine hw _ _ _) _ _

/-- A word stored in every copy keeps the stores (R350). -/
theorem storesWf_putWord (h : storesWf s) (a i : Nat) (w : Word) (x : Nat) : storesWf (putWord a i w x s) := by
  unfold putWord
  have put (v : BitVec 80) (c : Nat) {u : State} (hu : storesWf u) :
      storesWf (withDrm (fun d => { d with words := tput 0 (2 * (a / 8 + i) + c) v d.words }) u) :=
    storesWf_withDrm hu _ (twf_tput 0 _ v _ hu.2.1)
  dsimp only
  split
  · split <;> split <;> first | exact put _ _ (put _ _ h) | exact put _ _ h | exact h
  · exact put _ _ h

/-- A line written keeps the stores. -/
theorem storesWf_rawWriteLine (h : storesWf s) (a : Nat) (l : BitVec 512) (x : Nat) : storesWf (rawWriteLine a l x s) :=
  storesWf_foldl _ (fun _ _ k => storesWf_putWord k _ _ _ _) _ _ (storesWf_wakeRank h _)

/-- A masked write of a line keeps the stores (R339). -/
theorem storesWf_rawWrite (h : storesWf s) (a : Nat) (m : Word) (l : BitVec 512) : storesWf (rawWrite a m l s).2 := by
  unfold rawWrite
  have key : ∀ (f : Option Nat × State → Nat → Option Nat × State), (∀ r i, storesWf r.2 → storesWf (f r i).2) →
      ∀ (l : List Nat) (r : Option Nat × State), storesWf r.2 → storesWf (l.foldl f r).2 := by
    intro f hf l
    induction l with
    | nil => intro r hr; exact hr
    | cons i l ih => intro r hr; exact ih _ (hf r i hr)
  refine key _ (fun r i hr => ?_) _ _ (storesWf_wakeRank h _)
  dsimp only
  split
  · exact hr
  · split
    · exact storesWf_putWord hr _ _ _ _
    · have hk := storesWf_rawRead hr a (2 ^ i)
      split <;> rename_i e <;> rw [e] at hk
      · exact storesWf_putWord hk _ _ _ _
      · exact hk

theorem storesWf_copyLine (h : storesWf s) (src dst i : Nat) : storesWf (copyLine src dst i s) := by
  unfold copyLine
  have hk := storesWf_rawRead h (src * 4096 + 64 * i) 255
  dsimp only
  split <;> rename_i e <;> rw [e] at hk
  · exact storesWf_rawWriteLine hk _ _ _
  · exact storesWf_rawWriteLine hk _ _ _

/-- The words after a resilver are in canonical form (R352). -/
theorem twf_resilvered (h : storesWf s) (k : Nat) : twf 0 (resilvered s k) = true := by
  unfold resilvered
  dsimp only
  have key : ∀ (f : Nat × BitVec 80 → Nat) (l t : Tab (BitVec 80)), twf 0 t = true → twf 0 (l.foldl (fun t p => tput 0 (f p) p.2 t) t) = true := by
    intro f l
    induction l with
    | nil => intro t ht; exact ht
    | cons p l ih => intro t ht; exact ih _ (twf_tput 0 _ _ _ ht)
  exact key (fun p => p.1 / 2 * 2 + k % 2) _ _ (twf_filter 0 _ _ h.2.1)

-- The OTP

/-- A programmed word keeps the stores (R388). -/
theorem storesWf_putOtp (h : storesWf s) (w : Nat) (c : Code) : storesWf (putOtp w c s) := ⟨h.1, h.2.1, twf_tput 0 w c _ h.2.2⟩

/-- A reset of D0 keeps the OTP as it is and empties the other stores (R439). -/
theorem storesWf_coldState (h : storesWf s) (keep : Nat → Bool) : storesWf (coldState keep s) := ⟨rfl, rfl, h.2.2⟩

end Sys2Proof.Machine
end

