-- ==== Sys2Proof/Laws/WordEngine.lean ====
section
/-! SUPPORT. What one instruction of a word engine does (R69 to R94), said once for every opcode. -/

namespace Sys2Proof.Machine

variable {s : State} {a : CrystalAddr} {f : WeFields} {c : Nat} {op : WeOp}

/-- A crystal runs nothing, or a VALID plane of its own basin (R49, R100). -/
theorem planOf_cases (s : State) (n x : Nat) : (planOf s n x).ctx = none
    ∨ ∃ c ch ds bits, c < 16 ∧ planOf s n x = planRun s (xk n x) c ch ds bits := by
  unfold planOf
  dsimp only
  split
  · exact .inl rfl
  · next t _ =>
    have ht : t.toNat < 16 := t.isLt
    split
    · exact .inl rfl
    · split
      · exact .inr ⟨_, _, _, _, ht, rfl⟩
      · split
        · exact .inl rfl
        · exact .inr ⟨_, _, _, _, ht, rfl⟩

/-- In a cycle that is not quiet a crystal reads its flag codeword, and its context is one of 16 (R68). -/
theorem planOf_runs {n x c : Nat} (hq : (planOf s n x).quiet = false) (hc : (planOf s n x).ctx = some c) :
    (planOf s n x).fl = decode72 (flCode s (xk n x)) ∧ c < 16 := by
  rcases planOf_cases s n x with h | ⟨c', ch, ds, bits, hlt, h⟩
  · rw [h] at hc; cases hc
  · rw [h] at hq hc ⊢
    simp only [planRun, Option.some.injEq] at hc hq ⊢
    subst hc
    cases hact : (bit bits 2209 && !s.fab.hold.we)
    · rw [hact] at hq; simp at hq
    · exact ⟨if_pos rfl, hlt⟩

theorem weCtx_plan (h : weCtx s a = some c) :
    (planOf s a.basin a.addr.toNat).quiet = false ∧ underTest s a.basin = false
      ∧ (planOf s a.basin a.addr.toNat).ctx = some c ∧ c < 16
      ∧ (planOf s a.basin a.addr.toNat).fl = decode72 (flCode s (weKey a)) := by
  unfold weCtx at h
  split at h
  · cases h
  · next hq =>
    simp only [Bool.or_eq_true, not_or, Bool.not_eq_true] at hq
    have := planOf_runs hq.1 h
    exact ⟨hq.1, hq.2, h, this.2, this.1⟩

/-- The flags that the instruction sees are those of its context's flag codeword (R67, R69). -/
theorem weEnv_fl (h : weCtx s a = some c) : (weEnv s a c).fl = weFlagsOf s a c := by
  have := (weCtx_plan h).2.2.2.2
  unfold weEnv envOf weFlagsOf
  simp only [planAt, plansOf]
  rw [this]

/-- An instruction of a crystal that is not quiet (R73). -/
theorem weStep_eq (op : WeOp) (f : WeFields) (h : weCtx s a = some c) :
    weStep op a f s =
      (let e := weIssue (some op) f (weEnv s a c) (BitVec.ofNat 4 c) (doneMul (crystalOf s (weKey a)))
       let t := applyEffect a.basin a.addr.toNat c (decode72 (flCode s (weKey a))).data e s
       match e.fault with
       | some cause => raiseTraps a.basin [(a.addr.toNat, cause.toNat, c)] t
       | none => t) := by
  obtain ⟨hq, hu, hc, _, hfl⟩ := weCtx_plan h
  unfold weStep
  extract_lets n x ps p
  have hp : p.ctx = some c := hc
  have hq' : (p.quiet || underTest s n) = false := by
    show ((planOf s a.basin a.addr.toNat).quiet || underTest s a.basin) = false
    rw [hq, hu]; rfl
  have hf' : p.fl = decode72 (flCode s (weKey a)) := hfl
  rw [hp, hq', hf']
  rfl

-- Carrying out an effect

@[simp] theorem crystalOf_setCrystal (k : Nat) (v : Crystal) (s : State) : crystalOf (setCrystal k v s) k = v := by
  simp [crystalOf, setCrystal]
theorem crystalOf_setCrystal_other {k j : Nat} (h : j ≠ k) (v : Crystal) (s : State) : crystalOf (setCrystal k v s) j = crystalOf s j := by
  simp [crystalOf, setCrystal, tget_tput_other _ _ h]
@[simp] theorem crystalOf_setX (k c j : Nat) (v : Code) (s : State) : crystalOf (setX k c v s) j = crystalOf s j := rfl
@[simp] theorem crystalOf_setY (k c j : Nat) (v : Code) (s : State) : crystalOf (setY k c v s) j = crystalOf s j := rfl
@[simp] theorem crystalOf_setFl (k j : Nat) (v : Code) (s : State) : crystalOf (setFl k v s) j = crystalOf s j := rfl
@[simp] theorem xCode_setCrystal (k j d : Nat) (v : Crystal) (s : State) : xCode (setCrystal k v s) j d = xCode s j d := rfl
@[simp] theorem xCode_setY (k c j d : Nat) (v : Code) (s : State) : xCode (setY k c v s) j d = xCode s j d := rfl
@[simp] theorem xCode_setFl (k j d : Nat) (v : Code) (s : State) : xCode (setFl k v s) j d = xCode s j d := rfl
@[simp] theorem yCode_setCrystal (k j d : Nat) (v : Crystal) (s : State) : yCode (setCrystal k v s) j d = yCode s j d := rfl
@[simp] theorem yCode_setX (k c j d : Nat) (v : Code) (s : State) : yCode (setX k c v s) j d = yCode s j d := rfl
@[simp] theorem yCode_setFl (k j d : Nat) (v : Code) (s : State) : yCode (setFl k v s) j d = yCode s j d := rfl
@[simp] theorem flCode_setCrystal (k j : Nat) (v : Crystal) (s : State) : flCode (setCrystal k v s) j = flCode s j := rfl
@[simp] theorem flCode_setX (k c j : Nat) (v : Code) (s : State) : flCode (setX k c v s) j = flCode s j := rfl
@[simp] theorem flCode_setY (k c j : Nat) (v : Code) (s : State) : flCode (setY k c v s) j = flCode s j := rfl
@[simp] theorem flCode_setFl (k : Nat) (v : Code) (s : State) : flCode (setFl k v s) k = v := by simp [flCode, setFl]
theorem flCode_setFl_other {k j : Nat} (h : j ≠ k) (v : Code) (s : State) : flCode (setFl k v s) j = flCode s j := by
  simp [flCode, setFl, tget_tput_other _ _ h]

/-- X of a context after a write of X (R67). -/
theorem xCode_setX {k c j d : Nat} (hc : c < 16) (hd : d < 16) (v : Code) (s : State) :
    xCode (setX k c v s) j d = if j = k ∧ d = c then v else xCode s j d := by
  have : (16 * j + d = 16 * k + c) ↔ (j = k ∧ d = c) := by omega
  simp [xCode, setX, tget_tput, this]
/-- Y of a context after a write of Y (R67). -/
theorem yCode_setY {k c j d : Nat} (hc : c < 16) (hd : d < 16) (v : Code) (s : State) :
    yCode (setY k c v s) j d = if j = k ∧ d = c then v else yCode s j d := by
  have : (16 * j + d = 16 * k + c) ↔ (j = k ∧ d = c) := by omega
  simp [yCode, setY, tget_tput, this]

theorem flagBits_lt (v : WeFlags) : flagBits v < 16 := by
  rcases v with ⟨_ | _, _ | _, _ | _, _ | _⟩ <;> decide

/-- The flags of a context after they are written into the flag word (R67). -/
theorem ctxFlags_setFld_same (w : Word) (c : Nat) (v : WeFlags) (hc : c < 16) :
    ctxFlags (setFld w (4 * c) 4 (flagBits v)) c = v := by
  have b : ∀ i, i < 4 → bit (setFld w (4 * c) 4 (flagBits v)) (4 * c + i) = (flagBits v).testBit i := fun i hi => by
    rw [bit_setFld_same w (4 * c) 4 (flagBits v) (4 * c + i) (by omega) (by omega)]; congr 1; omega
  unfold ctxFlags
  rw [show bit (setFld w (4 * c) 4 (flagBits v)) (4 * c) = _ from b 0 (by omega), b 1 (by omega), b 2 (by omega), b 3 (by omega)]
  rcases v with ⟨_ | _, _ | _, _ | _, _ | _⟩ <;> rfl

theorem ctxFlags_setFld_other (w : Word) (c d : Nat) (v : WeFlags) (hc : c < 16) (h : d ≠ c) :
    ctxFlags (setFld w (4 * c) 4 (flagBits v)) d = ctxFlags w d := by
  have b : ∀ i, i < 4 → bit (setFld w (4 * c) 4 (flagBits v)) (4 * d + i) = bit w (4 * d + i) := fun i hi =>
    bit_setFld_other w (4 * c) 4 (flagBits v) (4 * d + i) (by omega) (by omega)
  unfold ctxFlags
  rw [show bit (setFld w (4 * c) 4 (flagBits v)) (4 * d) = _ from b 0 (by omega), b 1 (by omega), b 2 (by omega), b 3 (by omega)]
  rfl

/-- Write OUT. -/
def putOut (k : Nat) (o : Option Word) (s : State) : State :=
  match o with
  | some v => setCrystal k { crystalOf s k with out := v } s
  | none => s
/-- Write X. -/
def putX (k c : Nat) (o : Option Word) (s : State) : State :=
  match o with
  | some v => setX k c (encCode v) s
  | none => s
/-- Write Y. -/
def putY (k c : Nat) (o : Option Word) (s : State) : State :=
  match o with
  | some v => setY k c (encCode v) s
  | none => s
/-- Write the flags where they change. -/
def putFl (k c : Nat) (fw : Word) (v : WeFlags) (s : State) : State :=
  if v = ctxFlags fw c then s else setFl k (encCode (setFld fw (4 * c) 4 (flagBits v))) s

/-- The parts of an effect that write OUT, X, Y and the flags. -/
def regEffect (k c : Nat) (fw : Word) (e : WeEffect) (s : State) : State :=
  putFl k c fw e.fl (putY k c e.y (putX k c e.x (putOut k e.out s)))

/-- An effect that issues no multiply, writes no stage and posts no fence. -/
theorem applyEffect_plain (n x c : Nat) (fw : Word) (e : WeEffect) (s : State) (h1 : e.mul = none) (h2 : e.stage = none)
    (h3 : e.fence = none) : applyEffect n x c fw e s = regEffect (xk n x) c fw e s := by
  unfold applyEffect regEffect putFl putY putX putOut
  rw [h1, h2, h3] <;> cases e.out <;> cases e.x <;> cases e.y <;> rfl

/-- The frame of one crystal's registers: everything but its OUT and multiplies, X, Y and the flag codeword of its crystal. -/
theorem weFrame_refl (a : CrystalAddr) (s : State) : weFrame a s s := ⟨rfl, rfl, fun _ _ => ⟨rfl, rfl⟩, rfl⟩

theorem weFrame_setCrystal {t : State} (h : weFrame a s t) (v : Crystal)
    (hv : { v with out := (crystalOf s (weKey a)).out, muls := (crystalOf s (weKey a)).muls } = crystalOf s (weKey a)) :
    weFrame a s (setCrystal (weKey a) v t) := by
  refine ⟨h.1, h.2.1, fun k hk => ?_, ?_⟩
  · rw [crystalOf_setCrystal_other hk, flCode_setCrystal]; exact h.2.2.1 k hk
  · rw [crystalOf_setCrystal]; exact hv
theorem weFrame_setX {t : State} (h : weFrame a s t) (c : Nat) (v : Code) : weFrame a s (setX (weKey a) c v t) := h
theorem weFrame_setY {t : State} (h : weFrame a s t) (c : Nat) (v : Code) : weFrame a s (setY (weKey a) c v t) := h
theorem weFrame_setFl {t : State} (h : weFrame a s t) (v : Code) : weFrame a s (setFl (weKey a) v t) := by
  refine ⟨h.1, h.2.1, fun k hk => ?_, h.2.2.2⟩
  rw [crystalOf_setFl, flCode_setFl_other hk]; exact h.2.2.1 k hk
theorem weFrame_setRowPort {t : State} (h : weFrame a s t) (n r : Nat) (v : RowPort) : weFrame a s (setRowPort n r v t) := h
theorem weFrame_setFences {t : State} (h : weFrame a s t) (n q : Nat) (l : List Fence) : weFrame a s (setFences n q l t) := h

theorem bit63 (r : Word) : bit r 63 = r.msb := by
  rw [BitVec.msb_eq_getLsbD_last]; rfl

/-- The destination field and the write (R71). -/
theorem putOut_dst (d : BitVec 2) (k : Nat) (r : Word) (o : Option Word) (ho : o = if dstOut d then some r else none) (s : State) :
    (d = 0 ∨ d = 3) ∧ putOut k o s = setCrystal k { crystalOf s k with out := r } s ∨ ¬(d = 0 ∨ d = 3) ∧ putOut k o s = s := by
  subst ho
  by_cases hd : d = 0 ∨ d = 3
  · have : dstOut d = true := by rcases hd with h | h <;> rw [h] <;> rfl
    rw [this]; exact .inl ⟨hd, rfl⟩
  · have : dstOut d = false := by simpa [dstOut] using hd
    rw [this]; exact .inr ⟨hd, rfl⟩

/-- The destination field and the write (R71). -/
theorem putX_dst (d : BitVec 2) (k c : Nat) (r : Word) (o : Option Word) (ho : o = if dstX d then some r else none) (s : State) :
    (d = 1 ∨ d = 3) ∧ putX k c o s = setX k c (encCode r) s ∨ ¬(d = 1 ∨ d = 3) ∧ putX k c o s = s := by
  subst ho
  by_cases hd : d = 1 ∨ d = 3
  · have : dstX d = true := by rcases hd with h | h <;> rw [h] <;> rfl
    rw [this]; exact .inl ⟨hd, rfl⟩
  · have : dstX d = false := by simpa [dstX] using hd
    rw [this]; exact .inr ⟨hd, rfl⟩

/-- The destination field and the write (R71). -/
theorem putY_dst (d : BitVec 2) (k c : Nat) (r : Word) (o : Option Word) (ho : o = if dstY d then some r else none) (s : State) :
    (d = 2) ∧ putY k c o s = setY k c (encCode r) s ∨ ¬(d = 2) ∧ putY k c o s = s := by
  subst ho
  by_cases hd : d = 2
  · have : dstY d = true := by rw [hd]; rfl
    rw [this]; exact .inl ⟨hd, rfl⟩
  · have : dstY d = false := by simpa [dstY] using hd
    rw [this]; exact .inr ⟨hd, rfl⟩

/-- What the stages of an effect keep and give: the frame, OUT and the multiplies as `u` has them, X, Y and the flag codewords. -/
def weParts (a : CrystalAddr) (s u t : State) (fx fy : Nat → Nat → Code) : Prop :=
  weFrame a s t ∧ crystalOf t (weKey a) = crystalOf u (weKey a) ∧ (∀ k d, d < 16 → xCode t k d = fx k d)
    ∧ (∀ k d, d < 16 → yCode t k d = fy k d) ∧ (∀ k, flCode t k = flCode s k) ∧ t.fab.rows = s.fab.rows ∧ t.fab.fences = s.fab.fences

theorem weParts_x {u t w : State} {fy : Nat → Nat → Code} {P : Prop} [Decidable P] (hc : c < 16) (v : Code)
    (h : weParts a s u t (xCode s) fy) (hw : P ∧ w = setX (weKey a) c v t ∨ ¬P ∧ w = t) :
    weParts a s u w (fun k d => if k = weKey a ∧ d = c ∧ P then v else xCode s k d) fy := by
  obtain ⟨f1, oc, ox, oy, of, orr, off⟩ := h
  rcases hw with ⟨hd, rfl⟩ | ⟨hd, rfl⟩
  · refine ⟨weFrame_setX f1 _ _, oc, fun k d h => ?_, oy, of, orr, off⟩
    rw [xCode_setX hc h, ox k d h]; exact if_congr ⟨fun h => ⟨h.1, h.2, hd⟩, fun h => ⟨h.1, h.2.1⟩⟩ rfl rfl
  · exact ⟨f1, oc, fun k d h => by rw [ox k d h]; exact (if_neg (fun h => hd h.2.2)).symm, oy, of, orr, off⟩

theorem weParts_y {u t w : State} {fx : Nat → Nat → Code} {P : Prop} [Decidable P] (hc : c < 16) (v : Code)
    (h : weParts a s u t fx (yCode s)) (hw : P ∧ w = setY (weKey a) c v t ∨ ¬P ∧ w = t) :
    weParts a s u w fx (fun k d => if k = weKey a ∧ d = c ∧ P then v else yCode s k d) := by
  obtain ⟨f1, oc, ox, oy, of, orr, off⟩ := h
  rcases hw with ⟨hd, rfl⟩ | ⟨hd, rfl⟩
  · refine ⟨weFrame_setY f1 _ _, oc, ox, fun k d h => ?_, of, orr, off⟩
    rw [yCode_setY hc h, oy k d h]; exact if_congr ⟨fun h => ⟨h.1, h.2, hd⟩, fun h => ⟨h.1, h.2.1⟩⟩ rfl rfl
  · exact ⟨f1, oc, ox, fun k d h => by rw [oy k d h]; exact (if_neg (fun h => hd h.2.2)).symm, of, orr, off⟩

theorem weParts_out {t : State} {P : Prop} [Decidable P] (r : Word)
    (hw : P ∧ t = setCrystal (weKey a) { crystalOf s (weKey a) with out := r } s ∨ ¬P ∧ t = s) :
    weParts a s t t (xCode s) (yCode s) ∧ (crystalOf t (weKey a)).out = (if P then r else (crystalOf s (weKey a)).out)
      ∧ (crystalOf t (weKey a)).muls = (crystalOf s (weKey a)).muls := by
  rcases hw with ⟨hd, rfl⟩ | ⟨hd, rfl⟩
  · refine ⟨⟨weFrame_setCrystal (weFrame_refl a s) _ rfl, rfl, fun _ _ _ => rfl, fun _ _ _ => rfl, fun _ => rfl, rfl, rfl⟩, ?_, ?_⟩
    · rw [if_pos hd, crystalOf_setCrystal]
    · rw [crystalOf_setCrystal]
  · rw [if_neg hd]; exact ⟨⟨weFrame_refl a _, rfl, fun _ _ _ => rfl, fun _ _ _ => rfl, fun _ => rfl, rfl, rfl⟩, rfl, rfl⟩

theorem weParts_fl {u t w : State} {fx fy : Nat → Nat → Code} (v : Code) (g : Nat → WeFlags) (hs : ∀ d, weFlagsOf s a d = g d)
    (h : weParts a s u t fx fy) (e : WeFlags) (hc : c < 16)
    (hw : e = g c ∧ w = t ∨ w = setFl (weKey a) v t ∧ (∀ d, ctxFlags (decode72 v).data d = if d = c then e else g d)) :
    weFrame a s w ∧ crystalOf w (weKey a) = crystalOf u (weKey a) ∧ (∀ k d, d < 16 → xCode w k d = fx k d)
      ∧ (∀ k d, d < 16 → yCode w k d = fy k d) ∧ weFlagsOf w a c = e ∧ (∀ d, d < 16 → d ≠ c → weFlagsOf w a d = weFlagsOf s a d)
      ∧ w.fab.rows = s.fab.rows ∧ w.fab.fences = s.fab.fences := by
  obtain ⟨f1, oc, ox, oy, of, orr, off⟩ := h
  rcases hw with ⟨he, rfl⟩ | ⟨rfl, he⟩
  · refine ⟨f1, oc, ox, oy, ?_, fun d _ _ => ?_, orr, off⟩
    · rw [he, ← hs]; unfold weFlagsOf; rw [of]
    · unfold weFlagsOf; rw [of]
  · refine ⟨weFrame_setFl f1 _, oc, ox, oy, ?_, fun d _ hd => ?_, orr, off⟩
    · conv => lhs; unfold weFlagsOf
      rw [flCode_setFl, he, if_pos rfl]
    · rw [hs d]
      conv => lhs; unfold weFlagsOf
      rw [flCode_setFl, he, if_neg hd]

theorem ctxFlags_encoded (w : Word) (c : Nat) (v : WeFlags) (hc : c < 16) (d : Nat) :
    ctxFlags (decode72 (encCode (setFld w (4 * c) 4 (flagBits v)))).data d = if d = c then v else ctxFlags w d := by
  rw [decode72_encCode]
  by_cases h : d = c
  · rw [if_pos h, h]; exact ctxFlags_setFld_same _ _ _ hc
  · rw [if_neg h]; exact ctxFlags_setFld_other _ _ _ _ hc h

/-- An instruction that writes its destination and flags (R71, R76, R77): everything it can do. -/
theorem regEffect_done (hc : c < 16) (r : Word) (cy ov : Option Bool) (e : WeEffect)
    (h1 : e.out = if dstOut f.dst then some r else none) (h2 : e.x = if dstX f.dst then some r else none)
    (h3 : e.y = if dstY f.dst then some r else none)
    (h4 : e.fl = flagsAfter (weFlagsOf s a c) (weEnv s a c).hold ⟨r, cy, ov⟩) :
    weDone a f c s (regEffect (weKey a) c (decode72 (flCode s (weKey a))).data e s) r cy ov := by
  obtain ⟨o1, p1, p2⟩ := weParts_out (a := a) r (putOut_dst f.dst (weKey a) r e.out h1 s)
  have o2 := weParts_x hc (encCode r) o1 (putX_dst f.dst (weKey a) c r e.x h2 _)
  have o3 := weParts_y hc (encCode r) o2 (putY_dst f.dst (weKey a) c r e.y h3 _)
  have o4 := weParts_fl (encCode (setFld (decode72 (flCode s (weKey a))).data (4 * c) 4 (flagBits e.fl)))
    (fun d => weFlagsOf s a d) (fun _ => rfl) o3 e.fl hc (w := regEffect (weKey a) c (decode72 (flCode s (weKey a))).data e s) (by
      unfold regEffect
      generalize putY (weKey a) c e.y _ = t
      unfold putFl
      split
      · next h => exact .inl ⟨h, rfl⟩
      · exact .inr ⟨rfl, ctxFlags_encoded _ _ _ hc⟩)
  obtain ⟨f, oc, ox, oy, o5, o6, o7, o8⟩ := o4
  refine ⟨by rw [oc]; exact p1, by rw [oc]; exact p2, ox, oy, ?_, o6, o7, o8, f⟩
  rw [o5, h4]
  unfold flagsAfter
  rw [bit63]

/-- An instruction that starts, executes and computes a result (R73, R76): the next state holds it, and nothing else changes. -/
theorem weStep_done (hs : weStarts op a f c s) (he : op = .sel ∨ weCond s a c f = true) (hf : weFree a f c s) (w : WeRes)
    (hw : weResult op f (weA s a c f) (weB s a c f) (weFlagsOf s a c) (weCond s a c f) (weEnv s a c).stage = some w) :
    weDone a f c s (weStep op a f s) w.r w.c w.v := by
  have hc := (weCtx_plan hs.1).2.2.2.1
  rw [weStep_eq op f hs.1]
  have hi : weIssue (some op) f (weEnv s a c) (BitVec.ofNat 4 c) (doneMul (crystalOf s (weKey a))) =
      { WeEffect.idle (weEnv s a c).fl with
        out := if dstOut f.dst then some w.r else none
        x := if dstX f.dst then some w.r else none
        y := if dstY f.dst then some w.r else none
        fl := flagsAfter (weEnv s a c).fl (weEnv s a c).hold w } := by
    unfold weIssue
    rw [hs.2]
    dsimp only
    rw [weEnv_fl hs.1]
    unfold weCond at he hw
    unfold weA weB at hw
    rw [hw, if_neg (by rcases he with h | h <;> simp [h])]
    dsimp only
    rw [if_neg (by have := hf; unfold weFree at this; rw [this]; simp)]
  rw [hi]
  dsimp only [WeEffect.idle]
  rw [applyEffect_plain _ _ _ _ _ _ rfl rfl rfl]
  exact regEffect_done hc w.r w.c w.v _ rfl rfl rfl (by rw [weEnv_fl hs.1])

/-- An instruction whose condition does not hold, SEL apart, leaves the state as it is (R74). -/
theorem weStep_idle (hs : weStarts op a f c s) (ho : op ≠ .sel) (he : weCond s a c f = false) : weStep op a f s = s := by
  rw [weStep_eq op f hs.1]
  have hi : weIssue (some op) f (weEnv s a c) (BitVec.ofNat 4 c) (doneMul (crystalOf s (weKey a))) = WeEffect.idle (weEnv s a c).fl := by
    unfold weIssue
    rw [hs.2]
    dsimp only
    rw [weEnv_fl hs.1]
    unfold weCond at he
    rw [if_pos (by simp [ho, he])]
  rw [hi]
  dsimp only [WeEffect.idle]
  rw [applyEffect_plain _ _ _ _ _ _ rfl rfl rfl]
  unfold regEffect
  exact if_pos (weEnv_fl hs.1)

/-- What an instruction without a result issues (R76). -/
def bareEffect (op : WeOp) (f : WeFields) (x y : Word) (fl : WeFlags) : WeEffect :=
  match op with
  | .mul32u => { WeEffect.idle fl with mul := some (f.dst, mulProduct x y false) }
  | .mul32s => { WeEffect.idle fl with mul := some (f.dst, mulProduct x y true) }
  | .str => { WeEffect.idle fl with stage := some (stageOffset x f.sh, f.imm8, y) }
  | .fence => { WeEffect.idle fl with fence := some (BitVec.ofNat 2 (fld f.imm8 0 2)) }
  | _ => WeEffect.idle fl

/-- What an instruction without a result issues where its condition holds (R73, R76). -/
theorem weIssue_bare (hs : weStarts op a f c s) (he : weCond s a c f = true) (done : Option Mul)
    (hw : weResult op f (weA s a c f) (weB s a c f) (weFlagsOf s a c) (weCond s a c f) (weEnv s a c).stage = none) :
    weIssue (some op) f (weEnv s a c) (BitVec.ofNat 4 c) done = bareEffect op f (weA s a c f) (weB s a c f) (weFlagsOf s a c) := by
  unfold weIssue
  rw [hs.2]
  dsimp only
  rw [weEnv_fl hs.1]
  unfold weCond at he hw
  unfold weA weB at hw
  rw [hw, if_neg (by simp [he])]
  unfold weA weB bareEffect
  rfl

theorem applyEffect_idle (n x c : Nat) (fw : Word) (s : State) : applyEffect n x c fw (WeEffect.idle (ctxFlags fw c)) s = s := by
  rw [applyEffect_plain _ _ _ _ _ _ rfl rfl rfl]
  unfold regEffect putFl
  exact if_pos rfl

/-- An effect that only issues a multiply. -/
theorem applyEffect_mul (n x c : Nat) (fw : Word) (m : BitVec 2 × Word) (s : State) :
    applyEffect n x c fw { WeEffect.idle (ctxFlags fw c) with mul := some m } s =
      setCrystal (xk n x) { crystalOf s (xk n x) with muls := (crystalOf s (xk n x)).muls ++ [⟨m.1, BitVec.ofNat 4 c, m.2, 2⟩] } s := by
  unfold applyEffect WeEffect.idle
  dsimp only
  rw [if_pos rfl]

/-- An effect that only writes the stage. -/
theorem applyEffect_stage (n x c : Nat) (fw : Word) (w : Nat × BitVec 8 × Word) (s : State) :
    applyEffect n x c fw { WeEffect.idle (ctxFlags fw c) with stage := some w } s = storeStage n x w s := by
  unfold applyEffect WeEffect.idle
  dsimp only
  rw [if_pos rfl]

/-- An effect that only posts a fence. -/
theorem applyEffect_fence (n x c : Nat) (fw : Word) (sc : BitVec 2) (s : State) :
    applyEffect n x c fw { WeEffect.idle (ctxFlags fw c) with fence := some sc } s = postFence n x sc s := by
  unfold applyEffect WeEffect.idle
  dsimp only
  rw [if_pos rfl]

/-- NOP changes nothing (R76). -/
theorem weStep_nop (hs : weStarts .nop a f c s) : weStep .nop a f s = s := by
  by_cases he : weCond s a c f = true
  · rw [weStep_eq _ _ hs.1, weIssue_bare hs he _ rfl]
    exact applyEffect_idle _ _ _ _ _
  · exact weStep_idle hs (by decide) (by simpa using he)

/-- A multiply joins those in flight of its crystal, and nothing else changes (R86). -/
theorem weStep_mul32u (h : weRuns .mul32u a f c s) :
    weStep .mul32u a f s = setCrystal (weKey a) { crystalOf s (weKey a) with muls := (crystalOf s (weKey a)).muls ++
      [⟨f.dst, BitVec.ofNat 4 c, mulProduct (weA s a c f) (weB s a c f) false, 2⟩] } s := by
  rw [weStep_eq _ _ h.1.1, weIssue_bare h.1 h.2 _ rfl]
  exact applyEffect_mul _ _ _ _ _ _
theorem weStep_mul32s (h : weRuns .mul32s a f c s) :
    weStep .mul32s a f s = setCrystal (weKey a) { crystalOf s (weKey a) with muls := (crystalOf s (weKey a)).muls ++
      [⟨f.dst, BitVec.ofNat 4 c, mulProduct (weA s a c f) (weB s a c f) true, 2⟩] } s := by
  rw [weStep_eq _ _ h.1.1, weIssue_bare h.1 h.2 _ rfl]
  exact applyEffect_mul _ _ _ _ _ _

/-- STR writes the stage of its row port (R90). -/
theorem weStep_str (h : weRuns .str a f c s) :
    weStep .str a f s = storeStage a.basin a.addr.toNat (stageOffset (weA s a c f) f.sh, f.imm8, weB s a c f) s := by
  rw [weStep_eq _ _ h.1.1, weIssue_bare h.1 h.2 _ rfl]
  exact applyEffect_stage _ _ _ _ _ _

/-- FENCE posts a fence on its port (R93). -/
theorem weStep_fence (h : weRuns .fence a f c s) :
    weStep .fence a f s = postFence a.basin a.addr.toNat (BitVec.ofNat 2 (fld f.imm8 0 2)) s := by
  rw [weStep_eq _ _ h.1.1, weIssue_bare h.1 h.2 _ rfl]
  exact applyEffect_fence _ _ _ _ _ _

/-- An instruction with a fault condition writes nothing and traps (R94). -/
theorem weStep_fault (hc : weCtx s a = some c) (cause : BitVec 16)
    (hf : weFault (some op) f (weEnv s a c).rowPort (weEnv s a c).anyPort (weEnv s a c).xLock (weEnv s a c).yLock = some cause) :
    weStep op a f s = raiseTraps a.basin [(a.addr.toNat, cause.toNat, c)] s := by
  have hi : weIssue (some op) f (weEnv s a c) (BitVec.ofNat 4 c) (doneMul (crystalOf s (weKey a))) =
      { WeEffect.idle (weFlagsOf s a c) with fault := some cause } := by
    unfold weIssue; rw [hf]; dsimp only; rw [weEnv_fl hc]
  rw [weStep_eq _ _ hc, hi]
  dsimp only
  congr 1
  unfold applyEffect WeEffect.idle
  dsimp only
  exact if_pos rfl

end Sys2Proof.Machine
end

