-- ==== Sys2Proof/Laws/Work.lean ====
section
/-! SUPPORT. What the flow of items touches: `onlyWork` of Safety.lean over the shared operations of Sluice, the lanes and Enrus. -/

namespace Sys2Proof.Machine

variable {s t : State}

theorem onlyWork_refl (s : State) : onlyWork s s := ⟨rfl, fun _ _ => rfl⟩

theorem onlyWork_trans {u : State} (h : onlyWork s t) (k : onlyWork t u) : onlyWork s u := by
  refine ⟨?_, fun a ha => (k.2 a ha).trans (h.2 a ha)⟩
  have h1 := h.1; have k1 := k.1
  rw [← h1]
  rw [← k1]

/-- What an operation keeps, a sequence of it keeps. -/
theorem onlyWork_foldl {β : Type} (f : State → β → State) (hf : ∀ t b, onlyWork t (f t b)) (l : List β) :
    ∀ t, onlyWork s t → onlyWork s (l.foldl f t) := by
  induction l with
  | nil => intro t h; exact h
  | cons b l ih => intro t h; exact ih _ (onlyWork_trans h (hf t b))

theorem onlyWork_ite (b : Bool) {x y : State} (hx : onlyWork s x) (hy : onlyWork s y) : onlyWork s (if b then x else y) := by
  cases b <;> assumption

theorem onlyWork_wr (h : onlyWork s t) (a : Nat) (v : Reg) (ha : workPage (a / 0x1000) = true) : onlyWork s (wr a v t) := by
  refine ⟨h.1, fun b hb => ?_⟩
  rw [rd_wr_other t (by rintro rfl; rw [ha] at hb; cases hb)]; exact h.2 b hb
theorem onlyWork_wrF (h : onlyWork s t) (a lo n x : Nat) (ha : workPage (a / 0x1000) = true) : onlyWork s (wrF a lo n x t) :=
  onlyWork_wr h a _ ha
theorem onlyWork_withSlu (h : onlyWork s t) (u : Sluice → Sluice) : onlyWork s (withSlu u t) := h
theorem onlyWork_lan (h : onlyWork s t) (x : Lanes) : onlyWork s { t with lan := x } := h
theorem onlyWork_withLan (h : onlyWork s t) (u : Lanes → Lanes) : onlyWork s (withLan u t) := h
theorem onlyWork_withEcc (h : onlyWork s t) (u : Ecc → Ecc) : onlyWork s (withEcc u t) := h
theorem onlyWork_send (h : onlyWork s t) (o : Out) : onlyWork s (send o t) := h
theorem onlyWork_takeFree (h : onlyWork s t) (w : Nat) : onlyWork s (takeFree w t).2 := h
theorem onlyWork_setEnrPort (h : onlyWork s t) (p : Nat) (e : EnrPort) : onlyWork s (setEnrPort p e t) := h
theorem onlyWork_setBank (h : onlyWork s t) (n : Nat) (b : Bank) : onlyWork s (setBank n b t) := h

theorem onlyWork_sendVector (h : onlyWork s t) (v : Nat) : onlyWork s (sendVector v t) := by
  refine ⟨?_, fun a ha => by rw [rd_sendVector]; exact h.2 a ha⟩
  unfold sendVector; split <;> exact h.1
theorem onlyWork_risen (h : onlyWork s t) (v : Nat) (r : State) : onlyWork s (risen v r t) := by
  unfold risen; split
  · exact onlyWork_sendVector h v
  · exact h
theorem onlyWork_setIrq (h : onlyWork s t) (p b : Nat) (hp : workPage p = true) : onlyWork s (setIrq p b t) := by
  unfold setIrq
  refine onlyWork_risen (onlyWork_wrF h _ _ _ _ ?_) _ _
  have : irqA p / 0x1000 = p := by unfold irqA; omega
  rw [this]; exact hp

theorem onlyWork_incF (h : onlyWork s t) (a lo n k : Nat) (ha : workPage (a / 0x1000) = true) : onlyWork s (incF a lo n k t) :=
  onlyWork_wrF h _ _ _ _ ha

/-- A trace record touches the DBG page, the free values and the messages sent (R523). -/
theorem onlyWork_traceOut (h : onlyWork s t) (src : Nat) (v : BitVec 192) : onlyWork s (traceOut src v t) := by
  unfold traceOut
  split
  · simp only
    split
    · exact onlyWork_incF (onlyWork_takeFree h 1) _ _ _ _ (by decide)
    · exact onlyWork_send (onlyWork_takeFree h 1) _
  · exact h

theorem onlyWork_ringEntry (h : onlyWork s t) (d : Nat) (w0 w1 : Word) (hd : d < 5) : onlyWork s (ringEntry d w0 w1 t) := by
  have hp : workPage ((0xA100 + 16 * d) / 0x1000) = true ∧ workPage ((0xA100 + 16 * d + 8) / 0x1000) = true := by
    have : (0xA100 + 16 * d) / 0x1000 = 0xA ∧ (0xA100 + 16 * d + 8) / 0x1000 = 0xA := by omega
    rw [this.1, this.2]; decide
  unfold ringEntry; simp only
  split
  · exact onlyWork_setIrq (onlyWork_incF h _ _ _ _ hp.2) _ _ (by decide)
  · exact onlyWork_wr (onlyWork_traceOut (onlyWork_withEcc h fun e => { e with rings := _ }) _ _) _ _ hp.1

theorem onlyWork_chargeTrack (h : onlyWork s t) (k u : Nat) : onlyWork s (chargeTrack k u t).1 := by
  unfold chargeTrack; simp only
  split
  · exact h
  · split
    · exact h
    · split <;> exact h

/-- A log entry touches the ECC page, its rings and tracker, a trace and the interrupts (R463, R467). -/
theorem onlyWork_logErr (h : onlyWork s t) (kind addr syn cause : Nat) (ue sweep : Bool) (hk : kind < 16) :
    onlyWork s (logErr kind addr syn cause ue sweep t) := by
  have hd : logDie kind addr < 5 := by unfold logDie; split <;> first | omega | (split <;> omega)
  have hc : workPage ((0xA200 + 4 * kind) / 0x1000) = true := by
    have : (0xA200 + 4 * kind) / 0x1000 = 0xA := by omega
    rw [this]; decide
  unfold logErr; simp only
  have h1 := onlyWork_chargeTrack h kind (trackUnit kind addr)
  generalize chargeTrack kind (trackUnit kind addr) t = q at h1
  have h2 := onlyWork_incF (onlyWork_ringEntry h1 (logDie kind addr)
    (BitVec.ofNat 64 (cause % 2 ^ 16 + syn % 256 * 2 ^ 16 + addr % 2 ^ 40 * 2 ^ 24))
    (BitVec.ofNat 64 (fld q.1.time 4 48 + kind % 16 * 2 ^ 52 + b2n sweep * 2 ^ 61 + b2n q.2 * 2 ^ 62 + b2n ue * 2 ^ 63)) hd)
    (0xA200 + 4 * kind) (if ue then 16 else 0) 16 1 hc
  generalize incF _ _ _ _ _ = u at h2 ⊢
  have h3 : ∀ (b : Bool) (w : State), onlyWork s w → onlyWork s (if b then setIrq pgECC 0 w else w) := fun b w hw =>
    onlyWork_ite b (onlyWork_setIrq hw _ _ (by decide)) hw
  have h4 : ∀ (b : Bool) (w : State), onlyWork s w → onlyWork s (if b then setIrq pgECC 1 w else w) := fun b w hw =>
    onlyWork_ite b (onlyWork_setIrq hw _ _ (by decide)) hw
  refine h4 _ _ (h3 _ _ (onlyWork_ite _ ?_ h2))
  exact onlyWork_wr (onlyWork_wr (onlyWork_wr (onlyWork_wr h2 _ _ (by decide)) _ _ (by decide)) _ _ (by decide)) _ _ (by decide)

theorem onlyWork_logDecoded (h : onlyWork s t) (kind addr cause : Nat) (d : Decoded) (sweep : Bool) (hk : kind < 16) :
    onlyWork s (logDecoded kind addr cause d sweep t) := by
  unfold logDecoded; split
  · exact h
  · exact onlyWork_logErr h _ _ _ _ _ _ hk
  · exact onlyWork_logErr h _ _ _ _ _ _ hk

-- The memory die

theorem onlyWork_rowLogOne (h : onlyWork s t) (bank row w : Nat) (d : Decoded) : onlyWork s (rowLogOne bank row w d t) := by
  have h1 := onlyWork_logDecoded h 3 (rowLogAddr bank row w) 0x0903 d false (by omega)
  unfold rowLogOne; simp only
  split
  · exact onlyWork_setIrq h1 _ _ (by decide)
  · exact h1

theorem onlyWork_rowLog (h : onlyWork s t) (bank row : Nat) : onlyWork s (rowLog bank row t) := by
  unfold rowLog
  exact onlyWork_foldl (fun u (p : Nat × Code) => rowLogOne bank row p.1 (decode72 p.2) u)
    (fun u p => onlyWork_rowLogOne (onlyWork_refl u) bank row p.1 _) _ _ h

theorem onlyWork_logRows (h : onlyWork s t) (bank row n : Nat) : onlyWork s (logRows bank row n t) := by
  unfold logRows
  exact onlyWork_foldl (fun u r => rowLog bank (row + r) u) (fun u r => onlyWork_rowLog (onlyWork_refl u) bank (row + r)) _ _ h

theorem onlyWork_putRowCode (h : onlyWork s t) (bank row w : Nat) (c : Code) : onlyWork s (putRowCode bank row w c t) := by
  unfold putRowCode; generalize tput 0 (rowKey bank row + w) c t.mem.rows = r; exact h

theorem onlyWork_writeCode (h : onlyWork s t) (bank row w mask : Nat) (v : Word) : onlyWork s (writeCode bank row w mask v t) := by
  unfold writeCode
  split
  · exact h
  · split
    · exact onlyWork_putRowCode h _ _ _ _
    · split
      · exact onlyWork_putRowCode h _ _ _ _
      · exact h

theorem onlyWork_rowWrite (h : onlyWork s t) (bank row : Nat) (mask : BitVec 1024) (data : BitVec 8192) :
    onlyWork s (rowWrite bank row mask data t) := by
  unfold rowWrite
  have h : onlyWork s (if maskMerges mask then rowLog bank row t else t) := onlyWork_ite _ (onlyWork_rowLog h _ _) h
  exact onlyWork_foldl (fun u w => writeCode bank row w (fld mask (8 * w) 8) (BitVec.ofNat 64 (fld data (64 * w) 64)) u)
    (fun u w => onlyWork_writeCode (onlyWork_refl u) bank row w _ _) (List.range 128) _ h

theorem onlyWork_writeBytes (h : onlyWork s t) (bank row o : Nat) (bs : List Byte) : onlyWork s (writeBytes bank row o bs t) := by
  unfold writeBytes
  extract_lets n
  exact onlyWork_foldl _ (fun u r => onlyWork_rowWrite (onlyWork_refl u) _ _ _ _) _ _ h

theorem onlyWork_clearBank (h : onlyWork s t) (bank : Nat) : onlyWork s (clearBank bank t) := h

theorem onlyWork_bankTouch (h : onlyWork s t) (bank : Nat) : onlyWork s (bankTouch bank t) := by
  unfold bankTouch; simp only; split
  · exact onlyWork_setBank h _ _
  · exact h

theorem onlyWork_bankRefuse (h : onlyWork s t) (req basin bank row : Nat) : onlyWork s (bankRefuse req basin bank row t) := by
  unfold bankRefuse
  extract_lets a v u
  have hu : onlyWork s u := by
    refine onlyWork_incF ?_ _ _ _ _ (by decide)
    unfold recordFirst; split
    · exact onlyWork_wrF h _ _ _ _ (by decide)
    · exact onlyWork_wr h _ _ (by decide)
  split
  · exact hu
  · exact onlyWork_setIrq hu _ _ (by decide)

-- Transmission

theorem onlyWork_setTxIndex (h : onlyWork s t) (g i : Nat) : onlyWork s (setTxIndex g i t) := onlyWork_lan h _

theorem onlyWork_sendMarkers (h : onlyWork s t) (f : TxForm) : onlyWork s (sendMarkers f t) := by
  unfold sendMarkers
  refine onlyWork_foldl _ (fun u p => ?_) _ _ h
  dsimp only
  split
  · exact onlyWork_send (onlyWork_takeFree (onlyWork_refl u) 8) _
  · exact onlyWork_send (onlyWork_refl u) _

theorem onlyWork_txPass (h : onlyWork s t) (f : TxForm) (g k : Nat) : onlyWork s (txPass f g k t) := by
  unfold txPass
  extract_lets j u
  have hu : onlyWork s u := by
    unfold u; split
    · exact h
    · exact onlyWork_foldl _ (fun w _ => onlyWork_sendMarkers (onlyWork_refl w) f) _ _ h
  exact onlyWork_setTxIndex hu _ _

theorem onlyWork_sendBlock (h : onlyWork s t) (f : TxForm) (g : Nat) (b : Block) : onlyWork s (sendBlock f g t b) :=
  onlyWork_txPass (onlyWork_send h _) _ _ _

theorem onlyWork_sendBytes (h : onlyWork s t) (f : TxForm) (g : Nat) (bs : List Byte) : onlyWork s (sendBytes f g bs t) :=
  onlyWork_foldl _ (fun u b => onlyWork_sendBlock (onlyWork_refl u) f g b) _ _ h

-- Enrus

theorem onlyWork_sendFlit (h : onlyWork s t) (p typ vc seq ack : Nat) (payload : List Byte) :
    onlyWork s (sendFlit p typ vc seq ack payload t) := by
  unfold sendFlit; simp only; split
  · exact h
  · exact onlyWork_sendBytes (onlyWork_setEnrPort h _ _) _ _ _

theorem onlyWork_pumpOne (h : onlyWork s t) (p v : Nat) : onlyWork s (pumpOne p v t) := by
  unfold pumpOne; simp only; split
  · exact h
  · split
    · exact onlyWork_sendFlit (onlyWork_setEnrPort h _ _) _ _ _ _ _ _
    · exact h

theorem onlyWork_pump (p n : Nat) : ∀ t, onlyWork s t → onlyWork s (pump p n t) := by
  induction n with
  | zero => intro t h; exact h
  | succ n ih => intro t h; exact ih _ (onlyWork_foldl _ (fun u v => onlyWork_pumpOne (onlyWork_refl u) p v) _ _ h)

theorem onlyWork_sendMsg (h : onlyWork s t) (p : Nat) (m : Msg) : onlyWork s (sendMsg p m t) := by
  unfold sendMsg pumpAll; simp only
  exact onlyWork_pump _ _ _ (onlyWork_setEnrPort h _ _)

-- Sluice

theorem onlyWork_sluTouch (h : onlyWork s t) (k e lo hi : Nat) : onlyWork s (sluTouch k e lo hi t) := by
  unfold sluTouch; simp only
  refine onlyWork_withSlu (onlyWork_foldl _ (fun u d => ?_) _ _ h) _
  have := onlyWork_logErr (onlyWork_refl u) 4 (k * 2 ^ 36 + d.word % 16 * 2 ^ 32 + e) d.syn.toNat (structCause k d.word) d.ue false (by omega)
  exact onlyWork_ite d.ue (onlyWork_setIrq this _ _ (by decide)) this

theorem onlyWork_sluMend (h : onlyWork s t) (k e lo hi : Nat) : onlyWork s (sluMend k e lo hi t) := onlyWork_withSlu h _
theorem onlyWork_setFlowDyn (h : onlyWork s t) (f : Nat) (d : FlowDyn) : onlyWork s (setFlowDyn f d t) := by
  unfold setFlowDyn
  extract_lets o u v
  have hu : onlyWork s u := onlyWork_withSlu h _
  have hv : onlyWork s v := by unfold v; split; exacts [hu, onlyWork_sluMend hu _ _ _ _]
  split
  · exact hv
  · exact onlyWork_sluMend hv _ _ _ _
theorem onlyWork_setSlot (h : onlyWork s t) (n : Nat) (v : Slot) : onlyWork s (setSlot n v t) := onlyWork_withSlu h _
theorem onlyWork_setReady (h : onlyWork s t) (p : Nat) (l : List Nat) : onlyWork s (setReady p l t) := onlyWork_withSlu h _

theorem onlyWork_reeval (h : onlyWork s t) (f : Nat) : onlyWork s (reeval f t) := by
  unfold reeval; simp only; split
  · split
    · exact h
    · exact onlyWork_setReady h _ _
  · exact onlyWork_setReady h _ _

theorem onlyWork_mendLinks (h : onlyWork s t) (l : List Nat) : onlyWork s (mendLinks l t) :=
  onlyWork_foldl _ (fun u n => onlyWork_sluMend (onlyWork_refl u) _ _ _ _) _ _ h
theorem onlyWork_pushTail (h : onlyWork s t) (f n : Nat) : onlyWork s (pushTail f n t) :=
  onlyWork_reeval (onlyWork_setFlowDyn (onlyWork_setSlot (onlyWork_mendLinks h _) _ _) _ _) _
theorem onlyWork_takeWant (h : onlyWork s t) (n : Nat) : onlyWork s (takeWant n t) := by
  unfold takeWant; split
  · split
    · exact onlyWork_withSlu (onlyWork_sluMend (onlyWork_setSlot h _ _) _ _ _ _) _
    · exact h
  · exact h
theorem onlyWork_pushHead (h : onlyWork s t) (f n : Nat) : onlyWork s (pushHead f n t) := by
  unfold pushHead
  exact onlyWork_reeval (onlyWork_setFlowDyn (onlyWork_setSlot (onlyWork_mendLinks (onlyWork_takeWant h n) [n]) _ _) _ _) _
theorem onlyWork_unqueue (h : onlyWork s t) (f n : Nat) : onlyWork s (unqueue f n t) :=
  onlyWork_reeval (onlyWork_setFlowDyn h _ _) _

theorem onlyWork_quarantineFlow (h : onlyWork s t) (f : Nat) : onlyWork s (quarantineFlow f t) := by
  unfold quarantineFlow; split
  · exact h
  · exact onlyWork_setIrq (onlyWork_reeval (onlyWork_setFlowDyn h _ _) _) _ _ (by decide)

theorem onlyWork_excEntry (h : onlyWork s t) (flow cause : Nat) (k : BitVec 20) : onlyWork s (excEntry flow cause k t) := by
  unfold excEntry; simp only; split
  · exact onlyWork_incF h _ _ _ _ (by decide)
  · exact onlyWork_setIrq (onlyWork_wr (onlyWork_sluMend (onlyWork_withSlu h _) _ _ _ _) _ _ (by decide)) _ _ (by decide)

theorem onlyWork_returnGroup (h : onlyWork s t) (bank row : Nat) : onlyWork s (returnGroup bank row t) := h
theorem onlyWork_takeGroup (h : onlyWork s t) (g : Nat) : onlyWork s (takeGroup g t) := h

theorem onlyWork_freeOne (h : onlyWork s t) (n : Nat) : onlyWork s (freeOne n t) := by
  unfold freeOne; simp only
  refine onlyWork_sluMend (onlyWork_setSlot ?_ _ _) _ _ _ _
  split
  · exact h
  · exact onlyWork_returnGroup h _ _

theorem onlyWork_controlItem (h : onlyWork s t) (p : Nat) (on : Bool) : onlyWork s (controlItem p on t) := by
  unfold controlItem; simp only; split
  · exact onlyWork_pushHead (onlyWork_setSlot h _ _) _ _
  · exact onlyWork_sluMend (onlyWork_setSlot h _ _) _ _ _ _
  · exact onlyWork_withSlu h _

theorem onlyWork_releaseSlot (h : onlyWork s t) (n : Nat) : onlyWork s (releaseSlot n t) := by
  unfold releaseSlot; simp only
  have h1 := onlyWork_freeOne (onlyWork_foldl (fun t m => freeOne m t) (fun u m => onlyWork_freeOne (onlyWork_refl u) m)
    (((slotOf t n).ops).map fun o => fld o.1 0 18) t h) n
  generalize freeOne n _ = u at h1 ⊢
  split
  · split
    · exact onlyWork_controlItem (onlyWork_withSlu h1 _) _ _
    · exact h1
  · exact h1

theorem onlyWork_toException (h : onlyWork s t) (n c : Nat) : onlyWork s (toException n c t) :=
  onlyWork_releaseSlot (onlyWork_excEntry h _ _ _) _

theorem onlyWork_bpEval (h : onlyWork s t) : onlyWork s (bpEval t) := by
  unfold bpEval
  extract_lets ps u v
  have hu : onlyWork s u := onlyWork_withSlu h _
  have hv : onlyWork s v := onlyWork_ite _ (onlyWork_setIrq hu _ _ (by decide)) hu
  refine onlyWork_foldl _ (fun w p => ?_) _ _ hv
  unfold tellBp
  split
  · exact onlyWork_controlItem (onlyWork_withSlu (onlyWork_refl w) _) _ _
  · exact onlyWork_refl w

theorem onlyWork_readDelay (h : onlyWork s t) (n : Nat) : onlyWork s (readDelay n t) := by
  unfold readDelay; split
  · exact onlyWork_sluMend (onlyWork_withSlu (onlyWork_sluTouch h 5 n 0 2) _) _ _ _ _
  · exact onlyWork_sluTouch h _ _ _ _

theorem onlyWork_delayLinks (h : onlyWork s t) (k x : Nat) : onlyWork s (delayLinks k x t) :=
  onlyWork_foldl (fun u (e : Nat × Nat) => readDelay e.2 u) (fun u e => onlyWork_readDelay (onlyWork_refl u) e.2) _ _ h

theorem onlyWork_putDelay (h : onlyWork s t) (k x n : Nat) : onlyWork s (putDelay k x n t) :=
  onlyWork_sluMend (onlyWork_delayLinks h k x) _ _ _ _

theorem onlyWork_dropMatch (h : onlyWork s t) (m : MatchEntry) : onlyWork s (dropMatch m t) := by
  unfold dropMatch
  extract_lets u
  have hu : onlyWork s u := onlyWork_withSlu h _
  split
  · exact onlyWork_delayLinks hu _ _
  · exact hu

theorem onlyWork_readMatch (h : onlyWork s t) (m : MatchEntry) : onlyWork s (readMatch m t).1 := by
  unfold readMatch
  extract_lets k ue u
  have hu : onlyWork s u := onlyWork_sluTouch h _ _ _ _
  split
  · exact onlyWork_foldl _ (fun x n => onlyWork_toException (onlyWork_refl x) n _) _ _ (onlyWork_dropMatch (onlyWork_sluMend hu _ _ _ _) m)
  · exact hu

theorem onlyWork_delayOrQueue (h : onlyWork s t) (f n d : Nat) : onlyWork s (delayOrQueue f n d t) := by
  unfold delayOrQueue; split
  · exact onlyWork_pushTail h _ _
  · split
    · exact onlyWork_withSlu (onlyWork_setSlot (onlyWork_putDelay h _ _ _) _ _) _
    · exact onlyWork_setIrq (onlyWork_withSlu (onlyWork_pushTail h _ _) _) _ _ (by decide)

theorem onlyWork_fuseItems (h : onlyWork s t) (f : Nat) (ns : List Nat) : onlyWork s (fuseItems f ns t) := by
  unfold fuseItems; split
  · exact h
  · next n rest =>
    simp only
    refine onlyWork_delayOrQueue ?_ _ _ _
    have h1 := onlyWork_foldl (fun t m => setSlot m { slotOf t m with place := .fusedInto } t)
      (fun u m => onlyWork_setSlot (onlyWork_refl u) _ _) rest t h
    split
    · exact h1
    · exact onlyWork_setSlot h1 _ _

theorem onlyWork_matchArrive (h : onlyWork s t) (f n : Nat) : onlyWork s (matchArrive f n t) := by
  unfold matchArrive
  extract_lets tag isKey u
  have hu : onlyWork s u := by
    unfold u; split
    · exact onlyWork_readMatch h _
    · exact h
  clear_value u
  split
  · extract_lets ns m'
    clear_value ns m'
    split
    · exact onlyWork_fuseItems (onlyWork_dropMatch hu _) _ _
    · exact onlyWork_withSlu (onlyWork_setSlot hu _ _) _
  · split
    · exact onlyWork_setIrq (onlyWork_toException hu _ _) _ _ (by decide)
    · refine onlyWork_withSlu (onlyWork_setSlot (onlyWork_sluMend ?_ _ _ _ _) _ _) _
      split
      · exact hu
      · exact onlyWork_putDelay hu _ _ _

theorem onlyWork_arriveSlot (h : onlyWork s t) (n : Nat) : onlyWork s (arriveSlot n t) := by
  unfold arriveSlot
  extract_lets f u v
  have hu : onlyWork s u := onlyWork_sluTouch h _ _ _ _
  have hv : onlyWork s v := onlyWork_ite _ (onlyWork_quarantineFlow hu _) hu
  split
  · exact onlyWork_toException hv _ _
  · split
    · exact onlyWork_toException hv _ _
    · split
      · exact onlyWork_matchArrive hv _ _
      · exact onlyWork_delayOrQueue hv _ _ _

theorem onlyWork_fillSlot (h : onlyWork s t) (n : Nat) (a : Arrival) : onlyWork s (fillSlot n a t) :=
  onlyWork_sluMend (onlyWork_setSlot h _ _) _ _ _ _

theorem onlyWork_payloadRead (h : onlyWork s t) (x : Stalled) : onlyWork s (payloadRead x t).2 := by
  unfold payloadRead; split
  · exact h
  · split
    · exact h
    · exact onlyWork_logRows h _ _ _

theorem onlyWork_sendArrive (h : onlyWork s t) (x : Stalled) : onlyWork s (sendArrive x t) := by
  unfold sendArrive
  extract_lets r u
  have hu : onlyWork s u := by
    unfold u; split
    · exact onlyWork_returnGroup (onlyWork_payloadRead h x) _ _
    · exact onlyWork_payloadRead h x
  split
  · exact onlyWork_sendMsg hu _ _
  · exact hu

theorem onlyWork_stallPayload (h : onlyWork s t) (x : Stalled) : onlyWork s (stallPayload x t) := by
  unfold stallPayload
  extract_lets u
  have hu : onlyWork s u := by unfold u; split; exacts [onlyWork_bankTouch h _, h]
  exact hu

theorem onlyWork_forwardArrival (h : onlyWork s t) (a : Arrival) : onlyWork s (forwardArrival a t) := by
  unfold forwardArrival
  extract_lets x
  split
  · exact onlyWork_stallPayload h x
  · exact onlyWork_sendArrive h x

/-- An arriving item (R188, R189) touches the flow of items alone. -/
theorem onlyWork_itemArrive (h : onlyWork s t) (a : Arrival) : onlyWork s (itemArrive a t).1 := by
  unfold itemArrive; split
  · exact onlyWork_forwardArrival h _
  · split
    · exact h
    · exact onlyWork_arriveSlot (onlyWork_fillSlot h _ _) _

theorem onlyWork_releaseHeld (n : Nat) : ∀ t, onlyWork s t → onlyWork s (releaseHeld n t) := by
  induction n with
  | zero => intro t h; exact h
  | succ n ih =>
    intro t h
    unfold releaseHeld; split
    · exact h
    · exact ih _ (onlyWork_bpEval (onlyWork_itemArrive (onlyWork_lan h _) _))

/-- Back-pressure and held segments (R207, R240) touch the flow of items alone. -/
theorem onlyWork_settle (h : onlyWork s t) : onlyWork s (settle t) := onlyWork_releaseHeld _ _ (onlyWork_bpEval h)

theorem onlyWork_intakeDrop (h : onlyWork s t) (l c : Nat) (hl : l < 144) : onlyWork s (intakeDrop l c t) := by
  have hq : workPage (pgQUAD (l / 4)) = true := by
    have : 0x20 ≤ pgQUAD (l / 4) ∧ pgQUAD (l / 4) < 0x44 := by unfold pgQUAD; omega
    simp [workPage, this.1, this.2]
  have ha : at' (pgQUAD (l / 4)) (0x12C + 0x40 * (l % 4)) / 0x1000 = pgQUAD (l / 4) := by simp [at', pgQUAD]; omega
  exact onlyWork_setIrq (onlyWork_incF (onlyWork_lan h _) _ _ _ _ (by rw [ha]; exact hq)) _ _ hq

/-- What the flow of items leaves of the host interface. -/
theorem onlyWork_hst_proj {α : Type} (f : HostIf → α) (hf : ∀ h x, f { h with msixPend := x } = f h) (h : onlyWork s t) :
    f t.hst = f s.hst := by
  have := congrArg (fun u => f u.hst) h.1
  simp only [hf] at this
  exact this

end Sys2Proof.Machine
end

