-- ==== Sys2Proof/Machine/Pins.lean ====
section
/-! DEFINITION. What the pins show: control outputs, user I/O, the balls of the package (19, 20). -/

namespace Sys2Proof.Machine

-- Control outputs

/-- DEV_READY (R307, R514): a copy of SYS_STAT.READY. -/
def pinDevReady (s : State) : Bool := rdB s 0x040 0
/-- CFG_ERR_N (R305): low while SYS_STAT.CFG_ERR is 1. -/
def pinCfgErrN (s : State) : Bool := !rdB s 0x040 1
/-- THERM_TRIP_N (R452): low from a trip until it is released. -/
def pinThermTripN (s : State) : Bool := !s.thm.trip
/-- ALERT_N (R498): low while an alert, a warning, DORMANT after a fault, or SEALED holds. -/
def pinAlertN (s : State) : Bool :=
  !(rdB s 0x054 31 || rdB s (at' pgTHM 0x40) 16 || (modeOf s = mDORMANT && (s.mod.wakeFault || s.thm.tripped)) || sealed s)

-- User I/O (R517, R520)

/-- What a user I/O pin does: high-impedance with a pull, a driven pair of rise and fall data, the trace port's, or boundary scan's. -/
inductive PinOut where
  | highZ (pull : Nat)
  | drive (rise fall : Bool)
  | trace
  | scan
  deriving DecidableEq, Repr

/-- The pull that IO_FENCE gives a pin: 0 none, 1 down, 2 up. -/
def fencePull (s : State) (p : Nat) : Nat := ioFence s p % 4
/-- The fence of a pin (R309, R520): FOVR where FOVR_EN is set, else IO_FENCE's. -/
def pinFence (s : State) (p : Nat) : Nat :=
  let c := pinCell s p
  if bit c 31 then fld c 29 2 else ioFence s p / 4 % 4
/-- PULL of a pin. -/
def pinPull (s : State) (p : Nat) : Nat := fld (pinCell s p) 25 2

/-- The rise and fall data at a pin (R519): with OUT_DDR 0 the rise data stands for the whole period. -/
def pinData (s : State) (p : Nat) : PinOut :=
  let c := uioCellOf s p
  .drive c.rise (if bit (pinCell s p) 6 then c.fall else c.rise)

/-- The delays in ps that a pin's line adds to its input path and to its output path (R521). -/
def pinDelay (s : State) (p : Nat) : Nat × Nat :=
  let d := 8 * (uioCellOf s p).dly
  if bit (pinCell s p) 23 then (0, d) else (d, 0)

/-- A pin at its fence (R309): drive 0, drive 1, high-impedance with its weak pull, or the last value. -/
def pinAtFence (s : State) (p : Nat) : PinOut :=
  match pinFence s p, (uioCellOf s p).last with
  | 0, _ => .drive false false
  | 1, _ => .drive true true
  | 3, some v => .drive v v
  | _, _ => .highZ (pinPull s p)

/-- The pin is held by the trace port (R496). -/
def pinTraced (s : State) (p : Nat) : Bool := holderOf s (0x1000 + p) = some pgDBG

/-- The output state of user I/O pin `p`: the first row of R520 that applies; under TEST_MODE boundary scan has every pin (R515). -/
def pinOut (s : State) (p : Nat) : PinOut :=
  let n := tget none (p / 24) s.hst.uioOwner
  if s.mod.testMode then .scan
  else if sealed s || modeOf s = mDORMANT || s.fab.hold.out then .highZ (fencePull s p)
  else if pinTraced s p then .trace
  else match n with
    | none => pinAtFence s p
    | some m =>
      if atBorder s m || modeOf s = mEMBER || !rdB s (uioOwnerA (p / 24)) 31 then pinAtFence s p
      else match fld (pinCell s p) 2 2 with
        | 2 => pinData s p
        | 3 => if pinOq s m p 2 then pinData s p else .highZ (pinPull s p)
        | _ => .highZ (pinPull s p)

-- The package (R508, R511)

/-- The alphabet of ball rows. -/
def ballLetters : List String := ["A", "B", "C", "D", "E", "F", "G", "H", "J", "K", "L", "M", "N", "P", "T", "U", "V", "W", "Y"]
/-- The name of ball row `i`, counted from 1. -/
def ballRow (i : Nat) : String :=
  let l (k : Nat) : String := ballLetters.getD (k - 1) ""
  if i ≤ 19 then l i else if i ≤ 38 then "A" ++ l (i - 19) else if i ≤ 57 then "B" ++ l (i - 38) else "C" ++ l (i - 57)

/-- A grid position without a ball (R509). -/
def noBall (i j : Nat) : Bool :=
  ((i ≤ 2 || 73 ≤ i) && (j ≤ 2 || 73 ≤ j)) || (33 ≤ i && i ≤ 42 && 33 ≤ j && j ≤ 42)

/-- The row and column of a lane's ball (R511): `k` is 0 TX_P, 1 TX_N, 2 RX_P, 3 RX_N. -/
def laneBall (n k : Nat) : Nat × Nat :=
  let q := n / 4
  let h := q % 18
  let l := n % 4
  let d := [0, 1, 3, 4].getD k 0
  let b : Nat × Nat := if h < 9 then (2 + 2 * l, 10 + 6 * h + d) else (10 + 6 * (h - 9) + d, 73 - 2 * l)
  if q < 18 then b else (75 - b.1, 75 - b.2)

end Sys2Proof.Machine
end

