-- ==== Sys2Proof/Machine/Package.lean ====
section
/-! DEFINITION. The package and the endpoint: ball groups, principal balls, control pins, rails, the limits that a board keeps, the PCIe
identity (19, 20). Nothing here changes State. -/

namespace Sys2Proof.Machine

-- Balls (R507, R510, R512)

/-- Grid positions of the package that have a ball (R507, R509). -/
def packageBalls : Nat :=
  ((List.range 74).map fun i => ((List.range 74).filter fun j => !noBall (i + 1) (j + 1)).length).sum

/-- The ball groups and their counts (R510). -/
def ballGroups : List (String × Nat) :=
  [("lanes", 576), ("PCIe", 35), ("control, straps, JTAG", 27), ("user I/O banks 0, 1", 48), ("user I/O banks 2, 3", 48),
    ("DDR-5 channels 0, 1", 316), ("DDR-5 channels 2, 3", 316), ("supplies", 1852), ("VSS", 2122), ("reserved", 20)]

/-- The principal signals and their balls, the highest bit or the P side first (R512). -/
def principalBalls : List (String × List String) :=
  [("RESET_N", ["C67"]), ("WAKE_N", ["C69"]), ("DEV_READY", ["C71"]), ("CFG_ERR_N", ["C73"]), ("ALERT_N", ["E67"]), ("THERM_TRIP_N", ["E69"]),
    ("BOOT_SEL", ["A68", "A67"]), ("DEV_ID", ["A71", "A70", "A69"]), ("PCIE_REFCLK", ["C3", "C4"]), ("REFA", ["G67", "G68"]),
    ("REFB", ["J67", "J68"]), ("XO_IN", ["E71"]), ("XO_OUT", ["E72"]), ("VSENSE_FAB", ["E73", "E74"]), ("SMB_SCL", ["G71"]),
    ("SMB_SDA", ["G72"]), ("TEST_MODE", ["G73"]), ("TCK", ["J70"]), ("TMS", ["J71"]), ("TDI", ["J72"]), ("TDO", ["J73"]), ("TRST_N", ["J74"]),
    ("PCIE_PERST_N", ["G3"])]

/-- The name of the ball at a row index and a column (R508). -/
def ballName (i j : Nat) : String := ballRow i ++ toString j

/-- How a control, strap or JTAG ball is driven (R513). -/
inductive PadKind where
  | lvcmos
  | openDrain
  deriving DecidableEq, Repr

/-- The pad of a signal and its internal pull in kilohms: up, or down (R513). -/
def padOf (signal : String) : PadKind × Option (Bool × Nat) :=
  (if ["SMB_SCL", "SMB_SDA", "ALERT_N", "THERM_TRIP_N"].contains signal then .openDrain else .lvcmos,
    if ["RESET_N", "WAKE_N", "TRST_N"].contains signal then some (true, 50)
    else if ["BOOT_SEL", "DEV_ID", "TEST_MODE"].contains signal then some (false, 50)
    else none)

-- Supplies (R524, R525)

/-- A rail of the package: nominal and absolute maximum in mV, recommended tolerance in %, maximum current in mA, balls, and the group in
which it is powered up (R524, R525). -/
structure PackageRail where
  name    : String
  nominal : Nat
  percent : Nat
  most    : Nat
  current : Nat
  balls   : Nat
  group   : Nat
  deriving DecidableEq, Repr

/-- The rails (R524, R525). -/
def packageRails : List PackageRail :=
  [⟨"VDD_AON", 800, 3, 1000, 50, 4, 1⟩, ⟨"VDD_BASE", 750, 3, 950, 80000, 360, 2⟩, ⟨"VDD_FAB", 700, 3, 900, 200000, 700, 2⟩,
    ⟨"VDD_CTX", 720, 3, 900, 140000, 300, 2⟩, ⟨"VDD_MEM", 750, 3, 950, 60000, 140, 2⟩, ⟨"VDD_MRET", 500, 3, 800, 2000, 8, 2⟩,
    ⟨"VDDA_LANE", 850, 3, 1000, 70000, 144, 2⟩, ⟨"VDDH_LANE", 1200, 3, 1350, 30000, 72, 3⟩, ⟨"VDD_PCIE", 850, 3, 1000, 4000, 12, 2⟩,
    ⟨"VDDQ_DDR", 1100, 3, 1300, 16000, 96, 3⟩, ⟨"VDD_IO", 1800, 5, 2100, 2000, 16, 3⟩]

/-- An order of power-up, by the groups of its rails, that R525 allows: no rail of a group before the last of the group below. -/
def powerUpOk : List Nat → Bool
  | [] => true
  | g :: l => l.all (g ≤ ·) && powerUpOk l

/-- A reading of a rail in mV within its recommended tolerance (R524). -/
def withinTolerance (r : PackageRail) (mv : Nat) : Bool :=
  100 * r.nominal ≤ 100 * mv + r.percent * r.nominal && 100 * mv ≤ 100 * r.nominal + r.percent * r.nominal

-- The PCIe endpoint (R482)

/-- Vendor ID, Device ID and class code. -/
def pcieIds : BitVec 16 × BitVec 16 × BitVec 24 := (0x1F2B, 0x5860, 0x120000)
/-- Subsystem ID: word 9 of IDENT, bits 15 to 0. -/
def pcieSubsystem (s : State) : BitVec 16 := BitVec.ofNat 16 (otpData s 1 9 0).toNat
/-- The BARs: number, size in bytes, prefetchable. -/
def pcieBars : List (Nat × Nat × Bool) := [(0, 2 ^ 24, false), (2, 2 ^ 29, true), (4, 2 ^ 36, true)]
/-- MSI-X vectors, the largest payload and the largest read request in bytes. -/
def pcieLimits : Nat × Nat × Nat := (64, 512, 4096)

-- Limits (R526 to R529)

/-- The largest Tj in operation and the absolute maximum, in °C (R527). -/
def tjLimits : Int × Int × Int := (-40, 105, 125)
/-- The range of storage temperature in °C (R527). -/
def storageLimits : Int × Int := (-55, 150)
/-- The heat-sink load in N: least, most, most in shock (R528). -/
def lidLoad : Nat × Nat × Nat := (300, 600, 900)
/-- The hottest lid centre in °C (R529). -/
def lidLimit : Nat := 70
/-- The greatest thermal resistance from lid to air in mK/W for air at `air` °C and a power of `watts` W (R529). -/
def lidResistance (air watts : Nat) : Nat := 1000 * (lidLimit - air) / watts
/-- The limits of the reference inputs (R526): frequency in kHz, tolerance in ppm, least and most amplitude in mV. -/
def refLimits : Nat × Nat × Nat × Nat := (156250, 100, 400, 1600)
/-- The limits of a lane (R526): least and most transmit amplitude and most receive amplitude in mV, impedance in ohms. -/
def laneLimits : Nat × Nat × Nat × Nat := (700, 1200, 1200, 100)

end Sys2Proof.Machine
end

