-- ==== Sys2Proof/Tests/Slice0.lean ====
section
/-! SUPPORT. Tests: ill-formed commands, a small state for every statement's hypotheses, and single steps checked against the spec's words. -/

namespace Sys2Proof.Tests

set_option Elab.async false

open Sys2Proof Sys2Proof.Machine

-- Small states

/-- The device in SERVICE, as reset leaves everything else. -/
def svc : State := wrF 0x1040 0 3 mSERVICE State.reset

/-- One command on a state: its state, or reset where it stops. -/
def after (c : Instr) (s : State) : State :=
  match exec c s with
  | .next t => t
  | _ => State.reset

/-- A command stops with a fault. -/
def stops (c : Instr) (s : State) : Bool :=
  match exec c s with
  | .fault _ => true
  | _ => false

-- The page header and the host interface

theorem wit_StepRunsFrontCommand : State.reset.pending = [] := by decide
/-- Every basin is halted and FCLK is 2.0 GHz. -/
def slow : State := clkFabPllWrite 20 ((List.range 34).foldl (fun t n => wr (at' (pgBSN n) 0x40) 1 t) svc)
/-- BCLK 1.2 GHz would exceed MCLK 1.0 GHz (R415). -/
theorem wit_OnlyClockSettingsStop : stops (.clkBasePllWrite 1) slow = true := by decide +kernel
/-- The SLU page with two of its interrupts set and enabled, its vector unmasked. -/
def irqs : State := withHst (fun h => { h with msixMask := 0 }) (wr (irqA pgSLU) 3 (wr (irqEnA pgSLU) 3 svc))
/-- A page that is frozen. -/
def frozen : State := wrF (statA pgSLU) 5 1 1 svc
theorem wit_PageHeaderAndInterrupts_header : pageType pgSLU ≠ 0 ∧ reaches svc pgSLU = true ∧ rdB svc (statA pgSLU) 5 = false
    ∧ reaches frozen pgSLU = true ∧ rdB frozen (statA pgSLU) 5 = true := by decide +kernel
theorem wit_PageHeaderAndInterrupts_vectors : pageType pgSLU ≠ 0 ∧ reaches irqs pgSLU = true ∧ pgSLU ≠ pgHDMA
    ∧ vectorSummary (after (.irqStatWrite pgSLU 1) irqs) (pageVector pgSLU) = true ∧ bit irqs.hst.msixMask (pageVector pgSLU) = false
    ∧ vectorSummary (after (.irqStatWrite pgSLU 3) irqs) (pageVector pgSLU) = false
    ∧ reaches irqs pgHIF = true ∧ gated irqs pgHIF = false := by decide +kernel
theorem wit_AlertAndClaims : reaches svc pgSYS = true ∧ gated svc pgSYS = false ∧ bit (0x80000000 : Reg) 31 = true
    ∧ pageType (pgUIO 0) ≠ 0 ∧ resourceOk 0x1000 = true ∧ holderOf svc 0x1000 = none
    ∧ holderOf (after (.enable (pgUIO 0) 0x1000) svc) 0x1000 = some (pgUIO 0) ∧ pgUIO 0 ≠ pgUIO 1 := by decide +kernel
/-- A staged update is asked for. -/
def updating : State := withHst (fun h => { h with updActive := true }) svc
theorem wit_StagedUpdatesAndGates_staged : reaches svc (pgUIO 3) = true ∧ gated svc (pgUIO 3) = false ∧ reaches svc pgSYS = true ∧ gated svc pgSYS = false
    ∧ updating.hst.updActive = true ∧ windowOf 0x110008 = some 2 ∧ windowOf 0x11000C = some 2 ∧ reaches svc pgSLU = true
    ∧ tableRefusal svc 0x11000C 0 = none ∧ winBufOf svc 2 = none ∧ fld (tableBase svc 0x11000C) 0 32 = 0 := by decide +kernel
/-- A buffered owner of UIO 3 and a buffered word of the group table, with their update asked for. -/
def staging : State := after (.sysUpdate 1) (after (.stagedWrite 0x11000C 0) (after (.stagedWrite (uioOwnerA 3) 0x80000001) svc))
theorem wit_StagedUpdatesAndGates_applied : staging.hst.updActive = true ∧ rdB staging (statA (pgUIO 3)) 1 = true
    ∧ bit staging.hst.updMask (rdF staging (stageA (pgUIO 3)) 0 4) = true
    ∧ staging.hst.staged.filter (fun q => q.1 / 0x1000 = pgUIO 3) = [(uioOwnerA 3, some (0x80000001 : Reg))]
    ∧ rdB staging (statA pgSLU) 1 = true ∧ bit staging.hst.updMask (rdF staging (stageA pgSLU) 0 4) = true
    ∧ staging.slu.groupsSt = [(1, some 0)] := by decide +kernel
/-- The clock of the UIO_0 page is asked to stop. -/
def stopping : State := wr (clkEnA (pgUIO 0)) 0 svc
/-- The gate of the UIO_0 page is closed and its clock is enabled. -/
def opening : State := wrF (statA (pgUIO 0)) 6 1 1 svc
theorem wit_StagedUpdatesAndGates_gates : pageType (pgUIO 0) ≠ 0 ∧ closing stopping (pgUIO 0) = true ∧ clkEnabled opening (pgUIO 0) = true
    ∧ rdB opening (statA (pgUIO 0)) 6 = true ∧ reaches svc (pgUIO 0) = true ∧ pageType (pgUIO 0) ≠ 23 ∧ alwaysRuns (pgUIO 0) = false := by
  decide +kernel
theorem wit_RegisterAccess : svc.hst.d3 = false ∧ reaches svc pgSYS = true ∧ reaches svc pgHIF = true ∧ gated svc pgHIF = false
    ∧ fld (0xC0 : Reg) 0 8 ≤ 192 ∧ modeOf svc ≠ mDORMANT ∧ modeOf svc ≠ mSEALED ∧ pageType pgTHM ≠ 0
    ∧ (List.range 256).any (fun p => pageType p = 13 && reaches svc p) = true
    ∧ (List.range 256).any (fun p => pageType p = 17 && reaches svc p) = true := by decide +kernel

-- The word engine

/-- A crystal of basin 0 that serves no port. -/
def x0 : CrystalAddr := ⟨0, 0⟩
/-- The fields of an instruction that writes OUT from two constants, always. -/
def f0 : WeFields := ⟨0, 0, 0, 0, 0, 0⟩
/-- Basin 0 runs plane 0 with its word engines on, and its crystal `x` holds plane bits that name the port kind `kind`. -/
def weAt (x kind : Nat) : State :=
  withFab (fun f => { f with
    hold := ⟨false, false, false⟩
    planeSt := [(0, ⟨.valid, 0, none⟩)]
    basins := [(0, { Basin.zero with fixedCtx := some 0 })]
    crystals := [(x, { Crystal.zero with live := some ⟨0, BitVec.ofNat 2304 (2 ^ 2209 + kind * 2 ^ 2212)⟩ })] }) svc

/-- The fields of an SHL by 0 and by 1, of B = 0. -/
def f1 : WeFields := ⟨0, 0, 7, 1, 0, 0⟩

theorem wit_SumsAndSaturation : weFree x0 f0 0 (weAt 0 0) ∧ (∀ op ∈ [WeOp.add, .addc, .sub, .subb, .acc], weRuns op x0 f0 0 (weAt 0 0))
    ∧ bit f0.sh 0 = false ∧ weRuns .acc x0 f1 0 (weAt 0 0) ∧ bit f1.sh 0 = true
    ∧ f0.cond.toNat < 12 ∧ fld (WeFields.sh ⟨0, 0, 0, 2, 0, 0⟩) 1 5 ≠ 0 := by
  unfold weFree weRuns weStarts; decide +kernel
theorem wit_BitwiseSelectAndCompare : weFree x0 f0 0 (weAt 0 0) ∧ (∀ op ∈ [WeOp.pass, .and, .or, .xor, .andn, .sel, .nop, .cmpeq, .cmpltu,
    .cmplts, .minu, .mins, .maxu, .maxs], weRuns op x0 f0 0 (weAt 0 0)) := by
  unfold weFree weRuns weStarts; decide +kernel
theorem wit_ShiftAndRotate : (∀ f ∈ [f0, f1], weFree x0 f 0 (weAt 0 0)
    ∧ ∀ op ∈ [WeOp.shl, .shr, .sar, .rol], weRuns op x0 f 0 (weAt 0 0)) ∧ f1.srcB = 7
    ∧ ((weB (weAt 0 0) x0 0 f0).toNat % 64 + f0.sh.toNat) % 64 = 0 ∧ ((weB (weAt 0 0) x0 0 f1).toNat % 64 + f1.sh.toNat) % 64 = 1 := by
  unfold weFree weRuns weStarts; decide +kernel
theorem wit_CountsFieldsAndCrc : weFree x0 f0 0 (weAt 0 0) ∧ (∀ op ∈ [WeOp.popcnt, .clz, .bswap, .extr, .ins, .crc],
    weRuns op x0 f0 0 (weAt 0 0)) := by
  unfold weFree weRuns weStarts; decide +kernel
theorem wit_HashMix : weFree x0 f0 0 (weAt 0 0) ∧ weRuns .hmix x0 f0 0 (weAt 0 0) := by unfold weFree weRuns weStarts; decide +kernel
/-- A multiply of crystal 0 of basin 0 in its last cycle, in a crystal that runs plane 0, and in a quiet one. -/
def mulling (st : PlaneState) : State := withFab (fun f => { f with
    planeSt := [(0, ⟨st, 0, none⟩)]
    crystals := [(0, { Crystal.zero with muls := [⟨0, 0, 6, 1⟩], live := some ⟨0, BitVec.ofNat 2304 (2 ^ 2209)⟩ })] }) (weAt 0 0)
theorem wit_Multiply : weRuns .mul32u x0 f0 0 (weAt 0 0) ∧ weRuns .mul32s x0 f0 0 (weAt 0 0)
    ∧ (∀ st ∈ [PlaneState.valid, .blank], underTest (mulling st) 0 = false ∧ (crystalOf (mulling st) (weKey x0)).muls = [⟨0, 0, 6, 1⟩])
    ∧ (planOf (mulling .valid) 0 0).quiet = false ∧ (planOf (mulling .blank) 0 0).quiet = true
    ∧ rdB (mulling .blank) (at' (pgBSN 0) 0x50) 31 = false := by
  unfold weRuns weStarts; decide +kernel
/-- A crystal of row port 0 of basin 0. -/
def xr : CrystalAddr := ⟨0, 360⟩
theorem wit_StageAndFence : portPlace xr.addr.toNat = some (3, 0, 4) ∧ ((weA (weAt 360 3) xr 0 f0).toNat % 1024 + f0.sh.toNat) % 1024 = 0
    ∧ weFree xr f0 0 (weAt 360 3) ∧ ∀ op ∈ [WeOp.ldr, .str, .fence], weRuns op xr f0 0 (weAt 360 3) := by
  unfold weFree weRuns weStarts; decide +kernel
/-- A trap of basin 0 is recorded. -/
def trapped : State := wr (at' (pgBSN 0) 0x50) 0x80000520 (weAt 0 0)
theorem wit_ConditionsAndFaults : (∃ f ∈ [2, 3, 4, 5, 6, 7].map fun k => { f0 with cond := k }, weStarts .add x0 f 0 (weAt 0 0) ∧ weCond (weAt 0 0) x0 0 f = false)
    ∧ (∀ s ∈ [weAt 0 0, trapped], weCtx s x0 = some 0 ∧ weFault (some .ldr) f0 (weEnv s x0 0).rowPort (weEnv s x0 0).anyPort
      (weEnv s x0 0).xLock (weEnv s x0 0).yLock = some 0x0523)
    ∧ rdB (weAt 0 0) (at' (pgBSN 0) 0x50) 31 = false ∧ rdB trapped (at' (pgBSN 0) 0x50) 31 = true := by
  unfold weStarts; decide +kernel

-- The fabric's cycle; basins and planes

/-- Basin 0 as given, no holds. -/
def bas (b : Basin) : State := withFab (fun f => { f with hold := ⟨false, false, false⟩, basins := [(0, b)] }) (wr (at' (pgBSN 0) 0x40) 0 svc)
/-- Basin 33 runs. -/
def run33 : State := wr (at' (pgBSN 33) 0x40) 0 svc
/-- Plane 3 of basin 0 in a state. -/
def plane3 (st : PlaneState) : State := withFab (fun f => { f with planeSt := [(3, ⟨st, 0, none⟩)] }) svc
/-- An item in flight of tag 3. -/
def item3 : Flight :=
  { port := 0, handle := 0, tag := 3, group := 0, bank := 0, row := 0, rows := 0, len := 0, service := 0, error := none, ended := none, endSeq := 0,
    fence := none, bound := true, outs := [] }
/-- Every pair of group 0 names basin 0, and flow 0 of that group is the head of a ready list. -/
def wanted (b : Basin) : State :=
  withSlu (fun u => { u with groups := (List.range 8).map fun w => (w, 0x8000800080008000), ready := [(0, [0])] }) (bas b)
/-- Basins 0 and 32 are halted. -/
def halted2 : State := wr (at' (pgBSN 0) 0x40) 1 (wr (at' (pgBSN 32) 0x40) 1 svc)

theorem wit_CrystalCycle : (basinOf (bas { Basin.zero with power := .doze }) 0).power ≠ .run ∧ (basinOf (weAt 0 0) 0).power = .run
    ∧ underTest (weAt 0 0) 0 = false ∧ (weAt 0 0).fab.hold.sr = false ∧ (planOf (weAt 0 0) 0 0).ctx = some 0
    ∧ (planOf (weAt 0 0) 0 0).quiet = false ∧ (planOf (weAt 0 0) 0 511).quiet = true := by decide +kernel
theorem wit_BasinModeAndPlanes_mode : reaches run33 (pgBSN 33) = true ∧ gated run33 (pgBSN 33) = false
    ∧ rdB run33 (at' (pgBSN 33) 0x40) 1 = bit (0 : Reg) 1 ∧ rdB run33 (at' (pgBSN 33) 0x40) 2 = bit (0 : Reg) 2
    ∧ rdB run33 (at' (pgBSN 33) 0x40) 0 = false ∧ rdB run33 (at' (pgBSN 33) 0x40) 1 ≠ bit (2 : Reg) 1 ∧ halted run33 33 = false
    ∧ halted halted2 0 = true ∧ rdB halted2 (at' (pgBSN 0) 0x40) 1 ≠ bit (3 : Reg) 1 ∧ bit (3 : Reg) 0 = true := by decide +kernel
theorem wit_BasinModeAndPlanes_budget : switchLimit (bas { Basin.zero with window := 20000000, stopped := true }) 0
      ≤ (basinOf (bas { Basin.zero with window := 20000000, stopped := true }) 0).window
    ∧ (basinOf (bas { Basin.zero with window := 20000000, stopped := true }) 0).power = .run
    ∧ (basinOf (bas { Basin.zero with window := 20000000, stopped := true }) 0).stopped = true := by decide +kernel
theorem wit_BasinModeAndPlanes_clear : reaches svc (pgBSN 0) = true ∧ gated svc (pgBSN 0) = false ∧ busy svc (pgBSN 0) = false
    ∧ (planeInfo (plane3 .failed) 0 3).st = .failed ∧ (planeInfo (plane3 .valid) 0 3).st = .valid ∧ inFlightOf (plane3 .valid) 0 3 = 0
    ∧ (planeInfo (plane3 .loading) 0 3).st = .loading ∧ (planeInfo (plane3 .pending) 0 3).st = .pending
    ∧ inFlightOf (bas { Basin.zero with items := [item3] }) 0 3 ≠ 0 ∧ halted (bas .zero) 0 = false
    ∧ (basinOf (bas { Basin.zero with clearing := some 3 }) 0).clearing.isSome = true := by decide +kernel
theorem wit_BasinPowerAndMap_power : (basinOf svc 0).power = .run ∧ basinIdle svc 0 = true
    ∧ (basinOf (bas { Basin.zero with power := .doze }) 0).waking = false
    ∧ rdF (wr (at' pgCLK 0x5C) 0x10000 (bas { Basin.zero with power := .doze })) (at' pgCLK 0x5C) 16 16 ≠ 0
    ∧ wakeWanted (wanted { Basin.zero with power := .deep }) 0 = true ∧ rdB (wanted .zero) (clkEnA (pgBSN 0)) 0 = true
    ∧ workHeld (wanted .zero) = false
    ∧ (basinOf (bas { Basin.zero with power := .deep, waking := true }) 0).waking = true := by decide +kernel
theorem wit_BasinPowerAndMap_map : reaches halted2 pgCFG = true ∧ gated halted2 pgCFG = false ∧ mapChanges halted2 0 0x03020120 = [(0, 0, 32)]
    ∧ (∀ i, i < 4 → fld (0x03020120 : Reg) (8 * i) 6 ≤ 33) ∧ mapBusy halted2 0 = false ∧ mapBusy halted2 32 = false
    ∧ ∀ m, m < 32 → ∀ l, l < m → (if l / 4 = 0 then fld (0x03020120 : Reg) (8 * (l % 4)) 6 else physOf halted2 l)
          ≠ (if m / 4 = 0 then fld (0x03020120 : Reg) (8 * (m % 4)) 6 else physOf halted2 m) := by decide +kernel

-- Ports of a basin

/-- A delivery to basin 0 with one descriptor beat. -/
def deliv : Delivery := ⟨5, 0, 0, 0, 0, 0, 0, none, [⟨0, true, true⟩]⟩
/-- A delivery of a control item of 64 bytes in its descriptor. -/
def deliv2 : Delivery := { deliv with beats := [⟨16, true, true⟩] }
/-- A basin 0 with a delivery waiting at port 0, and one on its way to port 1. -/
def delivering (d : Delivery) : State :=
  withSlu (fun u => { u with transit := [(0, 1, d)] }) (bas { Basin.zero with in0 := { Intake.zero with waiting := [d] } })
/-- Word 0 of row 0 of bank 0 is uncorrectable. -/
def damagedRow (s : State) : State := putRowCode 0 0 0 3 s
theorem wit_IntakeAndFences : (∀ d ∈ [deliv, deliv2], nextTransit (delivering d) 0 1 = some (0, d)
      ∧ bankAwake (bankTouch d.bank.toNat (delivering d)) d.bank.toNat = true
      ∧ (intakeOf (basinOf (delivering d) 0) 0).waiting = [d] ∧ mayAccept (delivering d) 0 0 d = true)
    ∧ (∃ b ∈ deliv.beats, fld b.words 4 2 = 0) ∧ (∃ b ∈ deliv2.beats, fld b.words 4 2 ≠ 0)
    ∧ (∀ x : Fin 4, fenceDone (setFences 0 7 [newFence svc (BitVec.ofNat 2 x)] svc) 0 7 (newFence svc (BitVec.ofNat 2 x)) = true
      ∧ fencesOf (setFences 0 7 [newFence svc (BitVec.ofNat 2 x)] svc) 0 7 = [newFence svc (BitVec.ofNat 2 x)])
    ∧ dieInReset (withMod (fun m => { m with dieReset := some 4 }) (delivering deliv)) 4 = true
    ∧ (readBytes (damagedRow (delivering deliv)) 0 0 64).2 = true := by decide +kernel

/-- Basin 0 with a border-free frame, where crystal `x` of a port of a kind shows a beat or command of number `k` and OUT `w`. -/
def issuing (x kind k : Nat) (w : Word) (b : Basin) : State :=
  withFab (fun f => { f with
    hold := ⟨false, false, false⟩
    planeSt := [(0, ⟨.valid, 0, none⟩)]
    basins := [(0, { b with fixedCtx := some 0, frame := ⟨.valid, 0, none⟩ })]
    crystals := [(x, { Crystal.zero with
      oq := BitVec.ofNat 16 (1 + 2 * k), out := w, live := some ⟨0, BitVec.ofNat 2304 (2 ^ 2209 + kind * 2 ^ 2212 + 2 ^ 2215)⟩ })] }) svc
theorem wit_RowPorts_accept : ∀ k : Fin 4, basinStill (issuing 360 3 k 0 .zero) 0 = false ∧ rowIssuers (issuing 360 3 k 0 .zero) 0 0 = [(360, k.val)]
    ∧ (rowPort (issuing 360 3 k 0 .zero) 0 0).taken = none ∧ (rowPort (issuing 360 3 k 0 .zero) 0 0).cmds.length < 4 := by decide +kernel

/-- A command of row port 0 of basin 0. -/
def cmd (k : BitVec 2) (f : Option (BitVec 16)) : RowCmd := ⟨k, f, 0, 0, 0, 0, 0, none, false⟩
/-- It waits in its port; the DRAM is READY. -/
def rowing (c : RowCmd) : State := setRowPort 0 0 { RowPort.zero with cmds := [c] } (wrF drcStatA 0 4 dREADY svc)
theorem wit_RowPorts_complete : mayComplete (rowing (cmd 0 none)) 0 0 0 = some (cmd 0 none)
    ∧ mayComplete (rowing (cmd 1 none)) 0 0 0 = some (cmd 1 none) ∧ mayComplete (rowing (cmd 0 (some 0x0552))) 0 0 0 = some (cmd 0 (some 0x0552))
    ∧ mayComplete (rowing (cmd 1 (some 0x0552))) 0 0 0 = some (cmd 1 (some 0x0552)) ∧ (cmd 0 none).reset = false ∧ (cmd 0 none).race = 0
    ∧ (rowData (rowing (cmd 0 none)) (cmdBank (cmd 0 none).word) (cmdRow (cmd 0 none).word)).2 = [] := by
  refine ⟨?_, ?_, ?_, ?_, ?_, ?_, ?_⟩ <;> decide +kernel
theorem wit_FarCommands_moves : (∀ k ∈ [2, 3], mayMove (rowing (cmd k none)) 0 0 0 = some (cmd k none))
    ∧ (cmd 2 none).failed = none ∧ (cmd 3 none).failed = none ∧ (cmd 2 none).fault = none ∧ (cmd 2 none).reset = false
    ∧ cmdStageLine (cmd 2 none).word + (cmd 2 none).done < 16 ∧ bit (cmd 2 none).race 0 = false ∧ cmdLines (cmd 3 none).word = 1 := by
  decide +kernel
theorem wit_FarCommands_read : (match dramRead srcFar (farDpa (cmd 2 none) 0) (rowing (cmd 2 none)) with
    | (.ok _, _) => true
    | _ => false) = true := by decide +kernel
theorem wit_FarCommands_write : (match dramWrite srcFar (farDpa (cmd 3 none) 0) (BitVec.allOnes 64) 0 (rowing (cmd 3 none)) with
    | (.ok _, _) => true
    | _ => false) = true := by decide +kernel

/-- An output that is open on port 0. -/
def out0 : Output := ⟨0, true, true, 0, 0, 0, 0, 0, 0, 64, []⟩
theorem wit_OutletAndCommit_beats : (∀ k : Fin 4, outBeat (issuing 248 2 k 0 { Basin.zero with items := [item3] }) 0 0 = some k.val)
    ∧ (∀ s ∈ [issuing 248 2 0 0 { Basin.zero with items := [item3] }], (basinOf s 0).taken0 = none ∧ atBorder s 0 = false ∧ basinStill s 0 = false
      ∧ beatItem s 0 (BitVec.ofNat 20 (fld (outWord s 0 0 0) 0 20)) = some item3 ∧ openItem s 0 0 = none
      ∧ (item3.outs.map (·.len)).sum + fld (outWord s 0 0 1) 0 13 ≤ 4096)
    ∧ openItem (issuing 248 2 1 0 { Basin.zero with items := [{ item3 with outs := [out0] }] }) 0 0 = some { item3 with outs := [out0] } := by
  decide +kernel
/-- An item at the commit point of basin 0, whose service 0 is current. -/
def committing (i : Flight) : State :=
  withSlu (fun u => { u with services := [⟨0, 0, 0, 0, 0, 0, 0, none, false, true⟩], slots := [(0, { Slot.filled with place := .service, service := some 0 })] })
    (bas { Basin.zero with items := [i] })
/-- Whether the outputs of an item of service 0 fit. -/
def fits (i : Flight) : Bool :=
  let s := committing i
  releasesFit (touchPartners (if mayRelease s (i.service / 2) then i.outs.map releaseOf else []) (finishService (i.service / 2) (endFlight 0 i s)))
    (logicalOf s 0) (if mayRelease s (i.service / 2) then i.outs.map releaseOf else [])
/-- An item that commits with an output of 64 bytes to the dispatcher. -/
def big : Flight := { item3 with ended := some true, outs := [{ out0 with opened := false, beats := [0] }] }
theorem wit_OutletAndCommit_points : (∀ i ∈ [{ item3 with ended := some true }, { item3 with ended := some true, error := some 0x0552 },
      { item3 with ended := some true, service := 1 }, big], commitsStopped (committing i) 0 = false ∧ endHeld (committing i) 0 i = false ∧ endedItem (committing i) 0 0 true = some i
      ∧ implicitFenceDone (committing i) 0 i = true)
    ∧ endedItem (committing { item3 with ended := some false }) 0 0 false = some { item3 with ended := some false }
    ∧ commitError (committing { item3 with ended := some true }) { item3 with ended := some true } = none
    ∧ commitError (committing { item3 with error := some 0x0552 }) { item3 with error := some 0x0552 } = some 0x0552
    ∧ guestOf { item3 with service := 1 } ≠ none ∧ guestOf item3 = none ∧ guestOf big = none
    ∧ (∀ o ∈ big.outs, toMaster (committing big) (logicalOf (committing big) 0) (releaseOf o) = false)
    ∧ fits { item3 with ended := some true } = true ∧ fits big = false := by decide +kernel

-- Sluice and its tables

/-- A lower half waits in the buffer of the partner window and one is latched of it. -/
def buffered : State := withSlu (fun u => { u with winBuf := [(0, some (0x20000, 7))], winLatch := [(0, some (0x20000, 9))] }) svc
theorem wit_TableWindows_writes : (∀ p ∈ [(0x100000, 0), (0x200000, 1), (0x110000, 2), (0x120000, 4), (0x130000, 5)],
      windowOf p.1 = some p.2 ∧ tableRo p.1 = false ∧ windowOf (p.1 + 4) = some p.2 ∧ tableRo (p.1 + 4) = false ∧ tableRefusal svc (p.1 + 4) 0 = none)
    ∧ reaches svc pgSLU = true ∧ 0x110004 / 8 % 8 < 5 ∧ winBufOf buffered 0 = some (0x100004 / 8, 7)
    ∧ (∃ p c, tableRefusal svc 0x100004 0xFF00000000000000 = some (p, c)) :=
  ⟨by decide +kernel, by decide +kernel, by decide +kernel, by decide +kernel, pgSLU, reservedValue, by decide +kernel⟩
theorem wit_TableWindows_reads : modeOf svc ≠ mDORMANT ∧ modeOf svc ≠ mSEALED ∧ svc.hst.d3 = false ∧ svc.slu.damage = []
    ∧ windowOf 0x118000 = some 3 ∧ windowOf 0x154FFC = some 10 ∧ tget none 0 buffered.slu.winLatch = some (0x100004 / 8, 9)
    ∧ buffered.slu.damage = [] ∧ tget none 0 svc.slu.winLatch = none := by decide +kernel

/-- DISPATCH_EN is 1. -/
def dispatching : State := wrF (at' pgSLU 0x40) 0 1 1 svc
theorem wit_RingsAndFlowCommands_rings : (∀ k ∈ [0, 1, 2, 3, 4, 5], reaches svc (ringPage k) = true ∧ gated svc (ringPage k) = false)
    ∧ reaches svc pgSLU = true ∧ gated svc pgSLU = false ∧ fld (0x22 : Reg) 1 5 = 17 ∧ rdB svc (at' pgSLU 0x40) 0 = false
    ∧ rdB dispatching (at' pgSLU 0x40) 0 = true ∧ fld (0x22 : Reg) 1 5 ≠ rdF dispatching (at' pgSLU 0x40) 1 5
    ∧ reaches dispatching pgSLU = true ∧ gated dispatching pgSLU = false := by decide +kernel
/-- Flow 0 is kept as given. -/
def flow (d : FlowDyn) : State := setFlowDyn 0 d svc
theorem wit_RingsAndFlowCommands_tick : (∀ p, p < 7 → (enrPort svc p).st = .down) ∧ svc.time.toNat + tickLen svc < 2 ^ 64
    ∧ drcState svc ≠ dFILL := by decide +kernel
theorem wit_RingsAndFlowCommands_flows : reaches svc pgSLU = true ∧ gated svc pgSLU = false ∧ busy svc pgSLU = false
    ∧ (flowDyn svc 0).quarantined = false ∧ (flowDyn (flow { FlowDyn.zero with quarantined := true }) 0).quarantined = true
    ∧ (flowDyn (flow { FlowDyn.zero with quarantined := true, resetting := true }) 0).resetting = true
    ∧ bpStill (flow { FlowDyn.zero with quarantined := true, resetting := true }) := by unfold bpStill; decide +kernel

/-- Flow 0 is enabled with priority 15; slot 0 is as given. -/
def flowing (v : Slot) : State := withSlu (fun u => { u with flow0 := [(0, 2 ^ 27 + 15 * 2 ^ 20)], slots := [(0, v)] }) svc
/-- The first `n` slots are taken. -/
def full (n : Nat) : State :=
  withSlu (fun u => { u with slots := (List.range n).map fun k => (k, { Slot.filled with place := .queued }) }) svc
theorem full_slots (n : Nat) (h : n ≤ ctlBase) : freeSlots (full n) = ctlBase - n := by
  have hs : (full n).slu.slots = (List.range n).map fun k => (k, { Slot.filled with place := .queued }) := rfl
  have : ((full n).slu.slots.filter fun p => p.1 < ctlBase && decide (p.2.place ≠ .free)) = (full n).slu.slots := by
    apply List.filter_eq_self.mpr
    intro p hp
    rw [hs] at hp
    obtain ⟨k, hk, rfl⟩ := List.mem_map.mp hp
    have hk := Nat.lt_of_lt_of_le (List.mem_range.mp hk) h
    rw [decide_eq_true hk]; rfl
  unfold freeSlots
  rw [this, hs, List.length_map, List.length_range]
theorem wit_ArrivalDelayAndDispatch_full : fHome (full ctlBase) 0 = devIndex (full ctlBase) ∧ nextFree (full ctlBase) = none := by
  have h := full_slots ctlBase (Nat.le_refl _)
  refine ⟨rfl, ?_⟩
  unfold nextFree
  rw [if_pos (by rw [h]; exact Nat.sub_self _)]
theorem wit_ArrivalDelayAndDispatch_arrival : fHome (flowing .filled) 0 = devIndex (flowing .filled) ∧ nextFree (flowing .filled) = some 0
    ∧ bpStill (flowing .filled) ∧ sluUe (flowing .filled) 1 0 0 4 = false
    ∧ fEn (flowing .filled) 0 = true ∧ (flowDyn (flowing .filled) 0).quarantined = false ∧ fOperands (flowing .filled) 0 = 0
    ∧ fDefer (flowing .filled) 0 = 0 := by unfold bpStill; decide +kernel
/-- An entry of delay list 1 for slot 0. -/
def delayed (x : Nat) : State := withSlu (fun u => { u with delays := [⟨false, x, 0⟩] }) (flowing { Slot.filled with place := .delayed })
theorem wit_ArrivalDelayAndDispatch_delay : (∀ x ∈ [0, 1], firstDelay (delayed x) (!true) = some ⟨false, x, 0⟩)
    ∧ 0 ≤ (tickNow (delayed 0)).toNat ∧ (tickNow (delayed 1)).toNat < 1 ∧ (delayed 1).slu.damage = [] ∧ bpStill (delayed 0)
    ∧ sluUe { delayed 1 with slu := { (delayed 1).slu with damage := [⟨5, 0, 0, 0, true⟩] } } 5 0 0 2 = true := by
  unfold bpStill; decide +kernel
/-- One item of flow 0 is ready, the pair of its group is plane 0 of basin 0. -/
def ready : State :=
  withSlu (fun u => { u with
    groups := (List.range 8).map fun w => (w, 0x8000), flow0 := [(0, 2 ^ 27 + 15 * 2 ^ 20)], ready := [(15, [0])]
    flows := [(0, { FlowDyn.zero with queue := [0] })], slots := [(0, { Slot.filled with place := .queued })] })
    (wrF (at' pgSLU 0x40) 0 1 1 (bas { Basin.zero with frame := ⟨.valid, 0, none⟩ }) |> withFab fun f => { f with planeSt := [(0, ⟨.valid, 0, none⟩)] })
theorem wit_ArrivalDelayAndDispatch_slot : rdB svc (at' pgSLU 0x40) 0 = false ∧ rdB ready (at' pgSLU 0x40) 0 = true ∧ workHeld ready = false
    ∧ throttleAllows ready = true ∧ (pickFlow (touchReady (groupEmptyCheck ready))).1 = some 0
    ∧ (flowDyn (touchReady (groupEmptyCheck ready)) 0).queue = [0]
    ∧ (dispatchReads 0 0 (pickFlow (touchReady (groupEmptyCheck ready))).2).2 = true
    ∧ (selectPair (dispatchReads 0 0 (pickFlow (touchReady (groupEmptyCheck ready))).2).1 (fGroup ready 0)).isSome = true
    ∧ fSvcTo ready 0 = 0 ∧ emberCondition (settle (dispatchSlot ready)) = none := by decide +kernel

/-- A service of flow 0 as given, on this device or another. -/
def serving (d : BitVec 3) (cur drain : Bool) : State :=
  withSlu (fun u => { u with services := [⟨0, 0, 0, d, 0, 0, 0, some 0, drain, cur⟩], matching := [⟨0, 5, [0], some 0⟩] })
    (flowing { Slot.filled with place := .service, service := some 0 })
/-- The service of the state above. -/
def served (d : BitVec 3) (cur drain : Bool) : Service := ⟨0, 0, 0, d, 0, 0, 0, some 0, drain, cur⟩
theorem wit_TimeoutsAndFailover_timeouts :
    ((serving 0 true false).slu.matching.find? (fun m => m.flow = 0 && m.mtag = 5) = some ⟨0, 5, [0], some 0⟩)
    ∧ bpStill (serving 0 true false) ∧ (serving 0 true false).slu.damage = [] ∧ matchHead (serving 0 true false) ⟨0, 5, [0], some 0⟩ 0 = true
    ∧ serviceOf (serving 0 true false) 0 = some (served 0 true false) ∧ serviceFrozen (serving 0 true false) (served 0 true false) = false
    ∧ serviceHead (serving 0 true false) (served 0 true false) 0 = true
    ∧ serviceOf (serving 0 false true) 0 = some (served 0 false true) ∧ (served 0 false true).dev.toNat = devIndex (serving 0 false true)
    ∧ serviceHead (serving 0 false true) (served 0 false true) 0 = true ∧ (serving 0 false true).slu.damage = []
    ∧ serviceOf (serving 1 false true) 0 = some (served 1 false true) ∧ (served 1 false true).dev.toNat ≠ devIndex (serving 1 false true)
    ∧ serviceHead (serving 1 false true) (served 1 false true) 0 = true ∧ (serving 1 false true).slu.damage = [] := by
  unfold bpStill; decide +kernel
/-- A failover step of logical basin 0, which is offline with a recorded fault. -/
def failing (x : Nat) : State :=
  wr (at' pgSLU 0x54) 1 (wr (at' (pgBSN 0) 0x50) 0x80000000 (withSlu (fun u => { u with failover := [(0, x)] }) svc))
theorem wit_TimeoutsAndFailover_failover : tget 0 0 (failing 2).slu.failover = 2 ∧ tget 0 0 (failing 3).slu.failover = 3
    ∧ reaches svc pgSLU = true ∧ gated svc pgSLU = false ∧ bit (0 : Reg) 0 = false ∧ offline (failing 2) 0 = true ∧ faultValid (failing 2) 0 = true
    ∧ bit (1 : Reg) 0 = true ∧ offline svc 0 = false := by decide +kernel

-- Errors and self-test, the memory die

/-- A codeword of plane 0 of crystal 0 that reads uncorrectable. -/
def badPlane : State := withFab (fun f => { f with planes := [(0, 3)] }) svc
/-- A codeword of row 0 of bank 0, which is HOST's. -/
def hostRow (c : Code) : State :=
  { svc with mem := { svc.mem with rows := if c = 0 then [] else [(0, c)], banks := [(0, { Bank.initial 0 with typ := 6 })] } }
theorem wit_CorrectableErrors_rewrite : reaches svc pgECC = true ∧ gated svc pgECC = false ∧ busy svc pgECC = false
    ∧ fld (0x40000000 : Reg) 30 2 = 1 ∧ rdF svc (at' pgECC 0x4C) 0 32 + rdF svc (at' pgECC 0x50) 0 8 * 2 ^ 32 = 0
    ∧ fld (0x40000000 : Reg) 26 4 = 0 ∧ planeUnit 0 = (0, 0, 0) ∧ unitLoading svc 0 0 = false
    ∧ (∀ c ∈ unitCodes svc 0 0 0, (decode72 c.2).isUe = false) ∧ (∃ c ∈ unitCodes badPlane 0 0 0, (decode72 c.2).isUe = true)
    ∧ reaches badPlane pgECC = true ∧ gated badPlane pgECC = false ∧ busy badPlane pgECC = false ∧ unitLoading badPlane 0 0 = false := by
  decide +kernel
theorem wit_CorrectableErrors_row : fld (0x4C000000 : Reg) 26 4 = 3 ∧ fld (0x4C000000 : Reg) 30 2 = 1 ∧ reaches (hostRow 2) pgECC = true
    ∧ gated (hostRow 2) pgECC = false ∧ busy (hostRow 2) pgECC = false ∧ twf 0 (hostRow 2).mem.rows = true
    ∧ (bankOf (hostRow 2) 0).typ ≠ 15 ∧ (rowData (hostRow 2) 0 0).2 = [] ∧ rowDamage (hostRow 2) 0 0 = []
    ∧ rowDamage (withSlu (fun u => { u with damage := [⟨3, 9, 2, 7, false⟩] }) svc) 112 1 = [⟨3, 9, 2, 7, false⟩] := by decide +kernel
theorem wit_CorrectableErrors_sweep : (withEcc (fun e => { e with rewrite := some (0, 0) }) svc).ecc.rewrite.isSome = true
    ∧ reaches svc pgECC = true ∧ gated svc pgECC = false
    ∧ rdB (wrF (at' pgECC 0x40) 30 1 1 (hostRow 2)) (at' pgECC 0x40) 30 = true ∧ bankAwake (wrF (at' pgECC 0x40) 30 1 1 (hostRow 2)) 0 = true
    ∧ (hostRow 2).slu.damage = [] ∧ (bankOf (hostRow 2) 0).typ = 6
    ∧ decode72 (rowCode (hostRow 2) 0 0 0) = .corrected 0 (hColumns.getD 1 0) := by decide +kernel

/-- A round in which no voltage channel gave a reading (log entry 77). -/
def quietRails (s : State) : State := (List.range 24).foldl (fun t i => wr (at' pgTHM (0x100 + 4 * (52 + i))) 0x8000 t) s
/-- Bank 1 is BIST's. -/
def bist : State := setBank 1 { Bank.initial 1 with typ := 7 } (quietRails svc)
/-- A run on logical basin 0, which runs in physical basin 0, in a phase. -/
def running (p : BistPhase) (ok : BitVec 16) : State := withEcc (fun e => { e with phase := p, passed := ok }) bist
theorem wit_SelfTestOfBasins_lbist : reaches bist pgBIST = true ∧ gated bist pgBIST = false ∧ busy bist pgBIST = false
    ∧ fld (0x400000BF : Reg) 30 2 = 1 ∧ fld (0x4000009F : Reg) 0 6 = 31 ∧ fld (0x4000009F : Reg) 7 7 = 1 ∧ bistConditions bist = true
    ∧ bistRunning bist = false ∧ (bankOf bist 1).typ = 7 ∧ bist.mem.saved ≠ some 1 ∧ basinLoading bist (physOf bist 31) = false
    ∧ (running .drain 0).ecc.phase = .drain ∧ inService (running .drain 0) 0 = 0 ∧ basinIdle (running .drain 0) 0 = true
    ∧ (basinOf (running .drain 0) 0).power = .run ∧ (running .drain 0).ecc.wasOff = false ∧ faultValid (running .drain 0) 0 = false
    ∧ (running .save 0).ecc.phase = .save ∧ (running .test 0).ecc.phase = .test ∧ (running .restore 0xFFFF).ecc.phase = .restore
    ∧ (running .restore 0xFFFF).ecc.passed = 0xFFFF ∧ (running .restore 1).ecc.passed ≠ 0xFFFF
    ∧ faultValid (running .restore 0xFFFF) 0 = false := by decide +kernel
theorem wit_SelfTestOfBasins_mbist : reaches svc pgBIST = true ∧ gated svc pgBIST = false ∧ busy svc pgBIST = false
    ∧ fld (0x80000021 : Reg) 30 2 = 2 ∧ fld (0x80000021 : Reg) 0 6 = 33 ∧ bistConditions (quietRails svc) = true ∧ bistRunning svc = false
    ∧ basinLoading svc 33 = false ∧ spareBasin svc 33 = true ∧ halted svc 0 = true ∧ basinUnloaded svc 0 = true ∧ spareBasin svc 0 = false
    ∧ halted (bas .zero) 0 = false ∧ spareBasin (bas .zero) 0 = false ∧ basinLoading (bas .zero) 0 = false ∧ bistConditions (quietRails (bas .zero)) = true
    ∧ (running .d2 0).ecc.phase = .d2 ∧ (running .d2 0).ecc.bistP < 34 := by decide +kernel

/-- A handover of bank 1 waits for its end. -/
def handing : State := setBank 1 { Bank.initial 1 with target := some (6, 0, true), clearing := true } svc
theorem wit_StateBanks_owner : reaches svc pgBANK = true ∧ gated svc pgBANK = false ∧ busy svc pgBANK = false
    ∧ (∀ t ∈ [0, 6], ownerTypes.contains t = true) ∧ dispatchOn svc = false ∧ fld (6 : Reg) 0 4 ≠ (bankOf svc 1).typ
    ∧ bankInUse svc 1 6 = false ∧ bankInUse svc 119 6 = true ∧ fld (6 : Reg) 0 4 ≠ (bankOf svc 119).typ
    ∧ fld (0x40000000 : Reg) 0 4 = (bankOf svc 1).typ ∧ fld (0x40000000 : Reg) 8 5 = (bankOf svc 1).basin
    ∧ (bankOf handing 1).target = some (6, 0, true)
    ∧ bankPending handing 1 = false := by decide +kernel
theorem wit_StateBanks_tests : mayRetain svc 127 = true ∧ svc.enr.stalled = [] ∧ svc.mem.host = [] ∧ reaches bist pgBANK = true ∧ gated bist pgBANK = false ∧ busy bist pgBANK = false
    ∧ (bankOf bist 1).typ = 7 ∧ bist.mem.saved ≠ some 1 ∧ (bankOf svc 1).typ = 0 ∧ (bankOf svc 1).rows = [] ∧ (bankOf svc 1).cols = []
    ∧ (0x0FFF : BitVec 14).toNat < 4096 ∧ (0x23FF : BitVec 14).toNat < 9216 ∧ (3 : BitVec 3).toNat < 4 ∧ (bankOf handing 1).clearing = true
    ∧ { bist with mem := { bist.mem with mbist := some 1 } }.mem.mbist = some 1 := by decide +kernel
theorem wit_HostMemoryWindow_owned : (hostRow 0).hst.d3 = false ∧ (hostRow 0).mod.dieReset ≠ some 4 ∧ (hostRow 3).hst.d3 = false
    ∧ (hostRow 3).mod.dieReset ≠ some 4 ∧ bar2Rows 0 1024 = [(0, 0)] ∧ bankOwned (hostRow 0) 0 6 0 = true ∧ bankOwned (hostRow 3) 0 6 0 = true
    ∧ (rowData (hostRow 0) 0 0).2 = [] ∧ rowUe (hostRow 3) 0 0 0 1024 = true ∧ bankAwake (hostRow 0) 0 = true ∧ bankAwake (hostRow 3) 0 = true
    ∧ (hostRow 0).mem.host = [] ∧ (hostRow 3).mem.host = [] := by
  refine ⟨?_, ?_, ?_, ?_, ?_, ?_, ?_, ?_, ?_, ?_, ?_, ?_, ?_⟩ <;> decide +kernel
/-- Bank 0 is HOST's and wakes. -/
def hostWaking : State := { svc with mem := { svc.mem with banks := [(0, { Bank.initial 0 with typ := 6, waking := true })] } }
theorem wit_HostMemoryWindow_waking : hostWaking.hst.d3 = false ∧ hostWaking.mod.dieReset ≠ some 4 ∧ bar2Rows 0 1024 = [(0, 0)]
    ∧ bankOwned hostWaking 0 6 0 = true ∧ (bankOf hostWaking 0).ret = false ∧ (bankOf hostWaking 0).waking = true := by
  refine ⟨?_, ?_, ?_, ?_, ?_, ?_⟩ <;> decide +kernel
theorem wit_HostMemoryWindow_refused : svc.hst.d3 = false ∧ svc.mod.dieReset ≠ some 4 ∧ bar2Rows 0x1FFFFFFF 1 = [(127, 4095)]
    ∧ bankOwned svc 127 6 0 = false ∧ ((toBytes 8 (5 : Word)).map some).length = 8 ∧ bar2Rows 8 8 = [(0, 0)] := by
  refine ⟨?_, ?_, ?_, ?_, ?_, ?_⟩ <;> decide +kernel

-- Lanes, intake, outlet

/-- A rung of 64b/66b with Rytis markers, the polarity test, and its second word. -/
def rungWords : Word × Word := (2 ^ 63 + 2 * 2 ^ 21 + 2 * 2 ^ 25 + 16 * 2 ^ 27 + 2 ^ 52 + 5000, 1 + 1 * 2 ^ 16 + 1 * 2 ^ 24 + 1 * 2 ^ 32 + 1 * 2 ^ 36)
/-- Rungs 15 and 3 of quad 0 are valid, and lane 0 is as given. -/
def lane0 (v : Lane) : State :=
  withLan (fun x => { x with rungs := [(6, rungWords.1), (7, rungWords.2), (30, rungWords.1), (31, rungWords.2)], lanes := [(0, v)] }) svc
/-- Lane 0 at rung 15 in a state. -/
def at15 (st : LaneState) : Lane := { Lane.zero with state := st, rung := 15, rung0 := rungWords.1, rung1 := rungWords.2 }
/-- QUAD_CFG of quad 0 with BOND 1. -/
def bond1 : Reg := rd svc (quadCfgA 0) ||| 4

theorem wit_LaneSettings_quad : reaches svc (pgQUAD 0) = true ∧ gated svc (pgQUAD 0) = false ∧ writtenValue svc (quadCfgA 0) bond1 = (bond1, false)
    ∧ bond1 ≠ rd svc (quadCfgA 0) ∧ (∀ m ∈ quadAffected svc 0 (fld bond1 2 2), laneStateOf svc m = .disabled)
    ∧ bit bond1 0 = rdB svc (quadCfgA 0) 0 ∧ fld bond1 2 2 ≠ 3 ∧ ¬(0 % 2 = 1 ∧ fld bond1 2 2 = 3)
    ∧ (∃ m ∈ quadAffected (lane0 (at15 .seek)) 0 (fld bond1 2 2), laneStateOf (lane0 (at15 .seek)) m ≠ .disabled)
    ∧ writtenValue (lane0 (at15 .seek)) (quadCfgA 0) bond1 = (bond1, false) := by
  refine ⟨?_, ?_, ?_, ?_, ?_, ?_, ?_, ?_, ?_, ?_⟩ <;> decide +kernel
theorem wit_LaneSettings_ctrl : (writtenValue (lane0 .zero) (laneA 0 0) 1).2 = false ∧ diagSelected (writtenValue (lane0 .zero) (laneA 0 0) 1).1 = false
    ∧ (laneOf (lane0 .zero) 0).state = .disabled ∧ groupSize (lane0 .zero) 0 = 1 ∧ bit (writtenValue (lane0 .zero) (laneA 0 0) 1).1 0 = true
    ∧ enrusQuad (lane0 .zero) 0 = false ∧ modeOf (lane0 .zero) ≠ mEMBER ∧ rdB (lane0 .zero) 0x7060 14 = false ∧ (lane0 .zero).lan.dead = []
    ∧ (lane0 .zero).clk.failed = [] ∧ topRung (wr (laneA 0 0) (writtenValue (lane0 .zero) (laneA 0 0) 1).1 (lane0 .zero)) 0 = some 15
    ∧ rungV (lane0 .zero) 0 15 = true ∧ (writtenValue svc (laneA 143 0) 0x40001).2 = false
    ∧ diagSelected (writtenValue svc (laneA 143 0) 0x40001).1 = true ∧ bit (writtenValue svc (laneA 143 0) 0x40001).1 27 = false
    ∧ reaches svc (pgQUAD 35) = true ∧ gated svc (pgQUAD 35) = false := by
  refine ⟨?_, ?_, ?_, ?_, ?_, ?_, ?_, ?_, ?_, ?_, ?_, ?_, ?_, ?_, ?_, ?_, ?_⟩ <;> decide +kernel
/-- Lane 1 is enabled. -/
def lane1On : State := wr (laneA 1 0) 1 svc
theorem wit_LaneSettings_prot : writtenValue svc (protA 0) 0x80010000 = (0x80010000, false) ∧ bit (0x80010000 : Reg) 28 = false
    ∧ fld (0x80010000 : Reg) 24 2 = 0 ∧ (0x80010000 : Reg) ≠ rd svc (protA 0)
    ∧ (∀ m ∈ 0 :: (protNames (rd svc (protA 0)) ++ protNames 0x80010000), rdB svc (laneA m 0) 0 = false)
    ∧ (∀ m ∈ 0 :: protNames 0x80010000, groupSize svc m ≤ 1) ∧ 1 ∈ protNames 0x80010000
    ∧ writtenValue lane1On (protA 0) 0x80010000 = (0x80010000, false) ∧ rdB lane1On (laneA 1 0) 0 = true := by
  refine ⟨?_, ?_, ?_, ?_, ?_, ?_, ?_, ?_, ?_⟩ <;> decide +kernel

/-- A Rytis block of a type with its bits 39..8. -/
def rytis (typ mid : Nat) : Word := BitVec.ofNat 64 (typ + mid * 2 ^ 8 + crcRun 3 0xB704CE (toBytes 4 (BitVec.ofNat 32 mid)) * 2 ^ 40)
theorem wit_LaneMachine : (∀ st ∈ [LaneState.seek, .locked], leadOf (lane0 (at15 st)) 0 = 0 ∧ (laneOf (lane0 (at15 st)) 0).state = st
      ∧ enrusQuad (lane0 (at15 st)) 0 = false)
    ∧ laneForce (lane0 (at15 .seek)) 0 = false ∧ nextRung (lane0 (at15 .seek)) 0 15 = some (3, false)
    ∧ nextRung (lane0 (at15 .seek)) 0 3 = some (15, true)
    ∧ laneMk (at15 .seek) = 2 ∧ markersLocked (lane0 { at15 .seek with mkr := true }) 0 = true ∧ bondOk (lane0 { at15 .seek with mkr := true }) 0 = true
    ∧ modeOf (lane0 (at15 .locked)) ≠ mSIMMER ∧ bit (at15 .seek).rung0 52 = true ∧ laneEnc (at15 .seek) ≠ 0 ∧ (at15 .seek).polDone = false
    ∧ markerLane 2 (rytis 0x5A 0) = some 0 ∧ markerLane 2 (rytis 0x5A 7) = some 7 ∧ groupSize (lane0 (at15 .seek)) 0 = 1 := by
  decide +kernel

/-- Lane 0 is LOCKED, partner 9 is its sub-channel 0, bank 1 is INTAKE's. -/
def receiving : State :=
  withSlu (fun u => { u with partners := [(9, 2 ^ 30)] }) (setBank 1 { Bank.initial 1 with typ := 2 } (wrF (quadCfgA 0) 24 8 1 (lane0 (at15 .locked))))
theorem wit_IntakeAndEgress_frame : leadOf receiving 0 = 0 ∧ (laneOf receiving 0).state = .locked ∧ workHeld receiving = false
    ∧ rxFor receiving 0 = some 0 ∧ laneEnc (laneOf receiving 0) ≠ 0 ∧ incomingOf receiving 0 = none ∧ [(1 : Byte)].length ≤ bundleMax receiving 0
    ∧ findPartner receiving 0 (subOf (laneOf receiving 0).rung0 [1]).toNat = some 9 ∧ receiving.slu.damage = []
    ∧ openSeg receiving 0 (subOf (laneOf receiving 0).rung0 [1]) = none ∧ freeGroup receiving 2 = some 1024
    ∧ ∀ k, k < 128 → (bankOf receiving k).target = none ∧ (bankOf receiving k).ret = false := by
  refine ⟨?_, ?_, ?_, ?_, ?_, ?_, ?_, ?_, ?_, ?_, ?_, ?_⟩ <;> decide +kernel
/-- A segment of lane 0, and outputs of each kind for it, in a lane of a state with encoding `e`. -/
def leaving (st : LaneState) (e k : Nat) : State :=
  withLan (fun x => { x with openSegs := [⟨0, 0, 0, 1, 0, true, false, false, false, false, 0, 15, []⟩],
                             egress := [(7, [⟨0, BitVec.ofNat 64 (k * 2 ^ 62), [5]⟩])] })
    (lane0 { at15 st with rung0 := BitVec.ofNat 64 (e * 2 ^ 21) })
theorem wit_IntakeAndEgress_out : (∃ g, openSeg (leaving .locked 2 0) 0 0 = some g ∧ g.lane < 144)
    ∧ (∀ p ∈ [(2, 0), (0, 2), (1, 1), (1, 0)], egressOf (leaving .locked p.1 p.2) 0 7 = [⟨0, BitVec.ofNat 64 (p.2 * 2 ^ 62), [5]⟩]
      ∧ laneUp (leaving .locked p.1 p.2) (carrier (leaving .locked p.1 p.2) 0) = true
      ∧ laneEnc (laneOf (leaving .locked p.1 p.2) (leadOf (leaving .locked p.1 p.2) (carrier (leaving .locked p.1 p.2) 0))) = p.1
      ∧ (p.1 = 2 ∨ ∀ k ∈ txLanes (leaving .locked p.1 p.2) 0, laneEnc (laneOf (leaving .locked p.1 p.2) k) ≠ 2)
      ∧ fld (BitVec.ofNat 64 (p.2 * 2 ^ 62)) 62 2 = p.2)
    ∧ laneUp (leaving .seek 2 0) (carrier (leaving .seek 2 0) 0) = false ∧ egressOf (leaving .seek 2 0) 0 7 = [⟨0, BitVec.ofNat 64 (0 * 2 ^ 62), [5]⟩] :=
  ⟨⟨⟨0, 0, 0, 1, 0, true, false, false, false, false, 0, 15, []⟩, by decide +kernel⟩, by decide +kernel, by decide +kernel, by decide +kernel⟩

/-- Lanes 0 and 1 are the working and the protect lane of a group, both LOCKED; `p` and `a` are LANE_PROT's other bits and ACTIVE. -/
def protecting (p : Reg) (a : Bool) : State :=
  wr (protA 0) (0x80010000 ||| p) (wr (protA 1) (0xA0000000 ||| p) (wrF (protStatA 0) 31 1 (b2n a) (wrF (protStatA 1) 31 1 (b2n a)
    (setLane 1 (at15 .locked) (lane0 (at15 .locked))))))
/-- What a switch and a switch back of lane 0 ask for. -/
def switchable (p : Reg) (m : Bool) : Bool :=
  protPeer (protecting p false) 0 = 1 && reaches (protecting p false) (pgQUAD 0) && !gated (protecting p false) (pgQUAD 0)
    && isWorking (protecting p false) 0 && !protActive (protecting p false) 0 && protReady (protecting p false) 0 1
    && isWorking (protecting p true) 0 && protActive (protecting p true) 0 && manyToOne (protecting p true) 0 == m
theorem wit_ProtectionLifelineAndPrbs_switch : switchable 0 false = true ∧ switchable 0x40000000 true = true
    ∧ rdB (protecting 0x10000001 true) (protA 0) 28 = true ∧ (laneOf (protecting 0x10000001 true) 0).state = .locked
    ∧ (laneOf (protecting 0x10000001 true) 0).degraded = false ∧ isWorking (protecting 0x10000001 true) 0 = true := by
  refine ⟨?_, ?_, ?_, ?_, ?_, ?_⟩ <;> decide +kernel
theorem wit_ProtectionLifelineAndPrbs_block : rytisOk (rytis 0x5C 1) 0x5C = true ∧ fld (rytis 0x5C 1) 9 3 = 0 ∧ fld (rytis 0x5C 1) 24 16 = 0
    ∧ bit (rytis 0x5C 1) 8 = true ∧ rytisOk (rytis 0x5C 0) 0x5C = true ∧ bit (rytis 0x5C 0) 8 = false
    ∧ manyToOne (protecting 0x40000000 false) 0 = true ∧ isWorking (protecting 0x40000000 false) 0 = true
    ∧ manyToOne (protecting 0x40000000 false) 1 = true ∧ isProtect (protecting 0x40000000 false) 1 = true
    ∧ protPeer (protecting 0x40000000 false) 1 = 0
    ∧ (workingOf (protecting 0x40000000 false) 1).find? (fun w => rdF (protecting 0x40000000 false) (laneA w 0x0C) 16 12 = fld (rytis 0x5C 1) 12 12)
      = some 0 := by
  refine ⟨?_, ?_, ?_, ?_, ?_, ?_, ?_, ?_, ?_, ?_, ?_, ?_⟩ <;> decide +kernel
/-- Lane 0 is the first lifeline lane, a record waits for it. -/
def lifelining : State :=
  withLan (fun x => { x with lifelines := [0], lifeOut := [5] }) (lane0 { Lane.zero with state := .lifeline, los := false })
theorem wit_ProtectionLifelineAndPrbs_lifeline : lifelining.lan.lifelines.idxOf? 0 = some 0 ∧ (laneOf lifelining 0).state = .lifeline
    ∧ (laneOf lifelining 0).los = false ∧ ¬((1 : BitVec 2) = 2 ∧ (0 : Word) = 0x1E) ∧ lifelining.lan.lifeOut = [5]
    ∧ lifelining.lan.lifelines[fld (5 : BitVec 128) 66 2]? = some 0
    ∧ (∀ p ∈ [(24, 1, 0), (20, 0, 1)], laneStateOf (wrF (laneA 0 0) p.1 3 1 (lane0 (at15 .diag))) 0 = .diag
      ∧ rdF (wrF (laneA 0 0) p.1 3 1 (lane0 (at15 .diag))) (laneA 0 0) 24 3 = p.2.1
      ∧ rdF (wrF (laneA 0 0) p.1 3 1 (lane0 (at15 .diag))) (laneA 0 0) 20 3 = p.2.2
      ∧ rdF (wrF (laneA 0 0) p.1 3 1 (lane0 (at15 .diag))) (laneA 0 0) 18 2 = 0) := by
  decide +kernel

-- The Enrus link

/-- Port 0 is as given; ENR_CTRL's word too. The random bit generator is seeded. -/
def port0 (e : EnrPort) (c : Reg) : State :=
  setEnrPort 0 e (wr (enrCtrlA 0) c (wr (quadCfgA 0) (rd svc (quadCfgA 0) ||| 1) (withSec (fun x => { x with seeded := true }) svc)))
/-- Port 0 in a state, with peer 1. -/
def inSt (st : EnrState) : State := port0 { EnrPort.zero with st := st, peer := 1 } 0
/-- What the control commands ask of a state. -/
def ctrlOk (s : State) : Bool := reaches s (pgENR 0) && !gated s (pgENR 0) && s.enr.bcast.isNone && s.cfc.boot.isNone && decide (s.cfc.eng0.st = .idle)
theorem wit_EnrusPortAndTime_control : writtenValue (inSt .down) (enrCtrlA 0) 1 = (1, false) ∧ fld (1 : Reg) 1 6 = enrQuadOf (inSt .down) 0
    ∧ writtenValue (inSt .up) (enrCtrlA 0) 0 = (0, false) ∧ fld (0 : Reg) 1 6 = enrQuadOf (inSt .up) 0 ∧ fld (1 : Reg) 16 2 = 0
    ∧ ctrlOk (inSt .down) = true ∧ enrWanted (wr (enrCtrlA 0) 1 (inSt .down)) 0 = true ∧ enrusQuad (inSt .down) (enrQuadOf (inSt .down) 0) = true
    ∧ (enrPort (inSt .down) 0).st = .down ∧ holderOf (inSt .down) (0x4000 + enrQuadOf (inSt .down) 0) = none
    ∧ enrWanted (wr (enrCtrlA 0) 0 (inSt .up)) 0 = false ∧ (enrPort (inSt .up) 0).st ≠ .down := by
  refine ⟨?_, ?_, ?_, ?_, ?_, ?_, ?_, ?_, ?_, ?_, ?_, ?_⟩ <;> decide +kernel
theorem wit_EnrusPortAndTime_rekey : ctrlOk (inSt .fault) = true ∧ (enrPort (inSt .fault) 0).st = .fault ∧ ctrlOk (inSt .up) = true
    ∧ (enrPort (inSt .up) 0).st = .up ∧ (enrPort (inSt .up) 0).upd = none
    ∧ (keySlot (enrPort (inSt .up) 0) (!(enrPort (inSt .up) 0).slot)).keys = none
    ∧ (∃ k sh u, newShare (inSt .up) (transcript (inSt .up) (enrPort (inSt .up) 0)) = (some (k, sh), u))
    ∧ (enrPort (inSt .train) 0).st = .train ∧ (enrPort (inSt .hello) 0).st = .hello :=
  ⟨by decide +kernel, by decide +kernel, by decide +kernel, by decide +kernel, by decide +kernel, by decide +kernel, ⟨_, _, _, rfl⟩,
    by decide +kernel, by decide +kernel⟩

/-- A message of a kind with a body, waiting on channel `v` of port 0. -/
def mailed (v kind : Nat) (body : List Byte) : State :=
  port0 (setChan { EnrPort.zero with st := .up, peer := 1 } v { Channel.zero with ready := [⟨kind, 5, body, 1⟩] }) 0
/-- The next message of a kind is that one. -/
def hasMail (s : State) (kind : Nat) : Bool := (nextMsg s 0 kind).isSome
/-- Device 1 is time master and leader, and this device takes its streams. -/
def led (v kind : Nat) (body : List Byte) (e : Engine) : State :=
  wr (at' pgENRG 0x40) (1 + 1 * 8 + 0x40) { mailed v kind body with cfc := { (mailed v kind body).cfc with eng0 := e } }
theorem wit_EnrusPortAndTime_time : hasMail (led 3 7 [] .zero) 7 = true ∧ rdF (led 3 7 [] .zero) (at' pgENRG 0x40) 0 3 ≠ devIndex (led 3 7 [] .zero)
    ∧ rdF (led 3 7 [] .zero) (at' pgENRG 0x40) 0 3 = (enrPort (led 3 7 [] .zero) 0).peer.toNat
    ∧ rdB (led 3 7 [] .zero) (at' pgSLU 0x40) 0 = false ∧ rdB (wrF (at' pgSLU 0x40) 0 1 1 (led 3 7 [] .zero)) (at' pgSLU 0x40) 0 = true
    ∧ rdF (mailed 3 7 []) (at' pgENRG 0x40) 0 3 = devIndex (mailed 3 7 []) ∧ hasMail (mailed 3 8 []) 8 = true
    ∧ hasMail (mailed 3 9 []) 9 = true ∧ (∀ m, nextMsg (mailed 3 9 []) 0 9 = some m → bodyNat m 0 8 = (enrPort (mailed 3 9 []) 0).reqTime.toNat) := by
  refine ⟨?_, ?_, ?_, ?_, ?_, ?_, ?_, ?_, ?_⟩
  on_goal 9 => exact fun m h => by cases h; rfl
  all_goals decide +kernel
/-- Whether a peer's KEYSHARE verifies is the opaque `Config.chainKey` and `Config.ecdsaVerify` (log entry 11): no run shows the case that it does. -/
theorem wit_EnrusPortAndTime_update : hasMail (mailed 3 10 []) 10 = true ∧ (enrPort (mailed 3 10 []) 0).st = .up
    ∧ (∀ b, b = shareCut [] → shareOk (mailed 3 10 []) (transcript (mailed 3 10 []) (enrPort (mailed 3 10 []) 0)) b = false)
    ∧ ((mailed 3 10 []).sec.alarms.event).activeNow 3 3 8 = false :=
  ⟨by decide +kernel, by decide +kernel, fun b h => by subst h; simp [shareOk, shareCut, shareSize, derLen], by decide +kernel⟩
theorem wit_EnrusPortAndTime_config : (∃ m, nextMsg (led 2 11 [0, 0, 0, 0, 0, 0, 7] .zero) 0 11 = some m ∧ bodyNat m 2 4 = 0
      ∧ cfgBytes (led 2 11 [0, 0, 0, 0, 0, 0, 7] .zero) m ≠ [])
    ∧ fromLeader (led 2 11 [0, 0, 0, 0, 0, 0, 7] .zero) 0 = true ∧ (led 2 11 [0, 0, 0, 0, 0, 0, 7] .zero).cfc.eng0.st = .idle
    ∧ hasMail (led 2 12 [] { Engine.zero with st := .discard, src := 3 }) 12 = true
    ∧ fromLeader (led 2 12 [] { Engine.zero with st := .discard, src := 3 }) 0 = true
    ∧ (led 2 12 [] { Engine.zero with st := .discard, src := 3 }).cfc.eng0.held = [] :=
  ⟨⟨⟨11, 5, [0, 0, 0, 0, 0, 0, 7], 1⟩, by decide +kernel⟩, by decide +kernel, by decide +kernel, by decide +kernel, by decide +kernel, by decide +kernel⟩

/-- Zero keys. -/
def keys0 : KeySet := ⟨0, 0, 0, 0⟩
/-- Port 0 is UP under zero keys in slot 0; a flit of DATA is kept. -/
def upPort : EnrPort :=
  { EnrPort.zero with st := .up, peer := 1, slot0 := ⟨some keys0, 0xFFFFFF00, none⟩, kept := [⟨5, 0, [], 1, none⟩] }
/-- A flit that a peer with those keys seals as its first. -/
def sealed0 (h : Word) (pl : List Byte) : BitVec 2048 :=
  mkFlit h (gcmSeal keys0.rxKey (flitNonce keys0.rxSalt 0) (toBytes 8 h) (padBytes 228 pl)).1
    (gcmSeal keys0.rxKey (flitNonce keys0.rxSalt 0) (toBytes 8 h) (padBytes 228 pl)).2
/-- Such a flit passes its CRC, has its type, and opens. -/
theorem sealed0_opens (e : EnrPort) (h : Word) (pl : List Byte) (hs : e.slot0.keys = some keys0 ∧ e.slot0.rxLast = none)
    (hk : bit h 57 = false ∧ fld h 0 16 = 0) :
    flitCrcOk (sealed0 h pl) = true ∧ flitType (sealed0 h pl) = fld h 60 4 ∧ flitAck (sealed0 h pl) = fld h 24 16
      ∧ openFlit e (sealed0 h pl) = some (0, padBytes 228 pl) := by
  refine ⟨mkFlit_crc _ _ _, ?_, ?_, ?_⟩
  · unfold flitType sealed0; rw [mkFlit_head]
  · unfold flitAck sealed0; rw [mkFlit_head]
  · have hslot : keySlot e (bit h 57) = e.slot0 := by rw [hk.1]; rfl
    exact openFlit_seal e h keys0 (padBytes 228 pl) 0 (padBytes_length _ _) (by rw [hslot]; exact hs.1) (by rw [hslot, hs.2, hk.2]; rfl)
/-- The header of such a flit of a type. -/
def head0 (typ : Nat) : Word := flitHeader typ 0 0 0 5 0 0 0
theorem wit_EnrusFlitsAndUpkeep_flits : ∀ typ ∈ [0, 1, 2], flitCrcOk (sealed0 (head0 typ) []) = true ∧ flitType (sealed0 (head0 typ) []) = typ
    ∧ openFlit (enrPort (port0 upPort 0) 0) (sealed0 (head0 typ) []) = some (0, padBytes 228 [])
    ∧ (enrPort (port0 upPort 0) 0).st = .up ∧ (∀ v, v < 4 → (chan (enrPort (port0 upPort 0) 0) v).txq = []) := by
  intro typ h
  have o := sealed0_opens (enrPort (port0 upPort 0) 0) (head0 typ) [] ⟨rfl, rfl⟩ (by fin_cases h <;> decide)
  exact ⟨o.1, by rw [o.2.1]; fin_cases h <;> decide, o.2.2.2, rfl, by decide +kernel⟩
theorem wit_EnrusFlitsAndUpkeep_nak : flitAck (sealed0 (head0 2) []) = 5 ∧ ackKept ((5 + 65535) % 65536) upPort.kept = upPort.kept
    ∧ upPort.kept.dropWhile (fun x => decide (x.seq ≠ 5)) ≠ [] ∧ (∀ x ∈ upPort.kept, x.sends < 8 ∧ ∀ t0, x.since = some t0 → ((port0 upPort 0).time - t0).toNat < 64000) :=
  ⟨(sealed0_opens upPort (head0 2) [] ⟨rfl, rfl⟩ (by decide)).2.2.1, by decide, by decide, fun x h => by
    have : x = ⟨5, 0, [], 1, none⟩ := by simpa [upPort] using h
    subst this
    exact ⟨by decide, fun t0 h0 => by cases h0⟩⟩
/-- A flit of a type under slot 1, which holds no key. -/
def keyless (typ : Nat) : BitVec 2048 := mkFlit (flitHeader typ 0 1 0 0 0 0 0) [] []
theorem wit_EnrusFlitsAndUpkeep_refused : flitCrcOk 0 = false ∧ (∀ typ ∈ [0, 1, 2], flitCrcOk (keyless typ) = true ∧ flitType (keyless typ) = typ
      ∧ openFlit (enrPort (port0 upPort 0) 0) (keyless typ) = none)
    ∧ (port0 upPort 0).cfc.eng0.st = .idle ∧ ((port0 upPort 0).sec.alarms.event).activeNow 3 3 8 = false := by
  refine ⟨by decide +kernel, fun typ h => ⟨mkFlit_crc _ _ _, ?_, ?_⟩, by decide +kernel, by decide +kernel⟩
  · unfold flitType keyless; rw [mkFlit_head]; fin_cases h <;> decide
  · unfold openFlit keyless; dsimp only; rw [mkFlit_head]; fin_cases h <;> rfl
theorem wit_EnrusFlitsAndUpkeep_upkeep : (∃ k r, (enrPort (port0 upPort 0) 0).kept = k :: r ∧ k.sends < 8 ∧ k.since = none) ∧ ctrlOk (port0 upPort 0) = true ∧ widthOk (widthBlock 3) = true
    ∧ 2 ≤ maskCount (lowestTwo (upPort.narrow.getD upPort.lanes &&& BitVec.ofNat 4 (fld (widthBlock 3) 8 4))) ∧ upPort.lanes ≠ 3
    ∧ 0xFFFFFF00 ≤ (keySlot upPort upPort.slot).txCtr ∧ upPort.upd = none ∧ (keySlot upPort (!upPort.slot)).keys = none
    ∧ (∃ k sh u, newShare (port0 upPort 0) (transcript (port0 upPort 0) upPort) = (some (k, sh), u)) :=
  ⟨⟨_, _, rfl, by decide, rfl⟩, by decide +kernel, by decide +kernel, by decide +kernel, by decide, by decide, rfl, rfl, ⟨_, _, _, rfl⟩⟩

/-- A peer's HELLO or another message in plain text. -/
def plainFlit (typ : Nat) (pl : List Byte) : BitVec 2048 := mkFlit (flitHeader typ 0 0 0 0xFFFF 0 0 0) pl []
theorem plainFlit_ok (typ : Nat) (pl : List Byte) (h : typ < 16) : flitCrcOk (plainFlit typ pl) = true ∧ flitType (plainFlit typ pl) = typ
    ∧ flitPayload (plainFlit typ pl) = padBytes 228 pl := by
  refine ⟨mkFlit_crc _ _ _, ?_, mkFlit_payload _ _ _⟩
  unfold flitType plainFlit; rw [mkFlit_head]; interval_cases typ <;> decide
/-- Port 0 in HELLO has sent its own. -/
def greeting : State := port0 { EnrPort.zero with st := .hello, hello := [0, 0, 1, 0] } 0
theorem wit_EnrusHandshake_hello : (enrPort greeting 0).hello ≠ [] ∧ helloCheck greeting 0 ((padBytes 228 [1, 0, 1, 0]).take 36) = none
    ∧ helloCheck greeting 0 ((padBytes 228 [1, 0, 2, 0]).take 36) = some 0x0806
    ∧ (∀ b ∈ [(1 : Byte), 2], flitType (plainFlit 8 [1, 0, b, 0]) = 8 ∧ flitPayload (plainFlit 8 [1, 0, b, 0]) = padBytes 228 [1, 0, b, 0])
    ∧ (∃ k sh u, newShare greeting [] = (some (k, sh), u)) := by
  refine ⟨by decide, by decide +kernel, by decide +kernel, fun b _ => (plainFlit_ok 8 _ (by decide)).2, ⟨_, _, _, rfl⟩⟩
/-- Port 0 in KEYX holds what it has received of the peer's KEYSHARE. -/
def sharing (b : List Byte) : State := port0 { EnrPort.zero with st := .keyx, peer := 1, peerShare := b, share := [1] } 0
/-- The first 101 bytes of a KEYSHARE whose certificate has 258 bytes. -/
def longShare : List Byte := List.replicate 97 0 ++ [0x30, 0x81, 0xFF, 0]
/-- Of the two outcomes of a whole KEYSHARE only the failing one can be shown: the other rests on opaque functions (log entry 11). -/
theorem wit_EnrusHandshake_keyshare : flitType (plainFlit 9 []) = 9 ∧ flitPayload (plainFlit 9 []) = padBytes 228 []
    ∧ (enrPort (sharing longShare) 0).st = .keyx ∧ (enrPort (sharing []) 0).st = .keyx
    ∧ (shareCut (longShare ++ padBytes 228 [])).length < shareSize (shareCut (longShare ++ padBytes 228 []))
    ∧ shareSize (shareCut (padBytes 228 [])) ≤ (shareCut (padBytes 228 [])).length
    ∧ shareOk (sharing []) [] (shareCut (padBytes 228 [])) = false
    ∧ ((sharing []).sec.alarms.event).activeNow 3 3 8 = false := by
  refine ⟨(plainFlit_ok 9 [] (by decide)).2.1, (plainFlit_ok 9 [] (by decide)).2.2, rfl, rfl, by decide +kernel, by decide +kernel, ?_,
    by decide +kernel⟩
  unfold shareOk
  rw [show (decide ((shareCut (padBytes 228 [])).headD 0 = 4)) = false from by decide +kernel]
  simp
/-- Port 0 in CONFIRM under zero keys. -/
def confirming : State := port0 { upPort with st := .confirm, kept := [] } 0
theorem wit_EnrusHandshake_finished : (∃ pl, flitType (sealed0 (head0 10) pl) = 10 ∧ flitCrcOk (sealed0 (head0 10) pl) = true
      ∧ openFlit (enrPort confirming 0) (sealed0 (head0 10) pl) = some (0, padBytes 228 pl)
      ∧ (padBytes 228 pl).take 48 = hashBytes (transcript confirming (enrPort confirming 0)))
    ∧ flitType (keyless 10) = 10 ∧ openFlit (enrPort confirming 0) (keyless 10) = none ∧ (enrPort confirming 0).st = .confirm
    ∧ (confirming.sec.alarms.event).activeNow 3 3 8 = false := by
  refine ⟨⟨hashBytes (transcript confirming (enrPort confirming 0)), ?_, ?_, ?_, ?_⟩, ?_, ?_, rfl, by decide +kernel⟩
  · exact (sealed0_opens (enrPort confirming 0) (head0 10) _ ⟨rfl, rfl⟩ (by decide)).2.1.trans (by decide)
  · exact (sealed0_opens (enrPort confirming 0) (head0 10) _ ⟨rfl, rfl⟩ (by decide)).1
  · exact (sealed0_opens (enrPort confirming 0) (head0 10) _ ⟨rfl, rfl⟩ (by decide)).2.2.2
  · rw [padBytes, List.take_take, List.take_append_of_le_length] <;> simp [hashBytes, toBytes_length]
  · unfold flitType keyless; rw [mkFlit_head]; decide
  · unfold openFlit keyless; dsimp only; rw [mkFlit_head]; rfl

/-- A port with a DISPATCH in its remote queue, plane 0 of basin 0 VALID or not; bank 1 is INTAKE's, bank 2 ENRUS's. -/
def meshed (st : PlaneState) (e : EnrPort) : State :=
  setEnrPort 0 e (setBank 2 { Bank.initial 2 with typ := 8 } (setBank 1 { Bank.initial 1 with typ := 2 }
    (bas { Basin.zero with frame := ⟨.valid, 0, none⟩ } |> withFab fun f => { f with planeSt := [(0, ⟨st, 0, none⟩)] })))
/-- A DISPATCH for plane 0 of basin 0. -/
def mail0 : Msg := ⟨0, 5, List.replicate 68 0, 0⟩
/-- The remote queue of a port holds it. -/
def queued : EnrPort := { EnrPort.zero with st := .up, peer := 1, waiting := [mail0] }
/-- The same with basin 0 offline on a fault. -/
def faulted : State :=
  withSlu (fun u => { u with cause := [(0, 0x0610)], failover := [(0, 4)] }) (wr (at' pgSLU 0x54) 1 (meshed .valid queued))
theorem wit_EnrusItemsAndReports_dispatch : (enrPort (meshed .valid queued) 0).waiting.find? (dispatchReady (meshed .valid queued)) = some mail0
    ∧ dispatchValid (meshed .valid queued) mail0 = true ∧ dispatchPort (meshed .valid queued) mail0 = some 0
    ∧ freeGroup (meshed .valid queued) 2 = some 1024
    ∧ dispatchFaulted (meshed .valid queued) mail0 = false ∧ dispatchFaulted (meshed .blank queued) mail0 = false
    ∧ (enrPort faulted 0).waiting.find? (dispatchReady faulted) = some mail0 ∧ dispatchFaulted faulted mail0 = true
    ∧ (enrPort (meshed .blank queued) 0).waiting.find? (dispatchReady (meshed .blank queued)) = some mail0
    ∧ dispatchValid (meshed .blank queued) mail0 = false := by
  refine ⟨?_, ?_, ?_, ?_, ?_, ?_, ?_, ?_, ?_, ?_⟩ <;> decide +kernel
/-- A service of this device's flow 0 runs on device 1; port 0 leads there, with a message of a kind on channel `v`. -/
def remote (cur : Bool) (v kind : Nat) (body : List Byte) : State :=
  withSlu (fun u => { u with services := [⟨0, 0, 0, 1, 0, 0, 0, none, false, cur⟩], slots := [(0, { Slot.filled with place := .service, service := some 0 })] })
    (meshed .blank (setChan { EnrPort.zero with st := .up, peer := 1 } v { Channel.zero with ready := [⟨kind, 5, body, 1⟩] }))
theorem wit_EnrusItemsAndReports_arrive : (∃ m, nextMsg (remote true 0 1 (List.replicate 40 4)) 0 1 = some m ∧ bodyNat m 4 2 % 8192 ≠ 0)
    ∧ (freeGroup (remote true 0 1 (List.replicate 40 4)) 8).isSome = true
    ∧ (∃ m, nextMsg (remote true 0 1 (List.replicate 36 0)) 0 1 = some m ∧ bodyNat m 4 2 % 8192 = 0
      ∧ fHome (remote true 0 1 (List.replicate 36 0)) (BitVec.ofNat 16 (bodyNat m 6 2)).toNat = devIndex (remote true 0 1 (List.replicate 36 0)))
    ∧ nextFree (remote true 0 1 (List.replicate 36 0)) = some 1 ∧ bpStill (remote true 0 1 (List.replicate 36 0)) := by
  refine ⟨⟨⟨1, 5, List.replicate 40 4, 1⟩, by decide +kernel⟩, ?_, ⟨⟨1, 5, List.replicate 36 0, 1⟩, by decide +kernel⟩, ?_, ?_⟩
  on_goal 3 => unfold bpStill
  all_goals decide +kernel
theorem wit_EnrusItemsAndReports_output : ∀ cur ∈ [true, false], (nextMsg (remote cur 1 2 (List.replicate 34 0)) 0 2).isSome = true
    ∧ remoteService (remote cur 1 2 (List.replicate 34 0)) 0 0 = some ⟨0, 0, 0, 1, 0, 0, 0, none, false, cur⟩
    ∧ fld (ofBytes 256 (((List.replicate 34 (0 : Byte)).drop 2).take 32)) 64 13 = 0 := by decide +kernel
theorem wit_EnrusItemsAndReports_end : (∃ m, nextMsg (remote true 1 3 [0, 0, 1]) 0 3 = some m ∧ bodyNat m 2 1 ≠ 0 ∧ bodyNat m 0 2 = 0)
    ∧ (∃ v, remoteService (remote true 1 3 [0, 0, 1]) 0 0 = some v ∧ v.current = true
      ∧ ∀ x ∈ (remote true 1 3 [0, 0, 1]).slu.services, x.id = v.id → x = v) ∧ (remote true 1 3 [0, 0, 1]).slu.damage = [] :=
  ⟨⟨⟨3, 5, [0, 0, 1], 1⟩, by decide +kernel⟩, ⟨⟨0, 0, 0, 1, 0, 0, 0, none, false, true⟩, by decide +kernel⟩, rfl⟩
theorem wit_EnrusItemsAndReports_reports : (∀ k ∈ [4, 5, 6], hasMail (mailed 3 k []) k = true)
    ∧ (enrPort (mailed 3 5 []) 0).peer.toNat ≠ devIndex (mailed 3 5 []) := by decide +kernel

-- Configuration streams and the boot load

/-- An engine of the device is as given; DEV_READY is 1. -/
def eng (e : Bool) (g : Engine) : State := setEng e g (wrF 0x040 0 1 1 svc)
/-- What the registers of an engine's page ask. -/
def streamPageOk (s : State) (p : Nat) : Bool := reaches s p && !gated s p && !busy s p
theorem wit_StreamEngines_start : streamPageOk (eng true .zero) pgIRP = true ∧ streamPageOk svc pgIRP = true ∧ devReady (eng true .zero) = true ∧ devReady svc = false
    ∧ (eng true .zero).cfc.eng1 = .zero ∧ streamStill svc :=
  ⟨by decide +kernel, by decide +kernel, by decide +kernel, by decide +kernel, by decide +kernel, ⟨(fun b h => by cases h), (fun b h => by cases h)⟩⟩
/-- ENG_1's source 4 is open, in a state. -/
def feeding (st : EngSt) : State := eng true { Engine.zero with st := st, started := true, src := 4 }
theorem wit_StreamEngines_data : (∀ st ∈ [EngSt.header, .sections, .idle], streamPageOk (feeding st) pgIRP = true ∧ (feeding st).cfc.eng1.started = true
      ∧ (feeding st).cfc.eng1.src = 4 ∧ (feeding st).cfc.eng1.st = st ∧ (feeding st).enr.bcast = none)
    ∧ writtenValue svc (at' pgIRP 0x64) 1 = (1, false) ∧ ¬(svc.cfc.eng1.started = true ∧ svc.cfc.eng1.src = 5) := by decide +kernel
theorem wit_StreamEngines_ends : ∀ e ∈ [false, true], ∀ st ∈ [EngSt.idle, .discard, .header],
    streamPageOk (eng e { Engine.zero with st := st, src := 2 }) (engPage e) = true
    ∧ engOf (eng e { Engine.zero with st := st, src := 2 }) e = { Engine.zero with st := st, src := 2 }
    ∧ (eng e { Engine.zero with st := st, src := 2 }).cfc.boot = none := by decide +kernel

/-- A stream header of a kind and a length, as far as its first 32 bytes. -/
def head32 (kind total : Nat) : List Byte := List.replicate 16 0 ++ [BitVec.ofNat 8 kind] ++ List.replicate 11 0 ++ toBytes 4 (BitVec.ofNat 32 total)
/-- A section header. -/
def secHead (t flags len : Nat) : List Byte :=
  [BitVec.ofNat 8 t, BitVec.ofNat 8 flags, 0, 0, 0, 0, 0, 0, if t = 4 then 0 else 1, 0, 0, 0] ++ toBytes 4 (BitVec.ofNat 32 len) ++ List.replicate 16 0
/-- An engine in SECTIONS of host source at byte 32, where a section of a type and length stands. -/
def section0 (kind t flags : Nat) (payload : List Byte) : Engine :=
  { Engine.zero with
    st := .sections, src := 2, pos := 32, seen := head32 kind 1000 ++ secHead t flags payload.length ++ payload }
/-- What a section command asks of the engine's place in the stream. -/
def sectionOk (g : Engine) (kind t : Nat) (payload : List Byte) : Bool :=
  let h := regionBytes g g.pos 32
  decide (g.pos + 32 + secLen h ≤ trailerAt g) && decide (g.pos + 32 + secLen h ≤ g.seen.length) && !badSection (hKind g.seen) g.count h
    && decide (regionBytes g (g.pos + 32) (secLen h) = payload) && decide (hKind g.seen = kind) && decide (leField h 0 1 = t)
    && (t = 4 || (leField h 8 1).testBit 0) && decide (secLen h = payload.length)
theorem wit_StreamEngines_planes : sectionOk (section0 2 1 1 (List.replicate 288 7)) 2 1 (List.replicate 288 7) = true
    ∧ sectionOk (section0 2 2 1 (List.replicate 8 7)) 2 2 (List.replicate 8 7) = true
    ∧ physOf svc 0 = 0 ∧ (basinOf svc 0).mapClear = false ∧ (planeInfo svc 0 0).st = .blank ∧ (basinOf svc 0).frame.st = .blank ∧ halted svc 0 = true := by
  refine ⟨?_, ?_, ?_, ?_, ?_, ?_, ?_⟩ <;> decide +kernel
theorem wit_StreamEngines_records : sectionOk (section0 1 3 0 (toBytes 8 (0x60040 : Word))) 1 3 (toBytes 8 (0x60040 : Word)) = true
    ∧ badRecord 0 (regRecords (toBytes 8 (0x60040 : Word))) = none
    ∧ sectionOk (section0 3 4 0 [1, 2, 3]) 3 4 [1, 2, 3] = true := by
  refine ⟨?_, ?_, ?_⟩ <;> decide +kernel
/-- An engine whose sections have ended: the trailer gives a section count and, of the count 0, the right hash. -/
def atTrailer (count : Nat) : Engine :=
  { Engine.zero with
    st := .sections, src := 2, pos := 32,
    seen := head32 2 200 ++ (toBytes 4 (BitVec.ofNat 32 count) ++ List.replicate 20 0 ++ hashBytes (head32 2 200)) }
theorem wit_StreamEngines_trailer : trailerAt (atTrailer 0) = 32 ∧ (atTrailer 0).seen.length = hTotal (atTrailer 0).seen - 96
    ∧ trailerCheck (atTrailer 0) = none ∧ trailerCheck (atTrailer 1) = some 0x040A ∧ hKind (atTrailer 1).seen ≠ 3 := by
  refine ⟨by decide +kernel, by decide +kernel, ?_, by decide +kernel, by decide +kernel⟩
  have h1 : ¬((decide (leField (((atTrailer 0).seen.drop (atTrailer 0).pos).take 72) 0 4 ≠ (atTrailer 0).count)
      || decide (hKind (atTrailer 0).seen = 3) && decide ((atTrailer 0).count ≠ 1)) = true) := by decide +kernel
  have h2 : hashBytes ((atTrailer 0).seen.take (atTrailer 0).pos) = ((((atTrailer 0).seen.drop (atTrailer 0).pos).take 72).drop 24).take 48 := rfl
  unfold trailerCheck
  dsimp only
  rw [if_neg h1, if_neg (not_not.mpr h2)]
  rfl
/-- An engine in VERIFY whose stream is whole. -/
def verifying (v : Option Nat) : Engine :=
  { Engine.zero with
    st := .verify, src := 2, pos := 32, planes := [(0, 0)], verdict := v, seen := head32 2 200 ++ List.replicate 168 0 }
/-- Plane 0 of basin 0 is PENDING. -/
def pendingPlane (v : Option Nat) : State := setPlaneInfo 0 0 ⟨.pending, 0, none⟩ (eng false (verifying v))
/-- Whether a signature verifies is the opaque `Config.ecdsaVerify` (log entry 11): everything else of a verified stream is met here. -/
theorem wit_StreamEngines_verdict : hTotal (verifying none).seen = (verifying none).seen.length ∧ (verifying none).recs = [] ∧ (verifying none).held = [] ∧ hKind (verifying none).seen = 2
    ∧ (planeInfo (pendingPlane none) 0 0).st = .pending ∧ (pendingPlane none).cfc.boot = none
    ∧ (signatureOk (verifying none) = true ↔ Config.ecdsaVerify (ofBe 768 (((verifying none).seen.drop 0xA0).take 96))
        (Config.sha384 ((verifying none).seen.take 104)) (ofBe 768 (((verifying none).seen.drop 104).take 96)) = true) := by
  refine ⟨by decide +kernel, rfl, rfl, by decide +kernel, by decide +kernel, rfl, ?_⟩
  have h : hTotal (verifying none).seen = 200 := by decide +kernel
  have h' : decide (200 ≤ (verifying none).seen.length) = true := by decide +kernel
  unfold signatureOk
  dsimp only
  rw [h, h', Bool.true_and]
theorem wit_StreamEngines_admission : admission (pendingPlane none) 0 0 = none := by
  have hz : ∀ x p w, planeDec (pendingPlane none) 0 x p w = .clean 0 := by
    intro x p w
    have h : planeCode (pendingPlane none) (xk 0 x) p w = 0 := rfl
    unfold planeDec
    rw [h]
    decide +kernel
  have hc : ∀ x p, portCfg (pendingPlane none) 0 x p = 0 := by
    intro x p
    unfold portCfg
    rw [hz, hz]
    decide +kernel
  have hb : ∀ x, badPortCfg (0#32) x = false := by
    intro x
    unfold badPortCfg
    split <;> simp [fld, bit]
  have hd : ∀ x p i, setsDrv (pendingPlane none) 0 x p i = false := by
    intro x p i
    unfold setsDrv
    rw [hz]
    simp [Decoded.data, decodedData, bit]
  unfold admission contends doubleDrive claims
  simp only [hz, hc, hd, Decoded.isUe]
  simp [hb]

/-- A header of an UPDATE stream for this device with signer slot 0 and a key of zeros. -/
def header0 : List Byte :=
  [0x52, 0x4E, 0x59, 0x5A, 1, 0, 0, 1, 0x60, 0x58, 0, 0, 4, 0, 0, 0, 2, 0, 0, 0, 1, 0, 0, 0] ++ List.replicate 4 0 ++ toBytes 4 (424 : BitVec 32)
    ++ List.replicate 224 0
/-- The OTP names the hash of that key as signer 0. -/
def signedFor : State :=
  let h := hashBytes ((header0.drop 0xA0).take 96)
  wr (at' pgOTP 0x44) 0x100000 (withSec (fun x => { x with
    otp := (List.range 6).map fun i => (genBase 6 0 + 1 + i, encCode (ofBytes 64 ((h.drop (8 * i)).take 8))) })
    (eng false { Engine.zero with st := .header, src := 2, seen := header0 }))
theorem signedFor_hash : signerHash signedFor 0 = hashBytes ((header0.drop 0xA0).take 96) := by
  have hg : otpGen signedFor 6 = some 0 := by decide +kernel
  have hw : ∀ i < 6, otpData signedFor 6 (6 * 0 + 1 + i) 0 = ofBytes 64 (((hashBytes ((header0.drop 0xA0).take 96)).drop (8 * i)).take 8) := by
    intro i hi
    have hc : otpCode signedFor (genBase 6 0 + (6 * 0 + 1 + i))
        = encCode (ofBytes 64 (((hashBytes ((header0.drop 0xA0).take 96)).drop (8 * i)).take 8)) := by
      interval_cases i <;> rfl
    unfold otpData
    rw [hg]
    dsimp only
    unfold otpWord otpRead
    rw [hc, decode72_encCode]
    rfl
  have hl : (hashBytes ((header0.drop 0xA0).take 96)).length = 48 := toBytes_length _ _
  have ht : ∀ i < 6, toBytes 8 (otpData signedFor 6 (6 * 0 + 1 + i) 0) = ((hashBytes ((header0.drop 0xA0).take 96)).drop (8 * i)).take 8 := by
    intro i hi
    have h8 : (((hashBytes ((header0.drop 0xA0).take 96)).drop (8 * i)).take 8).length = 8 := by
      rw [List.length_take, List.length_drop, hl]; omega
    rw [hw i hi, toBytes_ofBytes 64 8 _ (by rw [h8]) (by rw [h8]), List.take_take, Nat.min_self]
  unfold signerHash
  generalize hashBytes ((header0.drop 0xA0).take 96) = b at hl ht ⊢
  show toBytes 8 _ ++ (toBytes 8 _ ++ (toBytes 8 _ ++ (toBytes 8 _ ++ (toBytes 8 _ ++ (toBytes 8 _ ++ []))))) = b
  rw [ht 0 (by decide), ht 1 (by decide), ht 2 (by decide), ht 3 (by decide), ht 4 (by decide), ht 5 (by decide)]
  have c : ∀ i, (b.drop (8 * i)).take 8 ++ b.drop (8 * (i + 1)) = b.drop (8 * i) := fun i => by
    rw [show 8 * (i + 1) = 8 * i + 8 by omega, ← List.drop_drop]
    exact List.take_append_drop 8 _
  have e : b.drop (8 * (5 + 1)) = [] := List.drop_of_length_le (by omega)
  rw [← e, c 5, c 4, c 3, c 2, c 1, c 0]
  rfl
/-- The hash is the opaque `Config.sha384` (log entry 11); where it is not 0 for the key of zeros, the header is accepted. -/
theorem wit_StreamEngines_header (h : ((hashBytes ((header0.drop 0xA0).take 96)).any fun b => decide (b ≠ 0)) = true) :
    headerCheck signedFor false 2 header0 = none ∧ hKind (header0.take 256) = 2 ∧ header0.length = 256 := by
  have h1 : headerOk header0 = true := by decide +kernel
  have h2 : leField header0 8 4 = 0x5860 ∧ (leField header0 0xC 4).testBit 2 = true ∧ leField header0 0x11 1 % 4 = 0 := by decide +kernel
  have h3 : (leField header0 0x14 1).testBit (devIndex signedFor) = true ∧ kindOk signedFor false 2 (hKind header0) = true := by decide +kernel
  have h4 : signerSet signedFor 0 = true := by unfold signerSet; rw [signedFor_hash]; exact h
  have h5 : signerRevoked signedFor 0 = false ∧ versionNow signedFor = 0 ∧ hEncrypted header0 = false := by decide +kernel
  refine ⟨?_, by decide +kernel, by decide +kernel⟩
  unfold headerCheck
  simp only [h1, h2, h3, h4, h5, signedFor_hash]
  simp
theorem wit_StreamEngines_refusedHeader : headerCheck svc false 2 (List.replicate 256 0) = some 0x0401 := by decide +kernel

-- The boot load

/-- Bring-up stands at a step, with the boot run as given. -/
def atStep (k : Nat) (b : Option BootRun) : State :=
  withCfc (fun c => { c with boot := b }) (wrF 0x1040 4 4 k (wrF 0x1040 0 3 mBRINGUP { State.reset with mod := { State.reset.mod with bootSel := 3 } }))
/-- The last source waits for the clock loops. -/
def lastRun : BootRun := ⟨2, [], true, true, none, true⟩
/-- Clock loop 0 is enabled. -/
def looping (s : State) : State := wrF (uioClkA 0) 31 1 1 s
theorem wit_BootAndRelease_load : inStep (atStep 9 none) 9 = true ∧ bootFailed (atStep 9 none) = false ∧ (atStep 9 none).cfc.phases = []
    ∧ fld (bootPolicy (atStep 9 none)) 2 2 ≠ 3 ∧ bootSources (atStep 9 none) = [2]
    ∧ (atStep 9 (some lastRun)).cfc.boot = some lastRun ∧ bootFailed (atStep 9 (some lastRun)) = false ∧ (atStep 9 (some lastRun)).cfc.applied = [] := by
  refine ⟨?_, ?_, ?_, ?_, ?_, ?_, ?_, ?_⟩ <;> decide +kernel
theorem wit_BootAndRelease_loops : rdB (looping svc) (uioClkA 0) 31 = true ∧ (looping svc).cfc.boot = none
    ∧ rdB (looping (atStep 9 (some lastRun))) (uioClkA 0) 31 = true ∧ (looping (atStep 9 (some lastRun))).cfc.boot = some lastRun
    ∧ inStep (looping (atStep 9 (some lastRun))) 9 = true ∧ loopsLocked (loopLock 0 (looping (atStep 9 (some lastRun)))) = true := by
  refine ⟨?_, ?_, ?_, ?_, ?_, ?_⟩ <;> decide +kernel
/-- Step 10 with phases to come. -/
def phased (l : List Nat) : State := withCfc (fun c => { c with phases := l }) (atStep 10 none)
/-- A broadcast that waits for its followers while ENG_0 is busy. -/
def casting : State :=
  let s := eng false { Engine.zero with st := .sections, src := 2 }
  { s with enr := { s.enr with bcast := some ⟨0, 2, false, 2, 5, 424, [1, 2], 0⟩ } }
theorem wit_BootAndRelease_phases : (∀ l ∈ [[1, 2, 3], [3]], inStep (phased l) 10 = true ∧ (phased l).cfc.phases = l)
    ∧ casting.enr.bcast = some ⟨0, 2, false, 2, 5, 424, [1, 2], 0⟩ ∧ casting.cfc.eng0.st ≠ .idle := by decide +kernel

-- The DRAM controller and inline memory encryption

/-- The controller in a state, with a map of 16 GiB that is valid for one mirrored channel, mirrored or not; the words of the DRAM. -/
def drc (st : Nat) (mir : Bool) (words : Tab (BitVec 80)) : State :=
  let s := [4, 5, 6, 7, 8].foldl (fun t m => wr (at' pgDRC0 (0x50 + 4 * m)) (BitVec.ofNat 32 (2 ^ (m + 3))) t) svc
  let s := wr (at' pgDRC0 0x4C) 0x221206 (wr (at' pgDRC0 0x40) (if mir then 0x800 else 0) (wrF drcStatA 0 3 st s))
  { s with drm := { s.drm with words := words } }
/-- What DRC_CTRL asks. -/
def drcOk (s : State) : Bool := reaches s pgDRC0 && !gated s pgDRC0 && !busy s pgDRC0
theorem wit_DramStates : drcOk (drc dOFF true []) = true ∧ mapValid (drc dOFF true []) = true
    ∧ (clockOk (drc dOFF true []) = true → 125 * dclkMhz (drc dOFF true []) ≤ 100 * bclkMhz (drc dOFF true []))
    ∧ mapValid svc = false ∧ drcState svc = dOFF ∧ drcOk svc = true ∧ drcState (drc dTRAIN true []) = dTRAIN ∧ mapValid (drc dTRAIN true []) = true
    ∧ drcState (drc dSR true []) = dSR ∧ drcOk { drc dSR true [] with drm := { Dram.zero with warm := true } } = true
    ∧ drcState (drc dINIT true []) = dINIT ∧ drcState (drc dFILL true []) = dFILL ∧ (drc dFILL true []).ime.filling = [] := by
  refine ⟨?_, ?_, ?_, ?_, ?_, ?_, ?_, ?_, ?_, ?_, ?_, ?_, ?_⟩ <;> decide +kernel
/-- TRAIN, with the random generator seeded. -/
def trained : State := withSec (fun x => { x with seeded := true }) (drc dTRAIN true [])
theorem wit_DramStates_fill_keys : drcState trained = dTRAIN ∧ mapValid trained = true ∧ drcOk trained = true
    ∧ imeBaseKey trained ≠ none ∧ trained.sec.drbgFail = false ∧ trained.sec.seeded = true :=
  ⟨by decide +kernel, by decide +kernel, by decide +kernel, Option.some_ne_none _, by decide +kernel, by decide +kernel⟩
/-- Subchannel 1 is lost. -/
def lost1 : State := wrF drcStatA 25 1 1 (drc dREADY true [])
theorem wit_DramLossAndRetirement_loss : drcState (drc dREADY true []) = dREADY ∧ mirrored (drc dREADY true []) = true
    ∧ subLost (drc dREADY true []) 0 = false ∧ subLost (drc dREADY true []) (0 ^^^ 1) = false ∧ mirrored (drc dREADY false []) = false
    ∧ drcOk lost1 = true ∧ drcState lost1 = dREADY ∧ mirrored lost1 = true ∧ subLost lost1 1 = true ∧ subLost lost1 (1 ^^^ 1) = false
    ∧ twf 0 (drc dREADY true [(0, 5)]).drm.words = true ∧ 2 * dramChannel (drc dREADY true []) (0 * 8) + 1 = 1 := by
  refine ⟨?_, ?_, ?_, ?_, ?_, ?_, ?_, ?_, ?_, ?_, ?_, ?_⟩ <;> decide +kernel
/-- Entry 5 retires page 0 to page 1 and is being copied. -/
def retiring : State :=
  { drc dREADY false [(0, 3)] with drm := { Dram.zero with words := [(0, 3)], retire := [(5, 2 ^ 63 + 2 ^ 32)], copying := [5] } }
theorem wit_DramLossAndRetirement_page : tget 0 5 retiring.drm.retire = 2 ^ 63 + 2 ^ 32 ∧ mirrored retiring = false
    ∧ fld (2 ^ 63 + 2 ^ 32 : Word) 0 26 = 0 ∧ fld (2 ^ 63 + 2 ^ 32 : Word) 32 26 = 1
    ∧ retireOf retiring 0 = some (5, 2 ^ 63 + 2 ^ 32) ∧ retireOf retiring 1 = none ∧ 5 ∈ retiring.drm.copying ∧ retiring.drm.timeouts = []
    ∧ retiring.drm.queue = [] := by decide +kernel
/-- What a helper's page asks. -/
def dphOk (s : State) : Bool := reaches s (pgDPH 0) && !gated s (pgDPH 0) && !busy s (pgDPH 0)
theorem wit_DramTrainingAndUpkeep : dphOk (drc dTRAIN true []) = true ∧ mayTrain (drc dTRAIN true []) 0 = true ∧ dphOk svc = true
    ∧ mayTrain svc 0 = false ∧ fld (0x12000000 : Reg) 25 4 = 9 ∧ (withDrm (fun d => { d with bursting := [0] }) svc).drm.bursting.contains 0 = true
    ∧ refreshes (drc dREADY true []) = true ∧ (drc dREADY true []).drm.asleep = [] ∧ drcState (drc dREADY true []) = dREADY := by
  refine ⟨?_, ?_, ?_, ?_, ?_, ?_, ?_, ?_, ?_⟩ <;> decide +kernel
/-- A request of address 0 from a far or host source waits for nothing and meets no region and no refusal. -/
def open0 (s : State) (src : Nat) : Bool :=
  (regionOf s 0).isNone && !srcWaits s src && !pageBlocked s 0 && !s.drm.timeouts.contains 0 && (imeRefusal s src 0 false).isNone
    && (imeRefusal s src 0 true).isNone && retireOf s 0 = none
theorem wit_DramRequestsAndWindow_requests : open0 (drc dREADY false []) srcFar = true ∧ open0 (drc dREADY true [(0, 3)]) srcFar = true
    ∧ mirrored (drc dREADY false []) = false ∧ subLost (drc dREADY true [(0, 3)]) (dramSub (drc dREADY true [(0, 3)]) 0) = false
    ∧ subLost (drc dREADY true [(0, 3)]) (dramSub (drc dREADY true [(0, 3)]) 0 + 1) = false
    ∧ (lineRead (drc dREADY false []) 0 0 255).any (fun p => p.2.err.isSome) = false
    ∧ (lineRead (drc dREADY true [(0, 3)]) 0 0 255).any (fun p => p.2.ue) = true
    ∧ (lineRead (drc dREADY true [(0, 3)]) 0 1 255).any (fun p => p.2.ue) = false
    ∧ (lineRead (drc dREADY true [(0, 3), (1, 3)]) 0 1 255).any (fun p => p.2.ue) = true := by
  refine ⟨?_, ?_, ?_, ?_, ?_, ?_, ?_, ?_, ?_⟩ <;> decide +kernel
theorem wit_DramRequestsAndWindow_refused : drcState svc ≠ dREADY ∧ 2 ^ capLog2 (drc dREADY false []) ≤ 2 ^ 34
    ∧ inSpare (wr (at' pgDRC0 0x94) 1 (drc dREADY false [])) 0 = true := by decide +kernel
theorem wit_DramRequestsAndWindow_window : bar4Dpa (drc dREADY false []) 0 = 0 ∧ (drc dREADY false []).hst.d3 = false
    ∧ open0 (drc dREADY false []) srcBar4 = true ∧ (withHst (fun h => { h with d3 := true }) svc).hst.d3 = true ∧ 0 % 64 + 64 ≤ 64 := by
  refine ⟨?_, ?_, ?_, ?_, ?_⟩ <;> decide +kernel

/-- IME is enabled or not; region 0 has a mode, pages from page 0 with counter blocks at page 4096, and a state on chip. -/
def ime (en : Nat) (mode pages : Nat) (v : ImeRegion) : State :=
  let s := wrF (at' pgIME 0x40) 0 1 en (wr (imeA 0 0) (BitVec.ofNat 32 mode) (wr (imeA 0 8) (BitVec.ofNat 32 pages)
    (wr (imeA 0 0xC) 4096 (wr (imeA 0 0x10) 8192 (wr (imeA 0 0x14) 12288 (drc dREADY false []))))))
  setImeReg 0 v (withSec (fun x => { x with seeded := true }) s)
/-- A region that is ACTIVE. -/
def active : ImeRegion := { ImeRegion.zero with st := .active }
/-- What IME_CMD asks. -/
def imeOk (s : State) : Bool := reaches s pgIME && !gated s pgIME && !busy s pgIME
theorem wit_ImeRegions_enable : imeOk (ime 0 0 0 .zero) = true ∧ imeEn (ime 0 0 0 .zero) = false
    ∧ (∀ n ∈ [120, 121, 122, 123], (bankOf (ime 0 0 0 .zero) n).typ = 0 ∧ (bankOf (ime 0 0 0 .zero) n).target = none)
    ∧ imeEn (ime 1 0 0 .zero) = true ∧ encryptedOff (ime 1 0 0 .zero) = true ∧ imeOk (ime 1 0 0 .zero) = true
    ∧ (bankOf (setBank 121 { Bank.initial 121 with typ := 2 } (ime 0 0 0 .zero)) 121).typ ≠ 0
    ∧ imeOk (setBank 121 { Bank.initial 121 with typ := 2 } (ime 0 0 0 .zero)) = true := by
  refine ⟨?_, ?_, ?_, ?_, ?_, ?_, ?_, ?_⟩ <;> decide +kernel
theorem wit_ImeRegions_init : (imeReg (ime 0 0 1 .zero) 0).st = .off ∧ drcState (ime 0 0 1 .zero) = dREADY ∧ placementOk (ime 0 0 1 .zero) 0 = true
    ∧ imeMode (ime 0 0 1 .zero) 0 = 0 ∧ imeOk (ime 0 0 1 .zero) = true ∧ imeOk (ime 1 2 1 .zero) = true ∧ imeMode (ime 1 2 1 .zero) 0 = 2
    ∧ placementOk (ime 1 2 1 .zero) 0 = true ∧ (∃ base, imeBaseKey (ime 1 2 1 .zero) = some base) ∧ (ime 1 2 1 .zero).sec.drbgFail = false
    ∧ (ime 1 2 1 .zero).sec.seeded = true :=
  ⟨by decide +kernel, by decide +kernel, by decide +kernel, by decide +kernel, by decide +kernel, by decide +kernel, by decide +kernel,
    by decide +kernel, ⟨_, rfl⟩, by decide +kernel, by decide +kernel⟩
theorem wit_ImeRegions_commands : imeOk (ime 1 1 1 active) = true ∧ (imeReg (ime 1 1 1 active) 0).st = .active ∧ (imeReg (ime 1 1 1 active) 0).pend = false ∧ (ime 1 1 1 active).drm.queue = []
    ∧ fld (rd (ime 1 1 1 active) (at' pgIME 0x4C)) 28 4 = 0 ∧ imeTop (ime 1 1 1 active) 0 = 0 ∧ levelSize (ime 1 1 1 active) 0 0 = 1
    ∧ (ime 1 1 1 active).ime.serving = none ∧ (∀ q, q < 16 → (imeReg (ime 1 1 1 active) q).pend = false) ∧ active.epoch ≠ 0xFFFF
    ∧ (imeReg (ime 1 1 1 { active with st := .init }) 0).st = .init ∧ imeOk (ime 1 1 1 { active with st := .init }) = true
    ∧ imeMode (ime 1 1 1 active) 0 = 1 ∧ (imeReg (ime 1 1 1 active) 0).high < 0xFFFFFFFF
    ∧ imeTop (wrF (at' pgIME 0x4C) 28 4 1 (ime 1 1 1 active)) 0 < fld (rd (wrF (at' pgIME 0x4C) 28 4 1 (ime 1 1 1 active)) (at' pgIME 0x4C)) 28 4 := by
  refine ⟨?_, ?_, ?_, ?_, ?_, ?_, ?_, ?_, ?_, ?_, ?_, ?_, ?_, ?_, ?_⟩ <;> decide +kernel
/-- A command of region 0 runs. -/
def imeRunning (k : Nat) : State := withIme (fun i => { i with running := some (k, 0, 0, 0) }) (ime 1 1 1 active)
theorem wit_ImeEngine_commands : (imeRunning 1).ime.running = some (1, 0, 0, 0) ∧ (imeRunning 3).ime.running = some (3, 0, imeTop (imeRunning 3) 0, 0)
    ∧ tget 0 0 (imeReg (imeRunning 3) 0).root + 1 < 2 ^ 56 - 1 ∧ (imeRunning 5).ime.running = some (5, 0, 0, 0)
    ∧ (imeReg (imeRunning 3) 0).high + 1 < 2 ^ 31 := by
  refine ⟨?_, ?_, ?_, ?_, ?_⟩ <;> decide +kernel
/-- Region 0 of three pages is being rekeyed, as far as a bound. -/
def rekeying (b : Nat) : State := withIme (fun i => { i with serving := some 0 }) (ime 1 1 3 { active with st := .rekey, bound := b })
/-- Page 0 of region 0 is being re-encrypted; its counter block is cached. -/
def reencrypting : State :=
  putCache 0 0 0 ⟨0, false, false⟩ (withIme (fun i => { i with reenc := [⟨0, 0⟩] }) (ime 1 1 1 active))
theorem wit_ImeEngine_rekey : (∀ b ∈ [0, 192], (rekeying b).ime.serving = some 0 ∧ (imeReg (rekeying b) 0).st = .rekey ∧ drcState (rekeying b) = dREADY
      ∧ (rekeying b).ime.reenc = [])
    ∧ 0 / 64 + 1 < imePages (rekeying 0) 0 ∧ imePages (rekeying 192) 0 ≤ 192 / 64 ∧ (∀ q, q < 16 → (imeReg (rekeying 192) q).pend = false)
    ∧ reencrypting.ime.reenc.find? (fun x => x.region = 0 && x.page = 0) = some ⟨0, 0⟩ ∧ cacheOf reencrypting 0 0 0 = some ⟨0, false, false⟩
    ∧ imeMode reencrypting 0 = 1 ∧ majorOf 0 + 1 ≠ 2 ^ 31 ∧ imeTop reencrypting 0 = 0 ∧ reencrypting.ime.lost = []
    ∧ reencrypting.drm.queue = [] ∧ reencrypting.ime.cache.length ≤ 200000 := by
  refine ⟨?_, ?_, ?_, ?_, ?_, ?_, ?_, ?_, ?_, ?_, ?_, ?_⟩ <;> decide +kernel

-- The root of trust

/-- What OTP_CMD asks. -/
def otpOk (s : State) : Bool := reaches s pgOTP && !gated s pgOTP && !busy s pgOTP && decide (modeOf s ≠ mSEALED)
/-- The random source is seeded. -/
def seeded : State := withSec (fun x => { x with seeded := true }) svc
theorem wit_OneTimeProgrammable_challenge : otpOk seeded = true ∧ seeded.sec.drbgFail = false ∧ seeded.sec.seeded = true
    ∧ otpOk (withSec (fun x => { x with drbgFail := true }) svc) = true := by decide +kernel
/-- Word 0x79, the first data word of generation 0 of block 2, is not blank. -/
def used79 : State := putOtp 0x79 5 svc
/-- A signer hash is in force and a challenge is outstanding. -/
def challenged : State := wr (at' pgOTP 0x44) 0x100000 (withSec (fun x => { x with challenge := true }) svc)
theorem wit_OneTimeProgrammable_program : otpOk svc = true ∧ cmdBlock 0x2000000 = 2 ∧ authBlock 2 = false ∧ authBlock 6 = true
    ∧ (∀ w ∈ genBase 2 0 :: genWords 2 0, otpBlank svc w = true) ∧ otpBlank svc (genVoid 2 0) = true
    ∧ (∃ w ∈ genBase 2 0 :: genWords 2 0, otpBlank used79 w = false) ∧ otpGen svc 6 = none ∧ (otpGen challenged 6).isSome = true
    ∧ challenged.sec.challenge = true ∧ cmdBlock 0x1000000 = 1 ∧ authOk challenged 4 0x1000000 = false := by
  refine ⟨?_, ?_, ?_, ?_, ?_, ?_, ?_, ?_, ?_, ?_, ?_, ?_⟩ <;> decide +kernel
/-- VERSION to 1 and past the count. That a signature verifies is the opaque `Config.ecdsaVerify` (log entry 11). -/
theorem wit_OneTimeProgrammable_version : versionCount svc = 0 ∧ fld (1 : Reg) 0 10 = 1 ∧ fld (0x101 : Reg) 0 10 = 257 ∧ otpOk challenged = true := by
  decide +kernel

/-- OTP_AUTH holds these 192 bytes. -/
def authed (bs : List Byte) : State := { svc with regs := (List.range 48).map fun i => (0x5240 + 4 * i, ofBytes 32 ((bs.drop (4 * i)).take 4)) }
theorem chunks (bs : List Byte) : ∀ n, bs.length = 4 * n → (List.range n).flatMap (fun i => (bs.drop (4 * i)).take 4) = bs := by
  intro n h
  have e : ∀ m, (List.range m).flatMap (fun i => (bs.drop (4 * i)).take 4) = bs.take (4 * m) := by
    intro m
    induction m with
    | zero => rfl
    | succ m ih =>
      rw [List.range_succ, List.flatMap_append, ih, List.flatMap_cons, List.flatMap_nil, List.append_nil,
        show 4 * (m + 1) = 4 * m + 4 by omega, List.take_add]
  rw [e, List.take_of_length_le (by omega)]
theorem authed_bytes (bs : List Byte) (h : bs.length = 192) : authBytes (authed bs) = bs := by
  have hr : ∀ i < 48, rd (authed bs) (0x5240 + 4 * i) = ofBytes 32 ((bs.drop (4 * i)).take 4) := by
    intro i hi
    interval_cases i <;> rfl
  have hc : authBytes (authed bs) = (List.range 48).flatMap (fun i => (bs.drop (4 * i)).take 4) := by
    unfold authBytes
    apply List.flatMap_congr
    intro i hi
    have hi := List.mem_range.mp hi
    have h4 : ((bs.drop (4 * i)).take 4).length = 4 := by rw [List.length_take, List.length_drop, h]; omega
    rw [hr i hi, toBytes_ofBytes 32 4 _ (by rw [h4]) (by rw [h4]), List.take_take, Nat.min_self]
  rw [hc, chunks bs 48 h]
/-- The provisioning private key of a blank device secret, and the KEK that it makes of an ephemeral point of zeros. -/
def provKey : BitVec 384 := privateKey (kdf (List.replicate 32 0) (ascii "RYTIS PROVISION KEY") [] 56)
/-- The KEK. -/
def kek0 : BitVec 256 :=
  ofBe 256 (kdf (beBytes 48 (Config.ecdh provKey (ofBe 768 (List.replicate 96 0)))) (ascii "RYTIS PROVISION")
    ([BitVec.ofNat 8 0] ++ hashBytes (pubBytes (Config.ecPublic provKey))) 32)
/-- A PROVISION blob for the fleet key of zeros. -/
def blob : List Byte :=
  4 :: (List.replicate 108 0 ++ ((gcmSeal kek0 (List.replicate 12 0) [BitVec.ofNat 8 0] (List.replicate 32 0)).1
    ++ ((gcmSeal kek0 (List.replicate 12 0) [BitVec.ofNat 8 0] (List.replicate 32 0)).2 ++ List.replicate 35 0)))
theorem wit_OneTimeProgrammable_provision : otpOk svc = true ∧ cmdGen 0 = 0 ∧ (hiddenKey (authed blob) 0x200).isSome = true
    ∧ keySet (authed blob) 0x204 = false ∧ unwrapKey (authed blob) 0 = some (List.replicate 32 0)
    ∧ keySet (putOtp 0x204 7 svc) 0x204 = true ∧ (hiddenKey (putOtp 0x204 7 svc) 0x200).isSome = true := by
  refine ⟨by decide +kernel, by decide +kernel, by decide +kernel, by decide +kernel, ?_, by decide +kernel, by decide +kernel⟩
  have hk : provisionKey (authed blob) = some provKey := rfl
  generalize hc : gcmSeal kek0 (List.replicate 12 0) [BitVec.ofNat 8 0] (List.replicate 32 0) = c at *
  have h1 : c.1.length = 32 := by
    rw [← hc]
    exact (xorBytes_length _ _ (gcmStream_length _ _ _)).trans (List.length_replicate ..)
  have h2 : c.2.length = 16 := by rw [← hc]; simp [gcmSeal, beBytes, toBytes_length]
  have hb : blob = 4 :: (List.replicate 108 0 ++ (c.1 ++ (c.2 ++ List.replicate 35 0))) := by unfold blob; rw [hc]
  have hl : blob.length = 192 := by rw [hb]; simp [h1, h2]
  have ho := gcmOpen_seal kek0 (List.replicate 12 0) [BitVec.ofNat 8 0] (List.replicate 32 0)
  rw [hc] at ho
  have p1 : ((blob.drop 97).take 12) = List.replicate 12 0 := by rw [hb]; simp [List.take_append]
  have p2 : ((blob.drop 109).take 32) = c.1 := by rw [hb]; simp [List.drop_append, h1]
  have p3 : ((blob.drop 141).take 16) = c.2 := by
    rw [hb]; simp [h1, h2]
  have p4 : ((blob.drop 1).take 96) = List.replicate 96 0 := by rw [hb]; simp
  have p5 : blob.headD 0 = 4 := by rw [hb]; rfl
  unfold unwrapKey
  rw [authed_bytes blob hl, hk]
  dsimp only [Option.bind_some]
  rw [if_neg (by rw [p5]; simp), p1, p2, p3, p4]
  exact ho
/-- An OTP command with words still to be programmed. -/
def jobbed (ws : List (Nat × Word)) : State := withSec (fun x => { x with job := some ⟨ws, none, none, false⟩ }) svc
theorem wit_OneTimeProgrammable_words : (jobbed [(0x79, 5)]).sec.job = some ⟨[(0x79, 5)], none, none, false⟩
    ∧ (jobbed [(0x79, 5), (0x7A, 6)]).sec.job = some ⟨[(0x79, 5), (0x7A, 6)], none, none, false⟩ := by decide +kernel

/-- What SEC_CMD asks. -/
def secOk (s : State) : Bool := reaches s pgSEC && !gated s pgSEC && !busy s pgSEC && decide (modeOf s ≠ mSEALED)
/-- The device secret has a word that reads uncorrectable. -/
def badSecret : State := putOtp 0x200 3 svc
theorem wit_AttestSealAndAlarms_commands : secOk svc = true ∧ (∃ k, attestKey svc = some k) ∧ secOk badSecret = true ∧ attestKey badSecret = none
    ∧ fld (0x5EA10000 : Reg) 16 16 = 0x5EA1 ∧ fld (1 : Reg) 16 16 ≠ 0x5EA1 :=
  ⟨by decide +kernel, ⟨_, rfl⟩, by decide +kernel, by decide +kernel, by decide +kernel, by decide +kernel⟩
theorem wit_AttestSealAndAlarms_report : (∃ b k, (withSec (fun x => { x with snapshot := some [] }) svc).sec.snapshot = some b
      ∧ attestKey (withSec (fun x => { x with snapshot := some [] }) svc) = some k) := ⟨_, _, rfl, rfl⟩
theorem wit_AttestSealAndAlarms_alarms : (svc.sec.alarms.event).activeNow 3 3 8 = false
    ∧ ((withSec (fun x => { x with alarms := ⟨2, [true, true]⟩ }) svc).sec.alarms.event).activeNow 3 3 8 = true := by decide +kernel
/-- A seal-log entry waits; the log is empty or full. -/
def sealing (otp : Tab Code) : State := withSec (fun x => { x with sealPend := some 9, otp := otp }) svc
theorem wit_AttestSealAndAlarms_log : (sealing []).sec.sealPend = some 9 ∧ (sealing []).sec.job = none ∧ otpBlank (sealing []) (0x2C0 + 0) = true
    ∧ (∀ e, e < 64 → otpBlank (sealing ((List.range 64).map fun e => (0x2C0 + e, 1))) (0x2C0 + e) = false)
    ∧ svc.sec.drbgFail = false ∧ (withSec (fun x => { x with entFails := 2 }) svc).sec.entFails = 2
    ∧ rdB svc 0xA100 8 = false ∧ rdB (wrF 0xA100 8 1 1 svc) 0xA100 8 = true := by
  refine ⟨?_, ?_, ?_, ?_, ?_, ?_, ?_, ?_⟩ <;> decide +kernel

-- Clocks

/-- A mode and step, the system source, the sources that are good, the start failures counted. -/
def clks (mode step src good fails : Nat) : State :=
  wrF srcStatA 0 3 src (wrF srcStatA 3 4 good (wrF srcStatA 8 2 fails (wrF 0x1040 4 4 step (wrF 0x1040 0 3 mode State.reset))))
theorem wit_ClocksAndPlls_start : (∀ f ∈ [0, 2], modeOf (clks mBRINGUP 3 0 0 f) = mBRINGUP ∧ stepOf (clks mBRINGUP 3 0 0 f) = 3
      ∧ srcOf (clks mBRINGUP 3 0 0 f) = 0 ∧ rdF (clks mBRINGUP 3 0 0 f) srcStatA 8 2 = f)
    ∧ modeOf (clks mSERVICE 0 5 8 0) ≠ mDORMANT ∧ srcGood (clks mSERVICE 0 5 8 0) 3 = true ∧ srcOf (clks mSERVICE 0 5 8 0) = 5
    ∧ inStep (clks mBRINGUP 4 1 8 0) 4 = true ∧ srcOf (clks mBRINGUP 4 1 8 0) = 1 ∧ srcGood (clks mBRINGUP 4 1 8 0) 2 = false
    ∧ noBcastStream (clks mBRINGUP 4 1 8 0) ∧ srcGood (clks mBRINGUP 4 1 12 0) 2 = true ∧ rdB (clks mBRINGUP 4 1 12 0) pllStatA 31 = false := by
  refine ⟨?_, ?_, ?_, ?_, ?_, ?_, ?_, .inl rfl, ?_, ?_⟩ <;> decide +kernel
theorem wit_ClocksAndPlls_loss : modeOf (clks mSERVICE 0 2 15 0) ≠ mDORMANT ∧ modeOf (clks mSERVICE 0 2 15 0) ≠ mBRINGUP
    ∧ (∀ k ∈ [0, 1, 2, 3], srcGood (clks mSERVICE 0 2 15 0) k = true) ∧ srcOf (clks mSERVICE 0 2 15 0) = 2 + 0
    ∧ srcOf (clks mSERVICE 0 2 13 0) = 2 ∧ srcGood (clks mSERVICE 0 2 13 0) 1 = false ∧ srcGood (clks mSERVICE 0 2 13 0) 2 = true
    ∧ srcOf (clks mSERVICE 0 4 12 0) = 4 ∧ srcGood (clks mSERVICE 0 4 12 0) 3 = true ∧ srcOf (clks mSERVICE 0 5 8 0) = 5
    ∧ srcGood (clks mSERVICE 0 5 8 0) 3 = true ∧ modeOf (clks mSEALED 0 5 8 0) = mSEALED ∧ srcOf (clks mSEALED 0 5 8 0) = 5
    ∧ srcGood (clks mSEALED 0 5 8 0) 3 = true := by
  refine ⟨?_, ?_, ?_, ?_, ?_, ?_, ?_, ?_, ?_, ?_, ?_, ?_, ?_, ?_⟩ <;> decide +kernel
theorem wit_ClocksAndPlls_windows : refWindowBad 1562 = false ∧ refWindowBad 1500 = true
    ∧ refSumBad (clks mSERVICE 0 2 15 0) ((1562 :: (clks mSERVICE 0 2 15 0).clk.refB).take 64) = false
    ∧ srcGood (clks mSERVICE 0 4 13 0) 0 = true ∧ srcOf (clks mSERVICE 0 4 13 0) = 4
    ∧ srcOf (wrF (at' pgCLK 0x44) 16 2 2 (clks mSERVICE 0 3 15 0)) = 3 - b2n false
    ∧ rdB (wrF (at' pgCLK 0x44) 16 2 2 (clks mSERVICE 0 3 15 0)) (at' pgCLK 0x44) 17 = true
    ∧ prefRef (wrF (at' pgCLK 0x44) 16 2 2 (clks mSERVICE 0 3 15 0)) = b2n false := by
  refine ⟨?_, ?_, ?_, ?_, ?_, ?_, ?_, ?_⟩ <;> decide +kernel

/-- The PLLs' lock bits, from bit 28, and the starts of each that did not lock. -/
def plls (mode step locks n : Nat) : State :=
  withClk (fun c => { c with tries := (List.range 5).map fun p => (p, n) }) (wrF pllStatA 28 4 locks (clks mode step 4 12 0))
theorem wit_ClocksAndPlls_locks : pllRuns (plls mSERVICE 0 0 2) 0 = true ∧ pllRuns (plls mSERVICE 0 0 2) 3 = true
    ∧ pllRuns (plls mSERVICE 0 0 2) 4 = true ∧ modeOf (plls mSERVICE 0 0 2) ≠ mBRINGUP ∧ noBcastStream (plls mSERVICE 0 0 2)
    ∧ inStep (plls mBRINGUP 5 4 0) 5 = true ∧ pllRuns (plls mBRINGUP 5 4 0) 0 = true ∧ pllLocked (plls mBRINGUP 5 4 0) 1 = true
    ∧ (plls mBRINGUP 5 4 0).mod.testMode = false ∧ pllLocked (plls mSERVICE 0 0 2) 0 = false ∧ pllLocked (plls mSERVICE 0 0 2) 3 = false
    ∧ tget 0 0 (plls mSERVICE 0 0 2).clk.tries = 2 ∧ tget 0 0 (plls mSERVICE 0 0 1).clk.tries < 2 ∧ (plls mSERVICE 0 0 2).clk.failed = [] := by
  refine ⟨?_, ?_, ?_, ?_, .inl rfl, ?_, ?_, ?_, ?_, ?_, ?_, ?_, ?_, ?_⟩ <;> decide +kernel
theorem wit_ClocksAndPlls_rates : reaches svc pgCLK = true ∧ gated svc pgCLK = false ∧ fld (25 : Reg) 0 6 ≠ rdF svc (at' pgCLK 0x4C) 0 6
    ∧ rdB svc (at' pgSLU 0x40) 0 = false ∧ (∀ n, n < 34 → halted svc n = true)
    ∧ (clockOk svc = true → 2 * bclkMhz svc ≤ 100 * 25 ∧ ∀ k, k < 4 → rdB svc (at' (pgUIO k) 0x44) 31 = true →
        100 * 25 ≤ 800 * rdF svc (at' (pgUIO k) 0x44) 0 6)
    ∧ rdB dispatching (at' pgSLU 0x40) 0 = true ∧ reaches dispatching pgCLK = true
    ∧ fld (1 : Reg) 0 2 ≠ rdF svc (at' pgCLK 0x50) 0 2 ∧ (∀ c, c < 16 → hdmaRuns svc c = false)
    ∧ (clockOk svc = true → 2 * 1200 ≤ fclkMhz svc ∧ rdF svc (at' (pgDRC 0) 0x48) 0 3 = 0) := by
  refine ⟨?_, ?_, ?_, ?_, ?_, ?_, ?_, ?_, ?_, ?_, ?_⟩ <;> decide +kernel

-- Modes, power, bring-up

/-- A mode with a transition; both PLLs that a wake needs are locked; power is good. -/
def moded (m : Nat) (k : ModeStep) : State :=
  withMod (fun x => { x with step := k, power := true }) (wrF pllStatA 30 2 3 (wrF srcStatA 0 3 4 (wrF 0x1040 0 3 m State.reset)))
/-- What the MODE page asks. -/
def modeOk (s : State) : Bool := reaches s pgMODE && !gated s pgMODE && decide (s.mod.step = .none)
/-- The conditions of R436 are off. -/
def calm (s : State) : Bool :=
  decide (srcOf s ≠ 5) && s.clk.failed.isEmpty && decide (rdF s (at' pgTHM 0x5C) 0 23 = 0) && decide (s.mod.throttle = 0)
    && !rdB (wrF (at' pgMODE 0x48) 16 1 0 s) (at' pgMODE 0x48) 16 && (emberCondition (wrF (at' pgMODE 0x48) 16 1 0 s)).isNone
theorem wit_SimmerAndEmber_simmer : modeOk (moded mSERVICE .none) = true ∧ modeOk (moded mEMBER .none) = true
    ∧ allDrained (moded mSERVICE .simmerDrain) = true ∧ noBcastStream (moded mSERVICE .simmerDrain)
    ∧ allDrained (withSlu (fun u => { u with services := [⟨0, 0, 0, 0, 0, 0, 0, none, false, true⟩] }) (moded mSERVICE .simmerDrain)) = false := by
  refine ⟨?_, ?_, ?_, .inl rfl, ?_⟩ <;> decide +kernel
/-- SIMMER with LANE_WAKE, lane 0 LOCKED. -/
def simmering : State :=
  let s := moded mSIMMER .none
  setLane 0 (at15 .locked) { s with mod := { s.mod with laneWake := true } }
theorem wit_SimmerAndEmber_wake : modeOf simmering = mSIMMER ∧ simmering.mod.step = .none ∧ gated simmering pgMODE = false
    ∧ simmering.mod.laneWake = true ∧ (laneOf simmering (leadOf simmering 0)).state = .locked
    ∧ rdB (moded mSIMMER .simmerWake) pllStatA 31 = true ∧ rdB (moded mSIMMER .simmerWake) pllStatA 30 = true
    ∧ noBcastStream (moded mSIMMER .simmerWake) ∧ calm (moded mSIMMER .simmerWake) = true := by
  refine ⟨?_, ?_, ?_, ?_, ?_, ?_, ?_, .inl rfl, ?_⟩ <;> decide +kernel
/-- EMBER, entered at a step of bring-up or not; the fabric PLL is not locked. -/
def ember (k : Nat) : State := wrF pllStatA 31 1 0 (withMod (fun x => { x with emberAt := k }) (moded mEMBER .none))
theorem wit_SimmerAndEmber_exit : modeOk (ember 0) = true ∧ modeOk (ember 5) = true ∧ modeOf (ember 0) = mEMBER
    ∧ emberCondition (withMod (fun x => { x with throttle := 1 }) (ember 0)) ≠ none ∧ emberCondition (ember 0) = none
    ∧ emberCondition (ember 5) = none ∧ rdB (ember 5) pllStatA 31 = false ∧ rdB (moded mBRINGUP .lateStages) pllStatA 31 = true
    ∧ calm (moded mBRINGUP .lateStages) = true ∧ rdB (wrF (at' pgTHM 0x40) 17 1 1 svc) (at' pgTHM 0x40) 17 = true ∧ noBcastStream svc := by
  refine ⟨?_, ?_, ?_, ?_, ?_, ?_, ?_, ?_, ?_, ?_, .inl rfl⟩ <;> decide +kernel
theorem wit_DormantAndWarmReset_dormant : modeOk (moded mSERVICE .none) = true ∧ fld (0x5AFE0000 : Reg) 16 16 = 0x5AFE
    ∧ (∃ p, pecAccepted p (moded mSERVICE .none) = true) ∧ modeOk (moded mBRINGUP .none) = true
    ∧ modeOf (moded mDORMANT .none) = mDORMANT ∧ (moded mDORMANT .none).mod.power = true ∧ (∃ p, pecAccepted p (moded mDORMANT .none) = true) := by
  refine ⟨?_, ?_, ⟨true, ?_⟩, ?_, ?_, ?_, ⟨true, ?_⟩⟩ <;> decide +kernel
theorem wit_DormantAndWarmReset_warm : (moded mSERVICE .warmReset).mod.step = .warmReset
    ∧ rdF (wrF dieStatA 0 4 15 (moded mSERVICE .warmReset)) dieStatA 0 4 = 15
    ∧ (withMod (fun x => { x with resetHeld := true }) (moded mBRINGUP .none)).mod.resetHeld = true ∧ inStep (moded mBRINGUP .none) 0 = true
    ∧ modeOf (moded mSERVICE .warmReset) = mSERVICE := by decide +kernel
/-- Bring-up at a step, its sources not yet judged. -/
def bringing (k : Nat) : State := wrF srcStatA 0 3 0 (wrF 0x1040 4 4 k (moded mBRINGUP .none))
theorem wit_BringUpAndDieReset_steps : State.reset.mod.power = false ∧ State.reset.mod.resetHeld = false ∧ ramping (bringing 1) 2 = true
    ∧ (bringing 1).mod.retried.contains 2 = false ∧ ramping (withMod (fun x => { x with retried := [2] }) (bringing 1)) 2 = true
    ∧ (∃ e, 1 ≤ e ∧ e ≤ 4 ∧ e ≠ 2 ∧ diePowered (bringing 1) e = false)
    ∧ ramping (wrF dieStatA 0 4 7 (bringing 1)) 4 = true ∧ (∀ e ∈ [1, 2, 3], diePowered (wrF dieStatA 0 4 7 (bringing 1)) e = true)
    ∧ inStep (bringing 2) 2 = true ∧ srcOf (bringing 2) = 0 ∧ inStep (bringing 6) 6 = true ∧ (bringing 6).mod.warmBoot = false
    ∧ inStep (bringing 7) 7 = true ∧ inStep (bringing 8) 8 = true := by
  refine ⟨?_, ?_, ?_, ?_, ?_, ⟨1, ?_⟩, ?_, ?_, ?_, ?_, ?_, ?_, ?_, ?_⟩ <;> decide +kernel
theorem wit_BringUpAndDieReset_lbist : lbistBoot (quietRails (bringing 8)) = true ∧ lbistSkipped (quietRails (bringing 8)) = false
    ∧ inStep (quietRails (bringing 8)) 8 = true ∧ lbistSkipped (bringing 8) = true := by
  refine ⟨?_, ?_, ?_, ?_⟩ <;> decide +kernel
theorem wit_BringUpAndDieReset_die : reaches svc pgPWR = true ∧ gated svc pgPWR = false ∧ busy svc pgPWR = false ∧ fld (8 : Reg) 0 4 = 2 ^ (4 - 1)
    ∧ fld (1 : Reg) 0 4 = 2 ^ (1 - 1) ∧ dispatchOn svc = false ∧ imeOn svc = false ∧ dispatchOn dispatching = true ∧ reaches dispatching pgPWR = true
    ∧ (withMod (fun x => { x with dieReset := some 4 }) svc).mod.dieReset = some 4 := by
  refine ⟨?_, ?_, ?_, ?_, ?_, ?_, ?_, ?_, ?_, ?_⟩ <;> decide +kernel

-- Housekeeping, host access, pins

theorem wit_RoundsTripsAndLimits : roundRuns svc = true ∧ noBcastStream svc ∧ roundRuns (bringing 2) = false
    ∧ modeOf svc ≠ mSEALED ∧ modeOf svc ≠ mDORMANT ∧ reaches svc pgTHM = true ∧ gated svc pgTHM = false
    ∧ aboveOtp svc 0x645A50 = false ∧ fld (0x645A50 : Reg) 0 8 < fld (0x645A50 : Reg) 8 8 ∧ fld (0x645A50 : Reg) 8 8 < fld (0x645A50 : Reg) 16 8
    ∧ aboveOtp svc 0xFF5A50 = true ∧ aboveOtp svc 0x505A50 = false ∧ fld (0x505A50 : Reg) 16 8 ≤ fld (0x505A50 : Reg) 8 8 := by
  refine ⟨?_, .inl rfl, ?_, ?_, ?_, ?_, ?_, ?_, ?_, ?_, ?_, ?_, ?_⟩ <;> decide +kernel

/-- Channel `c` of the host DMA has a kind, descriptors of ring A up to TAIL, and is enabled. -/
def chan0 (c kind tail : Nat) (s : State) : State :=
  wrF (hdmaA c 0) 0 3 kind (wrF (hdmaA c 0) 16 4 4 (wrF (hdmaA c 0) 31 1 1 (wrF (ringTailA c false) 0 16 tail s)))
/-- Channel `c` is halted with a descriptor waiting. -/
def haltedChan (c : Nat) : State := wr (hdmaA c 0x14) 0x80000D01 (chan0 c 0 1 svc)
theorem wit_EndpointAndDmaChannels_endpoint : reaches svc pgHIF = true ∧ gated svc pgHIF = false ∧ fld (192 : Reg) 0 8 ≤ 192
    ∧ 192 < fld (193 : Reg) 0 8 ∧ hdmaEn (chan0 0 0 1 svc) 0 = true ∧ hdmaHalted (chan0 0 0 1 svc) 0 = false := by decide +kernel
theorem wit_EndpointAndDmaChannels_channels : reaches svc pgHDMA = true ∧ gated svc pgHDMA = false
    ∧ fld (0x80000004 : Reg) 0 3 = 4 ∧ kindFits 3 4 = true ∧ kindFits 15 5 = true ∧ fld (0x80000005 : Reg) 0 3 = 5
    ∧ (∀ r ∈ hdmaNeeds 3 4, holderOf svc r = none) ∧ modeOf svc ≠ mEMBER
    ∧ holderOf (withHst (fun h => { h with holders := [(0x6000, pgUIO 0)] }) svc) 0x6000 = some (pgUIO 0) ∧ 0x6000 ∈ hdmaNeeds 3 4
    ∧ hdmaHalted (haltedChan 0) 0 = true ∧ busy (haltedChan 0) pgHDMA = false ∧ ringWaiting (haltedChan 0) 0 false = true
    ∧ reaches (haltedChan 0) pgHDMA = true ∧ gated (haltedChan 0) pgHDMA = false ∧ hdmaHalted svc 0 = false := by
  refine ⟨?_, ?_, ?_, ?_, ?_, ?_, ?_, ?_, ?_, ?_, ?_, ?_, ?_, ?_, ?_, ?_⟩ <;> decide +kernel
/-- A descriptor with a source, a destination and a length. -/
def desc (src dst len : Nat) : BitVec 256 := BitVec.ofNat 256 (src + dst * 2 ^ 64 + len * 2 ^ 128)
/-- A channel that runs, with bank 0 HOST's; of kind LIFELINE in EMBER. -/
def dma (c kind : Nat) : State :=
  chan0 c kind 1 (setBank 0 { Bank.initial 0 with typ := 6 } (wrF 0x1040 0 3 (if kind = 5 then mEMBER else mSERVICE) svc))
theorem wit_Descriptors_moves : hdmaActive (dma 0 0) 0 = true ∧ ringWaiting (dma 0 0) 0 false = true ∧ descBad (desc 0 0 0) = true
    ∧ descBad (desc 0 8 8) = false ∧ dLen (desc 0 8 8) = 8 ∧ dDst (desc 0 8 8) = 8 ∧ hdmaKind (dma 0 0) 0 = 0
    ∧ (dma 0 0).mod.dieReset ≠ some 4 ∧ gated (dma 0 0) pgBANK = false ∧ bankOwned (dma 0 0) 0 6 0 = true ∧ bankAwake (dma 0 0) 0 = true ∧ bankAwake (dma 0 1) 0 = true
    ∧ hdmaActive (dma 0 1) 0 = true ∧ hdmaKind (dma 0 1) 0 = 1 ∧ dSrc (desc 8 0 16) % 1024 + dLen (desc 8 0 16) ≤ 1024
    ∧ descBad (desc 8 0 16) = false ∧ bankOwned (dma 0 1) 0 6 0 = true ∧ rowUe (dma 0 1) 0 0 8 24 = false := by
  refine ⟨?_, ?_, ?_, ?_, ?_, ?_, ?_, ?_, ?_, ?_, ?_, ?_, ?_, ?_, ?_, ?_, ?_, ?_⟩ <;> decide +kernel
/-- Channel 15 runs with a receive buffer, and a record waits. -/
def receiving15 : State := wrF (ringTailA 15 true) 0 16 1 { dma 15 5 with lan := { (dma 15 5).lan with lifeIn := [7] } }
theorem wit_Descriptors_lifeline : hdmaActive receiving15 15 = true ∧ ringWaiting receiving15 15 true = true ∧ descBad (desc 0 0 64) = false
    ∧ 16 ≤ dLen (desc 0 0 64) ∧ receiving15.lan.lifeIn = [7] ∧ [(7 : BitVec 128)].length ≤ dLen (desc 0 0 64) / 16 := by decide +kernel

theorem wit_ManagementTestAndPins_mgmt : pecAccepted true svc = true ∧ pecAccepted false (wrF (at' pgHIF 0x48) 0 1 1 svc) = false
    ∧ mailboxOnly svc = false ∧ mailboxOnly (moded mDORMANT .none) = true ∧ gated svc pgHIF = false ∧ pageType pgSLU ≠ 0
    ∧ modeOf svc ≠ mDORMANT := by decide +kernel
/-- Bank 0 of the user pins is enabled; pins and clock loop have holders. -/
def pinned (l : List (BitVec 16 × Nat)) : State := wrF (uioOwnerA 0) 31 1 1 (withHst (fun h => { h with holders := l }) svc)
theorem wit_ManagementTestAndPins_pins : reaches (pinned []) (pgUIO 0) = true ∧ gated (pinned []) (pgUIO 0) = false
    ∧ writtenValue (pinned []) (uioPinA 0 0) 4 = (4, false) ∧ fld (4 : Reg) 2 2 ≠ 0 ∧ rdB (pinned []) (uioOwnerA 0) 31 = true
    ∧ holderOf (pinned []) (pinRes 0 0) = none ∧ writtenValue (pinned []) (uioPinA 0 0) 0 = (0, false)
    ∧ holderOf (pinned [(pinRes 0 0, pgDBG)]) (pinRes 0 0) = some pgDBG ∧ rdB svc (uioOwnerA 0) 31 = false
    ∧ writtenValue (pinned []) (uioClkA 0) 0x8000000A = (0x8000000A, false) ∧ holderOf (pinned []) 0x7000 = none
    ∧ fclkMhz (pinned []) ≤ 800 * fld (0x8000000A : Reg) 0 6 ∧ writtenValue (pinned []) (uioClkA 0) 0xA = (0xA, false) := by
  refine ⟨?_, ?_, ?_, ?_, ?_, ?_, ?_, ?_, ?_, ?_, ?_, ?_, ?_⟩ <;> decide +kernel
theorem wit_ManagementTestAndPins_trace : reaches svc pgDBG = true ∧ gated svc pgDBG = false
    ∧ writtenValue svc (at' pgDBG 0x40) 0x80000000 = (0x80000000, false) ∧ writtenValue svc (at' pgDBG 0x40) 0 = (0, false)
    ∧ (∀ j, j < 24 → holderOf svc (pinRes 3 j) = none) ∧ holderOf (pinned [(pinRes 3 5, pgUIO 3)]) (pinRes 3 5) = some (pgUIO 3)
    ∧ writtenValue (pinned [(pinRes 3 5, pgUIO 3)]) (at' pgDBG 0x40) 0x80000000 = (0x80000000, false) := by
  refine ⟨?_, ?_, ?_, ?_, ?_, ?_, ?_⟩ <;> decide +kernel

-- The code of every store, and the stores

theorem wit_ReadDecoding : checkBits 0x81 ^^^ 0x1E = 0 ∧ checkBits 0x01 ^^^ 0x1E = hColumns.getD 7 0 ∧ checkBits 0x81 ^^^ 0x1F = 2 ^ 0
    ∧ checkBits 0x81 ^^^ 0x1E ^^^ 3 ≠ 0 ∧ (∀ i, i < 64 → 3 ≠ hColumns.getD i 0) ∧ ∀ i, i < 8 → 3 ≠ 2 ^ i := by decide +kernel
theorem wit_StoresCanonical : storesWf svc ∧ step svc = .next svc := ⟨by unfold storesWf; decide +kernel, rfl⟩

-- Ill-formed commands

/-- Physical basin 34, its crystals and pages do not exist; nor do lane 144, Enrus port 7, and a page or an address that is no page or DWORD. -/
theorem test_wf_places : Instr.wf (.basinWakeDone 34) = false ∧ Instr.wf (.nop ⟨34, 0⟩ f0) = false
    ∧ Instr.wf (.laneLock 144) = false ∧ Instr.wf (.retrain 7) = false ∧ Instr.wf (.clrFault 0xFF0) = false
    ∧ Instr.wf (.registerRead 0x41 true) = false ∧ Instr.wf (.registerRead 0x1000000 true) = false ∧ Instr.wf (.tableLowerRead 0x40) = false := by
  decide +kernel
/-- A basin has ports 0 to 7, two intake and two outlet ports, four row ports of four commands; there are six rings. -/
theorem test_wf_ports : Instr.wf (.fenceComplete 0 8) = false ∧ Instr.wf (.descriptorBeatAccept 0 2) = false ∧ Instr.wf (.commit 0 2) = false
    ∧ Instr.wf (.readRow 0 4) = false ∧ Instr.wf (.readRowComplete 0 0 4) = false ∧ Instr.wf (.ringTailWrite 6 0) = false
    ∧ Instr.wf (.quadCfgWrite 36 0) = false := by decide +kernel
/-- There are three PLLs of the stack, four upper dies, 96 channels, 52 sites and 96 pins. -/
theorem test_wf_counts : Instr.wf (.pllLock 3) = false ∧ Instr.wf (.dieRampDone 0) = false ∧ Instr.wf (.dieRampDone 5) = false
    ∧ Instr.wf (.housekeepingRound []) = false ∧ Instr.wf (.analogTrip 52) = false ∧ Instr.wf (.uioPinWrite 96 0) = false
    ∧ Instr.wf (.selfCalibration (List.replicate 96 none) [144]) = false := by decide +kernel

-- Values that the spec states

/-- R84: the CRCs of "123456789" in two steps. -/
theorem test_crc (a b : Word) (ha : a = 0x3837363534333231) (hb : b = 0x39) :
    (resCrc b (resCrc a 0 0 0x9C).r 0 0x40).r = 0xCBF43926 ∧ (resCrc b (resCrc a 0 0 0x9D).r 0 0x41).r = 0xE3069283
      ∧ (resCrc b (resCrc a 0 0 0x9E).r 0 2).r = 0x29B1 ∧ (resCrc b (resCrc a 0xB704CE 0 0x1F).r 0 3).r = 0x21CF02 := by
  subst ha hb; decide +kernel
/-- R91: the stage of the example, read across its end. -/
theorem test_ldr_wraps : stageRead (BitVec.ofNat 8192 (0x0935 * 2 ^ (8 * 1018) + 0x34333231 * 2 ^ (8 * 1020) + 0x3635)) 1018 = 0x3635343332310935 := by
  decide +kernel
/-- The BOOT_POLICY of the example of R391: generation 0 valid with data 0x13, generation 1 cut off before its header, generation 2 voided. -/
def policyExample : State :=
  [(0x150, genHeader 5 0 [0x13]), (0x151, 0x13), (0x154, 0x20), (0x156, genHeader 5 2 [0x21]), (0x157, 0x21), (0x158, 1)].foldl
    (fun s q => putOtp q.1 (encCode q.2) s) svc
/-- R391: the block resolves to generation 0, and OTP_RESOLVED reads 0b100 in bits 17 to 15. -/
theorem test_boot_policy : fld (resolvedReg policyExample) 15 3 = 4 ∧ fld (resolvedReg svc) 15 3 = 0 := by decide +kernel
/-- The map of the 128 GiB example (R341). -/
def map128 : State :=
  ([0x208001, 0x410002, 4, 0x4000, 0x8200, 0x10400, 0x20800, 0x41000, 0x82000] : List Reg).zipIdx.foldl (fun t q => wr (at' pgDRC0 (0x50 + 4 * q.2)) q.1 t) svc
/-- R341, R342: the four lines of the example go to channels 1, 0, 3 and 2, and one row higher to channel 1 and bank group 2. -/
theorem test_map128 : dramChannel map128 0x0ABCDEF000 = 1 ∧ dramChannel map128 0x0ABCDEF040 = 0 ∧ dramChannel map128 0x0ABCDEF080 = 3
    ∧ dramChannel map128 0x0ABCDEF0C0 = 2 ∧ dramChannel map128 0x0ABCFEF040 = 1 ∧ locBit map128 3 0x0ABCDEF040 = 1
    ∧ [4, 5, 6].map (fun m => locBit map128 m 0x0ABCDEF040) = [1, 1, 0] ∧ [7, 8].map (fun m => locBit map128 m 0x0ABCDEF040) = [1, 1]
    ∧ [4, 5, 6].map (fun m => locBit map128 m 0x0ABCFEF040) = [0, 1, 0] := by
  refine ⟨?_, ?_, ?_, ?_, ?_, ?_, ?_, ?_, ?_⟩ <;> decide +kernel
/-- R366: the tree of the 220 GiB example. -/
theorem test_tree220 : (List.range 8).map (levelSize (wr (imeA 0 8) 0x3700000 svc) 0)
    = [57671680, 7208960, 901120, 112640, 14080, 1760, 220, 28] ∧ imeTop (wr (imeA 0 8) 0x3700000 svc) 0 = 7 := by decide +kernel
/-- R507, R509, R510, R524: the package has 5,360 balls, which the groups and the rails count up to. -/
theorem test_package : packageBalls = 5360 ∧ (ballGroups.map (·.2)).sum = 5360 ∧ (packageRails.map (·.balls)).sum = 1852 := by
  refine ⟨?_, ?_, ?_⟩ <;> decide +kernel
/-- R511, R529: lane 37 has its TX_P at K71 and lane 108 at CH2; air at 45 °C and 360 W ask for 0.069 K/W. -/
theorem test_lane_balls : ballName (laneBall 37 0).1 (laneBall 37 0).2 = "K71" ∧ ballName (laneBall 37 3).1 (laneBall 37 3).2 = "P71"
    ∧ ballName (laneBall 108 0).1 (laneBall 108 0).2 = "CH2" ∧ lidResistance 45 360 = 69 := by
  refine ⟨?_, ?_, ?_, ?_⟩ <;> decide +kernel

end Sys2Proof.Tests
end

section
/-! Which commands can stop with a fault (R6, R415; log entry 16). -/

namespace Sys2Proof.Machine

-- The outcome of a command that may break a clock ratio

/-- Such a command completes, or stops at a clock ratio that it broke (log entry 16). -/
theorem clocked_cases (s t : State) : clocked s t = .next t ∨ clocked s t = .fault .undefinedClock := by
  unfold clocked; split
  · exact .inr rfl
  · exact .inl rfl

/-- It completes where it breaks no clock ratio that held. -/
theorem clocked_of_ok {s t : State} (h : clockOk s = true → clockOk t = true) : clocked s t = .next t := by
  unfold clocked
  cases hs : clockOk s with
  | false => rfl
  | true => rw [h hs]; rfl

/-- The commands that can write a clock setting: by name, by a register write, or by the records of a stream or of a DMA channel. -/
def WritesClock (c : Instr) : Prop :=
  (∃ a v b, c = .registerWrite a v b) ∨ (∃ a v b, c = .write32 a v b) ∨ (∃ v, c = .clkFabPllWrite v) ∨ (∃ v, c = .clkBasePllWrite v)
    ∨ (∃ b v, c = .uioClkWrite b v) ∨ c = .init ∨ (∃ e, c = .signatureVerified e) ∨ ∃ ch b d l h, c = .descriptorComplete ch b d l h

/-- A command has completed, or it has stopped at a clock ratio. -/
def CompletesOrClockFault (o : Host.Outcome State Fault Refusal) : Prop := (∃ t, o = .next t) ∨ o = .fault .undefinedClock

theorem clocked_completesOrClockFault (s t : State) : CompletesOrClockFault (clocked s t) :=
  (clocked_cases s t).imp_left fun h => ⟨t, h⟩

theorem execRegisterWrite_completesOrClockFault (a : Nat) (v : Reg) (full : Bool) (s : State) :
    CompletesOrClockFault (execRegisterWrite a v full s) := by
  unfold execRegisterWrite; split
  · exact .inl ⟨_, rfl⟩
  · split
    · exact clocked_completesOrClockFault _ _
    · exact .inl ⟨_, rfl⟩

theorem execWrite32_completesOrClockFault (a : Nat) (v : Reg) (pec : Bool) (s : State) : CompletesOrClockFault (execWrite32 a v pec s) := by
  unfold execWrite32; split
  · exact .inl ⟨_, rfl⟩
  · split
    · exact .inl ⟨_, rfl⟩
    · exact clocked_completesOrClockFault _ _

theorem execDescriptorComplete_completesOrClockFault (ch : BitVec 4) (b : Bool) (d : BitVec 256) (l : List Byte) (h : Bool) (s : State) :
    CompletesOrClockFault (execDescriptorComplete ch b d l h s) := by
  unfold execDescriptorComplete; dsimp only; split
  · exact clocked_completesOrClockFault _ _
  · exact .inl ⟨_, rfl⟩

/-- Every command either completes, or writes clock settings and completes or stops at a clock ratio. -/
theorem exec_completes_or_writesClock (c : Instr) (s : State) :
    (∃ t, exec c s = .next t) ∨ WritesClock c ∧ CompletesOrClockFault (exec c s) := by
  unfold WritesClock
  cases c
  case registerWrite a v b => exact .inr ⟨.inl ⟨a, v, b, rfl⟩, execRegisterWrite_completesOrClockFault a v b s⟩
  case write32 a v b => exact .inr ⟨.inr (.inl ⟨a, v, b, rfl⟩), execWrite32_completesOrClockFault a v b s⟩
  case clkFabPllWrite v => exact .inr ⟨.inr (.inr (.inl ⟨v, rfl⟩)), clocked_completesOrClockFault _ _⟩
  case clkBasePllWrite v => exact .inr ⟨.inr (.inr (.inr (.inl ⟨v, rfl⟩))), clocked_completesOrClockFault _ _⟩
  case uioClkWrite b v => exact .inr ⟨.inr (.inr (.inr (.inr (.inl ⟨b, v, rfl⟩)))), clocked_completesOrClockFault _ _⟩
  case init => exact .inr ⟨.inr (.inr (.inr (.inr (.inr (.inl rfl))))), clocked_completesOrClockFault _ _⟩
  case signatureVerified e =>
    exact .inr ⟨.inr (.inr (.inr (.inr (.inr (.inr (.inl ⟨e, rfl⟩)))))), clocked_completesOrClockFault _ _⟩
  case descriptorComplete ch b d l h =>
    exact .inr ⟨.inr (.inr (.inr (.inr (.inr (.inr (.inr ⟨ch, b, d, l, h, rfl⟩)))))),
      execDescriptorComplete_completesOrClockFault ch b d l h s⟩
  all_goals exact .inl ⟨_, rfl⟩

theorem exec_completesOrClockFault (c : Instr) (s : State) : CompletesOrClockFault (exec c s) :=
  (exec_completes_or_writesClock c s).elim .inl (·.2)

theorem exec_ne_refused (c : Instr) (s : State) (r : Refusal) : exec c s ≠ .refused r := by
  rcases exec_completesOrClockFault c s with ⟨t, h⟩ | h <;> rw [h] <;> nofun

/-- Only a command that writes clock settings stops with a fault. -/
theorem writesClock_of_exec_fault {c : Instr} {s : State} {f : Fault} (h : exec c s = .fault f) : WritesClock c := by
  rcases exec_completes_or_writesClock c s with ⟨t, ht⟩ | ⟨hw, -⟩
  · rw [ht] at h; cases h
  · exact hw

theorem exec_completes {c : Instr} (h : ¬ WritesClock c) (s : State) : ∃ t, exec c s = .next t :=
  (exec_completes_or_writesClock c s).resolve_right fun w => h w.1

-- Where each of the writing commands reaches its write

theorem execRegisterWrite_full {s : State} (a : Nat) (v : Reg) (h : s.hst.d3 = false) :
    execRegisterWrite a v true s = clocked s (busWrite a v s) := by
  unfold execRegisterWrite; rw [h]; rfl

theorem execWrite32_accepted {s : State} {pec : Bool} (a : Nat) (v : Reg) (hp : pecAccepted pec s = true) (hm : mailboxOnly s = false) :
    execWrite32 a v pec s = clocked s (mgmtWrite a v s) := by
  unfold execWrite32; rw [hp, hm]; rfl

theorem execDescriptorComplete_running {s : State} {ch : BitVec 4} {b : Bool} (d : BitVec 256) (l : List Byte) (h : Bool)
    (ha : hdmaActive s ch.toNat = true) (hw : ringWaiting s ch.toNat b = true) (hb : b = true → ch = 15) :
    execDescriptorComplete ch b d l h s = clocked s (if b then dmaRingB d false h s else dmaRingA ch.toNat d l h s) := by
  have hr : (!b || decide (ch.toNat = 15)) = true := by
    cases b with
    | false => rfl
    | true => rw [hb rfl]; rfl
  unfold execDescriptorComplete; dsimp only
  rw [ha, hw, hr]; rfl

/-- Settles O3: all commands but eight complete by their definition, and the eight end in `clocked`. -/
theorem onlyClockSettingsStop : Obligations.OnlyClockSettingsStop := by
  unfold Obligations.OnlyClockSettingsStop
  refine ⟨exec_ne_refused, fun c s f h => writesClock_of_exec_fault h, ?_, fun s => ⟨?_, ?_, ?_, ?_, ?_, ?_, ?_, ?_⟩⟩
  · intro c s h1 h2 h3 h4 h5 h6 h7 h8
    refine exec_completes ?_ s
    rintro (⟨a, v, b, e⟩ | ⟨a, v, b, e⟩ | ⟨v, e⟩ | ⟨v, e⟩ | ⟨b, v, e⟩ | e | ⟨i, e⟩ | ⟨ch, b, d, l, h, e⟩)
    exacts [h1 a v b e, h2 a v b e, h3 v e, h4 v e, h5 b v e, h6 e, h7 i e, h8 ch b d l h e]
  · exact fun a v hd h => (execRegisterWrite_full a v hd).trans (clocked_of_ok h)
  · exact fun a v b hp hm h => (execWrite32_accepted a v hp hm).trans (clocked_of_ok h)
  · exact fun v h => clocked_of_ok h
  · exact fun v h => clocked_of_ok h
  · exact fun b v h => clocked_of_ok h
  · exact fun h => clocked_of_ok h
  · exact fun e h => clocked_of_ok h
  · exact fun ch b d l h ha hw hb hc => (execDescriptorComplete_running d l h ha hw hb).trans (clocked_of_ok hc)

end Sys2Proof.Machine
end

section
/-! The registers that the flow of items writes: those of ECC, SLU, SLU_X, DBG and BANK. The quads' registers are not among them, which
`onlyWork` leaves open. -/

namespace Sys2Proof.Machine

variable {s t u : State} {M : Nat → Bool}

-- Registers kept outside a set

/-- No register differs but those of a set. -/
def regsWithin (M : Nat → Bool) (s t : State) : Prop := ∀ a, M a = false → rd t a = rd s a

theorem regsWithin_refl (M : Nat → Bool) (s : State) : regsWithin M s s := fun _ _ => rfl
theorem regsWithin_trans (h : regsWithin M s t) (k : regsWithin M t u) : regsWithin M s u := fun a ha => (k a ha).trans (h a ha)
theorem regsWithin_mono {N : Nat → Bool} (hN : ∀ a, N a = false → M a = false) (h : regsWithin M s t) : regsWithin N s t :=
  fun a ha => h a (hN a ha)
theorem regsWithin_of_regs (h : regsWithin M s t) (e : u.regs = t.regs) : regsWithin M s u := fun a ha => (rd_congr e a).trans (h a ha)

theorem regsWithin_withSlu (h : regsWithin M s t) (f : Sluice → Sluice) : regsWithin M s (withSlu f t) := h
theorem regsWithin_lan (h : regsWithin M s t) (x : Lanes) : regsWithin M s { t with lan := x } := h
theorem regsWithin_withEcc (h : regsWithin M s t) (f : Ecc → Ecc) : regsWithin M s (withEcc f t) := h
theorem regsWithin_setSlot (h : regsWithin M s t) (n : Nat) (v : Slot) : regsWithin M s (setSlot n v t) := h
theorem regsWithin_sluMend (h : regsWithin M s t) (k e lo hi : Nat) : regsWithin M s (sluMend k e lo hi t) := h

theorem regsWithin_foldl {β : Type} {f : State → β → State} (l : List β) (hf : ∀ t, ∀ b ∈ l, regsWithin M t (f t b)) (h : regsWithin M s t) :
    regsWithin M s (l.foldl f t) :=
  l.foldlRecOn f h fun v hv b hb => regsWithin_trans hv (hf v b hb)

theorem regsWithin_wr (h : regsWithin M s t) {a : Nat} (ha : M a = true) (v : Reg) : regsWithin M s (wr a v t) := fun b hb => by
  rw [rd_wr_other t (by rintro rfl; rw [ha] at hb; cases hb)]; exact h b hb
theorem regsWithin_wrF (h : regsWithin M s t) {a : Nat} (ha : M a = true) (lo n x : Nat) : regsWithin M s (wrF a lo n x t) := regsWithin_wr h ha _
theorem regsWithin_incF (h : regsWithin M s t) {a : Nat} (ha : M a = true) (lo n k : Nat) : regsWithin M s (incF a lo n k t) := regsWithin_wr h ha _
theorem regsWithin_setIrq (h : regsWithin M s t) {p : Nat} (hp : M (irqA p) = true) (b : Nat) : regsWithin M s (setIrq p b t) :=
  regsWithin_of_regs (regsWithin_wrF h hp b 1 1) (setIrq_regs t p b)

-- Operations that write no register

theorem foldl_regs {β : Type} {f : State → β → State} (hf : ∀ t b, (f t b).regs = t.regs) (l : List β) (t : State) :
    (l.foldl f t).regs = t.regs :=
  l.foldlRecOn (motive := fun v => v.regs = t.regs) f rfl fun v hv b _ => (hf v b).trans hv

@[simp] theorem putRowCode_regs (b r w : Nat) (c : Code) (s : State) : (putRowCode b r w c s).regs = s.regs := rfl
@[simp] theorem sluMend_regs (k e lo hi : Nat) (s : State) : (sluMend k e lo hi s).regs = s.regs := rfl
@[simp] theorem setSlot_regs (n : Nat) (v : Slot) (s : State) : (setSlot n v s).regs = s.regs := rfl

@[simp] theorem bankTouch_regs (b : Nat) (s : State) : (bankTouch b s).regs = s.regs := by
  unfold bankTouch; dsimp only; split <;> rfl
@[simp] theorem writeCode_regs (b r w m : Nat) (v : Word) (s : State) : (writeCode b r w m v s).regs = s.regs := by
  unfold writeCode; split
  · rfl
  · split
    · exact putRowCode_regs _ _ _ _ _
    · split
      · exact putRowCode_regs _ _ _ _ _
      · rfl

@[simp] theorem setFlowDyn_regs (f : Nat) (d : FlowDyn) (s : State) : (setFlowDyn f d s).regs = s.regs := by
  unfold setFlowDyn; extract_lets o t v
  have hv : v.regs = s.regs := by unfold v; split <;> rfl
  split
  · exact hv
  · exact hv
@[simp] theorem reeval_regs (f : Nat) (s : State) : (reeval f s).regs = s.regs := by
  unfold reeval; dsimp only; split
  · split <;> rfl
  · rfl
@[simp] theorem mendLinks_regs (l : List Nat) (s : State) : (mendLinks l s).regs = s.regs :=
  foldl_regs (fun t n => sluMend_regs 3 n 7 8 t) l s
@[simp] theorem pushTail_regs (f n : Nat) (s : State) : (pushTail f n s).regs = s.regs := by simp [pushTail]
@[simp] theorem takeWant_regs (n : Nat) (s : State) : (takeWant n s).regs = s.regs := by
  unfold takeWant; split
  · split <;> rfl
  · rfl
@[simp] theorem pushHead_regs (f n : Nat) (s : State) : (pushHead f n s).regs = s.regs := by simp [pushHead]
@[simp] theorem freeOne_regs (n : Nat) (s : State) : (freeOne n s).regs = s.regs := by
  unfold freeOne; dsimp only; split <;> rfl
@[simp] theorem controlItem_regs (p : Nat) (on : Bool) (s : State) : (controlItem p on s).regs = s.regs := by
  unfold controlItem; dsimp only; split
  · simp
  · rfl
  · rfl
@[simp] theorem releaseSlot_regs (n : Nat) (s : State) : (releaseSlot n s).regs = s.regs := by
  unfold releaseSlot; extract_lets ops v
  have hv : v.regs = s.regs := (freeOne_regs n _).trans (foldl_regs (fun t m => freeOne_regs m t) ops s)
  split
  · split
    · exact (controlItem_regs _ _ _).trans hv
    · exact hv
  · exact hv
@[simp] theorem tellBp_regs (r v : State) (p : Nat) : (tellBp r v p).regs = v.regs := by
  unfold tellBp; split
  · exact controlItem_regs _ _ _
  · rfl
@[simp] theorem fillSlot_regs (n : Nat) (a : Arrival) (s : State) : (fillSlot n a s).regs = s.regs := rfl

@[simp] theorem sendMarkers_regs (f : TxForm) (s : State) : (sendMarkers f s).regs = s.regs := by
  unfold sendMarkers
  refine foldl_regs (fun t b => ?_) _ s
  dsimp only; split <;> rfl
@[simp] theorem txPass_regs (f : TxForm) (g k : Nat) (s : State) : (txPass f g k s).regs = s.regs := by
  unfold txPass; extract_lets j v
  have hv : v.regs = s.regs := by
    unfold v; split
    · rfl
    · exact foldl_regs (fun t _ => sendMarkers_regs f t) _ s
  exact hv
@[simp] theorem sendBlock_regs (f : TxForm) (g : Nat) (b : Block) (s : State) : (sendBlock f g s b).regs = s.regs := txPass_regs _ _ _ _
@[simp] theorem sendBytes_regs (f : TxForm) (g : Nat) (bs : List Byte) (s : State) : (sendBytes f g bs s).regs = s.regs :=
  foldl_regs (fun t b => sendBlock_regs f g b t) _ s
@[simp] theorem sendFlit_regs (p typ vc seq ack : Nat) (pl : List Byte) (s : State) : (sendFlit p typ vc seq ack pl s).regs = s.regs := by
  unfold sendFlit; dsimp only; split
  · rfl
  · exact sendBytes_regs _ _ _ _
@[simp] theorem pumpOne_regs (p v : Nat) (s : State) : (pumpOne p v s).regs = s.regs := by
  unfold pumpOne; dsimp only; split
  · rfl
  · split
    · exact sendFlit_regs _ _ _ _ _ _ _
    · rfl
@[simp] theorem pump_regs (p n : Nat) (s : State) : (pump p n s).regs = s.regs := by
  induction n generalizing s with
  | zero => rfl
  | succ n ih => exact (ih _).trans (foldl_regs (fun t v => pumpOne_regs p v t) _ s)
@[simp] theorem sendMsg_regs (p : Nat) (m : Msg) (s : State) : (sendMsg p m s).regs = s.regs := pump_regs _ _ _
@[simp] theorem stallPayload_regs (x : Stalled) (s : State) : (stallPayload x s).regs = s.regs := by
  unfold stallPayload; dsimp only; split
  · exact bankTouch_regs _ _
  · rfl

-- Operations that write registers of the flow's pages

/-- A register of the pages ECC, SLU, SLU_X, DBG and BANK. -/
def flowReg (a : Nat) : Bool :=
  a / 0x1000 = 0xA || a / 0x1000 = 0xB || a / 0x1000 = 0xC || a / 0x1000 = 0x10 || a / 0x1000 = 0x18

/-- No register differs but those of the flow's pages. -/
abbrev flowRegs (s t : State) : Prop := regsWithin flowReg s t

theorem flowRegs_traceOut (h : flowRegs s t) (src : Nat) (v : BitVec 192) : flowRegs s (traceOut src v t) := by
  unfold traceOut; split
  · dsimp only; split
    · exact regsWithin_incF (a := at' pgDBG 0x40) h rfl _ _ _
    · exact h
  · exact h

theorem flowRegs_ringEntry (h : flowRegs s t) {d : Nat} (hd : d < 5) (w0 w1 : Word) : flowRegs s (ringEntry d w0 w1 t) := by
  have hr : ∀ a, a / 0x1000 = 0xA → flowReg a = true := fun a ha => by unfold flowReg; rw [ha]; rfl
  unfold ringEntry; dsimp only; split
  · exact regsWithin_setIrq (regsWithin_incF h (hr _ (by omega)) _ _ _) rfl _
  · exact regsWithin_wr (flowRegs_traceOut (regsWithin_withEcc h fun e => { e with rings := _ }) _ _) (hr _ (by omega)) _

theorem chargeTrack_regs (k e : Nat) (s : State) : (chargeTrack k e s).1.regs = s.regs := by
  unfold chargeTrack; dsimp only; split
  · rfl
  · split
    · rfl
    · split <;> rfl

theorem logDie_lt (kind addr : Nat) : logDie kind addr < 5 := by
  unfold logDie; split
  case h_3 => split <;> decide
  all_goals decide

theorem flowRegs_logErr (h : flowRegs s t) {kind : Nat} (hk : kind < 16) (addr syn cause : Nat) (ue sweep : Bool) :
    flowRegs s (logErr kind addr syn cause ue sweep t) := by
  have hc : flowReg (0xA200 + 4 * kind) = true := by
    have : (0xA200 + 4 * kind) / 0x1000 = 0xA := by omega
    unfold flowReg; rw [this]; rfl
  have hi : ∀ (b : Bool) (n : Nat) (w : State), flowRegs s w → flowRegs s (if b then setIrq pgECC n w else w) := fun b n w hw => by
    cases b
    · exact hw
    · exact regsWithin_setIrq hw rfl _
  unfold logErr; dsimp only
  have hl := regsWithin_incF (flowRegs_ringEntry (regsWithin_of_regs h (chargeTrack_regs kind (trackUnit kind addr) t)) (logDie_lt kind addr)
    (BitVec.ofNat 64 (cause % 2 ^ 16 + syn % 256 * 2 ^ 16 + addr % 2 ^ 40 * 2 ^ 24))
    (BitVec.ofNat 64 (fld (chargeTrack kind (trackUnit kind addr) t).1.time 4 48 + kind % 16 * 2 ^ 52 + b2n sweep * 2 ^ 61
      + b2n (chargeTrack kind (trackUnit kind addr) t).2 * 2 ^ 62 + b2n ue * 2 ^ 63))) hc (if ue then 16 else 0) 16 1
  generalize incF _ _ _ _ _ = v at hl ⊢
  refine hi _ _ _ (hi _ _ _ ?_)
  split
  · exact regsWithin_wr (regsWithin_wr (regsWithin_wr (regsWithin_wr hl rfl _) rfl _) rfl _) rfl _
  · exact hl

theorem flowRegs_rowLogOne (h : flowRegs s t) (b r w : Nat) (d : Decoded) : flowRegs s (rowLogOne b r w d t) := by
  have hd : flowRegs s (logDecoded 3 (rowLogAddr b r w) 0x0903 d false t) := by
    unfold logDecoded; split
    · exact h
    · exact flowRegs_logErr h (by decide) _ _ _ _ _
    · exact flowRegs_logErr h (by decide) _ _ _ _ _
  unfold rowLogOne; dsimp only; split
  · exact regsWithin_setIrq hd rfl _
  · exact hd
theorem flowRegs_rowLog (h : flowRegs s t) (b r : Nat) : flowRegs s (rowLog b r t) :=
  regsWithin_foldl _ (fun v p _ => flowRegs_rowLogOne (regsWithin_refl _ v) b r p.1 _) h
theorem flowRegs_logRows (h : flowRegs s t) (b r n : Nat) : flowRegs s (logRows b r n t) :=
  regsWithin_foldl _ (fun v k _ => flowRegs_rowLog (regsWithin_refl _ v) b (r + k)) h
theorem flowRegs_rowWrite (h : flowRegs s t) (b r : Nat) (m : BitVec 1024) (d : BitVec 8192) : flowRegs s (rowWrite b r m d t) := by
  unfold rowWrite
  refine regsWithin_of_regs (t := if maskMerges m then rowLog b r t else t) ?_ (foldl_regs (fun _ _ => writeCode_regs _ _ _ _ _ _) _ _)
  split
  · exact flowRegs_rowLog h b r
  · exact h
theorem flowRegs_writeBytes (h : flowRegs s t) (b r o : Nat) (bs : List Byte) : flowRegs s (writeBytes b r o bs t) :=
  regsWithin_foldl _ (fun v _ _ => flowRegs_rowWrite (regsWithin_refl _ v) _ _ _ _) h
theorem flowRegs_bankRefuse (h : flowRegs s t) (q n b r : Nat) : flowRegs s (bankRefuse q n b r t) := by
  unfold bankRefuse; extract_lets a v w
  have hw : flowRegs s w := by
    refine regsWithin_incF (a := at' pgBANK 0x44) ?_ rfl _ _ _
    unfold recordFirst; split
    · exact regsWithin_wrF h (a := at' pgBANK 0x40) rfl _ _ _
    · exact regsWithin_wr h (a := at' pgBANK 0x40) rfl _
  split
  · exact hw
  · exact regsWithin_setIrq hw rfl _
theorem flowRegs_refuseHanded (h : flowRegs s t) (typ lim : Nat) : flowRegs s (refuseHanded typ lim t) :=
  regsWithin_foldl _ (fun v n _ => flowRegs_bankRefuse (regsWithin_refl _ v) typ 0 n 0) h

theorem flowRegs_sluTouch (h : flowRegs s t) (k e lo hi : Nat) : flowRegs s (sluTouch k e lo hi t) := by
  unfold sluTouch; dsimp only
  refine regsWithin_of_regs (regsWithin_foldl _ (fun v d _ => ?_) h) rfl
  have hl := flowRegs_logErr (regsWithin_refl flowReg v) (kind := 4) (by decide) (k * 2 ^ 36 + d.word % 16 * 2 ^ 32 + e) d.syn.toNat
    (structCause k d.word) d.ue false
  split
  · exact regsWithin_setIrq hl rfl _
  · exact hl

theorem flowRegs_quarantineFlow (h : flowRegs s t) (f : Nat) : flowRegs s (quarantineFlow f t) := by
  unfold quarantineFlow; split
  · exact h
  · exact regsWithin_setIrq (regsWithin_of_regs h (by simp)) rfl _
theorem flowRegs_excEntry (h : flowRegs s t) (f c : Nat) (k : BitVec 20) : flowRegs s (excEntry f c k t) := by
  unfold excEntry; dsimp only; split
  · exact regsWithin_incF (a := at' pgSLUX 0x48) h rfl _ _ _
  · exact regsWithin_setIrq (regsWithin_wr (a := at' pgSLUX 0x40) (regsWithin_sluMend (regsWithin_withSlu h _) _ _ _ _) rfl _) rfl _
theorem flowRegs_toException (h : flowRegs s t) (n c : Nat) : flowRegs s (toException n c t) :=
  regsWithin_of_regs (flowRegs_excEntry h _ _ _) (releaseSlot_regs _ _)
theorem flowRegs_bpEval (h : flowRegs s t) : flowRegs s (bpEval t) := by
  unfold bpEval; extract_lets ps v w
  have hw : flowRegs s w := by
    unfold w; split
    · exact regsWithin_setIrq (regsWithin_withSlu h _) rfl _
    · exact regsWithin_withSlu h _
  exact regsWithin_of_regs hw (foldl_regs (fun _ _ => tellBp_regs _ _ _) ps w)

theorem flowRegs_readDelay (h : flowRegs s t) (n : Nat) : flowRegs s (readDelay n t) := by
  have ht := flowRegs_sluTouch h 5 n 0 2
  unfold readDelay; split
  · exact regsWithin_sluMend (regsWithin_withSlu ht _) _ _ _ _
  · exact ht
theorem flowRegs_delayLinks (h : flowRegs s t) (k x : Nat) : flowRegs s (delayLinks k x t) :=
  regsWithin_foldl _ (fun v e _ => flowRegs_readDelay (regsWithin_refl _ v) e.2) h
theorem flowRegs_putDelay (h : flowRegs s t) (k x n : Nat) : flowRegs s (putDelay k x n t) :=
  regsWithin_sluMend (flowRegs_delayLinks h k x) _ _ _ _
theorem flowRegs_dropMatch (h : flowRegs s t) (m : MatchEntry) : flowRegs s (dropMatch m t) := by
  unfold dropMatch; dsimp only; split
  · exact flowRegs_delayLinks (regsWithin_withSlu h _) _ _
  · exact h
theorem flowRegs_readMatch (h : flowRegs s t) (m : MatchEntry) : flowRegs s (readMatch m t).1 := by
  have ht := flowRegs_sluTouch h 4 (m.slots.head?.getD 0) 0 4
  unfold readMatch; dsimp only; split
  · exact regsWithin_foldl _ (fun v n _ => flowRegs_toException (regsWithin_refl _ v) n _)
      (flowRegs_dropMatch (regsWithin_sluMend ht _ _ _ _) m)
  · exact ht
theorem flowRegs_delayOrQueue (h : flowRegs s t) (f n d : Nat) : flowRegs s (delayOrQueue f n d t) := by
  unfold delayOrQueue; split
  · exact regsWithin_of_regs h (pushTail_regs f n t)
  · split
    · exact regsWithin_withSlu (regsWithin_setSlot (flowRegs_putDelay h _ _ n) _ _) _
    · exact regsWithin_setIrq (regsWithin_withSlu (regsWithin_of_regs h (pushTail_regs f n t)) _) rfl _
theorem flowRegs_fuseItems (h : flowRegs s t) (f : Nat) (ns : List Nat) : flowRegs s (fuseItems f ns t) := by
  unfold fuseItems; split
  · exact h
  next n rest =>
    dsimp only
    refine flowRegs_delayOrQueue ?_ _ _ _
    have hf := regsWithin_foldl (f := fun t m => setSlot m { slotOf t m with place := .fusedInto } t) rest
      (fun v m _ => regsWithin_setSlot (regsWithin_refl flowReg v) m _) h
    split
    · exact hf
    · exact regsWithin_setSlot hf _ _
theorem flowRegs_matchArrive (h : flowRegs s t) (f n : Nat) : flowRegs s (matchArrive f n t) := by
  unfold matchArrive; extract_lets tag isKey v
  have hv : flowRegs s v := by
    unfold v; split
    · exact flowRegs_readMatch h _
    · exact h
  clear_value v
  split
  · extract_lets ns m'
    clear_value ns m'
    split
    · exact flowRegs_fuseItems (flowRegs_dropMatch hv _) _ _
    · exact regsWithin_withSlu (regsWithin_setSlot hv _ _) _
  · split
    · exact regsWithin_setIrq (flowRegs_toException hv _ _) rfl _
    · refine regsWithin_withSlu (regsWithin_setSlot (regsWithin_sluMend ?_ _ _ _ _) _ _) _
      split
      · exact hv
      · exact flowRegs_putDelay hv _ _ _
theorem flowRegs_arriveSlot (h : flowRegs s t) (n : Nat) : flowRegs s (arriveSlot n t) := by
  unfold arriveSlot; extract_lets f v w
  have hv : flowRegs s v := flowRegs_sluTouch h _ _ _ _
  have hw : flowRegs s w := by
    unfold w; split
    · exact flowRegs_quarantineFlow hv _
    · exact hv
  split
  · exact flowRegs_toException hw _ _
  · split
    · exact flowRegs_toException hw _ _
    · split
      · exact flowRegs_matchArrive hw _ _
      · exact flowRegs_delayOrQueue hw _ _ _

theorem flowRegs_payloadRead (h : flowRegs s t) (x : Stalled) : flowRegs s (payloadRead x t).2 := by
  unfold payloadRead; split
  · exact h
  · split
    · exact h
    · exact flowRegs_logRows h _ _ _
theorem flowRegs_sendArrive (h : flowRegs s t) (x : Stalled) : flowRegs s (sendArrive x t) := by
  unfold sendArrive; extract_lets r v
  have hv : flowRegs s v := by
    unfold v; split
    · exact regsWithin_of_regs (flowRegs_payloadRead h x) rfl
    · exact flowRegs_payloadRead h x
  split
  · exact regsWithin_of_regs hv (sendMsg_regs _ _ _)
  · exact hv
theorem flowRegs_forwardArrival (h : flowRegs s t) (a : Arrival) : flowRegs s (forwardArrival a t) := by
  unfold forwardArrival; extract_lets x; split
  · exact regsWithin_of_regs h (stallPayload_regs x t)
  · exact flowRegs_sendArrive h x

/-- An arriving item (R188, R189) writes registers of the flow's pages alone. -/
theorem flowRegs_itemArrive (h : flowRegs s t) (a : Arrival) : flowRegs s (itemArrive a t).1 := by
  unfold itemArrive; split
  · exact flowRegs_forwardArrival h a
  · split
    · exact h
    · exact flowRegs_arriveSlot (regsWithin_of_regs h (fillSlot_regs _ a t)) _
theorem flowRegs_releaseHeld (h : flowRegs s t) (n : Nat) : flowRegs s (releaseHeld n t) := by
  induction n generalizing t with
  | zero => exact h
  | succ n ih =>
    unfold releaseHeld; split
    · exact h
    · exact ih (flowRegs_bpEval (flowRegs_itemArrive (regsWithin_lan h _) _))
/-- So do back-pressure and the segments held back by it (R207, R240). -/
theorem flowRegs_settle (h : flowRegs s t) : flowRegs s (settle t) := flowRegs_releaseHeld (flowRegs_bpEval h) _

end Sys2Proof.Machine
end

section
/-! The lane machine (R229, R238, R242): what its steps touch. It leaves QUAD_CFG and LANE_CTRL, which it runs by, as they are. -/

namespace Sys2Proof.Machine

variable {s t : State} {l : Nat}

/-- A register at a multiple of 0x40 in a quad's page: QUAD_CFG, and LANE_CTRL of each lane. -/
def laneSetting (a : Nat) : Bool := 0x20 ≤ a / 0x1000 && a / 0x1000 < 0x44 && a % 0x40 = 0

theorem laneSetting_iff {a : Nat} : laneSetting a = true ↔ 0x20 ≤ a / 0x1000 ∧ a / 0x1000 < 0x44 ∧ a % 0x40 = 0 := by
  simp [laneSetting, and_assoc]

/-- Nothing differs but what the flow of items touches, and the settings of the lanes stay. -/
def onlyLanes (s t : State) : Prop := onlyWork s t ∧ regsWithin (fun a => !laneSetting a) s t

theorem onlyLanes_refl (s : State) : onlyLanes s s := ⟨onlyWork_refl s, regsWithin_refl _ s⟩
theorem onlyLanes_trans {u : State} (h : onlyLanes s t) (k : onlyLanes t u) : onlyLanes s u :=
  ⟨onlyWork_trans h.1 k.1, regsWithin_trans h.2 k.2⟩
theorem onlyLanes_foldl {β : Type} {f : State → β → State} (xs : List β) (hf : ∀ t, ∀ b ∈ xs, onlyLanes t (f t b)) (h : onlyLanes s t) :
    onlyLanes s (xs.foldl f t) :=
  xs.foldlRecOn f h fun _ hv b hb => onlyLanes_trans hv (hf _ b hb)

/-- What the flow of items does, it does within its own pages. -/
theorem onlyLanes_of_flow (h : onlyLanes s t) {u : State} (hw : onlyWork t u) (hr : flowRegs t u) : onlyLanes s u := by
  refine onlyLanes_trans h ⟨hw, regsWithin_mono (fun a ha => ?_) hr⟩
  rw [Bool.not_eq_false', laneSetting_iff] at ha
  simp only [flowReg, Bool.or_eq_false_iff, decide_eq_false_iff_not]
  omega

theorem onlyLanes_withLan (h : onlyLanes s t) (f : Lanes → Lanes) : onlyLanes s (withLan f t) := h
theorem onlyLanes_lan (h : onlyLanes s t) (x : Lanes) : onlyLanes s { t with lan := x } := h
theorem onlyLanes_setLane (h : onlyLanes s t) (l : Nat) (v : Lane) : onlyLanes s (setLane l v t) := h
theorem onlyLanes_withSlu (h : onlyLanes s t) (f : Sluice → Sluice) : onlyLanes s (withSlu f t) := h

theorem laneSetting_eq_false {a : Nat} (h : a % 0x40 ≠ 0) : laneSetting a = false := by simp [laneSetting, h]
theorem laneSetting_quadCfgA (h : l < 144) : laneSetting (quadCfgA (l / 4)) = true := by
  rw [laneSetting_iff]; unfold quadCfgA at' pgQUAD; omega
theorem laneSetting_laneA (h : l < 144) : laneSetting (laneA l 0) = true := by
  rw [laneSetting_iff]; unfold laneA at' pgQUAD; omega
theorem workPage_pgQUAD (h : l < 144) : workPage (pgQUAD (l / 4)) = true := by
  have : 0x20 ≤ pgQUAD (l / 4) ∧ pgQUAD (l / 4) < 0x44 := by unfold pgQUAD; omega
  simp [workPage, this]

/-- A register of a quad's page that is none of the settings. -/
theorem onlyLanes_wr (h : onlyLanes s t) (hl : l < 144) {a : Nat} (hp : a / 0x1000 = pgQUAD (l / 4)) (ho : a % 0x40 ≠ 0) (v : Reg) :
    onlyLanes s (wr a v t) :=
  ⟨onlyWork_wr h.1 a v (by rw [hp]; exact workPage_pgQUAD hl), regsWithin_wr h.2 (by rw [laneSetting_eq_false ho]; rfl) v⟩
theorem onlyLanes_setIrq (h : onlyLanes s t) (hl : l < 144) (b : Nat) : onlyLanes s (setIrq (pgQUAD (l / 4)) b t) :=
  ⟨onlyWork_setIrq h.1 _ b (workPage_pgQUAD hl),
    regsWithin_setIrq h.2 (by rw [laneSetting_eq_false (by unfold irqA; omega)]; rfl) b⟩
theorem onlyLanes_setFault (h : onlyLanes s t) (hl : l < 144) (c : Nat) : onlyLanes s (setFault (pgQUAD (l / 4)) c t) :=
  onlyLanes_wr (onlyLanes_wr h hl (by unfold statA; omega) (by unfold statA; omega) _) hl (by unfold errA; omega) (by unfold errA; omega) _
/-- A register of a lane's block, or of its detail window, beside LANE_CTRL. -/
theorem onlyLanes_wr_laneA (h : onlyLanes s t) (hl : l < 144) {o : Nat} (h0 : 0 < o) (ho : o < 0x40) (v : Reg) : onlyLanes s (wr (laneA l o) v t) :=
  onlyLanes_wr h hl (by unfold laneA at'; omega) (by unfold laneA at'; omega) v
theorem onlyLanes_wr_detailA (h : onlyLanes s t) (hl : l < 144) {o : Nat} (h0 : 0 < o) (ho : o < 0x40) (v : Reg) :
    onlyLanes s (wr (detailA l o) v t) :=
  onlyLanes_wr h hl (by unfold detailA at'; omega) (by unfold detailA at'; omega) v

-- Intake

theorem onlyLanes_intakeDrop (h : onlyLanes s t) (hl : l < 144) (c : Nat) : onlyLanes s (intakeDrop l c t) :=
  onlyLanes_setIrq (onlyLanes_wr (onlyLanes_lan h _) hl (by unfold at'; omega) (by unfold at'; omega) _) hl _

theorem onlyLanes_closeSegment (h : onlyLanes s t) (g : Segment) (hg : g.lane < 144) : onlyLanes s (closeSegment g t) := by
  unfold closeSegment; dsimp only; split
  · exact onlyLanes_of_flow h (onlyWork_settle (onlyWork_itemArrive (onlyWork_refl t) _))
      (flowRegs_settle (flowRegs_itemArrive (regsWithin_refl _ t) _))
  · split
    · exact onlyLanes_lan h _
    · exact onlyLanes_intakeDrop (onlyLanes_lan h _) hg _
theorem onlyLanes_endSegment (h : onlyLanes s t) (g : Segment) (hg : g.lane < 144) : onlyLanes s (endSegment g t) := by
  unfold endSegment; extract_lets v
  refine onlyLanes_closeSegment (onlyLanes_of_flow (t := v) (onlyLanes_withLan h _) ?_ ?_) g hg
  · exact onlyWork_writeBytes (onlyWork_bankTouch (onlyWork_refl _) _) _ _ _ _
  · exact flowRegs_writeBytes (regsWithin_of_regs (regsWithin_refl _ _) (bankTouch_regs _ _)) _ _ _ _

theorem openSeg_lane {b : BitVec 6} {g : Segment} (h : openSeg s l b = some g) : g.lane = l := by
  have := List.find?_some h
  simp only [Bool.and_eq_true, decide_eq_true_eq] at this
  exact this.1

theorem onlyLanes_refuseHanded (h : onlyLanes s t) (typ lim : Nat) : onlyLanes s (refuseHanded typ lim t) :=
  onlyLanes_of_flow h (onlyWork_foldl _ (fun u n => onlyWork_bankRefuse (onlyWork_refl u) typ 0 n 0) _ _ (onlyWork_refl t))
    (flowRegs_refuseHanded (regsWithin_refl _ t) typ lim)
/-- A segment that a lane opens is the lane's own (R237). -/
theorem onlyLanes_beginSegment (h : onlyLanes s t) (b : BitVec 6) (p r : Nat) (records first : Bool) (a : BitVec 32) :
    onlyLanes s (beginSegment l b p r records first a t).2 ∧ ∀ g ∈ (beginSegment l b p r records first a t).1, g.lane = l := by
  unfold beginSegment; split
  · refine ⟨onlyLanes_lan (onlyLanes_of_flow (onlyLanes_refuseHanded h _ _) (onlyWork_bankTouch (onlyWork_refl _) _)
      (regsWithin_of_regs (regsWithin_refl _ _) (bankTouch_regs _ _))) _, ?_⟩
    rintro g ⟨⟩; rfl
  · exact ⟨onlyLanes_refuseHanded h _ _, nofun⟩

theorem onlyLanes_matchPartner (h : onlyLanes s t) (b n : Nat) : onlyLanes s (matchPartner l b n t).2 := by
  induction n generalizing t with
  | zero => exact h
  | succ n ih =>
    unfold matchPartner; split
    · exact h
    · next p _ =>
      have hp : onlyLanes s (sluTouch 0 p 0 2 t) :=
        onlyLanes_of_flow h (onlyWork_sluTouch (onlyWork_refl t) _ _ _ _) (flowRegs_sluTouch (regsWithin_refl _ t) _ _ _ _)
      dsimp only; split
      · exact ih (onlyLanes_withSlu hp _)
      · exact hp

theorem onlyLanes_addRecord (h : onlyLanes s t) (hl : l < 144) (b : BitVec 6) (p r : Nat) (rec : List Byte) (a : BitVec 32) :
    onlyLanes s (addRecord l b p r rec a t) := by
  unfold addRecord; extract_lets v
  have hv : onlyLanes s v := by
    unfold v; split
    · next g hg =>
      split
      · exact h
      · exact onlyLanes_endSegment h g (openSeg_lane hg ▸ hl)
    · exact h
  have hb := onlyLanes_beginSegment (l := l) hv b p r true false a
  split
  · exact onlyLanes_withLan hv _
  · split
    · next e => rw [e] at hb; exact onlyLanes_withLan hb.1 _
    · next e => rw [e] at hb; exact onlyLanes_intakeDrop hb.1 hl _

/-- The bytes of a long frame fill segments of the lane (R237, R238). -/
theorem onlyLanes_plainFill (hl : l < 144) (b : BitVec 6) (p r : Nat) (err trunc ends : Bool) (a : BitVec 32) (n : Nat) :
    ∀ (first : Bool) (bs : List Byte) (t : State), onlyLanes s t → onlyLanes s (plainFill l b p r err trunc ends a n first bs t).1 := by
  induction n with
  | zero => exact fun _ _ _ h => h
  | succ n ih =>
    intro first bs t h
    unfold plainFill; extract_lets cur
    have hc : onlyLanes s cur.2 ∧ ∀ g ∈ cur.1, g.lane = l := by
      unfold cur; split
      · next g hg => exact ⟨h, by rintro _ ⟨⟩; exact openSeg_lane hg⟩
      · split
        · exact ⟨h, nofun⟩
        · exact onlyLanes_beginSegment h _ _ _ _ _ _
    clear_value cur
    obtain ⟨g, v⟩ := cur
    cases g with
    | none =>
      dsimp only; split
      · exact hc.1
      · exact onlyLanes_intakeDrop hc.1 hl _
    | some g =>
      have hg : g.lane < 144 := hc.2 g rfl ▸ hl
      dsimp only; split
      · dsimp only; split
        · exact onlyLanes_endSegment hc.1 _ hg
        · exact onlyLanes_withLan hc.1 _
      · exact ih _ _ _ (onlyLanes_endSegment hc.1 _ hg)

theorem onlyLanes_feedFrame (h : onlyLanes s t) (hl : l < 144) (r0 : Word) (r : Nat) (bs : List Byte) (err ends trunc : Bool) :
    onlyLanes s (feedFrame l r0 r bs err ends trunc t) := by
  unfold feedFrame; extract_lets i j b
  split
  · exact onlyLanes_withLan h _
  · split
    · exact onlyLanes_withLan h _
    · split
      · exact onlyLanes_withLan h _
      · split
        next d v e =>
        have hv : onlyLanes s v := by
          split at e
          · cases e; exact h
          · have hm := onlyLanes_matchPartner (l := l) h b.toNat 4096
            split at e <;> next e' => cases e; rw [e'] at hm; exact hm
        split
        · exact onlyLanes_withLan (onlyLanes_intakeDrop hv hl _) _
        · dsimp only; split
          · split
            · exact onlyLanes_withLan (onlyLanes_addRecord hv hl _ _ _ _ _) _
            · exact onlyLanes_withLan hv _
          · refine onlyLanes_withLan (onlyLanes_plainFill hl _ _ _ _ _ _ _ _ _ _ _ ?_) _
            split
            · exact hv
            · split
              · next g hg => exact onlyLanes_endSegment hv g (openSeg_lane hg ▸ hl)
              · exact hv

/-- The frame in progress and the open segments of a partner lane are cut off (R238). -/
theorem onlyLanes_cutFrames (h : onlyLanes s t) (hl : l < 144) (m : Nat) : onlyLanes s (cutFrames l m t) := by
  unfold cutFrames; extract_lets v
  have hv : onlyLanes s v := by
    unfold v; split
    · exact onlyLanes_feedFrame h hl _ _ _ _ _ _
    · exact h
  refine onlyLanes_foldl _ (fun u g hg => onlyLanes_endSegment (onlyLanes_refl u) g ?_) hv
  have : g.lane = l := by simpa using (List.mem_filter.1 hg).2
  omega

theorem mem_workingOf_lt {m w : Nat} (h : w ∈ workingOf s m) : w < 144 := List.mem_range.1 (List.mem_filter.1 h).1
theorem rxFor_lt (hl : l < 144) {w : Nat} (h : rxFor s l = some w) : w < 144 := by
  unfold rxFor at h; split at h
  · split at h <;> cases h; exact hl
  · split at h
    · exact mem_workingOf_lt (List.mem_of_find?_eq_some h)
    · cases h; exact hl
theorem mem_carried_lt (hl : l < 144) {w : Nat} (h : w ∈ carried s l) : w < 144 := by
  unfold carried at h; split at h
  · exact mem_workingOf_lt (List.mem_filter.1 h).1
  · rw [List.mem_singleton] at h; exact h ▸ hl

theorem onlyLanes_cutLane (h : onlyLanes s t) (hl : l < 144) : onlyLanes s (cutLane l t) := by
  unfold cutLane; split
  · next w hw => exact onlyLanes_cutFrames h (rxFor_lt hl hw) l
  · exact h

-- Egress

theorem onlyLanes_egressDrop (h : onlyLanes s t) (hl : l < 144) (n c : Nat) : onlyLanes s (egressDrop l n c t) := by
  unfold egressDrop; split
  · exact h
  · exact onlyLanes_setIrq (onlyLanes_wr_laneA (onlyLanes_lan h _) hl (by decide) (by decide) _) hl _
theorem onlyLanes_discardEgress (h : onlyLanes s t) (hl : l < 144) : onlyLanes s (discardEgress l t) :=
  onlyLanes_egressDrop (onlyLanes_foldl _ (fun u _ _ => onlyLanes_withLan (onlyLanes_refl u) _) h) hl _ _
theorem onlyLanes_laneDown (h : onlyLanes s t) (hl : l < 144) : onlyLanes s (laneDown l t) := by
  refine onlyLanes_foldl _ (fun u w hw => ?_) (onlyLanes_setIrq h hl 0)
  split
  · exact onlyLanes_discardEgress (onlyLanes_refl u) (mem_carried_lt hl hw)
  · exact onlyLanes_refl u

-- States of a lane

/-- A group has 1, 2, 4 or 8 lanes. -/
theorem groupSize_dvd (s : State) (l : Nat) : groupSize s l ∣ 144 := by
  unfold groupSize; split
  · exact one_dvd _
  · have : quadBond s (l / 4) % 4 < 4 := Nat.mod_lt _ (by decide)
    unfold bondSize
    interval_cases quadBond s (l / 4) % 4 <;> decide
theorem leadOf_le (s : State) (l : Nat) : leadOf s l ≤ l := Nat.div_mul_le_self _ _
/-- The lanes of a group all exist where one does. -/
theorem mem_laneGroup_lt (hl : l < 144) {m : Nat} (h : m ∈ laneGroup s l) : m < 144 := by
  obtain ⟨i, hi, rfl⟩ := List.mem_map.1 h
  rw [List.mem_range] at hi
  obtain ⟨k, hk⟩ := groupSize_dvd s l
  have hq : l / groupSize s l < k := Nat.div_lt_of_lt_mul (hk ▸ hl)
  calc leadOf s l + i < l / groupSize s l * groupSize s l + groupSize s l := Nat.add_lt_add_left hi _
    _ = groupSize s l * (l / groupSize s l + 1) := by ring
    _ ≤ groupSize s l * k := Nat.mul_le_mul_left _ hq
    _ = 144 := hk.symm

theorem onlyLanes_restartAdapt (h : onlyLanes s t) (hl : l < 144) : onlyLanes s (restartAdapt l t) :=
  onlyLanes_wr_detailA (onlyLanes_wr_detailA (onlyLanes_wr_detailA h hl (by decide) (by decide) _) hl (by decide) (by decide) _) hl
    (by decide) (by decide) _
theorem onlyLanes_clearLocks (h : onlyLanes s t) (hl : l < 144) : onlyLanes s (clearLocks t l) :=
  onlyLanes_foldl _ (fun u _ hm => onlyLanes_restartAdapt (onlyLanes_lan (onlyLanes_setLane (onlyLanes_refl u) _ _) _) (mem_laneGroup_lt hl hm)) h
theorem onlyLanes_resetPrbs (h : onlyLanes s t) (l : Nat) : onlyLanes s (resetPrbs l t) := onlyLanes_withLan (onlyLanes_setLane h _ _) _
theorem onlyLanes_noRung (h : onlyLanes s t) (hl : l < 144) : onlyLanes s (noRung l t) := onlyLanes_setFault (onlyLanes_setLane h _ _) hl _
theorem onlyLanes_enterRung (h : onlyLanes s t) (hl : l < 144) (k : Option Nat) : onlyLanes s (enterRung l k t) := by
  unfold enterRung; split
  · exact onlyLanes_noRung h hl
  · exact onlyLanes_setLane (onlyLanes_clearLocks h hl) _ _
theorem onlyLanes_enterDiag (h : onlyLanes s t) (hl : l < 144) : onlyLanes s (laneEval.enterDiag l t) :=
  onlyLanes_setLane (onlyLanes_foldl _ (fun u m _ => onlyLanes_resetPrbs (onlyLanes_refl u) m) (onlyLanes_clearLocks h hl)) _ _
theorem onlyLanes_enterLifeline (h : onlyLanes s t) (hl : l < 144) : onlyLanes s (enterLifeline l t) := by
  have hc := onlyLanes_setLane (onlyLanes_clearLocks h hl) l
  unfold enterLifeline; dsimp only; split
  · exact onlyLanes_setFault (hc _) hl _
  · exact hc _
theorem onlyLanes_moveLane (h : onlyLanes s t) (hl : l < 144) {f : State → State} (hf : ∀ u, onlyLanes u (f u)) :
    onlyLanes s (moveLane l f t) := by
  unfold moveLane; split
  · exact onlyLanes_laneDown (onlyLanes_trans (onlyLanes_cutLane h hl) (hf _)) hl
  · exact onlyLanes_trans h (hf t)

/-- One evaluation of the lane machine (R229, R254). -/
theorem onlyLanes_laneEval (h : onlyLanes s t) (hl : l < 144) : onlyLanes s (laneEval l t) := by
  refine onlyLanes_moveLane h hl fun u => ?_
  have hu := onlyLanes_refl u
  have dis := onlyLanes_setLane hu l
  have rung := onlyLanes_enterRung hu hl
  have diag := onlyLanes_enterDiag hu hl
  split
  case isTrue =>
    repeat' split
    exacts [hu, onlyLanes_enterLifeline hu hl, dis _]
  case isFalse =>
    split
    case h_1 =>
      split
      exacts [rung _, dis _]
    case h_2 =>
      repeat' split
      exacts [hu, diag, rung _]
    case h_3 =>
      repeat' split
      exacts [dis _, diag, hu]
    case h_4 =>
      repeat' split
      exacts [dis _, diag, hu]
    case h_5 =>
      repeat' split
      exacts [dis _, rung _, hu, diag]
    case h_6 =>
      repeat' split
      exacts [dis _, rung _, hu]
theorem onlyLanes_laneSettle (h : onlyLanes s t) (hl : l < 144) : onlyLanes s (laneSettle l t) :=
  onlyLanes_laneEval (onlyLanes_laneEval (onlyLanes_laneEval h hl) hl) hl

/-- Collecting without repeats keeps to the elements given. -/
theorem mem_foldl_collect {a xs : List Nat} {m : Nat} (h : m ∈ xs.foldl (fun (a : List Nat) l => if a.contains l then a else a ++ [l]) a) :
    m ∈ a ∨ m ∈ xs := by
  induction xs generalizing a with
  | nil => exact .inl h
  | cons x xs ih =>
    rcases ih h with hm | hm
    · dsimp only at hm
      split at hm
      · exact .inl hm
      · rcases List.mem_append.1 hm with hm | hm
        · exact .inl hm
        · rw [List.mem_singleton.1 hm]; exact .inr (List.mem_cons_self ..)
    · exact .inr (List.mem_cons_of_mem _ hm)

/-- The lane machine over the groups of some lanes (R229). -/
theorem onlyLanes_settleLanes (h : onlyLanes s t) {ls : List Nat} (hls : ∀ m ∈ ls, m < 144) : onlyLanes s (settleLanes ls t) := by
  refine onlyLanes_foldl _ (fun u m hm => onlyLanes_laneSettle (onlyLanes_refl u) ?_) h
  rcases mem_foldl_collect hm with hm | hm
  · cases hm
  · obtain ⟨k, hk, rfl⟩ := List.mem_map.1 hm
    exact (leadOf_le t k).trans_lt (hls k hk)

end Sys2Proof.Machine
end

section
/-! Writes of QUAD_CFG, LANE_CTRL and LANE_PROT (R15, R218, R229, R245, R253). -/

namespace Sys2Proof.Machine

variable {s t : State} {l k : Nat} {v x : Reg}

-- A write that the page takes, and one that it refuses

theorem guarded_open {p : Nat} {f : State → State} (hr : reaches s p = true) (hg : gated s p = false) : guarded p f s = f s := by
  simp [guarded, reaching, hr, hg]

/-- A refusal notes its cause in ERR_CAUSE, sets FAULT and changes nothing else (R487). -/
theorem setFault_notes (p c : Nat) (s : State) :
    rd (setFault p c s) (errA p) = BitVec.ofNat 32 c ∧ rdB (setFault p c s) (statA p) 2 = true
      ∧ regsBut [statA p, errA p] s (setFault p c s) ∧ onlyRegs s (setFault p c s) :=
  ⟨rd_setFault_err s p c, rdB_setFault_stat s p c, regsBut_setFault (regsBut_refl _ s) (by simp) (by simp) c,
    onlyRegs_setFault (onlyRegs_refl s) p c⟩

-- What the lane machine runs by

/-- The registers that the lane machine reads: LANE_CTRL, QUAD_CFG of the quad and of the one below it, the mode, and the boot's failure. -/
def laneInputs (l : Nat) : List Nat := [laneA l 0, quadCfgA (l / 4), quadCfgA (l / 4 - 1), 0x1040, 0x7060]

/-- All that the lane machine runs by, beside the state of the lane, is the same. -/
def sameLaneInputs (l : Nat) (s t : State) : Prop :=
  (∀ a ∈ laneInputs l, rd t a = rd s a) ∧ t.lan.rungs = s.lan.rungs ∧ t.lan.dead = s.lan.dead ∧ t.clk.failed = s.clk.failed

/-- A lane is enabled and nothing keeps it DISABLED (R229, R305). -/
def laneOn (s : State) (l : Nat) : Bool :=
  bit (rd s (laneA l 0)) 0 && !rdB s 0x7060 14 && !enrusQuad s (l / 4) && !s.lan.dead.contains l && !s.clk.failed.contains (4 + l / 4)

section
variable (h : sameLaneInputs l s t)
include h

theorem sameLaneInputs_laneA : rd t (laneA l 0) = rd s (laneA l 0) := h.1 _ (by simp [laneInputs])
theorem sameLaneInputs_modeOf : modeOf t = modeOf s := by unfold modeOf rdF; rw [h.1 0x1040 (by simp [laneInputs])]
theorem sameLaneInputs_enrusQuad : enrusQuad t (l / 4) = enrusQuad s (l / 4) := by
  unfold enrusQuad rdB; rw [h.1 (quadCfgA (l / 4)) (by simp [laneInputs])]
theorem sameLaneInputs_groupSize : groupSize t l = groupSize s l := by
  have hq : quadBond t (l / 4) = quadBond s (l / 4) := by
    unfold quadBond rdF
    rw [h.1 (quadCfgA (l / 4)) (by simp [laneInputs]), h.1 (quadCfgA (l / 4 - 1)) (by simp [laneInputs])]
  unfold groupSize; rw [sameLaneInputs_modeOf h, hq]
theorem sameLaneInputs_rungW (q n w : Nat) : rungW t q n w = rungW s q n w := by unfold rungW; rw [h.2.1]
theorem sameLaneInputs_topRung : topRung t l = topRung s l := by
  have hv : rungV t (l / 4) = rungV s (l / 4) := by funext n; unfold rungV; rw [sameLaneInputs_rungW h]
  unfold topRung laneForce forceRung rdB rdF
  rw [sameLaneInputs_laneA h, hv]
theorem sameLaneInputs_laneOn : laneOn t l = laneOn s l := by
  unfold laneOn rdB
  rw [sameLaneInputs_laneA h, sameLaneInputs_enrusQuad h, h.1 0x7060 (by simp [laneInputs]), h.2.2.1, h.2.2.2]
end

/-- The lane machine writes none of the registers that it reads. -/
theorem sameLaneInputs_of_onlyLanes (hl : l < 144) (h : onlyLanes s t) (hr : t.lan.rungs = s.lan.rungs) (hd : t.lan.dead = s.lan.dead)
    (hc : t.clk.failed = s.clk.failed) : sameLaneInputs l s t := by
  refine ⟨fun a ha => ?_, hr, hd, hc⟩
  have hs : ∀ {a}, laneSetting a = true → rd t a = rd s a := fun ha => h.2 _ (by simp [ha])
  simp only [laneInputs, List.mem_cons, List.not_mem_nil, or_false] at ha
  rcases ha with rfl | rfl | rfl | rfl | rfl
  · exact hs (laneSetting_laneA hl)
  · exact hs (laneSetting_quadCfgA hl)
  · have := laneSetting_quadCfgA (l := 4 * (l / 4 - 1)) (by omega)
    rw [Nat.mul_div_cancel_left _ (by decide)] at this
    exact hs this
  · exact h.1.2 _ (by decide)
  · exact h.1.2 _ (by decide)

-- From DISABLED to SEEK (R229)

@[simp] theorem laneOf_setLane_same (l : Nat) (n : Lane) (s : State) : laneOf (setLane l n s) l = n := tget_tput_same _ _ _ _

/-- A DISABLED lane that is enabled without a test enters its top rung. -/
theorem laneEval_of_disabled (hm : modeOf s ≠ mEMBER) (hs : (laneOf s l).state = .disabled) (ho : laneOn s l = true)
    (hd : diagSelected (rd s (laneA l 0)) = false) : laneEval l s = enterRung l (topRung s l) s := by
  unfold laneEval; extract_lets c on
  have ho : on = true := ho
  have hd : diagSelected c = false := hd
  simp [moveLane, hm, hs, ho, hd]

/-- A lane in SEEK stays there while it is enabled without a test. -/
theorem laneEval_of_seek (hm : modeOf s ≠ mEMBER) (hs : (laneOf s l).state = .seek) (ho : laneOn s l = true)
    (hd : diagSelected (rd s (laneA l 0)) = false) : laneEval l s = s := by
  unfold laneEval; extract_lets c on
  have ho : on = true := ho
  have hd : diagSelected c = false := hd
  simp [moveLane, hm, hs, ho, hd]

/-- The locks of an unbonded lane alone are cleared. -/
theorem clearLocks_of_single (h : groupSize s l = 1) : clearLocks s l = restartAdapt l (setTxIndex l 0 (setLane l { laneOf s l with
    cdr := false, blk := false, fec := false, mkr := false, polInv := false, polDone := false, mkGood := 0, mkBad := 0, skewed := false,
    logical := 0 } s)) := by
  have : laneGroup s l = [l] := by simp [laneGroup, leadOf, h]
  unfold clearLocks; rw [this]; rfl

/-- An unbonded lane enters a valid rung: in SEEK, with the words of the rung and no lock. -/
theorem enterRung_of_single (hg : groupSize s l = 1) (hk : rungV s (l / 4) k = true) :
    (laneOf (enterRung l (some k) s) l).state = .seek ∧ (laneOf (enterRung l (some k) s) l).rung = k
      ∧ (laneOf (enterRung l (some k) s) l).rung0 = rungW s (l / 4) k 0 ∧ (laneOf (enterRung l (some k) s) l).rung1 = rungW s (l / 4) k 1
      ∧ (laneOf (enterRung l (some k) s) l).mkr = false ∧ (laneOf (enterRung l (some k) s) l).cdr = false
      ∧ (enterRung l (some k) s).lan.rungs = s.lan.rungs ∧ (enterRung l (some k) s).lan.dead = s.lan.dead
      ∧ (enterRung l (some k) s).clk.failed = s.clk.failed := by
  have hf : (some k).filter (rungV s (l / 4)) = some k := by simp [hk]
  unfold enterRung; rw [hf, clearLocks_of_single hg]; dsimp only
  generalize hu : setLane l _ s = u
  have hc : (laneOf u l).mkr = false ∧ (laneOf u l).cdr = false := by rw [← hu, laneOf_setLane_same]; exact ⟨rfl, rfl⟩
  have hw : ∀ w, rungW (restartAdapt l (setTxIndex l 0 u)) (l / 4) k w = rungW s (l / 4) k w := fun w => by rw [← hu]; rfl
  rw [laneOf_setLane_same]
  exact ⟨rfl, rfl, hw 0, hw 1, hc.1, hc.2, by rw [← hu]; rfl, by rw [← hu]; rfl, by rw [← hu]; rfl⟩

/-- An unbonded DISABLED lane that is enabled without a test settles in its top rung (R229). -/
theorem laneSettle_of_disabled (hl : l < 144) (hg : groupSize s l = 1) (hm : modeOf s ≠ mEMBER) (hs : (laneOf s l).state = .disabled)
    (ho : laneOn s l = true) (hd : diagSelected (rd s (laneA l 0)) = false) (ht : topRung s l = some k) (hk : rungV s (l / 4) k = true) :
    laneSettle l s = enterRung l (some k) s := by
  have e : laneEval l s = enterRung l (some k) s := ht ▸ laneEval_of_disabled hm hs ho hd
  obtain ⟨hseek, -, -, -, -, -, hr, hdead, hf⟩ := enterRung_of_single hg hk
  have hi := sameLaneInputs_of_onlyLanes hl (onlyLanes_enterRung (onlyLanes_refl s) hl (some k)) hr hdead hf
  have stays : laneEval l (enterRung l (some k) s) = enterRung l (some k) s :=
    laneEval_of_seek (sameLaneInputs_modeOf hi ▸ hm) hseek ((sameLaneInputs_laneOn hi).trans ho) (sameLaneInputs_laneA hi ▸ hd)
  unfold laneSettle; rw [e, stays, stays]

-- QUAD_CFG

theorem mem_quadAffected_lt {q b m : Nat} (hq : q < 36) (h : m ∈ quadAffected s q b) : m < 144 := by
  unfold quadAffected at h
  split at h <;> obtain ⟨i, hi, rfl⟩ := List.mem_map.1 h <;> rw [List.mem_range] at hi <;> omega

section
variable {q : Nat} (hr : reaches s (pgQUAD q) = true) (hg : gated s (pgQUAD q) = false) (hw : writtenValue s (quadCfgA q) v = (x, false))
  (hb : ¬(q % 2 = 1 ∧ fld x 2 2 = 3)) (hx : x ≠ rd s (quadCfgA q))
include hr hg hw hb hx

/-- A change of QUAD_CFG while a lane that it affects is not DISABLED is refused (R218). -/
theorem quadCfgWrite_of_enabled (he : ∃ m ∈ quadAffected s q (fld x 2 2), laneStateOf s m ≠ .disabled) :
    quadCfgWrite q v s = setFault (pgQUAD q) 0x0701 s := by
  have odd : (decide (q % 2 = 1) && decide (fld x 2 2 = 3)) = false := by simpa using hb
  have notAll : ((quadAffected s q (fld x 2 2)).all fun m => decide (laneStateOf s m = .disabled)) = false := by simpa using he
  unfold quadCfgWrite; rw [guarded_open hr hg, hw]
  simp only [odd, notAll, hx, Bool.false_eq_true, if_false, Bool.not_false, if_true]

/-- A legal change that keeps the role is stored, and the lanes settle (R218, R219). -/
theorem quadCfgWrite_of_disabled (hd : ∀ m ∈ quadAffected s q (fld x 2 2), laneStateOf s m = .disabled) (h0 : bit x 0 = rdB s (quadCfgA q) 0)
    (h3 : ¬(fld x 2 2 = 3 ∧ rdF s (quadCfgA q) 2 2 ≠ 3 ∧ enrusQuad s (q + 1) = true)) :
    quadCfgWrite q v s = settleLanes (quadAffected s q (fld x 2 2)) (wr (quadCfgA q) x s) := by
  have odd : (decide (q % 2 = 1) && decide (fld x 2 2 = 3)) = false := by simpa using hb
  have all : ((quadAffected s q (fld x 2 2)).all fun m => decide (laneStateOf s m = .disabled)) = true := by simpa using hd
  have joins : (decide (fld x 2 2 = 3) && decide (rdF s (quadCfgA q) 2 2 ≠ 3) && enrusQuad s (q + 1)) = false := by
    simpa [and_assoc] using h3
  unfold quadCfgWrite; rw [guarded_open hr hg, hw]
  simp only [odd, all, joins, hx, h0, noteReserved, Bool.false_eq_true, if_false, Bool.not_true, ne_eq, not_true_eq_false, decide_false,
    Bool.and_false, Bool.false_and, Bool.or_false]
end

-- LANE_CTRL

/-- The state that a write of LANE_CTRL leaves before the lane machine runs: PRBS starts again where PRBS_SEL changes, and WALKS where the lane
is enabled (R252, R257). -/
def laneCtrlStored (l : Nat) (x : Reg) (s : State) : State :=
  let old := rd s (laneA l 0)
  let t := wr (laneA l 0) x s
  let t := if fld x 24 3 = fld old 24 3 then t else resetPrbs l (wr (laneA l 0x20) 0 t)
  if bit x 0 && !bit old 0 then setLane l { laneOf t l with walks := 0 } t else t

/-- Beside LANE_CTRL it touches neither a setting nor the lane's state. -/
theorem laneCtrlStored_keeps (hl : l < 144) (x : Reg) (s : State) : onlyLanes (wr (laneA l 0) x s) (laneCtrlStored l x s)
    ∧ sameLaneInputs l (wr (laneA l 0) x s) (laneCtrlStored l x s) ∧ (laneOf (laneCtrlStored l x s) l).state = (laneOf s l).state := by
  unfold laneCtrlStored; extract_lets old t u
  have hu : onlyLanes t u ∧ u.lan.rungs = s.lan.rungs ∧ u.lan.dead = s.lan.dead ∧ u.clk.failed = s.clk.failed
      ∧ (laneOf u l).state = (laneOf s l).state := by
    unfold u; split
    · exact ⟨onlyLanes_refl t, rfl, rfl, rfl, rfl⟩
    · refine ⟨onlyLanes_resetPrbs (onlyLanes_wr_laneA (onlyLanes_refl t) hl (by decide) (by decide) 0) l, rfl, rfl, rfl, ?_⟩
      show (laneOf (setLane l { laneOf s l with prbsLock := false } s) l).state = _
      rw [laneOf_setLane_same]
  clear_value u
  obtain ⟨ho, hr, hd, hf, hs⟩ := hu
  split
  · have ho' := onlyLanes_setLane ho l { laneOf u l with walks := 0 }
    exact ⟨ho', sameLaneInputs_of_onlyLanes hl ho' hr hd hf, by rw [laneOf_setLane_same]; exact hs⟩
  · exact ⟨ho, sameLaneInputs_of_onlyLanes hl ho hr hd hf, hs⟩

section
variable (hr : reaches s (pgQUAD (l / 4)) = true) (hg : gated s (pgQUAD (l / 4)) = false) (hw : writtenValue s (laneA l 0) v = (x, false))
include hr hg hw

/-- A write that selects no loop and no PRBS is stored, and the lane settles (R229). -/
theorem laneCtrlWrite_of_undiagnosed (hd : diagSelected x = false) : laneCtrlWrite l v s = settleLanes [l] (laneCtrlStored l x s) := by
  have loop : fld x 18 2 ≠ 3 := by
    unfold diagSelected at hd
    simp only [Bool.or_eq_false_iff, decide_eq_false_iff_not, not_not] at hd
    obtain ⟨⟨h18, -⟩, -⟩ := hd
    omega
  unfold laneCtrlWrite; rw [guarded_open hr hg, hw]
  simp only [hd, loop, laneCtrlStored, noteReserved, Bool.false_and, Bool.false_eq_true, if_false, decide_false]

/-- A test without a forced valid rung is refused (R251 to R253). -/
theorem laneCtrlWrite_of_diagSelected (hd : diagSelected x = true) (hf : ¬(bit x 27 = true ∧ rungV s (l / 4) (fld x 28 4) = true)) :
    laneCtrlWrite l v s = setFault (pgQUAD (l / 4)) 0x0708 s := by
  have forced : (bit x 27 && rungV s (l / 4) (fld x 28 4)) = false := by simpa using hf
  unfold laneCtrlWrite; rw [guarded_open hr hg, hw]
  simp only [hd, forced, Bool.not_false, Bool.and_true, if_true]
end

-- LANE_PROT

section
variable (hr : reaches s (pgQUAD (l / 4)) = true) (hg : gated s (pgQUAD (l / 4)) = false) (hw : writtenValue s (protA l) v = (x, false))
  (hn : ¬(bit x 28 = true ∧ fld x 0 16 = 0))
include hr hg hw hn

/-- A change while a lane that it names is enabled is refused (R245). -/
theorem laneProtWrite_of_enabled (hx : x ≠ rd s (protA l))
    (he : ∃ m ∈ l :: (protNames (rd s (protA l)) ++ protNames x), m < 144 ∧ rdB s (laneA m 0) 0 = true) :
    laneProtWrite l v s = setFault (pgQUAD (l / 4)) 0x070B s := by
  have noWtr : (bit x 28 && decide (fld x 0 16 = 0)) = false := by simpa using hn
  have enabled : ((l :: (protNames (rd s (protA l)) ++ protNames x)).any fun m => decide (m < 144) && rdB s (laneA m 0) 0) = true := by
    simpa only [List.any_eq_true, Bool.and_eq_true, decide_eq_true_eq] using he
  unfold laneProtWrite; rw [guarded_open hr hg, hw]
  simp only [noWtr, enabled, hx, ne_eq, not_false_eq_true, decide_true, Bool.and_true, Bool.false_eq_true, if_false, if_true]

/-- A legal change without a command is stored (R245). -/
theorem laneProtWrite_of_disabled (hc : fld v 24 2 = 0)
    (hd : ∀ m ∈ l :: (protNames (rd s (protA l)) ++ protNames x), m < 144 → rdB s (laneA m 0) 0 = false)
    (hs : bit x 31 = true → ∀ m ∈ l :: protNames x, m < 144 → groupSize s m ≤ 1) : laneProtWrite l v s = wr (protA l) x s := by
  have noWtr : (bit x 28 && decide (fld x 0 16 = 0)) = false := by simpa using hn
  have enabled : ((l :: (protNames (rd s (protA l)) ++ protNames x)).any fun m => decide (m < 144) && rdB s (laneA m 0) 0) = false := by
    simpa only [List.any_eq_false, Bool.and_eq_true, decide_eq_true_eq, not_and, Bool.not_eq_true] using hd
  have bonded : (bit x 31 && (l :: protNames x).any fun m => decide (m < 144) && decide (1 < groupSize s m)) = false := by
    rw [Bool.and_eq_false_imp]
    intro h31
    simpa only [List.any_eq_false, Bool.and_eq_true, decide_eq_true_eq, not_and, not_lt] using hs h31
  unfold laneProtWrite; rw [guarded_open hr hg, hw]
  simp only [noWtr, enabled, bonded, hc, noteReserved, Bool.and_assoc, Bool.and_false, Bool.false_eq_true, if_false, Bool.or_false,
    Nat.reduceEqDiff, decide_false]
end

-- The statement

/-- QUAD_CFG (R218). -/
theorem quadCfgWrite_stores (hl : l < 144) (hr : reaches s (pgQUAD (l / 4)) = true) (hg : gated s (pgQUAD (l / 4)) = false)
    (hw : writtenValue s (quadCfgA (l / 4)) v = (x, false)) (hb : ¬(l / 4 % 2 = 1 ∧ fld x 2 2 = 3)) (hx : x ≠ rd s (quadCfgA (l / 4)))
    (hd : ∀ m ∈ quadAffected s (l / 4) (fld x 2 2), laneStateOf s m = .disabled) (h0 : bit x 0 = rdB s (quadCfgA (l / 4)) 0)
    (h3 : ¬(fld x 2 2 = 3 ∧ rdF s (quadCfgA (l / 4)) 2 2 ≠ 3 ∧ enrusQuad s (l / 4 + 1) = true)) :
    rd (quadCfgWrite (l / 4) v s) (quadCfgA (l / 4)) = x ∧ onlyWork s (quadCfgWrite (l / 4) v s) := by
  rw [quadCfgWrite_of_disabled hr hg hw hb hx hd h0 h3]
  have hsettle := onlyLanes_settleLanes (onlyLanes_refl (wr (quadCfgA (l / 4)) x s))
    fun m hm => mem_quadAffected_lt (s := s) (q := l / 4) (b := fld x 2 2) (by omega) hm
  have hpage : workPage (quadCfgA (l / 4) / 0x1000) = true := by
    have : quadCfgA (l / 4) / 0x1000 = pgQUAD (l / 4) := by unfold quadCfgA at'; omega
    rw [this]; exact workPage_pgQUAD hl
  refine ⟨?_, onlyWork_trans (onlyWork_wr (onlyWork_refl s) _ x hpage) hsettle.1⟩
  rw [hsettle.2 _ (by simp [laneSetting_quadCfgA hl]), rd_wr_same]

/-- LANE_CTRL (R229, R251). -/
theorem laneCtrlWrite_stores (hl : l < 144) (hr : reaches s (pgQUAD (l / 4)) = true) (hg : gated s (pgQUAD (l / 4)) = false)
    (hw : writtenValue s (laneA l 0) v = (x, false)) (hd : diagSelected x = false) :
    rd (laneCtrlWrite l v s) (laneA l 0) = x ∧ onlyWork s (laneCtrlWrite l v s) := by
  rw [laneCtrlWrite_of_undiagnosed hr hg hw hd]
  have hsettle := onlyLanes_settleLanes (laneCtrlStored_keeps hl x s).1 (ls := [l]) (by simpa using hl)
  have hpage : workPage (laneA l 0 / 0x1000) = true := by
    have : laneA l 0 / 0x1000 = pgQUAD (l / 4) := by unfold laneA at'; omega
    rw [this]; exact workPage_pgQUAD hl
  refine ⟨?_, onlyWork_trans (onlyWork_wr (onlyWork_refl s) _ x hpage) hsettle.1⟩
  rw [hsettle.2 _ (by simp [laneSetting_laneA hl]), rd_wr_same]

/-- A write of LANE_CTRL leaves the registers below the lanes' blocks alone. -/
theorem rd_wr_laneA (l : Nat) (x : Reg) (s : State) {a : Nat} (ha : a % 0x1000 < 0x100) : rd (wr (laneA l 0) x s) a = rd s a := by
  refine rd_wr_other s ?_ x
  rintro rfl
  unfold laneA at' at ha; omega
theorem groupSize_wr_laneA (l : Nat) (x : Reg) (s : State) : groupSize (wr (laneA l 0) x s) l = groupSize s l := by
  have hq : ∀ q, rd (wr (laneA l 0) x s) (quadCfgA q) = rd s (quadCfgA q) := fun q => rd_wr_laneA l x s (by unfold quadCfgA at'; omega)
  unfold groupSize quadBond modeOf rdF
  rw [hq, hq, rd_wr_laneA l x s (a := 0x1040) (by decide)]
theorem laneOn_wr_laneA (hb : bit x 0 = true) (hq : enrusQuad s (l / 4) = false) (hf : rdB s 0x7060 14 = false) (hd : l ∉ s.lan.dead)
    (hc : 4 + l / 4 ∉ s.clk.failed) : laneOn (wr (laneA l 0) x s) l = true := by
  unfold enrusQuad rdB at hq
  unfold rdB at hf
  unfold laneOn enrusQuad rdB
  rw [rd_wr_same, rd_wr_laneA l x s (a := 0x7060) (by decide), rd_wr_laneA l x s (by unfold quadCfgA at'; omega), hb, hf, hq]
  simp [hd, hc]

/-- A lane that LANE_CTRL enables enters its top rung (R229). -/
theorem laneCtrlWrite_enters (hl : l < 144) (hr : reaches s (pgQUAD (l / 4)) = true) (hg : gated s (pgQUAD (l / 4)) = false)
    (hw : writtenValue s (laneA l 0) v = (x, false)) (hd : diagSelected x = false) (hs : (laneOf s l).state = .disabled)
    (h1 : groupSize s l = 1) (hm : modeOf s ≠ mEMBER) (ho : laneOn (wr (laneA l 0) x s) l = true)
    (ht : topRung (wr (laneA l 0) x s) l = some k) (hk : rungV s (l / 4) k = true) :
    (laneOf (laneCtrlWrite l v s) l).state = .seek ∧ (laneOf (laneCtrlWrite l v s) l).rung = k
      ∧ (laneOf (laneCtrlWrite l v s) l).rung0 = rungW s (l / 4) k 0 ∧ (laneOf (laneCtrlWrite l v s) l).rung1 = rungW s (l / 4) k 1
      ∧ (laneOf (laneCtrlWrite l v s) l).mkr = false ∧ (laneOf (laneCtrlWrite l v s) l).cdr = false := by
  obtain ⟨-, hi, hst⟩ := laneCtrlStored_keeps hl x s
  rw [laneCtrlWrite_of_undiagnosed hr hg hw hd]
  generalize laneCtrlStored l x s = u at hi hst
  have hgu : groupSize u l = 1 := (sameLaneInputs_groupSize hi).trans ((groupSize_wr_laneA l x s).trans h1)
  have hmu : modeOf u ≠ mEMBER := by
    rw [sameLaneInputs_modeOf hi]; unfold modeOf rdF
    rw [rd_wr_laneA l x s (by decide)]; exact hm
  have hdu : diagSelected (rd u (laneA l 0)) = false := by rw [sameLaneInputs_laneA hi, rd_wr_same]; exact hd
  have hwu : ∀ w, rungW u (l / 4) k w = rungW s (l / 4) k w := fun w => sameLaneInputs_rungW hi _ k w
  have hku : rungV u (l / 4) k = true := by unfold rungV; rw [hwu]; exact hk
  have hlead : leadOf u l = l := by simp [leadOf, hgu]
  have enters : settleLanes [l] u = enterRung l (some k) u := by
    show laneSettle (leadOf u l) u = _
    rw [hlead]
    exact laneSettle_of_disabled hl hgu hmu (hst.trans hs) ((sameLaneInputs_laneOn hi).trans ho) hdu ((sameLaneInputs_topRung hi).trans ht) hku
  obtain ⟨hseek, hrung, h0, hr1, hmk, hcdr, -⟩ := enterRung_of_single hgu hku
  rw [enters]
  exact ⟨hseek, hrung, h0.trans (hwu 0), hr1.trans (hwu 1), hmk, hcdr⟩

/-- Settles O31: a stored setting is one that the lane machine runs by, and what the lane machine does on it leaves the settings alone. -/
theorem laneSettings : Obligations.LaneSettings := by
  unfold Obligations.LaneSettings
  intro l v s hl hr hg
  refine ⟨fun x hw hb hx => ⟨fun hd h0 h3 => ⟨_, rfl, quadCfgWrite_stores hl hr hg hw hb hx hd h0 h3⟩, fun he => ⟨_, rfl, ?_⟩⟩,
    fun x hw => ⟨fun hd => ⟨_, rfl, ?_⟩, fun hd hf => ⟨_, rfl, ?_⟩⟩,
    fun x hw hn hc hx => ⟨fun hd hs => ⟨_, rfl, ?_⟩, fun he => ⟨_, rfl, ?_⟩⟩⟩
  · rw [quadCfgWrite_of_enabled hr hg hw hb hx he]
    exact setFault_notes _ _ _
  · obtain ⟨hrd, hwork⟩ := laneCtrlWrite_stores hl hr hg hw hd
    exact ⟨hrd, hwork, fun k hs h1 hb hq hm hf hdead hclk ht hk =>
      laneCtrlWrite_enters hl hr hg hw hd hs h1 hm (laneOn_wr_laneA hb hq hf hdead hclk) ht hk⟩
  · rw [laneCtrlWrite_of_diagSelected hr hg hw hd hf]
    obtain ⟨herr, -, hregs, honly⟩ := setFault_notes (pgQUAD (l / 4)) 0x0708 s
    exact ⟨herr, hregs, honly⟩
  · rw [laneProtWrite_of_disabled hr hg hw hn hc hd hs]
    exact ⟨rd_wr_same _ _ _, regsBut_wr (regsBut_refl _ s) (List.mem_singleton_self _) x, onlyRegs_wr (onlyRegs_refl s) _ x⟩
  · rw [laneProtWrite_of_enabled hr hg hw hn hx he]
    obtain ⟨herr, -, hregs, honly⟩ := setFault_notes (pgQUAD (l / 4)) 0x070B s
    exact ⟨herr, hregs, honly⟩

end Sys2Proof.Machine
end

section
/-! The crystals through one cycle of a basin (R41, R49, R57): what each part of CRYSTAL_CYCLE writes, said once as a frame. -/

namespace Sys2Proof.Machine

variable {s t u : State} {K : Nat → Prop} {n x c : Nat}

-- The frame

/-- The cells of a crystal are the same: its registers, and its X, Y, flag and state-bank codewords. -/
def sameCells (k : Nat) (s t : State) : Prop :=
  crystalOf t k = crystalOf s k ∧ flCode t k = flCode s k ∧ (∀ d, d < 16 → xCode t k d = xCode s k d ∧ yCode t k d = yCode s k d)
    ∧ ∀ j, j < 4 → bankCode t k j = bankCode s k j

/-- The planes, frame planes, lane settings, plane states and holds are the same, and so are the cells of every crystal outside `K`. -/
def onlyCrystals (K : Nat → Prop) (s t : State) : Prop :=
  t.fab.planes = s.fab.planes ∧ t.fab.frames = s.fab.frames ∧ t.fab.laneSets = s.fab.laneSets ∧ t.fab.planeSt = s.fab.planeSt
    ∧ t.fab.hold = s.fab.hold ∧ ∀ k, ¬ K k → sameCells k s t

/-- OQ, OUT and the state bank of a crystal are the same. -/
def sameGrains (k : Nat) (s t : State) : Prop :=
  (crystalOf t k).oq = (crystalOf s k).oq ∧ (crystalOf t k).out = (crystalOf s k).out ∧ ∀ j, j < 4 → bankCode t k j = bankCode s k j

theorem sameCells_of_fab (e : t.fab = s.fab) (k : Nat) : sameCells k s t := by
  unfold sameCells crystalOf flCode xCode yCode bankCode
  rw [e]; exact ⟨rfl, rfl, fun _ _ => ⟨rfl, rfl⟩, fun _ _ => rfl⟩
theorem sameCells_trans {k : Nat} (h : sameCells k s t) (h' : sameCells k t u) : sameCells k s u := by
  obtain ⟨hcr, hfl, hxy, hb⟩ := h
  obtain ⟨hcr', hfl', hxy', hb'⟩ := h'
  exact ⟨hcr'.trans hcr, hfl'.trans hfl, fun d hd => ⟨(hxy' d hd).1.trans (hxy d hd).1, (hxy' d hd).2.trans (hxy d hd).2⟩,
    fun j hj => (hb' j hj).trans (hb j hj)⟩

theorem sameGrains_of_sameCells {k : Nat} (h : sameCells k s t) : sameGrains k s t := by
  obtain ⟨hcr, -, -, hb⟩ := h
  exact ⟨congrArg Crystal.oq hcr, congrArg Crystal.out hcr, hb⟩
theorem sameGrains_trans {k : Nat} (h : sameGrains k s t) (h' : sameGrains k t u) : sameGrains k s u := by
  obtain ⟨hoq, hout, hb⟩ := h
  obtain ⟨hoq', hout', hb'⟩ := h'
  exact ⟨hoq'.trans hoq, hout'.trans hout, fun j hj => (hb' j hj).trans (hb j hj)⟩

theorem onlyCrystals_refl (K : Nat → Prop) (s : State) : onlyCrystals K s s :=
  ⟨rfl, rfl, rfl, rfl, rfl, fun k _ => sameCells_of_fab rfl k⟩
theorem onlyCrystals_hold (h : onlyCrystals K s t) : t.fab.hold = s.fab.hold := by
  obtain ⟨-, -, -, -, hhold, -⟩ := h
  exact hhold
theorem onlyCrystals_cells (h : onlyCrystals K s t) {k : Nat} (hk : ¬ K k) : sameCells k s t := by
  obtain ⟨-, -, -, -, -, hcells⟩ := h
  exact hcells k hk
theorem onlyCrystals_of_fab (h : onlyCrystals K s t) (e : u.fab = t.fab) : onlyCrystals K s u := by
  unfold onlyCrystals sameCells crystalOf flCode xCode yCode bankCode at *
  rw [e]; exact h

section
variable (h : onlyCrystals K s t)
include h

theorem onlyCrystals_wr (a : Nat) (v : Reg) : onlyCrystals K s (wr a v t) := h
theorem onlyCrystals_wrF (a lo m v : Nat) : onlyCrystals K s (wrF a lo m v t) := h
theorem onlyCrystals_incF (a lo m v : Nat) : onlyCrystals K s (incF a lo m v t) := h
theorem onlyCrystals_setIrq (p b : Nat) : onlyCrystals K s (setIrq p b t) := onlyCrystals_of_fab h (setIrq_fab t p b)
theorem onlyCrystals_setBasin (n : Nat) (b : Basin) : onlyCrystals K s (setBasin n b t) := h
theorem onlyCrystals_setRowPort (n r : Nat) (v : RowPort) : onlyCrystals K s (setRowPort n r v t) := h
theorem onlyCrystals_setFences (n q : Nat) (l : List Fence) : onlyCrystals K s (setFences n q l t) := h

/-- A change of the lanes' registers, the tag registers and the spines. -/
theorem onlyCrystals_withTracks (l : Tab LaneReg) (g : Tab Tag) (m : Tab Word) :
    onlyCrystals K s (withFab (fun f => { f with lanes := l, tagRegs := g, spines := m }) t) := h

/-- A write of one crystal's cells touches those of no crystal outside `K`. -/
theorem onlyCrystals_write {k : Nat} (hk : K k)
    (hfab : { u.fab with
      crystals := t.fab.crystals, banks := t.fab.banks, xs := t.fab.xs, ys := t.fab.ys, flags := t.fab.flags } = t.fab)
    (hcells : ∀ j, j ≠ k → sameCells j t u) : onlyCrystals K s u := by
  obtain ⟨hp, hf, hl, hs, hh, hc⟩ := h
  refine ⟨(congrArg (·.planes) hfab).trans hp, (congrArg (·.frames) hfab).trans hf, (congrArg (·.laneSets) hfab).trans hl,
    (congrArg (·.planeSt) hfab).trans hs, (congrArg (·.hold) hfab).trans hh, fun j hj => ?_⟩
  exact sameCells_trans (hc j hj) (hcells j fun e => hj (e ▸ hk))

theorem onlyCrystals_setCrystal {k : Nat} (hk : K k) (v : Crystal) : onlyCrystals K s (setCrystal k v t) :=
  onlyCrystals_write h hk rfl fun _ hj => ⟨crystalOf_setCrystal_other hj v t, rfl, fun _ _ => ⟨rfl, rfl⟩, fun _ _ => rfl⟩
theorem onlyCrystals_setFl {k : Nat} (hk : K k) (v : Code) : onlyCrystals K s (setFl k v t) :=
  onlyCrystals_write h hk rfl fun _ hj => ⟨rfl, flCode_setFl_other hj v t, fun _ _ => ⟨rfl, rfl⟩, fun _ _ => rfl⟩
theorem onlyCrystals_setX {k : Nat} (hk : K k) (hc : c < 16) (v : Code) : onlyCrystals K s (setX k c v t) :=
  onlyCrystals_write h hk rfl fun _ hj =>
    ⟨rfl, rfl, fun _ hd => ⟨(xCode_setX hc hd v t).trans (if_neg fun e => hj e.1), rfl⟩, fun _ _ => rfl⟩
theorem onlyCrystals_setY {k : Nat} (hk : K k) (hc : c < 16) (v : Code) : onlyCrystals K s (setY k c v t) :=
  onlyCrystals_write h hk rfl fun _ hj =>
    ⟨rfl, rfl, fun _ hd => ⟨rfl, (yCode_setY hc hd v t).trans (if_neg fun e => hj e.1)⟩, fun _ _ => rfl⟩
theorem onlyCrystals_setBankCode {k j : Nat} (hk : K k) (hj : j < 4) (v : Code) : onlyCrystals K s (setBankCode k j v t) :=
  onlyCrystals_write h hk rfl fun i hi => ⟨rfl, rfl, fun _ _ => ⟨rfl, rfl⟩, fun l hl => tget_tput_other _ _ (by omega) _ _⟩

end

-- Logs and traps write no cell

theorem onlyWork_fab (h : onlyWork s t) : t.fab = s.fab := congrArg (·.fab) h.1
theorem logPlane_fab (n x p w : Nat) (d : Decoded) (s : State) : (logPlane n x p w d s).fab = s.fab :=
  onlyWork_fab (onlyWork_logDecoded (onlyWork_refl s) _ _ _ _ _ (by decide))
theorem logWe_fab (n x w : Nat) (d : Decoded) (s : State) : (logWe n x w d s).fab = s.fab :=
  onlyWork_fab (onlyWork_logDecoded (onlyWork_refl s) _ _ _ _ _ (by decide))
theorem logBank_fab (n x w : Nat) (d : Decoded) (s : State) : (logBank n x w d s).fab = s.fab :=
  onlyWork_fab (onlyWork_logDecoded (onlyWork_refl s) _ _ _ _ _ (by decide))
theorem readLogs_fab (n x : Nat) (p : CyclePlan) (s : State) : (readLogs n x p s).fab = s.fab := by
  unfold readLogs; extract_lets v
  have hv : v.fab = s.fab := List.foldlRecOn (motive := fun w => w.fab = s.fab) _ _ rfl fun w hw d _ =>
    (logPlane_fab _ _ _ _ _ w).trans hw
  split
  · rw [logWe_fab, logWe_fab, logWe_fab, logBank_fab, hv]
  · exact hv

theorem recordTrap_fab (n : Nat) (b : Trap) (more : Bool) (s : State) : (recordTrap n b more s).fab = s.fab := by
  unfold recordTrap; dsimp only; split
  · exact wrF_fab _ _ _ _ _
  · exact wr_fab _ _ _
theorem recordTraps_fab (n : Nat) (ts : List Trap) (s : State) : (recordTraps n ts s).fab = s.fab := by
  unfold recordTraps; dsimp only; split
  · rfl
  · rw [recordTrap_fab]; split
    · rfl
    · exact wrF_fab _ _ _ _ _
theorem basinOffline_fab (l cause : Nat) (fault : Bool) (s : State) : (basinOffline l cause fault s).fab = s.fab := by
  unfold basinOffline; extract_lets v w
  have hv : v.fab = s.fab := by unfold v; split <;> rfl
  have hw : w.fab = s.fab := by
    unfold w; split
    · exact hv
    · exact hv
  exact (setIrq_fab w _ _).trans hw
theorem physOffline_fab (n cause : Nat) (s : State) : (physOffline n cause s).fab = s.fab := by
  unfold physOffline; split
  · exact basinOffline_fab _ _ _ _
  · rfl

/-- The traps of a cycle mark their basin, and nothing else of the fabric (R116). -/
theorem raiseTraps_fab (n : Nat) (ts : List Trap) (s : State) :
    (raiseTraps n ts s).fab = s.fab ∨ (raiseTraps n ts s).fab = (setBasin n { basinOf s n with trapped := true } s).fab := by
  unfold raiseTraps; split
  · exact .inl rfl
  · refine .inr ?_
    have e : (setIrq (pgBSN n) 0 (recordTraps n ts s)).fab = s.fab := (setIrq_fab _ _ _).trans (recordTraps_fab n ts s)
    dsimp only
    rw [physOffline_fab]
    unfold setBasin basinOf
    rw [e]

-- What one crystal writes

/-- A property of states that survives every write that the word engine of crystal `x` makes (R69, R71): the crystal's registers but OQ, its
X, Y and flag codewords, a row stage, a port's fences. -/
structure KeptByEngine (n x : Nat) (P : State → Prop) : Prop where
  crystal : ∀ t v, v.oq = (crystalOf t (xk n x)).oq → P t → P (setCrystal (xk n x) v t)
  wordX : ∀ t c v, c < 16 → P t → P (setX (xk n x) c v t)
  wordY : ∀ t c v, c < 16 → P t → P (setY (xk n x) c v t)
  flags : ∀ t v, P t → P (setFl (xk n x) v t)
  row : ∀ t r v, P t → P (setRowPort n r v t)
  fence : ∀ t q l, P t → P (setFences n q l t)

section
variable {P : State → Prop} (hP : KeptByEngine n x P)
include hP

theorem KeptByEngine.storeStage (h : P s) (w : Nat × BitVec 8 × Word) : P (storeStage n x w s) := by
  unfold Machine.storeStage; split
  · exact hP.row _ _ _ h
  · exact h
theorem KeptByEngine.postFence (h : P s) (sc : BitVec 2) : P (postFence n x sc s) := by
  unfold Machine.postFence; split
  · exact hP.fence _ _ _ h
  · exact h

/-- What an instruction does (R69, R71). -/
theorem KeptByEngine.applyEffect (h : P s) (hc : c < 16) (fw : Word) (e : WeEffect) : P (applyEffect n x c fw e s) := by
  unfold Machine.applyEffect
  extract_lets k old s1 s2 s3 s4 old' s5 s6
  have h1 : P s1 := by
    unfold s1; split
    · exact hP.crystal _ _ rfl h
    · exact h
  have h2 : P s2 := by
    unfold s2; split
    · exact hP.wordX _ _ _ hc h1
    · exact h1
  have h3 : P s3 := by
    unfold s3; split
    · exact hP.wordY _ _ _ hc h2
    · exact h2
  have h4 : P s4 := by
    unfold s4; split
    · exact h3
    · exact hP.flags _ _ h3
  have h5 : P s5 := by
    unfold s5; split
    · exact hP.crystal _ _ rfl h4
    · exact h4
  have h6 : P s6 := by
    unfold s6; split
    · exact hP.storeStage h5 _
    · exact h5
  split
  · exact hP.postFence h6 _
  · exact h6

/-- What a completing multiply does (R86). -/
theorem KeptByEngine.writeMul (h : P s) (m : Mul) : P (writeMul n x m s) := by
  unfold Machine.writeMul
  extract_lets k old s1 s2
  have h1 : P s1 := by
    unfold s1; split
    · exact hP.crystal _ _ rfl h
    · exact h
  have h2 : P s2 := by
    unfold s2; split
    · exact hP.wordX _ _ _ m.ctx.isLt h1
    · exact h1
  split
  · exact hP.wordY _ _ _ m.ctx.isLt h2
  · exact h2

/-- What the correction of the state elements does (R57, R68). -/
theorem KeptByEngine.writeBack (h : P s) (hc : c < 16) (p : CyclePlan) : P (writeBack (xk n x) c p s) := by
  unfold Machine.writeBack
  extract_lets s1 s2
  have h1 : P s1 := by
    unfold s1; split
    · exact hP.wordX _ _ _ hc h
    · exact h
  have h2 : P s2 := by
    unfold s2; split
    · exact hP.wordY _ _ _ hc h1
    · exact h1
  split
  · exact hP.flags _ _ h2
  · exact h2

end

theorem keptByEngine_onlyCrystals (hk : K (xk n x)) : KeptByEngine n x (onlyCrystals K s) where
  crystal _ v _ h := onlyCrystals_setCrystal h hk v
  wordX _ _ v hc h := onlyCrystals_setX h hk hc v
  wordY _ _ v hc h := onlyCrystals_setY h hk hc v
  flags _ v h := onlyCrystals_setFl h hk v
  row _ r v h := onlyCrystals_setRowPort h n r v
  fence _ q l h := onlyCrystals_setFences h n q l

theorem keptByEngine_oq (w : BitVec 16) : KeptByEngine n x (fun t => (crystalOf t (xk n x)).oq = w) where
  crystal _ _ hv h := (congrArg Crystal.oq (crystalOf_setCrystal _ _ _)).trans (hv.trans h)
  wordX _ _ _ _ h := h
  wordY _ _ _ _ h := h
  flags _ _ h := h
  row _ _ _ h := h
  fence _ _ _ h := h

theorem keptByEngine_bankCode (j : Nat) (w : Code) : KeptByEngine n x (fun t => bankCode t (xk n x) j = w) where
  crystal _ _ _ h := h
  wordX _ _ _ _ h := h
  wordY _ _ _ _ h := h
  flags _ _ h := h
  row _ _ _ h := h
  fence _ _ _ h := h

section
variable {s0 : State} {ps : Plans} {io : UioIn} {a : State × List Trap}

/-- A crystal holds what its grains produce under context `c` in OQ and in the state-bank entry of that context (R41, R43, R57). -/
def holdsGrains (s0 : State) (n : Nat) (ps : Plans) (io : UioIn) (x c : Nat) (t : State) : Prop :=
  (crystalOf t (xk n x)).oq = BitVec.ofNat 16 (grainWord s0 n ps io x c)
    ∧ bankCode t (xk n x) (c / 4) = encCode (setFld (planAt ps x).bank.data (16 * (c % 4)) 16 (grainWord s0 n ps io x c))

theorem holdsGrains_of_sameGrains (h : holdsGrains s0 n ps io x c t) (hc : c < 16) (hs : sameGrains (xk n x) t u) :
    holdsGrains s0 n ps io x c u := by
  obtain ⟨hoq, hbank⟩ := h
  obtain ⟨hoq', -, hbank'⟩ := hs
  exact ⟨hoq'.trans hoq, (hbank' _ (by omega)).trans hbank⟩

/-- A crystal that runs writes cells of its own alone. -/
theorem onlyCrystals_runCrystal (h : onlyCrystals K s t) (hk : K (xk n x)) (hc : c < 16) :
    onlyCrystals K s (runCrystal s0 n ps io x c t).1 := by
  have hP := keptByEngine_onlyCrystals (s := s) hk
  unfold runCrystal
  extract_lets p k done w v1 old v2 ins e v3 v4
  have h1 : onlyCrystals K s v1 := hP.writeBack (onlyCrystals_setBankCode h hk (by omega) _) hc p
  have h3 : onlyCrystals K s v3 := hP.applyEffect (onlyCrystals_setCrystal h1 hk _) hc _ e
  show onlyCrystals K s v4
  unfold v4; clear_value v3 e done; split
  · exact hP.writeMul h3 _
  · exact h3

theorem holdsGrains_runCrystal (hc : c < 16) : holdsGrains s0 n ps io x c (runCrystal s0 n ps io x c t).1 := by
  unfold runCrystal
  extract_lets p k done w v1 old v2 ins e v3 v4
  have hoq := keptByEngine_oq (n := n) (x := x) (BitVec.ofNat 16 w)
  have hbank := keptByEngine_bankCode (n := n) (x := x) (c / 4) (encCode (setFld p.bank.data (16 * (c % 4)) 16 w))
  have h1 := hbank.writeBack (s := setBankCode k (c / 4) _ t) (tget_tput_same 0 _ _ t.fab.banks) hc p
  have oq3 : (crystalOf v3 k).oq = BitVec.ofNat 16 w :=
    hoq.applyEffect (s := v2) (congrArg Crystal.oq (crystalOf_setCrystal k _ v1)) hc p.fl.data e
  have bank3 : bankCode v3 k (c / 4) = _ := hbank.applyEffect (s := v2) h1 hc p.fl.data e
  show (crystalOf v4 k).oq = _ ∧ bankCode v4 k (c / 4) = _
  unfold v4; clear_value v3 e done; split
  · exact ⟨hoq.writeMul oq3 _, hbank.writeMul bank3 _⟩
  · exact ⟨oq3, bank3⟩

/-- A crystal's cycle (R49, R88, R99): it takes its tag, its live copy and its multiplies, keeping OQ and OUT, and runs where it is not quiet. -/
theorem crystalStep_cases (s0 : State) (n : Nat) (ps : Plans) (io : UioIn) (x : Nat) (a : State × List Trap) :
    ∃ v : Crystal, v.oq = (crystalOf a.1 (xk n x)).oq ∧ v.out = (crystalOf a.1 (xk n x)).out
      ∧ ((∃ c, (planAt ps x).ctx = some c ∧ (planAt ps x).quiet = false
            ∧ (crystalStep s0 n ps io x a).1 = (runCrystal s0 n ps io x c (setCrystal (xk n x) v a.1)).1)
        ∨ ((planAt ps x).ctx = none ∨ (planAt ps x).quiet = true) ∧ (crystalStep s0 n ps io x a).1 = setCrystal (xk n x) v a.1) := by
  unfold crystalStep
  extract_lets p k c0 live t ts
  refine ⟨{ crystalOf a.1 k with live := live, tag := presented (basinOf s0 n).mode p, muls := restMuls c0 }, rfl, rfl, ?_⟩
  split
  · next c hc hq => exact .inl ⟨c, hc, hq, rfl⟩
  · next hno =>
    refine .inr ⟨?_, by split <;> rfl⟩
    cases hc : p.ctx with
    | none => exact .inl rfl
    | some c => exact .inr (by simpa using hno c hc)

/-- The contexts that crystals run under these plans are of the 16 (R68). -/
def plansWithin (ps : Plans) : Prop := ∀ x c, (planAt ps x).ctx = some c → c < 16

theorem onlyCrystals_crystalStep (h : onlyCrystals K s a.1) (hps : plansWithin ps) (hk : K (xk n x)) :
    onlyCrystals K s (crystalStep s0 n ps io x a).1 := by
  obtain ⟨v, -, -, ⟨c, hc, -, e⟩ | ⟨-, e⟩⟩ := crystalStep_cases s0 n ps io x a <;> rw [e]
  · exact onlyCrystals_runCrystal (onlyCrystals_setCrystal h hk v) hk (hps x c hc)
  · exact onlyCrystals_setCrystal h hk v

theorem sameCells_crystalStep_other {y : Nat} (hps : plansWithin ps) (hy : x ≠ y) : sameCells (xk n x) a.1 (crystalStep s0 n ps io y a).1 :=
  onlyCrystals_cells (K := (· = xk n y)) (onlyCrystals_crystalStep (onlyCrystals_refl _ a.1) hps rfl) (by unfold xk; omega)

theorem holdsGrains_crystalStep (hps : plansWithin ps) (hc : (planAt ps x).ctx = some c) (hq : (planAt ps x).quiet = false) :
    holdsGrains s0 n ps io x c (crystalStep s0 n ps io x a).1 := by
  obtain ⟨v, -, -, ⟨c', hc', -, e⟩ | ⟨hno, -⟩⟩ := crystalStep_cases s0 n ps io x a
  · obtain rfl : c' = c := Option.some.inj (hc'.symm.trans hc)
    rw [e]; exact holdsGrains_runCrystal (hps x c' hc)
  · rw [hc, hq] at hno; simp at hno

/-- The crystal of a quiet cycle keeps OQ, OUT and its state bank (R49). -/
theorem sameGrains_crystalStep (hq : (planAt ps x).quiet = true) : sameGrains (xk n x) a.1 (crystalStep s0 n ps io x a).1 := by
  obtain ⟨v, hoq, hout, ⟨c, -, hrun, -⟩ | ⟨-, e⟩⟩ := crystalStep_cases s0 n ps io x a
  · rw [hq] at hrun; cases hrun
  · unfold sameGrains
    rw [e, crystalOf_setCrystal]
    exact ⟨hoq, hout, fun _ _ => rfl⟩

-- Every crystal

/-- A property that one element of a list brings about, and the others keep, holds at the end of a fold. -/
theorem foldl_of_hit {α β : Type} {f : α → β → α} {P : α → Prop} {l : List β} {b : β} (hb : b ∈ l) (hit : ∀ a, P (f a b))
    (keep : ∀ a, ∀ i ∈ l, i ≠ b → P a → P (f a i)) (a : α) : P (l.foldl f a) := by
  obtain ⟨l1, l2, rfl⟩ := List.append_of_mem hb
  rw [List.foldl_append, List.foldl_cons]
  refine List.foldlRecOn (motive := P) _ f (hit _) fun v hv i hi => ?_
  by_cases e : i = b
  · exact e ▸ hit v
  · exact keep v i (by simp [hi]) e hv

/-- What the reads log is no cell (R55, R57, R68). -/
theorem readAll_fab (n : Nat) (ps : Plans) (xs : List Nat) (s : State) :
    (xs.foldl (fun v x => readLogs n x (planAt ps x) v) s).fab = s.fab :=
  List.foldlRecOn (motive := fun v => v.fab = s.fab) _ _ rfl fun v hv x _ => (readLogs_fab n x _ v).trans hv

theorem onlyCrystals_crystalSteps (h : onlyCrystals K s t) (hps : plansWithin ps) (hK : ∀ x, x < 512 → K (xk n x)) :
    onlyCrystals K s (crystalSteps s0 n ps io t).1 := by
  unfold crystalSteps
  have hlogs := onlyCrystals_of_fab h (readAll_fab n ps (List.range 512) t)
  generalize List.range 512 = xs at hlogs ⊢
  exact List.foldlRecOn (motive := fun a : State × List Trap => onlyCrystals K s a.1) _ _ hlogs fun _ ha i _ =>
    onlyCrystals_crystalStep ha hps (hK _ (by omega))

/-- A crystal that is not quiet ends the cycles of all crystals with what its grains produce: its own cycle writes it, no other does. -/
theorem holdsGrains_crystalSteps (hps : plansWithin ps) (hx : x < 512) (hc : (planAt ps x).ctx = some c) (hq : (planAt ps x).quiet = false) :
    holdsGrains s0 n ps io x c (crystalSteps s0 n ps io t).1 := by
  have hmem : 511 - x ∈ List.range 512 := List.mem_range.2 (by omega)
  unfold crystalSteps
  refine foldl_of_hit (b := 511 - x) (P := fun a : State × List Trap => holdsGrains s0 n ps io x c a.1) hmem (fun a => ?_)
    (fun a i hi hne ha => ?_) _
  · rw [show 511 - (511 - x) = x by omega]
    exact holdsGrains_crystalStep hps hc hq
  · have hxi : x ≠ 511 - i := by have := List.mem_range.1 hi; omega
    exact holdsGrains_of_sameGrains ha (hps x c hc) (sameGrains_of_sameCells (sameCells_crystalStep_other hps hxi))

/-- A quiet crystal keeps OQ, OUT and its state bank (R49). -/
theorem sameGrains_crystalSteps (hps : plansWithin ps) (hq : (planAt ps x).quiet = true) :
    sameGrains (xk n x) t (crystalSteps s0 n ps io t).1 := by
  have hlogs := sameGrains_of_sameCells (sameCells_of_fab (readAll_fab n ps (List.range 512) t) (xk n x))
  unfold crystalSteps
  generalize List.range 512 = xs at hlogs ⊢
  refine List.foldlRecOn (motive := fun a : State × List Trap => sameGrains (xk n x) t a.1) _ _ hlogs fun a ha i _ =>
    sameGrains_trans ha ?_
  by_cases hi : x = 511 - i
  · rw [← hi]; exact sameGrains_crystalStep hq
  · exact sameGrains_of_sameCells (sameCells_crystalStep_other hps hi)

-- The rest of the cycle

theorem onlyCrystals_laneStep (h : onlyCrystals K s a.1) (l : Nat) : onlyCrystals K s (laneStep s0 n ps io l a).1 := by
  unfold laneStep; extract_lets p i j; split
  · exact h
  · split
    · exact h
    · extract_lets e v; split
      · exact h
      · exact onlyCrystals_withTracks h _ _ _

/-- The lanes and tag registers (R103, R135). -/
theorem onlyCrystals_laneSteps (h : onlyCrystals K s a.1) : onlyCrystals K s (laneSteps s0 n ps io a).1 := by
  unfold laneSteps; extract_lets b
  have hb : onlyCrystals K s b.1 :=
    List.foldlRecOn (motive := fun b : State × List Trap => onlyCrystals K s b.1) _ _ h fun _ hv l _ => onlyCrystals_laneStep hv l
  exact onlyCrystals_withTracks hb _ _ _

theorem onlyCrystals_recordGuard (h : onlyCrystals K s t) (i w l wc lc : Nat) (many : Bool) :
    onlyCrystals K s (recordGuard n i w l wc lc many t) := by
  unfold recordGuard; extract_lets r; split
  · exact onlyCrystals_wrF h _ _ _ _
  · exact onlyCrystals_wr h _ _

theorem onlyCrystals_spineStep {b : State × List Trap × Bool} (h : onlyCrystals K s b.1) (q : Nat) :
    onlyCrystals K s (spineStep s0 n ps io q b).1 := by
  unfold spineStep; extract_lets d i ctx; split
  · exact h
  · extract_lets v w
    have hw : onlyCrystals K s w := onlyCrystals_withTracks h _ _ _
    split
    · exact hw
    · exact onlyCrystals_setIrq (onlyCrystals_recordGuard hw _ _ _ _ _ _) _ _

/-- The spines and their guard (R138, R141). -/
theorem onlyCrystals_spineSteps (h : onlyCrystals K s a.1) : onlyCrystals K s (spineSteps s0 n ps io a).1 := by
  unfold spineSteps; extract_lets r
  have hr : onlyCrystals K s r.1 :=
    List.foldlRecOn (motive := fun b : State × List Trap × Bool => onlyCrystals K s b.1) _ _ h fun _ hv q _ => onlyCrystals_spineStep hv q
  dsimp only; split
  · exact onlyCrystals_incF hr _ _ _ _
  · exact hr

/-- The TAG_NOT_VALID event (R115). -/
theorem onlyCrystals_tnvStep (h : onlyCrystals K s a.1) : onlyCrystals K s (tnvStep s0 n ps a).1 := by
  unfold tnvStep; split
  · exact h
  · extract_lets c st v r w
    have hv : onlyCrystals K s v := onlyCrystals_incF h _ _ _ _
    refine onlyCrystals_setIrq (t := w) ?_ _ _
    unfold w; split
    · exact onlyCrystals_wrF hv _ _ _ _
    · exact onlyCrystals_wr hv _ _

/-- The initial values of a plane (R52) are written to the crystal's own cells. -/
theorem onlyCrystals_loadInitialAt (h : onlyCrystals K s t) (hk : K (xk n x)) (hc : c < 16) :
    onlyCrystals K s (loadInitialAt n x c t).1 := by
  unfold loadInitialAt
  extract_lets k d d32 d33 d34 v1 v2 v3 bank w v4 fl v5 v6
  have h1 : onlyCrystals K s v1 := onlyCrystals_of_fab h (by unfold v1; rw [logPlane_fab, logPlane_fab, logPlane_fab])
  have h2 : onlyCrystals K s v2 := by
    unfold v2; split
    · exact h1
    · exact onlyCrystals_setX h1 hk hc _
  have h3 : onlyCrystals K s v3 := by
    unfold v3; split
    · exact h2
    · exact onlyCrystals_setY h2 hk hc _
  have h4 : onlyCrystals K s v4 := by
    have hw : onlyCrystals K s w := onlyCrystals_of_fab h3 (logBank_fab _ _ _ _ _)
    unfold v4; split
    · exact h3
    · split
      · exact hw
      · exact onlyCrystals_setBankCode hw hk (by omega) _
  have h5 : onlyCrystals K s v5 := onlyCrystals_of_fab h4 (logWe_fab _ _ _ _ _)
  show onlyCrystals K s v6
  unfold v6; split
  · exact h5
  · exact onlyCrystals_setFl h5 hk _

theorem onlyCrystals_loadInitial (h : onlyCrystals K s t) (hK : ∀ x, x < 512 → K (xk n x)) (hc : c < 16) :
    onlyCrystals K s (loadInitial n c t).1 :=
  List.foldlRecOn (motive := fun a : State × List Nat => onlyCrystals K s a.1) _ _ h fun _ ha _ hx =>
    onlyCrystals_loadInitialAt ha (hK _ (List.mem_range.1 hx)) hc

/-- The SR hold writes the basin's crystals, and without it nothing is written (R306). -/
theorem onlyCrystals_srHoldStep (h : onlyCrystals K s t) (hK : s.fab.hold.sr = true → ∀ x, x < 512 → K (xk n x)) :
    onlyCrystals K s (srHoldStep n ps t) := by
  unfold srHoldStep; split
  · next hsr =>
    rw [onlyCrystals_hold h] at hsr
    have hK := hK hsr
    extract_lets v
    have hv : onlyCrystals K s v := List.foldlRecOn (motive := onlyCrystals K s) _ _ h fun _ hw p hp =>
      onlyCrystals_loadInitial hw hK (List.mem_range.1 (List.mem_filter.1 hp).1)
    refine List.foldlRecOn (motive := onlyCrystals K s) _ _ hv fun w hw x hx => ?_
    split
    · exact onlyCrystals_setCrystal hw (hK x (List.mem_range.1 hx)) _
    · exact hw
  · exact h

/-- The ports (R152, R156, R172). -/
theorem onlyCrystals_portStep (h : onlyCrystals K s t) : onlyCrystals K s (portStep n t) := by
  unfold portStep; extract_lets b v w
  have hw : onlyCrystals K s w := List.foldlRecOn (motive := onlyCrystals K s) _ _ (onlyCrystals_setBasin h n _) fun _ hu q _ =>
    onlyCrystals_setFences hu n q _
  exact List.foldlRecOn (motive := onlyCrystals K s) _ _ hw fun _ hu r _ => onlyCrystals_setRowPort hu n r _

theorem onlyCrystals_raiseTraps (h : onlyCrystals K s t) (ts : List Trap) : onlyCrystals K s (raiseTraps n ts t) := by
  rcases raiseTraps_fab n ts t with e | e
  · exact onlyCrystals_of_fab h e
  · exact onlyCrystals_of_fab (onlyCrystals_setBasin h n _) e

theorem basinOf_setBasin (n : Nat) (b : Basin) (s : State) : basinOf (setBasin n b s) n = b := tget_tput_same _ _ _ _
theorem basinOf_congr (e : t.fab = s.fab) (n : Nat) : basinOf t n = basinOf s n := by unfold basinOf; rw [e]

/-- The outlet ports of a basin took no beat in the present cycle (R150). -/
def noneTaken (n : Nat) (s : State) : Prop := (basinOf s n).taken0 = none ∧ (basinOf s n).taken1 = none

theorem noneTaken_portStep (n : Nat) (s : State) : noneTaken n (portStep n s) := by
  unfold portStep; extract_lets b v w
  have hv : noneTaken n v := by unfold noneTaken v; rw [basinOf_setBasin]; exact ⟨rfl, rfl⟩
  have hw : noneTaken n w := List.foldlRecOn (motive := noneTaken n) _ _ hv fun _ hu _ _ => hu
  exact List.foldlRecOn (motive := noneTaken n) _ _ hw fun _ hu _ _ => hu
theorem noneTaken_raiseTraps (h : noneTaken n s) (ts : List Trap) : noneTaken n (raiseTraps n ts s) := by
  unfold noneTaken
  rcases raiseTraps_fab n ts s with e | e <;> rw [basinOf_congr e]
  · exact h
  · rw [basinOf_setBasin]; exact h
theorem noneTaken_endTraps (h : noneTaken n s) : noneTaken n (endTraps n s) := by
  unfold noneTaken endTraps; rw [basinOf_setBasin]; exact h

/-- What follows the crystals in a cycle of a basin (R100): lanes, spines, TAG_NOT_VALID, the window, the SR hold, the ports, the traps. -/
def afterCrystals (s0 : State) (n : Nat) (ps : Plans) (io : UioIn) (a : State × List Trap) : State :=
  let a := tnvStep s0 n ps (spineSteps s0 n ps io (laneSteps s0 n ps io a))
  let changes := ((List.range 512).filter fun x => (planAt ps x).change.isSome).length
  let s := setBasin n { basinOf a.1 n with window := (basinOf a.1 n).window + changes } a.1
  endTraps n (raiseTraps n a.2 (portStep n (srHoldStep n ps s)))

theorem onlyCrystals_afterCrystals (h : onlyCrystals K s a.1) (hK : s.fab.hold.sr = true → ∀ x, x < 512 → K (xk n x)) :
    onlyCrystals K s (afterCrystals s0 n ps io a) := by
  have htracks : onlyCrystals K s (tnvStep s0 n ps (spineSteps s0 n ps io (laneSteps s0 n ps io a))).1 :=
    onlyCrystals_tnvStep (onlyCrystals_spineSteps (onlyCrystals_laneSteps h))
  refine onlyCrystals_setBasin (onlyCrystals_raiseTraps (onlyCrystals_portStep (onlyCrystals_srHoldStep ?_ hK)) _) n _
  exact onlyCrystals_setBasin htracks n _

theorem noneTaken_afterCrystals : noneTaken n (afterCrystals s0 n ps io a) :=
  noneTaken_endTraps (noneTaken_raiseTraps (noneTaken_portStep n _) _)

end

-- The pins at the start of the cycle

/-- Nothing but the host interface, which holds the pins' cells, differs. -/
def onlyPins (s t : State) : Prop := { t with hst := s.hst } = s

theorem onlyPins_refl (s : State) : onlyPins s s := rfl
theorem onlyPins_withHst (h : onlyPins s t) (f : HostIf → HostIf) : onlyPins s (withHst f t) := h

theorem onlyPins_bankCycle (h : onlyPins s t) (n k : Nat) : onlyPins s (bankCycle n t k) := by
  unfold bankCycle; split
  · exact h
  · split
    · split
      · exact h
      · exact onlyPins_withHst h _
    · extract_lets d i ps v
      refine onlyPins_withHst (t := v) ?_ _
      unfold v; split
      · exact List.foldlRecOn (motive := onlyPins s) _ _ h fun _ hu _ _ => onlyPins_withHst hu _
      · split
        · exact List.foldlRecOn (motive := onlyPins s) _ _ h fun _ hu _ _ => onlyPins_withHst hu _
        · exact h

/-- The UIO clocks move the pins' cells alone (R519). -/
theorem onlyPins_uioCycle (n : Nat) (s : State) : onlyPins s (uioCycle n s) :=
  List.foldlRecOn (motive := onlyPins s) _ _ (onlyPins_refl s) fun _ hu k _ => onlyPins_bankCycle hu n k

theorem uioCycle_fab (n : Nat) (s : State) : (uioCycle n s).fab = s.fab := congrArg (·.fab) (onlyPins_uioCycle n s)
/-- What the crystals run does not hang on the pins. -/
theorem plansOf_uioCycle (n : Nat) (s : State) : plansOf (uioCycle n s) n = plansOf s n := by
  have h := onlyPins_uioCycle n s
  generalize uioCycle n s = t at h
  unfold onlyPins at h
  rw [← h]; rfl

-- The cycle

theorem plansWithin_plansOf (s : State) (n : Nat) : plansWithin (plansOf s n) := fun x c hc => by
  rcases planOf_cases s n x with h | ⟨c', ch, ds, bits, hlt, h⟩
  · exact absurd (h.symm.trans hc) (by simp)
  · have hc' : (planOf s n x).ctx = some c := hc
    rw [h] at hc'
    cases hc'; exact hlt

theorem cycleBasin_stopped {io : UioIn} (h : (basinOf s n).power ≠ .run ∨ underTest s n = true) : cycleBasin n io s = s := by
  unfold cycleBasin; rw [if_pos (by simpa using h)]

/-- A cycle of a basin that runs: the crystals from the state that the UIO clocks leave, under the plans of its start, then the rest. -/
theorem cycleBasin_running (io : UioIn) (hr : (basinOf s n).power = .run) (hu : underTest s n = false) :
    cycleBasin n io s = afterCrystals (uioCycle n s) n (plansOf s n) io (crystalSteps (uioCycle n s) n (plansOf s n) io (uioCycle n s)) := by
  unfold cycleBasin; rw [if_neg (by simp [hr, hu]), ← plansOf_uioCycle]; rfl

section
variable (io : UioIn) (hr : (basinOf s n).power = .run) (hu : underTest s n = false)
include hr hu

/-- A cycle writes the cells of the basin's own crystals alone. -/
theorem onlyCrystals_cycleBasin : onlyCrystals (· / 512 = n) s (cycleBasin n io s) := by
  have hK : ∀ x, x < 512 → xk n x / 512 = n := fun x hx => by unfold xk; omega
  rw [cycleBasin_running io hr hu]
  exact onlyCrystals_afterCrystals (onlyCrystals_crystalSteps (onlyCrystals_of_fab (onlyCrystals_refl _ s) (uioCycle_fab n s))
    (plansWithin_plansOf s n) hK) fun _ => hK

theorem noneTaken_cycleBasin : noneTaken n (cycleBasin n io s) := by
  rw [cycleBasin_running io hr hu]; exact noneTaken_afterCrystals

/-- Without the SR hold a cycle leaves the cells as the crystals' own cycles do. -/
theorem sameCells_cycleBasin (hsr : s.fab.hold.sr = false) (k : Nat) :
    sameCells k (crystalSteps (uioCycle n s) n (plansOf s n) io (uioCycle n s)).1 (cycleBasin n io s) := by
  have hhold := onlyCrystals_hold (onlyCrystals_crystalSteps (K := fun _ => True) (s0 := uioCycle n s) (n := n) (io := io)
    (onlyCrystals_refl _ (uioCycle n s)) (plansWithin_plansOf s n) fun _ _ => trivial)
  rw [cycleBasin_running io hr hu]
  refine onlyCrystals_cells (K := fun _ => False) (onlyCrystals_afterCrystals (onlyCrystals_refl _ _) fun h => ?_) id
  rw [hhold, uioCycle_fab, hsr] at h; cases h

end

/-- Settles O16: the crystals' own cycles write what R41, R43 and R57 say, and the rest of the cycle writes no cell of a crystal but under
the SR hold. -/
theorem crystalCycle : Obligations.CrystalCycle := by
  unfold Obligations.CrystalCycle
  intro n rise fall s
  refine ⟨fun h => congrArg Host.Outcome.next (cycleBasin_stopped h), fun hr hu => ⟨_, rfl, ?_⟩⟩
  obtain ⟨hplanes, hframes, hsets, hst, -, hcells⟩ := onlyCrystals_cycleBasin ⟨rise, fall⟩ hr hu
  obtain ⟨h0, h1⟩ := noneTaken_cycleBasin ⟨rise, fall⟩ hr hu
  refine ⟨hplanes, hframes, hsets, hst, h0, h1, fun k hk => ?_, fun hsr x hx => ?_⟩
  · obtain ⟨hcr, hfl, hxy, hb⟩ := hcells k hk
    exact ⟨hcr, hfl, fun c hc => ⟨(hxy c hc).1, (hxy c hc).2, hb _ (by omega)⟩⟩
  · have hps := plansWithin_plansOf s n
    have hrest := sameCells_cycleBasin ⟨rise, fall⟩ hr hu hsr (xk n x)
    refine ⟨fun c hc hq => ?_, fun hq => ?_⟩
    · exact holdsGrains_of_sameGrains (holdsGrains_crystalSteps hps hx hc hq) (hps x c hc) (sameGrains_of_sameCells hrest)
    · have huio := sameGrains_of_sameCells (sameCells_of_fab (uioCycle_fab n s) (xk n x))
      exact sameGrains_trans (sameGrains_trans huio (sameGrains_crystalSteps hps hq)) (sameGrains_of_sameCells hrest)

end Sys2Proof.Machine
end

section
/-! The sums of the word engine against exact arithmetic (R76, R78, R81), and the commands that write them. -/

namespace Sys2Proof.Machine

variable {s : State} {a : CrystalAddr} {f : WeFields} {c : Nat} {op : WeOp}

/-- An instruction that executes writes what its opcode computes, and nothing else changes (R73, R76). -/
theorem weStep_result (hf : weFree a f c s) (h : weRuns op a f c s) {r : Word} {cy ov : Option Bool}
    (hw : weResult op f (weA s a c f) (weB s a c f) (weFlagsOf s a c) (weCond s a c f) (weEnv s a c).stage = some ⟨r, cy, ov⟩) :
    weDone a f c s (weStep op a f s) r cy ov :=
  weStep_done h.1 (.inr h.2) hf ⟨r, cy, ov⟩ hw

/-- An integer is out of the signed range exactly where the word it wraps to reads as another integer. -/
theorem outOfRange_eq (x : Int) : outOfRange x = decide ((BitVec.ofInt 64 x).toInt ≠ x) := by
  have hiff : (x < -2 ^ 63 ∨ 2 ^ 63 ≤ x) ↔ (BitVec.ofInt 64 x).toInt ≠ x := by
    constructor
    · have hlo := BitVec.le_toInt (BitVec.ofInt 64 x)
      have hhi := BitVec.toInt_lt (x := BitVec.ofInt 64 x)
      omega
    · intro hne
      by_contra hin
      exact hne (BitVec.toInt_ofInt_eq_self (by decide) (by omega) (by omega))
  rw [Bool.eq_iff_iff, outOfRange, Bool.or_eq_true, decide_eq_true_eq, decide_eq_true_eq, decide_eq_true_eq]
  exact hiff

/-- ADD and ADDC: V is set where the sum reads as another integer than the operands' (R78). -/
theorem resAdd_eq (x y : Word) (cin : Bool) :
    resAdd x y cin = ⟨x + y + BitVec.ofNat 64 (b2n cin), some (decide (2 ^ 64 ≤ x.toNat + y.toNat + b2n cin)),
      some (decide ((x + y + BitVec.ofNat 64 (b2n cin)).toInt ≠ x.toInt + y.toInt + b2n cin))⟩ := by
  have hsum : x + y + BitVec.ofNat 64 (b2n cin) = BitVec.ofInt 64 (x.toInt + y.toInt + b2n cin) := by
    rw [BitVec.ofInt_add, BitVec.ofInt_add, BitVec.ofInt_toInt, BitVec.ofInt_toInt, BitVec.ofInt_natCast]
  rw [hsum, ← outOfRange_eq, ← hsum]
  rfl

/-- SUB and SUBB: V is set where the difference reads as another integer than the operands' (R78). -/
theorem resSub_eq (x y : Word) (bin : Bool) :
    resSub x y bin = ⟨x - y - BitVec.ofNat 64 (b2n bin), some (decide (x.toNat < y.toNat + b2n bin)),
      some (decide ((x - y - BitVec.ofNat 64 (b2n bin)).toInt ≠ x.toInt - y.toInt - b2n bin))⟩ := by
  have hdiff : x - y - BitVec.ofNat 64 (b2n bin) = BitVec.ofInt 64 (x.toInt - y.toInt - b2n bin) := by
    rw [Int.sub_eq_add_neg, Int.sub_eq_add_neg, BitVec.ofInt_add, BitVec.ofInt_add, BitVec.ofInt_neg, BitVec.ofInt_neg,
      BitVec.ofInt_toInt, BitVec.ofInt_toInt, BitVec.ofInt_natCast, BitVec.sub_eq_add_neg, BitVec.sub_eq_add_neg]
  rw [hdiff, ← outOfRange_eq, ← hdiff]
  rfl

theorem resAdd_false (x y : Word) : resAdd x y false =
    ⟨x + y, some (decide (2 ^ 64 ≤ x.toNat + y.toNat)), some (decide ((x + y).toInt ≠ x.toInt + y.toInt))⟩ := by
  rw [resAdd_eq]; simp
theorem resSub_false (x y : Word) : resSub x y false =
    ⟨x - y, some (decide (x.toNat < y.toNat)), some (decide ((x - y).toInt ≠ x.toInt - y.toInt))⟩ := by
  rw [resSub_eq]; simp

/-- ACC of unsigned operands is clamped to the largest word (R81). -/
theorem resAcc_unsigned (x y : Word) : ∃ r, resAcc x y false = ⟨r, none, some (decide (r.toNat ≠ x.toNat + y.toNat))⟩
    ∧ r.toNat = min (2 ^ 64 - 1) (x.toNat + y.toNat) := by
  by_cases hc : 2 ^ 64 ≤ x.toNat + y.toNat
  · have hr : (BitVec.allOnes 64).toNat = 2 ^ 64 - 1 := BitVec.toNat_allOnes
    refine ⟨BitVec.allOnes 64, ?_, by omega⟩
    have hne : (BitVec.allOnes 64).toNat ≠ x.toNat + y.toNat := by omega
    unfold resAcc
    rw [if_neg (by decide), decide_eq_true hne]
    exact if_pos hc
  · have hr : (x + y).toNat = x.toNat + y.toNat := BitVec.toNat_add_of_lt (by omega)
    refine ⟨x + y, ?_, by omega⟩
    unfold resAcc
    rw [if_neg (by decide), decide_eq_false (not_not_intro hr)]
    exact if_neg hc

/-- ACC of signed operands is clamped to the signed range (R81). -/
theorem resAcc_signed (x y : Word) : ∃ r, resAcc x y true = ⟨r, none, some (decide (r.toInt ≠ x.toInt + y.toInt))⟩
    ∧ r.toInt = max (-2 ^ 63) (min (2 ^ 63 - 1) (x.toInt + y.toInt)) := by
  by_cases hhi : 2 ^ 63 ≤ x.toInt + y.toInt
  · have hr : (BitVec.ofNat 64 (2 ^ 63 - 1)).toInt = 2 ^ 63 - 1 := by decide
    refine ⟨BitVec.ofNat 64 (2 ^ 63 - 1), ?_, by omega⟩
    have hne : (BitVec.ofNat 64 (2 ^ 63 - 1)).toInt ≠ x.toInt + y.toInt := by omega
    unfold resAcc
    rw [if_pos rfl, decide_eq_true hne]
    exact if_pos hhi
  by_cases hlo : x.toInt + y.toInt < -2 ^ 63
  · have hr : (BitVec.ofNat 64 (2 ^ 63)).toInt = -2 ^ 63 := by decide
    refine ⟨BitVec.ofNat 64 (2 ^ 63), ?_, by omega⟩
    have hne : (BitVec.ofNat 64 (2 ^ 63)).toInt ≠ x.toInt + y.toInt := by omega
    unfold resAcc
    rw [if_pos rfl, decide_eq_true hne]
    exact (if_neg hhi).trans (if_pos hlo)
  · have hr : (x + y).toInt = x.toInt + y.toInt := by
      have hsum : x + y = BitVec.ofInt 64 (x.toInt + y.toInt) := by rw [BitVec.ofInt_add, BitVec.ofInt_toInt, BitVec.ofInt_toInt]
      rw [hsum]
      exact BitVec.toInt_ofInt_eq_self (by decide) (by omega) (by omega)
    refine ⟨x + y, ?_, by omega⟩
    unfold resAcc
    rw [if_pos rfl, decide_eq_false (not_not_intro hr)]
    exact (if_neg hhi).trans (if_neg hlo)

/-- A legal condition and a reserved mode bit make ACC a field fault (R81, R95). -/
theorem weFault_acc (f : WeFields) (rp ap xl yl : Bool) (hc : f.cond.toNat < 12) (hsh : fld f.sh 1 5 ≠ 0) :
    weFault (some .acc) f rp ap xl yl = some 0x0522 := by
  unfold weFault
  simp [Nat.not_le.2 hc, hsh]

/-- Settles O8: each sum is what exact arithmetic gives, wrapped or clamped, and the instruction writes just that. -/
theorem sumsAndSaturation : Obligations.SumsAndSaturation := by
  unfold Obligations.SumsAndSaturation
  refine ⟨fun a f c s hf => ⟨fun h => ?_, ?_, fun h => ?_, ?_⟩, fun a f c s hf h => ?_, fun f rp ap xl yl => weFault_acc f rp ap xl yl⟩
  · exact ⟨_, rfl, weStep_result hf h (congrArg some (resAdd_false _ _))⟩
  · rintro h _ rfl
    exact ⟨_, rfl, weStep_result hf h (congrArg some (resAdd_eq _ _ _))⟩
  · exact ⟨_, rfl, weStep_result hf h (congrArg some (resSub_false _ _))⟩
  · rintro h _ rfl
    exact ⟨_, rfl, weStep_result hf h (congrArg some (resSub_eq _ _ _))⟩
  · cases hm : bit f.sh 0 with
    | false =>
      obtain ⟨r, hr, hval⟩ := resAcc_unsigned (weA s a c f) (weB s a c f)
      exact ⟨_, r, rfl, fun _ => ⟨hval, weStep_result hf h (congrArg some (hm ▸ hr))⟩, nofun⟩
    | true =>
      obtain ⟨r, hr, hval⟩ := resAcc_signed (weA s a c f) (weB s a c f)
      exact ⟨_, r, rfl, nofun, fun _ => ⟨hval, weStep_result hf h (congrArg some (hm ▸ hr))⟩⟩

end Sys2Proof.Machine
end

section
/-! The bitwise, comparing and shifting opcodes of the word engine, bit by bit (R74, R76, R79). -/

namespace Sys2Proof.Machine

variable {w : Nat}

-- One bit of a combined vector

@[simp] theorem bit_and (x y : BitVec w) (i : Nat) : bit (x &&& y) i = (bit x i && bit y i) := BitVec.getLsbD_and
@[simp] theorem bit_or (x y : BitVec w) (i : Nat) : bit (x ||| y) i = (bit x i || bit y i) := BitVec.getLsbD_or
@[simp] theorem bit_xor (x y : BitVec w) (i : Nat) : bit (x ^^^ y) i = (bit x i ^^ bit y i) := BitVec.getLsbD_xor
theorem bit_not (x : BitVec w) {i : Nat} (h : i < w) : bit (~~~x) i = !bit x i := by
  simp [bit, h]

theorem bit_shl (x : BitVec w) (n : Nat) {i : Nat} (h : i < w) : bit (x <<< n) i = (decide (n ≤ i) && bit x (i - n)) := by
  unfold bit
  rw [BitVec.getLsbD_shiftLeft, decide_eq_true h, Bool.true_and, ← decide_not, decide_eq_decide.2 Nat.not_lt]
theorem bit_shr (x : BitVec w) (n i : Nat) : bit (x >>> n) i = bit x (i + n) := by
  simp [bit, BitVec.getLsbD_ushiftRight, Nat.add_comm]
theorem bit_sar (x : Word) (n : Nat) {i : Nat} (h : i < 64) : bit (x.sshiftRight n) i = bit x (min 63 (i + n)) := by
  have hw : ¬ 64 ≤ i := by omega
  unfold bit
  rw [BitVec.getLsbD_sshiftRight, BitVec.msb_eq_getLsbD_last, decide_eq_false hw]
  by_cases hn : n + i < 64
  · rw [if_pos hn, Nat.min_eq_right (by omega), Nat.add_comm]; rfl
  · rw [if_neg hn, Nat.min_eq_left (by omega)]; rfl
/-- Bit `i` of a word rotated left by `n` is bit `(i - n) mod 64` of the word. -/
theorem bit_rotateLeft (x : Word) {n i : Nat} (hn : n < 64) (hi : i < 64) : bit (x.rotateLeft n) i = bit x ((i + (64 - n)) % 64) := by
  unfold bit
  rw [BitVec.getLsbD_rotateLeft, Nat.mod_eq_of_lt hn]
  by_cases h : i < n
  · rw [decide_eq_true h, cond_true, Nat.mod_eq_of_lt (by omega)]; congr 1; omega
  · rw [decide_eq_false h, cond_false, decide_eq_true hi, Bool.true_and, show i + (64 - n) = i - n + 64 by omega, Nat.add_mod_right,
      Nat.mod_eq_of_lt (by omega)]

-- Comparisons

/-- A comparison writes 1 or 0 and its truth value into C (R76). -/
theorem resCmp_eq (p : Bool) : resCmp p = ⟨if p then 1 else 0, some p, none⟩ := by cases p <;> rfl

/-- The pick of MINU to MAXS sets C just where its result is A, if it takes B only where B differs (R76). -/
theorem resPick_eq (x y : Word) (takeA : Bool) (h : takeA = false → y ≠ x) :
    resPick x y takeA = ⟨if takeA then x else y, some (decide ((if takeA then x else y) = x)), none⟩ := by
  cases takeA with
  | false => rw [if_neg (by decide), decide_eq_false (h rfl)]; rfl
  | true => rw [if_pos rfl, decide_eq_true rfl]; rfl

variable {α : Type} [LinearOrder α] (k : Word → α) (x y : Word)

/-- A minimum by any reading of the words (R76). -/
theorem resPick_min : ∃ r, resPick x y (decide (k x ≤ k y)) = ⟨r, some (decide (r = x)), none⟩ ∧ k r = min (k x) (k y) := by
  refine ⟨_, resPick_eq x y _ ?_, ?_⟩
  · rintro h rfl; exact of_decide_eq_false h le_rfl
  · by_cases h : k x ≤ k y
    · simp [h]
    · simp [h, le_of_not_ge h]

/-- A maximum by any reading of the words (R76). -/
theorem resPick_max : ∃ r, resPick x y (decide (k y ≤ k x)) = ⟨r, some (decide (r = x)), none⟩ ∧ k r = max (k x) (k y) := by
  refine ⟨_, resPick_eq x y _ ?_, ?_⟩
  · rintro h rfl; exact of_decide_eq_false h le_rfl
  · by_cases h : k y ≤ k x
    · simp [h]
    · simp [h, le_of_not_ge h]

/-- Settles O9: the bits of a bitwise result, the truth value of a comparison, the operand that a minimum or maximum picks. -/
theorem bitwiseSelectAndCompare : Obligations.BitwiseSelectAndCompare := by
  unfold Obligations.BitwiseSelectAndCompare
  refine ⟨fun a f c s hf => ⟨fun h => ?_, fun h => ?_, fun h => ?_, fun h => ?_, fun h => ?_, fun h => ?_, fun h => ?_⟩,
    fun a f c s hf => ⟨?_, ?_, ?_, fun h => ?_, fun h => ?_, fun h => ?_, fun h => ?_⟩⟩
  · exact ⟨_, rfl, weStep_result hf h rfl⟩
  · exact ⟨_, _, rfl, weStep_result hf h rfl, fun i _ => bit_and _ _ i⟩
  · exact ⟨_, _, rfl, weStep_result hf h rfl, fun i _ => bit_or _ _ i⟩
  · exact ⟨_, _, rfl, weStep_result hf h rfl, fun i _ => bit_xor _ _ i⟩
  · exact ⟨_, _, rfl, weStep_result hf h rfl, fun i hi => by rw [bit_and, bit_not _ hi]⟩
  · exact ⟨_, rfl, weStep_done h (.inl rfl) hf _ rfl⟩
  · exact congrArg Host.Outcome.next (weStep_nop h)
  · rintro h _ rfl
    refine ⟨_, rfl, weStep_result hf h (congrArg some ?_)⟩
    rw [← resCmp_eq]; simp only [BitVec.toNat_inj]
  · rintro h _ rfl
    exact ⟨_, rfl, weStep_result hf h (congrArg some (resCmp_eq _))⟩
  · rintro h _ rfl
    exact ⟨_, rfl, weStep_result hf h (congrArg some (resCmp_eq _))⟩
  · obtain ⟨r, hr, hval⟩ := resPick_min BitVec.toNat (weA s a c f) (weB s a c f)
    exact ⟨_, r, rfl, hval, weStep_result hf h (congrArg some hr)⟩
  · obtain ⟨r, hr, hval⟩ := resPick_min BitVec.toInt (weA s a c f) (weB s a c f)
    exact ⟨_, r, rfl, hval, weStep_result hf h (congrArg some hr)⟩
  · obtain ⟨r, hr, hval⟩ := resPick_max BitVec.toNat (weA s a c f) (weB s a c f)
    exact ⟨_, r, rfl, hval, weStep_result hf h (congrArg some hr)⟩
  · obtain ⟨r, hr, hval⟩ := resPick_max BitVec.toInt (weA s a c f) (weB s a c f)
    exact ⟨_, r, rfl, hval, weStep_result hf h (congrArg some hr)⟩

-- Shifts

/-- The amount of a shift (R79). -/
theorem shAmount_eq (y : Word) (sh : BitVec 6) : shAmount y sh = (y.toNat % 64 + sh.toNat) % 64 := rfl

/-- Operand source 7 delivers 0 (R62). -/
theorem weB_zero {f : WeFields} (h : f.srcB = 7) (s : State) (a : CrystalAddr) (c : Nat) : weB s a c f = 0 := by
  unfold weB; rw [h]; rfl

/-- Settles O10: each bit of a shifted or rotated word is a bit of A, and C is the last bit out. -/
theorem shiftAndRotate : Obligations.ShiftAndRotate := by
  unfold Obligations.ShiftAndRotate
  intro a f c s n hf hn
  have hlt : n < 64 := by omega
  rw [← shAmount_eq] at hn
  subst hn
  refine ⟨fun h7 => ?_, fun h => ?_, fun h => ?_, fun h => ?_, fun h => ?_⟩
  · have hsh : f.sh.toNat < 64 := f.sh.isLt
    rw [shAmount_eq, weB_zero h7]
    simp [Nat.mod_eq_of_lt hsh]
  · exact ⟨_, _, rfl, fun i hi => bit_shl _ _ hi, weStep_result hf h rfl⟩
  · exact ⟨_, _, rfl, fun i _ => bit_shr _ _ i, weStep_result hf h rfl⟩
  · exact ⟨_, _, rfl, fun i hi => bit_sar _ _ hi, weStep_result hf h rfl⟩
  · refine ⟨_, _, rfl, fun i hi => ?_, weStep_result hf h rfl⟩
    rw [bit_rotateLeft _ hlt (Nat.mod_lt _ (by decide))]
    congr 1; omega

end Sys2Proof.Machine
end

section
/-! Counts, byte order, fields, CRC and HMIX of the word engine (R76, R80, R82, R83, R85). -/

namespace Sys2Proof.Machine

-- Counts

theorem foldl_b2n (p : Nat → Bool) (l : List Nat) (k : Nat) : l.foldl (fun k i => k + b2n (p i)) k = k + (l.filter p).length := by
  induction l generalizing k with
  | nil => rfl
  | cons i l ih =>
    rw [List.foldl_cons, ih]
    cases h : p i
    · rw [List.filter_cons_of_neg (by simp [h])]; rfl
    · rw [List.filter_cons_of_pos h, List.length_cons, b2n_true]; omega

theorem popcnt64_eq (x : Word) : popcnt64 x = ((List.range 64).filter fun i => bit x i).length :=
  (foldl_b2n (bit x) _ 0).trans (Nat.zero_add _)
theorem popcnt64_le (x : Word) : popcnt64 x ≤ 64 := by
  rw [popcnt64_eq]; exact (List.length_filter_le _ _).trans_eq List.length_range

/-- Above the count of leading zeros no bit is set, and the bit at it is (R76). -/
theorem clz64_spec (x : Word) : clz64 x ≤ 64 ∧ (∀ i, i < 64 → 64 ≤ i + clz64 x → bit x i = false)
    ∧ (clz64 x < 64 → bit x (63 - clz64 x) = true) := by
  by_cases h : x = 0
  · have hz : clz64 x = 64 := if_pos h
    rw [hz, h]
    exact ⟨le_rfl, fun i _ _ => BitVec.getLsbD_zero, fun hlt => absurd hlt (by decide)⟩
  · have hne : x.toNat ≠ 0 := fun e => h (BitVec.eq_of_toNat_eq e)
    have hlog : Nat.log2 x.toNat < 64 := (Nat.log2_lt hne).2 x.isLt
    have hz : clz64 x = 63 - Nat.log2 x.toNat := if_neg h
    rw [hz]
    refine ⟨by omega, fun i _ hi => ?_, fun _ => ?_⟩
    · exact Nat.testBit_lt_two_pow ((Nat.log2_lt hne).1 (by omega))
    · rw [show 63 - (63 - Nat.log2 x.toNat) = Nat.log2 x.toNat by omega]
      exact Nat.testBit_log2 hne

-- Bytes

/-- A byte read as a field is the byte. -/
theorem fld_byte {w : Nat} (v : BitVec w) (k : Nat) : fld v (8 * k) 8 = (byteOf v k).toNat := (BitVec.toNat_ofNat _ _).symm

/-- A byte-wide field of a vector built from bytes. -/
theorem fld_ofBytes {w k : Nat} (bs : List Byte) (h : k < bs.length) (hw : 8 * bs.length ≤ w) :
    fld (ofBytes w bs) (8 * k) 8 = bs[k].toNat := by
  rw [fld_byte, byteOf_ofBytes w bs k h hw]

theorem fld_bswap64 (x : Word) {k : Nat} (hk : k < 8) : fld (bswap64 x) (8 * k) 8 = fld x (8 * (7 - k)) 8 := by
  have hl : (toBytes 8 x).reverse.length = 8 := by rw [List.length_reverse, toBytes_length]
  unfold bswap64
  rw [fld_ofBytes _ (by omega) (by omega), fld_byte]
  simp [toBytes]

-- Fields

/-- The bits of a number taken as a signed one of `w` bits: its top bit fills the places above (R80). -/
theorem bit_signed {x w i : Nat} (hx : x < 2 ^ w) (hw : w ≤ 64) (hi : i < 64) :
    bit (BitVec.ofInt 64 ((x : Int) - 2 ^ w)) i = (decide (w ≤ i) || x.testBit i) := by
  have hp : 2 ^ w * 2 ^ (64 - w) = 2 ^ 64 := by rw [← pow_add]; congr 1; omega
  have hpos : 0 < 2 ^ (64 - w) := Nat.two_pow_pos _
  have hval : (BitVec.ofInt 64 ((x : Int) - 2 ^ w)).toNat = 2 ^ w * (2 ^ (64 - w) - 1) + x := by
    have hle : 2 ^ w ≤ 2 ^ 64 := Nat.pow_le_pow_right (by decide) hw
    have hcast : ((2 ^ w : Nat) : Int) = 2 ^ w := by push_cast; rfl
    rw [BitVec.toNat_ofInt, Nat.mul_sub, hp, ← hcast]
    omega
  rw [bit_eq_testBit, hval, Nat.testBit_two_pow_mul_add _ hx, Nat.testBit_two_pow_sub_one]
  by_cases h : i < w
  · rw [if_pos h, decide_eq_false (by omega), Bool.false_or]
  · rw [if_neg h, decide_eq_true (by omega), decide_eq_true (by omega), Bool.true_or]

/-- EXTR: the field, and above it zeros or its top bit (R80). -/
theorem bit_resExtr (x : Word) (sh m : Nat) (sg : Bool) (hm : m < 64) {i : Nat} (hi : i < 64) :
    bit (resExtr x sh (m + 1) sg).r i = (if i ≤ m then bit x (sh + i) else sg && bit x (sh + m)) := by
  have hx : (x.toNat >>> sh) % 2 ^ (m + 1) < 2 ^ (m + 1) := Nat.mod_lt _ (Nat.two_pow_pos _)
  have hb : ∀ j, ((x.toNat >>> sh) % 2 ^ (m + 1)).testBit j = (decide (j ≤ m) && bit x (sh + j)) := fun j => by
    rw [Nat.testBit_mod_two_pow, Nat.testBit_shiftRight, decide_eq_decide.2 Nat.lt_succ_iff]; rfl
  unfold resExtr plain
  dsimp only
  rw [Nat.add_sub_cancel, hb m, decide_eq_true (le_refl m), Bool.true_and]
  cases sg && bit x (sh + m) with
  | true =>
    rw [if_pos rfl, bit_signed hx hm hi, hb]
    by_cases hle : i ≤ m
    · rw [if_pos hle, decide_eq_false (by omega), decide_eq_true hle]; rfl
    · rw [if_neg hle, decide_eq_true (by omega)]; rfl
  | false =>
    rw [if_neg (by decide), bit, BitVec.getLsbD_ofNat, hb, decide_eq_true hi, Bool.true_and]
    by_cases hle : i ≤ m
    · rw [if_pos hle, decide_eq_true hle]; rfl
    · rw [if_neg hle, decide_eq_false hle]; rfl

/-- INS: the field holds the low bits of A, and the rest is B (R80). -/
theorem bit_resIns (x y : Word) {sh i : Nat} (m : Nat) (hsh : sh < 64) (hi : i < 64) :
    bit (resIns x y sh (m + 1)).r i = (if sh ≤ i ∧ i ≤ sh + m then bit x (i - sh) else bit y i) := by
  unfold resIns plain
  by_cases h : sh ≤ i ∧ i ≤ sh + m
  · rw [if_pos h, bit_setFld_same _ _ _ _ _ (by omega) (by omega)]; rfl
  · rw [if_neg h, bit_setFld_other _ _ _ _ _ (by omega) (by omega)]

-- CRC

/-- The width, polynomial and bit order of a CRC fit together: the polynomial lies in the width, which holds a byte (R83). -/
theorem crcCode_fits (poly : Nat) : (crcCode poly).2.1 < 2 ^ (crcCode poly).1 ∧ 8 ≤ (crcCode poly).1 ∧ (crcCode poly).1 ≤ 64 := by
  unfold crcCode; split <;> decide

theorem crcCode_width {poly : Nat} (h : poly < 4) : (crcCode poly).1 = if poly < 2 then 32 else if poly = 2 then 16 else 24 := by
  interval_cases poly <;> rfl

theorem crcBits_lt {w p : Nat} (hp : p < 2 ^ w) (refl : Bool) : ∀ n s : Nat, s < 2 ^ w → crcBits w p refl n s < 2 ^ w
  | 0, _, h => h
  | n + 1, s, h => by
    refine crcBits_lt hp refl n _ ?_
    cases refl with
    | false => exact Nat.mod_lt _ (Nat.two_pow_pos w)
    | true =>
      refine Nat.xor_lt_two_pow (Nat.lt_of_le_of_lt (Nat.shiftRight_le _ _) h) ?_
      split
      · exact hp
      · exact Nat.two_pow_pos w

/-- A byte shifted to the top of a CRC's state, or a byte at its bottom, lies in the state. -/
theorem crcByte_lt {w p s : Nat} (hp : p < 2 ^ w) (hw : 8 ≤ w) (refl : Bool) (hs : s < 2 ^ w) (d : Byte) :
    crcByte w p refl s d.toNat < 2 ^ w := by
  have hpow : 2 ^ 8 * 2 ^ (w - 8) = 2 ^ w := by rw [← pow_add]; congr 1; omega
  refine crcBits_lt hp refl 8 _ ?_
  cases refl with
  | false =>
    refine Nat.xor_lt_two_pow hs ?_
    rw [Nat.shiftLeft_eq, ← hpow]
    exact Nat.mul_lt_mul_of_pos_right d.isLt (Nat.two_pow_pos _)
  | true => exact Nat.xor_lt_two_pow hs (Nat.lt_of_lt_of_le d.isLt (Nat.pow_le_pow_right (by decide) hw))

/-- A CRC's state stays within the width of its code (R83). -/
theorem crcRun_lt_width (poly : Nat) (ds : List Byte) {s : Nat} (hs : s < 2 ^ (crcCode poly).1) :
    crcRun poly s ds < 2 ^ (crcCode poly).1 := by
  obtain ⟨hp, h8, -⟩ := crcCode_fits poly
  exact ds.foldlRecOn (motive := fun v => v < 2 ^ (crcCode poly).1) _ hs fun v hv d _ => crcByte_lt hp h8 _ hv d

/-- The result of CRC: the final state, complemented within the width where XOROUT is set (R82). -/
theorem resCrc_eq (x y : Word) (sh : BitVec 6) (imm : BitVec 8) {w st : Nat} (hw : w = (crcCode (fld imm 0 2)).1)
    (hst : st = crcRun (fld imm 0 2) (if bit imm 7 then 2 ^ w - 1 else y.toNat % 2 ^ w)
      ((List.range (fld imm 2 3 + 1)).map fun k => BitVec.ofNat 8 (fld x (8 * (fld sh 0 3 + k)) 8))) :
    ∃ r, resCrc x y sh imm = plain r ∧ r.toNat < 2 ^ w ∧ ∀ i, i < w → bit r i = (st.testBit i != bit imm 6) := by
  obtain ⟨-, -, hw64⟩ := crcCode_fits (fld imm 0 2)
  have hlt : st < 2 ^ w := by
    have hpos : 0 < 2 ^ w := Nat.two_pow_pos w
    rw [hst, hw]
    refine crcRun_lt_width _ _ ?_
    rw [← hw]
    split
    · omega
    · exact Nat.mod_lt _ hpos
  have hbytes : ∀ k, BitVec.ofNat 8 (fld x (8 * (fld sh 0 3 + k)) 8) = byteOf x (fld sh 0 3 + k) := fun k => by
    rw [fld_byte, BitVec.ofNat_toNat, BitVec.setWidth_eq]
  simp only [hbytes] at hst
  have hr : (BitVec.ofNat 64 (if bit imm 6 then 2 ^ w - 1 - st else st)).toNat = if bit imm 6 then 2 ^ w - 1 - st else st := by
    have hle : 2 ^ w ≤ 2 ^ 64 := Nat.pow_le_pow_right (by decide) (hw ▸ hw64)
    rw [BitVec.toNat_ofNat]
    refine Nat.mod_eq_of_lt ?_
    split <;> omega
  refine ⟨BitVec.ofNat 64 (if bit imm 6 then 2 ^ w - 1 - st else st), ?_, ?_, fun i hi => ?_⟩
  · rw [hst, hw]; rfl
  · rw [hr]; split <;> omega
  · rw [bit_eq_testBit, hr]
    cases bit imm 6 with
    | false => simp
    | true =>
      rw [if_pos rfl, Nat.sub_sub, Nat.add_comm 1, Nat.testBit_two_pow_sub_succ hlt, decide_eq_true hi]
      simp

/-- Settles O11: the counts, bytes and fields bit by bit, and a CRC by the state that it runs through. -/
theorem countsFieldsAndCrc : Obligations.CountsFieldsAndCrc := by
  unfold Obligations.CountsFieldsAndCrc
  refine ⟨fun a f c s hf => ⟨fun h => ?_, fun h => ?_, fun h => ?_, fun h => ?_, fun h => ?_⟩, fun a f c s hf h w st hw hst => ?_⟩
  · have hle := popcnt64_le (weA s a c f)
    refine ⟨_, _, rfl, weStep_result hf h rfl, ?_⟩
    rw [BitVec.toNat_ofNat, Nat.mod_eq_of_lt (by omega), popcnt64_eq]
  · obtain ⟨hle, hzero, hone⟩ := clz64_spec (weA s a c f)
    have hr : (BitVec.ofNat 64 (clz64 (weA s a c f))).toNat = clz64 (weA s a c f) := by
      rw [BitVec.toNat_ofNat, Nat.mod_eq_of_lt (by omega)]
    refine ⟨_, _, rfl, weStep_result hf h rfl, ?_⟩
    rw [hr]
    exact ⟨hle, hzero, hone⟩
  · exact ⟨_, _, rfl, weStep_result hf h rfl, fun k hk => fld_bswap64 _ hk⟩
  · exact ⟨_, _, rfl, weStep_result hf h rfl, fun i hi => bit_resExtr _ _ _ _ (fld_lt _ _ _) hi⟩
  · exact ⟨_, _, rfl, weStep_result hf h rfl, fun i hi => bit_resIns _ _ _ f.sh.isLt hi⟩
  · obtain ⟨r, hr, hlt, hbits⟩ := resCrc_eq (weA s a c f) (weB s a c f) f.sh f.imm8 (hw.trans (crcCode_width (fld_lt _ _ _)).symm) hst
    exact ⟨_, r, rfl, weStep_result hf h (congrArg some hr), hlt, hbits⟩

-- HMIX

/-- The bits of a word as a ring of 64. -/
def ringBit (x : Word) (i : Nat) : Bool := bit x (i % 64)

theorem ringBit_of_lt (x : Word) {i : Nat} (h : i < 64) : ringBit x i = bit x i := by rw [ringBit, Nat.mod_eq_of_lt h]
theorem ringBit_xor (x y : Word) (i : Nat) : ringBit (x ^^^ y) i = (ringBit x i ^^ ringBit y i) := bit_xor x y _
theorem ringBit_and (x y : Word) (i : Nat) : ringBit (x &&& y) i = (ringBit x i && ringBit y i) := bit_and x y _
theorem ringBit_not (x : Word) (i : Nat) : ringBit (~~~x) i = !ringBit x i := bit_not x (Nat.mod_lt _ (by decide))
theorem ringBit_rotateLeft (x : Word) {n : Nat} (hn : n < 64) (i : Nat) : ringBit (x.rotateLeft n) i = ringBit x (i + (64 - n)) := by
  rw [ringBit, bit_rotateLeft x hn (Nat.mod_lt _ (by decide)), Nat.mod_add_mod]
  rfl

/-- A mixed with the halves of B swapped (R85). -/
def mixSeed (x y : Word) : Word := x ^^^ y.rotateLeft 32
/-- The second word of HMIX (R85). -/
def mixSpread (t : Word) : Word := t ^^^ t.rotateLeft 13 ^^^ t.rotateLeft 37
/-- The third word of HMIX (R85). -/
def mixMask (t : Word) : Word := t ^^^ (t.rotateLeft 7 &&& ~~~t.rotateLeft 43)

theorem hmix_eq (x y : Word) : hmix x y = mixMask (mixSpread (mixSeed x y)) ^^^ (mixMask (mixSpread (mixSeed x y))).rotateLeft 29 := rfl

theorem ringBit_mixSeed (x y : Word) (i : Nat) : ringBit (mixSeed x y) i = (bit x (i % 64) ^^ bit y ((i + 32) % 64)) := by
  rw [mixSeed, ringBit_xor, ringBit_rotateLeft _ (by decide)]; rfl
theorem ringBit_mixSpread (t : Word) (i : Nat) :
    ringBit (mixSpread t) i = (ringBit t i ^^ ringBit t (i + 51) ^^ ringBit t (i + 27)) := by
  rw [mixSpread, ringBit_xor, ringBit_xor, ringBit_rotateLeft _ (by decide), ringBit_rotateLeft _ (by decide)]
theorem ringBit_mixMask (t : Word) (i : Nat) : ringBit (mixMask t) i = (ringBit t i ^^ (ringBit t (i + 57) && !ringBit t (i + 21))) := by
  rw [mixMask, ringBit_xor, ringBit_and, ringBit_not, ringBit_rotateLeft _ (by decide), ringBit_rotateLeft _ (by decide)]

/-- Settles O12: on a ring of bits a rotation is a shift, which gives the three intermediate words of R85 and the result. -/
theorem hashMix : Obligations.HashMix := by
  unfold Obligations.HashMix
  intro a f c s hf h
  refine ⟨_, _, rfl, weStep_result hf h rfl, _, _, _, ringBit_mixSeed _ _, ringBit_mixSpread _, ringBit_mixMask _, fun i hi => ?_⟩
  rw [hmix_eq, ← ringBit_of_lt _ hi, ringBit_xor, ringBit_rotateLeft _ (by decide)]

end Sys2Proof.Machine
end

section
/-! The row stage and the fences of a crystal's port (R89 to R93). -/

namespace Sys2Proof.Machine

variable {s : State} {a : CrystalAddr} {f : WeFields} {c : Nat}

-- The bytes of a stage

/-- LDR reads eight bytes from the offset on, round the end of the stage (R89). -/
theorem fld_stageRead (stage : BitVec 8192) (o : Nat) {k : Nat} (hk : k < 8) :
    fld (stageRead stage o) (8 * k) 8 = fld stage (8 * ((o + k) % 1024)) 8 := by
  unfold stageRead
  rw [fld_ofBytes _ (by simpa using hk) (by simp), List.getElem_map, List.getElem_range, ← fld_byte]

theorem fld_stageByte (stage : BitVec 8192) {p b : Nat} (hp : p < 1024) (hb : b < 1024) (v : Byte) :
    fld (stageByte stage p v) (8 * b) 8 = if b = p then v.toNat else fld stage (8 * b) 8 := by
  unfold stageByte
  by_cases h : b = p
  · subst h; rw [if_pos rfl, fld_setFld_same _ _ _ _ (by omega)]; exact Nat.mod_eq_of_lt v.isLt
  · rw [if_neg h, fld_setFld_other _ _ _ _ _ _ (by omega) (by omega)]

/-- The stage with the first `n` bytes of a word written, as the mask lets them. -/
def stageWriteTo (n : Nat) (stage : BitVec 8192) (o : Nat) (mask : BitVec 8) (v : Word) : BitVec 8192 :=
  (List.range n).foldl (fun st k => if bit mask k then stageByte st ((o + k) % 1024) (byteOf v k) else st) stage

theorem stageWriteTo_succ (n : Nat) (stage : BitVec 8192) (o : Nat) (mask : BitVec 8) (v : Word) :
    stageWriteTo (n + 1) stage o mask v =
      if bit mask n then stageByte (stageWriteTo n stage o mask v) ((o + n) % 1024) (byteOf v n) else stageWriteTo n stage o mask v := by
  unfold stageWriteTo; rw [List.range_succ, List.foldl_append]; rfl

/-- A byte of the stage lies `d` places after the offset, round the end: it is written if `d` is among the bytes so far and the mask has it. -/
theorem fld_stageWriteTo (stage : BitVec 8192) {o b : Nat} (ho : o < 1024) (hb : b < 1024) (mask : BitVec 8) (v : Word) {n d : Nat}
    (hn : n ≤ 8) (hd : d = (b + 1024 - o) % 1024) :
    fld (stageWriteTo n stage o mask v) (8 * b) 8 = if d < n ∧ bit mask d = true then fld v (8 * d) 8 else fld stage (8 * b) 8 := by
  induction n with
  | zero => exact (if_neg (by omega)).symm
  | succ n ih =>
    have ih := ih (by omega)
    have hplace : b = (o + n) % 1024 ↔ d = n := by omega
    rw [stageWriteTo_succ]
    cases hm : bit mask n with
    | false =>
      rw [if_neg (by decide), ih]
      refine if_congr (and_congr_left fun hbit => ?_) rfl rfl
      have hne : d ≠ n := by rintro rfl; rw [hm] at hbit; cases hbit
      omega
    | true =>
      rw [if_pos rfl, fld_stageByte _ (Nat.mod_lt _ (by decide)) hb, ih]
      by_cases hdn : d = n
      · rw [if_pos (hplace.2 hdn), hdn, if_pos ⟨Nat.lt_succ_self n, hm⟩, fld_byte]
      · rw [if_neg (hplace.not.2 hdn)]
        exact if_congr (and_congr_left fun _ => by omega) rfl rfl

/-- STR writes the bytes of its mask from the offset on, round the end of the stage, and no other (R90). -/
theorem fld_stageWrite (stage : BitVec 8192) {o b : Nat} (ho : o < 1024) (hb : b < 1024) (mask : BitVec 8) (v : Word) :
    fld (stageWrite stage o mask v) (8 * b) 8 =
      if bit mask ((b + 1024 - o) % 1024) then fld v (8 * ((b + 1024 - o) % 1024)) 8 else fld stage (8 * b) 8 := by
  refine (fld_stageWriteTo stage ho hb mask v le_rfl rfl).trans (if_congr (and_iff_right_of_imp fun hbit => ?_) rfl rfl)
  exact BitVec.lt_of_getLsbD hbit

-- The port of a crystal

/-- The places of the ports (R147). -/
theorem portPlace_lt {x kind r q : Nat} (h : portPlace x = some (kind, r, q)) : r < 4 ∧ q < 8 := by
  unfold portPlace at h
  split at h <;> cases h <;> decide

/-- LDR and STR that start have a row port (R92). -/
theorem weFault_none_rowPort {op : WeOp} {rp ap xl yl : Bool} (hop : op = .ldr ∨ op = .str) (h : weFault (some op) f rp ap xl yl = none) :
    rp = true := by
  cases rp with
  | true => rfl
  | false =>
    unfold weFault at h
    rcases hop with rfl | rfl <;> simp at h <;> split at h <;> cases h

/-- A crystal that names its row port sees the stage of that port (R89). -/
theorem weEnv_stage {kind r q : Nat} (hp : portPlace a.addr.toNat = some (kind, r, q)) (h : (weEnv s a c).rowPort = true) :
    kind = 3 ∧ (weEnv s a c).stage = (rowPort s a.basin r).stage := by
  unfold weEnv envOf servedPort at h ⊢
  simp only [hp, Option.filter_some] at h ⊢
  by_cases h1 : kind = fld (planAt (plansOf s a.basin) a.addr.toNat).bits 2212 3
  · by_cases h3 : kind = 3
    · subst h3; rw [if_pos (decide_eq_true h1)]; exact ⟨rfl, rfl⟩
    · simp [← h1, h3] at h
  · simp [h1] at h

theorem rowPort_setRowPort {n m r k : Nat} (hr : r < 4) (hk : k < 4) (v : RowPort) (s : State) :
    rowPort (setRowPort n r v s) m k = if (m, k) = (n, r) then v else rowPort s m k := by
  have : (4 * m + k = 4 * n + r) ↔ (m, k) = (n, r) := by rw [Prod.mk.injEq]; omega
  unfold rowPort setRowPort
  simp [tget_tput, this]
theorem fencesOf_setFences {n m q k : Nat} (hq : q < 8) (hk : k < 8) (l : List Fence) (s : State) :
    fencesOf (setFences n q l s) m k = if (m, k) = (n, q) then l else fencesOf s m k := by
  have : (8 * m + k = 8 * n + q) ↔ (m, k) = (n, q) := by rw [Prod.mk.injEq]; omega
  unfold fencesOf setFences
  simp [tget_tput, this]

/-- STR writes the stage of the row port that its crystal serves (R90). -/
theorem storeStage_row {n x r q : Nat} (h : portPlace x = some (3, r, q)) (w : Nat × BitVec 8 × Word) (s : State) :
    storeStage n x w s = setRowPort n r { rowPort s n r with stage := stageWrite (rowPort s n r).stage w.1 w.2.1 w.2.2 } s := by
  unfold storeStage; rw [h]; rfl
/-- FENCE posts on the port that its crystal serves (R93). -/
theorem postFence_port {n x kind r q : Nat} (h : portPlace x = some (kind, r, q)) (sc : BitVec 2) (s : State) :
    postFence n x sc s = setFences n q (fencesOf s n q ++ [newFence s sc]) s := by
  unfold postFence; rw [h]

/-- Settles O14: byte by byte what LDR reads and STR writes, and the one fence that FENCE adds. -/
theorem stageAndFence : Obligations.StageAndFence := by
  unfold Obligations.StageAndFence
  intro a f c s kind r q o hp ho
  obtain ⟨hr, hq⟩ := portPlace_lt hp
  have hoff : o = stageOffset (weA s a c f) f.sh := ho
  have hlt : o < 1024 := by omega
  refine ⟨fun h hf => ?_, fun h => ?_, fun h => ?_⟩
  · obtain ⟨-, hstage⟩ := weEnv_stage hp (weFault_none_rowPort (.inl rfl) h.1.2)
    refine ⟨_, _, rfl, weStep_result hf h rfl, fun k hk => ?_⟩
    rw [hstage, hoff, fld_stageRead _ _ hk]
  · obtain ⟨rfl, -⟩ := weEnv_stage hp (weFault_none_rowPort (.inr rfl) h.1.2)
    have hstep := (weStep_str h).trans (storeStage_row hp _ _)
    rw [← hoff] at hstep
    refine ⟨_, congrArg Host.Outcome.next hstep, fun b hb => ?_, ?_, fun n k hk hne => ?_, rfl, rfl⟩
    · rw [rowPort_setRowPort hr hr, if_pos rfl]; exact fld_stageWrite _ hlt hb _ _
    · rw [rowPort_setRowPort hr hr, if_pos rfl]
    · rw [rowPort_setRowPort hr hk, if_neg hne]
  · refine ⟨_, congrArg Host.Outcome.next ((weStep_fence h).trans (postFence_port hp _ _)), ?_, fun n k hk hne => ?_, rfl, rfl⟩
    · rw [fencesOf_setFences hq hq, if_pos rfl]; rfl
    · rw [fencesOf_setFences hq hk, if_neg hne]

end Sys2Proof.Machine
end

section
/-! A multiply lost in a quiet cycle (R88) after a port trap of the same cycle (R116, R156). -/

namespace Sys2Proof.Machine

/-- Basin 0 in SERVICE runs plane 0, live in the crystals of row port 0, of which 360 and 361 both ask for a row command (R156). Crystal 511,
where the plane is not ACTIVE, has a multiply in flight. -/
def portContest : State :=
  withFab (fun f => { f with
    hold := ⟨false, false, false⟩
    planeSt := [(0, ⟨.valid, 0, none⟩)]
    basins := [(0, { Basin.zero with fixedCtx := some 0 })]
    crystals := (rowCrystals 0).map (fun x => (x, { Crystal.zero with
        oq := BitVec.ofNat 16 (b2n (x < 362)), live := some ⟨0, BitVec.ofNat 2304 (2 ^ 2209 + 3 * 2 ^ 2212 + 2 ^ 2215)⟩ }))
      ++ [(511, { Crystal.zero with muls := [⟨0, 0, 6, 1⟩], live := some ⟨0, 0⟩ })] }) (wrF 0x1040 0 3 mSERVICE State.reset)

/-- READ_ROW has taken the command of crystal 360 and trapped crystal 361; then software has written VALID of BSN_FAULT to clear it. -/
def portTrapCleared : State := busWrite (at' (pgBSN 0) 0x50) 0x80000000 (issueRow 0 0 0 portContest)

theorem portTrapCleared_reached : exec (.readRow 0 0) portContest = .next (issueRow 0 0 0 portContest)
    ∧ exec (.registerWrite (at' (pgBSN 0) 0x50) 0x80000000 true) (issueRow 0 0 0 portContest) = .next portTrapCleared := by
  refine ⟨rfl, (execRegisterWrite_full _ _ ?_).trans (clocked_of_ok ?_)⟩ <;> decide +kernel

theorem portTrapCleared_quiet : underTest portTrapCleared 0 = false ∧ (planOf portTrapCleared 0 511).quiet = true
    ∧ (crystalOf portTrapCleared (weKey ⟨0, 511⟩)).muls = [⟨0, 0, 6, 1⟩] ∧ rdB portTrapCleared (at' (pgBSN 0) 0x50) 31 = false := by
  decide +kernel

/-- The lost multiply makes the basin choose among the traps of the cycle again, and the port's, of the lower crystal, is recorded (R116). -/
theorem completeMul_records_portTrap : rdF (completeMul ⟨0, 511⟩ portTrapCleared) (at' (pgBSN 0) 0x50) 0 16 = 0x0551
    ∧ rdF (completeMul ⟨0, 511⟩ portTrapCleared) (at' (pgBSN 0) 0x50) 16 9 = 361 := by
  decide +kernel

/-- Refutes O13: the last clause takes the lost multiply's trap for the recorded one wherever VALID of BSN_FAULT is 0. A port trap of the same
cycle, which READ_ROW raised and software cleared since, still takes part in the basin's choice, and it is of a lower crystal. -/
theorem not_multiply : ¬ Obligations.Multiply := by
  unfold Obligations.Multiply
  rintro ⟨-, hcompletion⟩
  obtain ⟨hrun, hquiet, hmuls, hclear⟩ := portTrapCleared_quiet
  obtain ⟨t, ht, -, -, hlost⟩ := hcompletion ⟨0, 511⟩ portTrapCleared _ _ hrun hmuls
  obtain ⟨-, -, -, -, hrecord⟩ := hlost hquiet
  obtain ⟨hcause, -⟩ := hrecord hclear
  obtain ⟨hport, -⟩ := completeMul_records_portTrap
  have htm : t = completeMul ⟨0, 511⟩ portTrapCleared := (Host.Outcome.next.inj ht).symm
  rw [htm, hport] at hcause
  exact absurd hcause (by decide)

end Sys2Proof.Machine
end

section
/-! Entering and leaving DOZE and DEEP (R119, R425): what each command writes of its basin, and what the wake from DEEP clears. -/

namespace Sys2Proof.Machine

variable {s t u : State} {n : Nat}

-- The commands that mark their basin and nothing else

theorem execDozeEntry_idle (hr : (basinOf s n).power = .run) (hi : basinIdle s n = true) :
    execDozeEntry n s = .next (setBasin n { basinOf s n with power := .doze, waking := false } s) := by
  simp [execDozeEntry, hr, hi]

theorem execDeepEntry_dozing (hd : (basinOf s n).power = .doze) (hw : (basinOf s n).waking = false)
    (he : rdF s (at' pgCLK 0x5C) 16 16 ≠ 0) : execDeepEntry n s = .next (setBasin n { basinOf s n with power := .deep } s) := by
  simp [execDeepEntry, hd, hw, he]

theorem execDeepExit_wanted (hd : (basinOf s n).power = .deep) (hw : wakeWanted s n = true) (hc : rdB s (clkEnA (pgBSN n)) 0 = true)
    (hh : workHeld s = false) : execDeepExit n s = .next (setBasin n { basinOf s n with waking := true } s) := by
  simp [execDeepExit, hd, hw, hc, hh]

theorem execBasinWakeDone_waking (hw : (basinOf s n).waking = true) : execBasinWakeDone n s = .next (wakeBasin n s) := by
  simp [execBasinWakeDone, hw]

/-- A write of one basin touches the basins alone. -/
theorem setBasin_onlyBasins (n : Nat) (b : Basin) (s : State) :
    { (setBasin n b s).fab with basins := s.fab.basins } = s.fab ∧ onlyFab s (setBasin n b s) := ⟨rfl, rfl⟩

-- What a wake leaves alone

/-- Nothing differs but what DEEP can lose (R119): the basins' and crystals' registers, the row ports, the lane, tag and spine registers. -/
def onlyVolatile (s t : State) : Prop :=
  { t with fab := { t.fab with
      basins := s.fab.basins, crystals := s.fab.crystals, rows := s.fab.rows,
      lanes := s.fab.lanes, tagRegs := s.fab.tagRegs, spines := s.fab.spines } } = s

theorem onlyVolatile_refl (s : State) : onlyVolatile s s := rfl
theorem onlyVolatile_setBasin (h : onlyVolatile s t) (n : Nat) (b : Basin) : onlyVolatile s (setBasin n b t) := h
theorem onlyVolatile_setRowPort (h : onlyVolatile s t) (n r : Nat) (v : RowPort) : onlyVolatile s (setRowPort n r v t) := h
theorem onlyVolatile_withRegisters (h : onlyVolatile s t) (l : Tab LaneReg) (g : Tab Tag) (m : Tab Word) :
    onlyVolatile s (withFab (fun f => { f with lanes := l, tagRegs := g, spines := m }) t) := h

theorem onlyVolatile_onlyFab (h : onlyVolatile s t) : onlyFab s t := by
  unfold onlyVolatile at h; unfold onlyFab; rw [← h]
theorem onlyVolatile_stored (h : onlyVolatile s t) :
    t.fab.planes = s.fab.planes ∧ t.fab.xs = s.fab.xs ∧ t.fab.ys = s.fab.ys ∧ t.fab.flags = s.fab.flags ∧ t.fab.banks = s.fab.banks := by
  unfold onlyVolatile at h; rw [← h]; exact ⟨rfl, rfl, rfl, rfl, rfl⟩

/-- A map over the crystals of a basin writes the crystals' table alone. -/
theorem mapCrystals_eq (n : Nat) (f : Crystal → Crystal) (s : State) :
    ∃ l, mapCrystals n f s = withFab (fun g => { g with crystals := l }) s :=
  List.foldlRecOn (motive := fun t => ∃ l, t = withFab (fun g => { g with crystals := l }) s) _ _ ⟨s.fab.crystals, rfl⟩
    fun t ht p _ => by obtain ⟨l, rfl⟩ := ht; exact ⟨tput .zero p.1 (f p.2) l, rfl⟩

theorem onlyVolatile_mapCrystals (h : onlyVolatile s t) (n : Nat) (f : Crystal → Crystal) : onlyVolatile s (mapCrystals n f t) := by
  obtain ⟨l, e⟩ := mapCrystals_eq n f t
  rw [e]; exact h
theorem onlyVolatile_noTags (h : onlyVolatile s t) (n : Nat) : onlyVolatile s (noTags n t) := by
  unfold noTags; extract_lets b i j v w
  have hw : onlyVolatile s w := onlyVolatile_mapCrystals (onlyVolatile_setBasin h n _) n _
  exact onlyVolatile_withRegisters hw _ _ _
theorem onlyVolatile_coldFabric (h : onlyVolatile s t) (n : Nat) : onlyVolatile s (coldFabric n t) := by
  unfold coldFabric; extract_lets v w y z
  have hy : onlyVolatile s y := onlyVolatile_withRegisters (onlyVolatile_mapCrystals (onlyVolatile_noTags h n) n _) _ _ _
  have hz : onlyVolatile s z := List.foldlRecOn (motive := onlyVolatile s) _ _ hy fun _ hu r _ => onlyVolatile_setRowPort hu n r _
  exact onlyVolatile_setBasin hz n _
theorem onlyVolatile_wakeBasin (n : Nat) (s : State) : onlyVolatile s (wakeBasin n s) := by
  unfold wakeBasin; extract_lets v
  have hv : onlyVolatile s v := by
    unfold v; split
    · exact onlyVolatile_coldFabric (onlyVolatile_refl s) n
    · exact onlyVolatile_refl s
  exact onlyVolatile_setBasin hv n _

-- What a wake from DEEP clears

/-- A key without an entry reads as the default. -/
theorem tget_of_not_mem {α : Type} (d : α) {k : Nat} {l : Tab α} (h : ∀ p ∈ l, p.1 ≠ k) : tget d k l = d := by
  induction l with
  | nil => rfl
  | cons p l ih =>
    rw [tget, if_neg (h p (by simp)).symm]
    exact ih fun q hq => h q (by simp [hq])

/-- What a map brings about for every crystal, and the default crystal has, every crystal of the basin has after it. -/
theorem crystalOf_mapCrystals {P : Crystal → Prop} {f : Crystal → Crystal} (hf : ∀ c, P (f c)) (h0 : P .zero) {k : Nat} (hk : k / 512 = n)
    (s : State) : P (crystalOf (mapCrystals n f s) k) := by
  have keep : ∀ (t : State) (p : Nat × Crystal), P (crystalOf t k) → P (crystalOf (setCrystal p.1 (f p.2) t) k) := fun t p ht => by
    by_cases e : k = p.1
    · rw [e, crystalOf_setCrystal]; exact hf _
    · rwa [crystalOf_setCrystal_other e]
  unfold mapCrystals
  by_cases hm : ∃ p ∈ s.fab.crystals, p.1 = k
  · obtain ⟨p, hp, rfl⟩ := hm
    have hin : p ∈ s.fab.crystals.filter fun q => 512 * n ≤ q.1 && q.1 < 512 * n + 512 :=
      List.mem_filter.2 ⟨hp, by simp only [Bool.and_eq_true, decide_eq_true_eq]; omega⟩
    exact foldl_of_hit (P := fun t => P (crystalOf t p.1)) hin (fun t => by rw [crystalOf_setCrystal]; exact hf _)
      (fun t q _ _ ht => keep t q ht) s
  · push Not at hm
    refine List.foldlRecOn (motive := fun t => P (crystalOf t k)) _ _ ?_ fun t ht q _ => keep t q ht
    show P (tget .zero k s.fab.crystals)
    rwa [tget_of_not_mem _ hm]

theorem crystalOf_setBasin (n : Nat) (b : Basin) (s : State) (k : Nat) : crystalOf (setBasin n b s) k = crystalOf s k := rfl
theorem crystalOf_setRowPort (n r : Nat) (v : RowPort) (s : State) (k : Nat) : crystalOf (setRowPort n r v s) k = crystalOf s k := rfl

/-- OQ and OUT are 0 and no live copy is held: a crystal after DEEP (R119). -/
def coldCrystal (c : Crystal) : Prop := c.oq = 0 ∧ c.out = 0 ∧ c.live = none

theorem coldCrystal_coldFabric {x : Nat} (hx : x < 512) (s : State) : coldCrystal (crystalOf (coldFabric n s) (xk n x)) := by
  unfold coldFabric; extract_lets v w y z
  have hw : coldCrystal (crystalOf w (xk n x)) := crystalOf_mapCrystals (fun _ => ⟨rfl, rfl, rfl⟩) ⟨rfl, rfl, rfl⟩
    (by unfold xk; omega) v
  have hy : coldCrystal (crystalOf y (xk n x)) := hw
  rw [crystalOf_setBasin]
  exact List.foldlRecOn (motive := fun t => coldCrystal (crystalOf t (xk n x))) _ _ hy fun _ ht _ _ => by rwa [crystalOf_setRowPort]

theorem coldCrystal_wakeBasin (hd : (basinOf s n).power = .deep) {x : Nat} (hx : x < 512) :
    coldCrystal (crystalOf (wakeBasin n s) (xk n x)) := by
  unfold wakeBasin; rw [if_pos hd, crystalOf_setBasin]
  exact coldCrystal_coldFabric hx s

theorem wakeBasin_runs (n : Nat) (s : State) : (basinOf (wakeBasin n s) n).power = .run ∧ (basinOf (wakeBasin n s) n).waking = false := by
  unfold wakeBasin; dsimp only; rw [basinOf_setBasin]; exact ⟨rfl, rfl⟩

end Sys2Proof.Machine
end

section
/-! Blanking a newly mapped basin (R111, R144): its planes and frame plane enter BLANK, and of the other basins and of the registers only
IRQ_STAT bits change. -/

namespace Sys2Proof.Machine

variable {s t u : State} {n m p : Nat}

-- What is left alone

/-- IRQ_STAT of a page (R487). -/
def irqStat (a : Nat) : Bool := decide (a % 0x1000 = 0x14)
theorem irqStat_irqA (q : Nat) : irqStat (irqA q) = true := by simp [irqStat, irqA]
theorem irqStat_mapReg {k : Nat} (hk : k < 8) : irqStat (0x7200 + 4 * k) = false := by
  simp only [irqStat, decide_eq_false_iff_not]; omega

/-- Nothing of the other basins and their planes differs, nor any register but IRQ_STAT of the pages. -/
def onlyBasin (n : Nat) (s t : State) : Prop :=
  regsWithin irqStat s t
    ∧ ∀ m, m ≠ n → basinOf t m = basinOf s m ∧ ∀ p, p < 16 → planeInfo t m p = planeInfo s m p

theorem onlyBasin_refl (n : Nat) (s : State) : onlyBasin n s s := ⟨regsWithin_refl _ s, fun _ _ => ⟨rfl, fun _ _ => rfl⟩⟩
theorem onlyBasin_trans (h : onlyBasin n s t) (k : onlyBasin n t u) : onlyBasin n s u := by
  obtain ⟨hregs, hother⟩ := h
  obtain ⟨kregs, kother⟩ := k
  refine ⟨regsWithin_trans hregs kregs, fun m hm => ?_⟩
  obtain ⟨hbasin, hplanes⟩ := hother m hm
  obtain ⟨kbasin, kplanes⟩ := kother m hm
  exact ⟨kbasin.trans hbasin, fun p hp => (kplanes p hp).trans (hplanes p hp)⟩
theorem onlyBasin_regs (h : onlyBasin n s t) : regsWithin irqStat s t := h.1

theorem basinOf_setBasin_other (h : m ≠ n) (b : Basin) (s : State) : basinOf (setBasin n b s) m = basinOf s m := tget_tput_other _ _ h _ _

theorem onlyBasin_setBasin (n : Nat) (b : Basin) (s : State) : onlyBasin n s (setBasin n b s) :=
  ⟨regsWithin_refl _ s, fun _ hm => ⟨basinOf_setBasin_other hm b s, fun _ _ => rfl⟩⟩

/-- A change of the fabric's other tables. -/
theorem onlyBasin_of_tables (hr : t.regs = s.regs) (hb : t.fab.basins = s.fab.basins) (hp : t.fab.planeSt = s.fab.planeSt) : onlyBasin n s t :=
  ⟨regsWithin_of_regs (regsWithin_refl _ s) hr, fun m _ => ⟨by unfold basinOf; rw [hb], fun p _ => by unfold planeInfo; rw [hp]⟩⟩

theorem onlyBasin_setIrq (n : Nat) (s : State) : onlyBasin n s (setIrq (pgBSN n) 3 s) :=
  ⟨regsWithin_setIrq (regsWithin_refl _ s) (irqStat_irqA _) 3,
    fun m _ => ⟨basinOf_congr (setIrq_fab s _ _) m, fun p _ => by unfold planeInfo; rw [setIrq_fab]⟩⟩

theorem onlyBasin_setPlaneInfo (n p : Nat) (hp : p < 16) (v : PlaneInfo) (s : State) : onlyBasin n s (setPlaneInfo n p v s) := by
  have hw : onlyBasin n s (withFab (fun f => { f with planeSt := tput .zero (16 * n + p) v f.planeSt }) s) :=
    ⟨regsWithin_refl _ s, fun m hm => ⟨rfl, fun q hq => tget_tput_other _ _ (by omega) _ _⟩⟩
  unfold setPlaneInfo; dsimp only; split
  · exact onlyBasin_trans hw (onlyBasin_setIrq n _)
  · exact hw
theorem onlyBasin_setFrameInfo (n : Nat) (v : PlaneInfo) (s : State) : onlyBasin n s (setFrameInfo n v s) := by
  unfold setFrameInfo; dsimp only; split
  · exact onlyBasin_trans (onlyBasin_setBasin n _ s) (onlyBasin_setIrq n _)
  · exact onlyBasin_setBasin n _ s
theorem onlyBasin_mapCrystals (n : Nat) (f : Crystal → Crystal) (s : State) : onlyBasin n s (mapCrystals n f s) := by
  obtain ⟨l, e⟩ := mapCrystals_eq n f s
  rw [e]; exact onlyBasin_of_tables rfl rfl rfl
theorem onlyBasin_purge (n p : Nat) (s : State) : onlyBasin n s (purge n p s) := by
  unfold purge; extract_lets b i j v w
  exact onlyBasin_trans (onlyBasin_setBasin n _ s) (onlyBasin_trans (onlyBasin_mapCrystals n _ v) (onlyBasin_of_tables rfl rfl rfl))
theorem onlyBasin_noTags (n : Nat) (s : State) : onlyBasin n s (noTags n s) := by
  unfold noTags; extract_lets b i j v w
  exact onlyBasin_trans (onlyBasin_setBasin n _ s) (onlyBasin_trans (onlyBasin_mapCrystals n _ v) (onlyBasin_of_tables rfl rfl rfl))
theorem onlyBasin_clearPlane (n p : Nat) (s : State) : onlyBasin n s (clearPlane n p s) := onlyBasin_of_tables rfl rfl rfl
theorem onlyBasin_clearFrame (n : Nat) (s : State) : onlyBasin n s (clearFrame n s) := onlyBasin_of_tables rfl rfl rfl

-- What becomes BLANK

theorem mapCrystals_planeSt (n : Nat) (f : Crystal → Crystal) (s : State) : (mapCrystals n f s).fab.planeSt = s.fab.planeSt := by
  obtain ⟨l, e⟩ := mapCrystals_eq n f s
  rw [e]; rfl
theorem purge_planeSt (n p : Nat) (s : State) : (purge n p s).fab.planeSt = s.fab.planeSt := mapCrystals_planeSt n _ _
theorem noTags_planeSt (n : Nat) (s : State) : (noTags n s).fab.planeSt = s.fab.planeSt := mapCrystals_planeSt n _ _
theorem setFrameInfo_planeSt (n : Nat) (v : PlaneInfo) (s : State) : (setFrameInfo n v s).fab.planeSt = s.fab.planeSt := by
  unfold setFrameInfo; dsimp only; split
  · rw [setIrq_fab]; rfl
  · rfl

theorem planeInfo_congr (h : t.fab.planeSt = s.fab.planeSt) (n p : Nat) : planeInfo t n p = planeInfo s n p := by unfold planeInfo; rw [h]

theorem planeInfo_clearPlane (m r : Nat) (s : State) (n p : Nat) : planeInfo (clearPlane m r s) n p = planeInfo s n p := rfl
theorem planeInfo_setBasin (m : Nat) (b : Basin) (s : State) (n p : Nat) : planeInfo (setBasin m b s) n p = planeInfo s n p := rfl

/-- The state of a plane of the basin after a write of one (R108). -/
theorem planeInfo_setPlaneInfo (n p q : Nat) (v : PlaneInfo) (s : State) :
    planeInfo (setPlaneInfo n p v s) n q = if q = p then v else planeInfo s n q := by
  have hfab : (setPlaneInfo n p v s).fab = { s.fab with planeSt := tput .zero (16 * n + p) v s.fab.planeSt } := by
    unfold setPlaneInfo; dsimp only; split
    · rw [setIrq_fab]; rfl
    · rfl
  unfold planeInfo; rw [hfab, tget_tput]
  simp

theorem basinOf_setFrameInfo (n : Nat) (v : PlaneInfo) (s : State) : basinOf (setFrameInfo n v s) n = { basinOf s n with frame := v } := by
  have hset := basinOf_setBasin n { basinOf s n with frame := v } s
  unfold setFrameInfo; dsimp only; split
  · rw [basinOf_congr (setIrq_fab _ _ _), hset]
  · exact hset

/-- One plane of a basin is purged, cleared and enters BLANK (R111). -/
def blankPlane (n p : Nat) (s : State) : State := setPlaneInfo n p .zero (clearPlane n p (purge n p s))
/-- Every plane of a basin enters BLANK (R144). -/
def blankPlanes (n : Nat) (s : State) : State := (List.range 16).foldl (fun t p => blankPlane n p t) s
/-- The frame plane of a basin is cleared and enters BLANK (R112, R144). -/
def blankFrame (n : Nat) (s : State) : State := setFrameInfo n .zero (clearFrame n (noTags n s))

theorem blankBasin_eq (n : Nat) (s : State) : blankBasin n s =
    setBasin n { basinOf (blankFrame n (blankPlanes n s)) n with mapClear := true } (blankFrame n (blankPlanes n s)) := rfl

theorem planeInfo_blankPlane (n p q : Nat) (s : State) : planeInfo (blankPlane n p s) n q = if q = p then .zero else planeInfo s n q := by
  unfold blankPlane
  rw [planeInfo_setPlaneInfo, planeInfo_clearPlane, planeInfo_congr (purge_planeSt n p s)]
theorem planeInfo_blankPlanes (hp : p < 16) (n : Nat) (s : State) : planeInfo (blankPlanes n s) n p = .zero := by
  unfold blankPlanes
  exact foldl_of_hit (P := fun t => planeInfo t n p = .zero) (List.mem_range.2 hp) (fun t => by rw [planeInfo_blankPlane, if_pos rfl])
    (fun t q _ hq ht => by rw [planeInfo_blankPlane, if_neg hq.symm, ht]) s
theorem planeInfo_blankFrame (n p : Nat) (s : State) : planeInfo (blankFrame n s) n p = planeInfo s n p := by
  unfold blankFrame
  refine planeInfo_congr ?_ n p
  rw [setFrameInfo_planeSt]; exact noTags_planeSt n s
theorem frame_blankFrame (n : Nat) (s : State) : (basinOf (blankFrame n s) n).frame = .zero := by
  unfold blankFrame; rw [basinOf_setFrameInfo]

theorem onlyBasin_blankPlane (hp : p < 16) (n : Nat) (s : State) : onlyBasin n s (blankPlane n p s) :=
  onlyBasin_trans (onlyBasin_purge n p s) (onlyBasin_trans (onlyBasin_clearPlane n p _) (onlyBasin_setPlaneInfo n p hp _ _))
theorem onlyBasin_blankPlanes (n : Nat) (s : State) : onlyBasin n s (blankPlanes n s) :=
  List.foldlRecOn (motive := onlyBasin n s) _ _ (onlyBasin_refl n s) fun t ht _ hp =>
    onlyBasin_trans ht (onlyBasin_blankPlane (List.mem_range.1 hp) n t)
theorem onlyBasin_blankFrame (n : Nat) (s : State) : onlyBasin n s (blankFrame n s) :=
  onlyBasin_trans (onlyBasin_noTags n s) (onlyBasin_trans (onlyBasin_clearFrame n _) (onlyBasin_setFrameInfo n _ _))
theorem onlyBasin_blankBasin (n : Nat) (s : State) : onlyBasin n s (blankBasin n s) := by
  rw [blankBasin_eq]
  exact onlyBasin_trans (onlyBasin_blankPlanes n s) (onlyBasin_trans (onlyBasin_blankFrame n _) (onlyBasin_setBasin n _ _))

/-- Every plane and the frame plane of a basin are BLANK, and the clearing of its storage is to come. -/
def basinBlank (n : Nat) (s : State) : Prop :=
  (basinOf s n).mapClear = true ∧ (basinOf s n).frame.st = .blank ∧ ∀ p, p < 16 → (planeInfo s n p).st = .blank

theorem basinBlank_blankBasin (n : Nat) (s : State) : basinBlank n (blankBasin n s) := by
  unfold basinBlank
  rw [blankBasin_eq, basinOf_setBasin]
  refine ⟨rfl, ?_, fun p hp => ?_⟩
  · dsimp only; rw [frame_blankFrame]; rfl
  · rw [planeInfo_setBasin, planeInfo_blankFrame, planeInfo_blankPlanes hp]; rfl

/-- A basin that is blank stays so where another is blanked. -/
theorem basinBlank_of_onlyBasin (h : basinBlank n s) (hm : n ≠ m) (hst : onlyBasin m s t) : basinBlank n t := by
  obtain ⟨hclear, hframe, hplanes⟩ := h
  obtain ⟨-, hother⟩ := hst
  obtain ⟨hbasin, hinfo⟩ := hother n hm
  unfold basinBlank; rw [hbasin]
  exact ⟨hclear, hframe, fun p hp => by rw [hinfo p hp]; exact hplanes p hp⟩

-- The write of the map

/-- The new basins of a list of map changes are blanked one after another (R144). -/
def blankNew (ch : List (Nat × Nat × Nat)) (s : State) : State := ch.foldl (fun t e => blankBasin e.2.2 t) s

theorem basinBlank_blankNew {ch : List (Nat × Nat × Nat)} {e : Nat × Nat × Nat} (he : e ∈ ch) (s : State) :
    basinBlank e.2.2 (blankNew ch s) := by
  unfold blankNew
  refine foldl_of_hit (P := basinBlank e.2.2) he (fun t => ?_) (fun t i _ _ ht => ?_) s
  · exact basinBlank_blankBasin e.2.2 t
  · by_cases hi : e.2.2 = i.2.2
    · rw [hi]; exact basinBlank_blankBasin i.2.2 t
    · exact basinBlank_of_onlyBasin ht hi (onlyBasin_blankBasin i.2.2 t)

theorem regsWithin_blankNew (ch : List (Nat × Nat × Nat)) (s : State) : regsWithin irqStat s (blankNew ch s) :=
  regsWithin_foldl ch (fun t e _ => onlyBasin_regs (onlyBasin_blankBasin e.2.2 t)) (regsWithin_refl _ s)

/-- A write that R144 refuses nowhere puts the map in force and blanks the new basins. -/
theorem basinMapWrite_legal {k : Nat} {v : Reg} (hr : reaches s pgCFG = true) (hg : gated s pgCFG = false) (hch : mapChanges s k v ≠ [])
    (hle : ∀ i, i < 4 → fld v (8 * i) 6 ≤ 33) (hbusy : ∀ e ∈ mapChanges s k v, mapBusy s e.2.1 = false ∧ mapBusy s e.2.2 = false)
    (hinj : ∀ l m, l < m → m < 32 → (if l / 4 = k then fld v (8 * (l % 4)) 6 else physOf s l)
      ≠ (if m / 4 = k then fld v (8 * (m % 4)) 6 else physOf s m)) :
    basinMapWrite k v s = blankNew (mapChanges s k v) (wr (0x7200 + 4 * k) (v &&& 0x3F3F3F3F) s) := by
  have small : ((List.range 4).any fun i => decide (33 < fld v (8 * i) 6)) = false := by
    simpa only [List.any_eq_false, List.mem_range, decide_eq_true_eq, not_lt] using hle
  have idle : ((mapChanges s k v).any fun e => mapBusy s e.2.1 || mapBusy s e.2.2) = false := by
    simpa only [List.any_eq_false, Bool.or_eq_true, not_or, Bool.not_eq_true] using hbusy
  have single : ((List.range 32).any fun l => (List.range 32).any fun m => decide (l < m)
      && decide ((if l / 4 = k then fld v (8 * (l % 4)) 6 else physOf s l)
        = if m / 4 = k then fld v (8 * (m % 4)) 6 else physOf s m)) = false := by
    simp only [List.any_eq_false, List.mem_range, Bool.and_eq_true, decide_eq_true_eq, not_and, Bool.not_eq_true]
    exact fun l _ m hm hlm => hinj l m hlm hm
  unfold basinMapWrite; rw [guarded_open hr hg]
  dsimp only
  rw [if_neg hch, small, idle, single]; rfl

/-- The fields of a map register survive the clearing of its reserved bits. -/
theorem fld_mapMask (v : Reg) {i : Nat} (hi : i < 4) : fld (v &&& 0x3F3F3F3F) (8 * i) 6 = fld v (8 * i) 6 := by
  have mask : ∀ i, i < 4 → ∀ j, j < 6 → Nat.testBit 0x3F3F3F3F (8 * i + j) = true := by decide
  apply Nat.eq_of_testBit_eq; intro j
  rw [fld_testBit, fld_testBit, BitVec.toNat_and, Nat.testBit_and]
  by_cases hj : j < 6
  · simp [mask i hi j hj]
  · simp [hj]

/-- The map register reads as written once the new basins are blanked (R144). -/
theorem physOf_blankNew {k i : Nat} (hk : k < 8) (hi : i < 4) (v : Reg) (ch : List (Nat × Nat × Nat)) (s : State) :
    physOf (blankNew ch (wr (0x7200 + 4 * k) (v &&& 0x3F3F3F3F) s)) (4 * k + i) = fld v (8 * i) 6 := by
  have hreg : (4 * k + i) / 4 = k := by omega
  have hfield : (4 * k + i) % 4 = i := by omega
  unfold physOf rdF
  rw [hreg, hfield, regsWithin_blankNew ch _ _ (irqStat_mapReg hk), rd_wr_same, fld_mapMask v hi]

/-- Settles O18: the power commands write their basin alone, a wake clears what DEEP loses, and a map write blanks each new basin, which the
blanking of the others leaves blank. -/
theorem basinPowerAndMap : Obligations.BasinPowerAndMap := by
  unfold Obligations.BasinPowerAndMap
  intro n s
  refine ⟨fun hr hi => ⟨_, execDozeEntry_idle hr hi, ?_, setBasin_onlyBasins n _ s⟩,
    fun hd hw he => ⟨_, execDeepEntry_dozing hd hw he, ?_, setBasin_onlyBasins n _ s⟩,
    fun hd hw hc hh => ⟨_, execDeepExit_wanted hd hw hc hh, ?_, ?_, setBasin_onlyBasins n _ s⟩,
    fun hw => ⟨_, execBasinWakeDone_waking hw, ?_⟩,
    ⟨_, rfl, ?_, setBasin_onlyBasins n _ s⟩,
    fun k v hr hg hch hle hbusy hinj => ⟨_, congrArg Host.Outcome.next (basinMapWrite_legal hr hg hch hle hbusy hinj), ?_, ?_⟩⟩
  · rw [basinOf_setBasin]
  · rw [basinOf_setBasin]
  · rw [basinOf_setBasin]
  · rw [basinOf_setBasin]; exact hd
  · have hkept := onlyVolatile_wakeBasin n s
    obtain ⟨hrun, hwaking⟩ := wakeBasin_runs n s
    obtain ⟨hplanes, hxs, hys, hflags, hbanks⟩ := onlyVolatile_stored hkept
    exact ⟨hrun, hwaking, fun hd x hx => coldCrystal_wakeBasin hd hx, hplanes, hxs, hys, hflags, hbanks, onlyVolatile_onlyFab hkept⟩
  · rw [basinOf_setBasin]
  · exact fun i hi => physOf_blankNew k.isLt hi v _ s
  · exact fun e he => basinBlank_blankNew he _

end Sys2Proof.Machine
end

section
/-! What error logging touches (R463, R486), and what the work of one basin touches: `onlyWork` and the basin's own places. -/

namespace Sys2Proof.Machine

variable {s t u : State} {n : Nat}

-- Error logging

/-- Nothing differs but what error logging and interrupts touch: registers, the log rings and trackers, free values, messages sent. -/
def onlyLogs (s t : State) : Prop :=
  { t with free := s.free, outbox := s.outbox, regs := s.regs, ecc := s.ecc, hst := s.hst } = s

theorem onlyLogs_refl (s : State) : onlyLogs s s := rfl
theorem onlyLogs_fab (h : onlyLogs s t) : t.fab = s.fab := by unfold onlyLogs at h; rw [← h]
theorem onlyLogs_slu (h : onlyLogs s t) : t.slu = s.slu := by unfold onlyLogs at h; rw [← h]
theorem onlyLogs_enr (h : onlyLogs s t) : t.enr = s.enr := by unfold onlyLogs at h; rw [← h]
theorem onlyLogs_mem (h : onlyLogs s t) : t.mem = s.mem := by unfold onlyLogs at h; rw [← h]

theorem onlyLogs_foldl {β : Type} {f : State → β → State} (l : List β) (hf : ∀ t, ∀ b ∈ l, onlyLogs s t → onlyLogs s (f t b))
    (h : onlyLogs s t) : onlyLogs s (l.foldl f t) :=
  l.foldlRecOn f h fun v hv b hb => hf v b hb hv

section
variable (h : onlyLogs s t)
include h

theorem onlyLogs_wr (a : Nat) (v : Reg) : onlyLogs s (wr a v t) := h
theorem onlyLogs_wrF (a lo k x : Nat) : onlyLogs s (wrF a lo k x t) := h
theorem onlyLogs_incF (a lo k x : Nat) : onlyLogs s (incF a lo k x t) := h
theorem onlyLogs_withEcc (f : Ecc → Ecc) : onlyLogs s (withEcc f t) := h
theorem onlyLogs_setIrq (p b : Nat) : onlyLogs s (setIrq p b t) := by
  have hi : onlyHost t (setIrq p b t) := onlyHost_setIrq (onlyHost_refl t) p b
  unfold onlyLogs onlyHost at *
  rw [← hi] at h; exact h
theorem onlyLogs_traceOut (src : Nat) (v : BitVec 192) : onlyLogs s (traceOut src v t) := by
  unfold traceOut; split
  · dsimp only; split <;> exact h
  · exact h
theorem onlyLogs_ringEntry (d : Nat) (w0 w1 : Word) : onlyLogs s (ringEntry d w0 w1 t) := by
  unfold ringEntry; dsimp only; split
  · exact onlyLogs_setIrq (onlyLogs_incF h _ _ _ _) _ _
  · exact onlyLogs_wr (onlyLogs_traceOut (onlyLogs_withEcc h fun e => { e with rings := _ }) _ _) _ _
theorem onlyLogs_chargeTrack (k e : Nat) : onlyLogs s (chargeTrack k e t).1 := by
  unfold chargeTrack; dsimp only; split
  · exact h
  · split
    · exact h
    · split <;> exact h
theorem onlyLogs_logErr (kind addr syn cause : Nat) (ue sweep : Bool) : onlyLogs s (logErr kind addr syn cause ue sweep t) := by
  have hi : ∀ (b : Bool) (k : Nat) (w : State), onlyLogs s w → onlyLogs s (if b then setIrq pgECC k w else w) := fun b k w hw => by
    cases b
    · exact hw
    · exact onlyLogs_setIrq hw _ _
  unfold logErr; dsimp only
  refine hi _ _ _ (hi _ _ _ ?_)
  have hr := onlyLogs_incF (onlyLogs_ringEntry (onlyLogs_chargeTrack h kind (trackUnit kind addr)) (logDie kind addr)
    (BitVec.ofNat 64 (cause % 2 ^ 16 + syn % 256 * 2 ^ 16 + addr % 2 ^ 40 * 2 ^ 24))
    (BitVec.ofNat 64 (fld (chargeTrack kind (trackUnit kind addr) t).1.time 4 48 + kind % 16 * 2 ^ 52 + b2n sweep * 2 ^ 61
      + b2n (chargeTrack kind (trackUnit kind addr) t).2 * 2 ^ 62 + b2n ue * 2 ^ 63))) (0xA200 + 4 * kind) (if ue then 16 else 0) 16 1
  generalize incF _ _ _ _ _ = v at hr ⊢
  split
  · exact onlyLogs_wr (onlyLogs_wr (onlyLogs_wr (onlyLogs_wr hr _ _) _ _) _ _) _ _
  · exact hr
theorem onlyLogs_rowLogOne (b r w : Nat) (d : Decoded) : onlyLogs s (rowLogOne b r w d t) := by
  have hd : onlyLogs s (logDecoded 3 (rowLogAddr b r w) 0x0903 d false t) := by
    unfold logDecoded; split
    · exact h
    · exact onlyLogs_logErr h _ _ _ _ _ _
    · exact onlyLogs_logErr h _ _ _ _ _ _
  unfold rowLogOne; dsimp only; split
  · exact onlyLogs_setIrq hd _ _
  · exact hd
/-- The errors that a row read logs (R319). -/
theorem onlyLogs_rowLog (b r : Nat) : onlyLogs s (rowLog b r t) :=
  onlyLogs_foldl _ (fun _ p _ hv => onlyLogs_rowLogOne hv b r p.1 _) h
theorem onlyLogs_logRows (b r k : Nat) : onlyLogs s (logRows b r k t) :=
  onlyLogs_foldl _ (fun _ i _ hv => onlyLogs_rowLog hv b (r + i)) h
/-- A refused request to a bank (R321). -/
theorem onlyLogs_bankRefuse (q m b r : Nat) : onlyLogs s (bankRefuse q m b r t) := by
  unfold bankRefuse; extract_lets a v w
  have hw : onlyLogs s w := by
    refine onlyLogs_incF ?_ _ _ _ _
    unfold recordFirst; split
    · exact onlyLogs_wrF h _ _ _ _
    · exact onlyLogs_wr h _ _
  split
  · exact hw
  · exact onlyLogs_setIrq hw _ _

end

-- The row ports

theorem rowPort_setRowPort_same {r : Nat} (hr : r < 4) (v : RowPort) (s : State) : rowPort (setRowPort n r v s) n r = v := by
  rw [rowPort_setRowPort hr hr, if_pos rfl]
theorem rowPort_setRowPort_other {m r q : Nat} (hr : r < 4) (hq : q < 4) (h : m ≠ n ∨ q ≠ r) (v : RowPort) (s : State) :
    rowPort (setRowPort n r v s) m q = rowPort s m q := by
  rw [rowPort_setRowPort hr hq, if_neg (by rw [Prod.mk.injEq]; omega)]
theorem rowPort_congr (h : t.fab = s.fab) (n r : Nat) : rowPort t n r = rowPort s n r := by unfold rowPort; rw [h]

-- The work of a basin

theorem workOn_of_onlyWork (h : onlyWork s t) (n : Nat) : workOn n s t := by
  have hfab := onlyWork_fab h
  obtain ⟨hstate, hregs⟩ := h
  refine ⟨?_, fun a ha _ => hregs a ha, ?_, fun k _ => basinOf_congr hfab k, fun k r _ _ => rowPort_congr hfab k r⟩
  · rw [← hstate]
  · rw [hfab]

theorem workOn_refl (n : Nat) (s : State) : workOn n s s := workOn_of_onlyWork (onlyWork_refl s) n

theorem workOn_trans (h : workOn n s t) (k : workOn n t u) : workOn n s u := by
  obtain ⟨hstate, hregs, hfab, hbasins, hrows⟩ := h
  obtain ⟨kstate, kregs, kfab, kbasins, krows⟩ := k
  refine ⟨?_, fun a ha hb => (kregs a ha hb).trans (hregs a ha hb), ?_, fun m hm => (kbasins m hm).trans (hbasins m hm),
    fun m r hm hr => (krows m r hm hr).trans (hrows m r hm hr)⟩
  · rw [← hstate, ← kstate]
  · rw [← hfab, ← kfab]

theorem workOn_onlyWork (h : workOn n s t) (k : onlyWork t u) : workOn n s u := workOn_trans h (workOn_of_onlyWork k n)

section
variable (h : workOn n s t)
include h

theorem workOn_setBasin (b : Basin) : workOn n s (setBasin n b t) :=
  workOn_trans h ⟨rfl, fun _ _ _ => rfl, rfl, fun _ hk => basinOf_setBasin_other hk b t, fun _ _ _ _ => rfl⟩
theorem workOn_setRowPort {r : Nat} (hr : r < 4) (v : RowPort) : workOn n s (setRowPort n r v t) :=
  workOn_trans h ⟨rfl, fun _ _ _ => rfl, rfl, fun _ _ => rfl, fun _ _ hk hq => rowPort_setRowPort_other hr hq (.inl hk) v t⟩
/-- The number of the next access (R159). -/
theorem workOn_withSeq (q : Nat) : workOn n s (withFab (fun f => { f with seq := q }) t) :=
  workOn_trans h ⟨rfl, fun _ _ _ => rfl, rfl, fun _ _ => rfl, fun _ _ _ _ => rfl⟩
/-- A register of the basin's own page. -/
theorem workOn_wr {a : Nat} (ha : a / 0x1000 = pgBSN n) (v : Reg) : workOn n s (wr a v t) :=
  workOn_trans h ⟨rfl, fun b _ hb => rd_wr_other t (by rintro rfl; exact hb ha) v, rfl, fun _ _ => rfl, fun _ _ _ _ => rfl⟩
/-- An interrupt of the basin's own page. -/
theorem workOn_setIrq (b : Nat) : workOn n s (setIrq (pgBSN n) b t) := by
  have ha : irqA (pgBSN n) / 0x1000 = pgBSN n := by unfold irqA; omega
  exact workOn_onlyWork (workOn_wr h ha _) (onlyWork_risen (onlyWork_refl _) _ _)

end

end Sys2Proof.Machine
end

section
/-! The intake ports (R152, R154, R155, R194) and the end of fences (R172). -/

namespace Sys2Proof.Machine

variable {s t : State} {n q : Nat} {d : Delivery} {b : Beat} {r : List Beat}

-- What a payload reads

/-- A touched bank changes the banks' table alone (R327). -/
theorem bankTouch_eq (b : Nat) (s : State) : ∃ l, bankTouch b s = { s with mem := { s.mem with banks := l } } := by
  unfold bankTouch; dsimp only; split
  · exact ⟨_, rfl⟩
  · exact ⟨_, rfl⟩
@[simp] theorem bankTouch_fab (b : Nat) (s : State) : (bankTouch b s).fab = s.fab := by
  obtain ⟨l, e⟩ := bankTouch_eq b s; rw [e]
@[simp] theorem bankTouch_slu (b : Nat) (s : State) : (bankTouch b s).slu = s.slu := by
  obtain ⟨l, e⟩ := bankTouch_eq b s; rw [e]
@[simp] theorem bankTouch_enr (b : Nat) (s : State) : (bankTouch b s).enr = s.enr := by
  obtain ⟨l, e⟩ := bankTouch_eq b s; rw [e]
@[simp] theorem bankTouch_rows (b : Nat) (s : State) : (bankTouch b s).mem.rows = s.mem.rows := by
  obtain ⟨l, e⟩ := bankTouch_eq b s; rw [e]
@[simp] theorem dieInReset_bankTouch (b d : Nat) (s : State) : dieInReset (bankTouch b s) d = dieInReset s d := by
  obtain ⟨l, e⟩ := bankTouch_eq b s; rw [e]; rfl

theorem rowData_congr (h : t.mem.rows = s.mem.rows) (b r : Nat) : rowData t b r = rowData s b r := by
  unfold rowData rowCodes; rw [h]
@[simp] theorem readBytes_bankTouch (m b r k : Nat) (s : State) : readBytes (bankTouch m s) b r k = readBytes s b r k := by
  unfold readBytes rowUe
  simp only [rowData_congr (bankTouch_rows m s)]

/-- The bytes that the first rows of a payload give. -/
theorem sum_rowBytes (k m : Nat) : ((List.range m).map fun r => min 1024 (k - 1024 * r)).sum = min k (1024 * m) := by
  induction m with
  | zero => simp
  | succ m ih => rw [List.range_succ, List.map_append, List.sum_append, ih]; simp; omega

/-- A read gives as many bytes as it asks for (R154). -/
theorem readBytes_length (s : State) (b r k : Nat) : (readBytes s b r k).1.length = k := by
  unfold readBytes; dsimp only
  rw [List.length_flatMap, List.map_map]
  simp only [Function.comp_def, toBytes_length]
  rw [sum_rowBytes]; omega

theorem payloadBeats_length (bs : List Byte) : (payloadBeats bs).length = (bs.length + 63) / 64 := by simp [payloadBeats]

-- A delivery with its payload

theorem fillDelivery_nil (hb : d.beats = []) (s : State) : fillDelivery d s = (d, s) := by
  unfold fillDelivery; rw [hb]

/-- A control item, or one without payload, is its descriptor beat alone (R152). -/
theorem fillDelivery_bare (hb : d.beats = b :: r) (h : ¬(fld b.words 4 2 = 0 ∧ 0 < fld b.words 32 13)) :
    fillDelivery d s = ({ d with beats := [⟨b.words, true, true⟩] }, s) := by
  unfold fillDelivery; rw [hb]; dsimp only
  rw [if_neg (by simpa using h)]

/-- A payload that the reset of D4 cut off is delivered as zeros (R441). -/
theorem fillDelivery_cutOff (hb : d.beats = b :: r) (h : fld b.words 4 2 = 0 ∧ 0 < fld b.words 32 13)
    (hc : dieInReset s 4 = true ∨ d.error = some 0x0201) :
    fillDelivery d s = ({ d with
      beats := ⟨b.words, true, false⟩ :: payloadBeats (List.replicate (fld b.words 32 13) 0), error := some 0x0201 }, s) := by
  unfold fillDelivery; rw [hb]; dsimp only
  rw [if_pos (by simpa using h), if_pos (by simpa using hc)]

/-- Any other payload is what its rows read, with the error of an uncorrectable codeword (R154). -/
theorem fillDelivery_read (hb : d.beats = b :: r) (h : fld b.words 4 2 = 0 ∧ 0 < fld b.words 32 13)
    (hc : ¬(dieInReset s 4 = true ∨ d.error = some 0x0201)) :
    fillDelivery d s = ({ d with
      beats := ⟨b.words, true, false⟩ :: payloadBeats (readBytes s d.bank.toNat d.row.toNat (fld b.words 32 13)).1
      error := if (readBytes s d.bank.toNat d.row.toNat (fld b.words 32 13)).2 then some 0x0903 else d.error },
      logRows d.bank.toNat d.row.toNat (fld b.words 32 13) s) := by
  unfold fillDelivery; rw [hb]; dsimp only
  rw [if_pos (by simpa using h), if_neg (by simpa using hc)]

/-- Taking the payload logs errors, and changes of the delivery its beats and its error alone. -/
theorem fillDelivery_frame (d : Delivery) (s : State) :
    onlyLogs s (fillDelivery d s).2 ∧ onlyWork s (fillDelivery d s).2 ∧ { (fillDelivery d s).1 with beats := d.beats, error := d.error } = d := by
  have same : onlyLogs s s ∧ onlyWork s s := ⟨onlyLogs_refl s, onlyWork_refl s⟩
  cases hb : d.beats with
  | nil => rw [fillDelivery_nil hb, ← hb]; exact ⟨same.1, same.2, rfl⟩
  | cons b r =>
    rw [← hb]
    by_cases h : fld b.words 4 2 = 0 ∧ 0 < fld b.words 32 13
    · by_cases hc : dieInReset s 4 = true ∨ d.error = some 0x0201
      · rw [fillDelivery_cutOff hb h hc]; exact ⟨same.1, same.2, rfl⟩
      · rw [fillDelivery_read hb h hc]; exact ⟨onlyLogs_logRows same.1 _ _ _, onlyWork_logRows same.2 _ _ _, rfl⟩
    · rw [fillDelivery_bare hb h]; exact ⟨same.1, same.2, rfl⟩

/-- One descriptor beat, and a beat for each 64 bytes of payload (R152). -/
theorem fillDelivery_beats (hb : d.beats = b :: r) (s : State) : (fillDelivery d s).1.beats.length =
    1 + (if fld b.words 4 2 = 0 then (fld b.words 32 13 + 63) / 64 else 0) := by
  by_cases h : fld b.words 4 2 = 0 ∧ 0 < fld b.words 32 13
  · rw [if_pos h.1, Nat.add_comm]
    by_cases hc : dieInReset s 4 = true ∨ d.error = some 0x0201
    · rw [fillDelivery_cutOff hb h hc, List.length_cons, payloadBeats_length, List.length_replicate]
    · rw [fillDelivery_read hb h hc, List.length_cons, payloadBeats_length, readBytes_length]
  · rw [fillDelivery_bare hb h]
    split
    · have : fld b.words 32 13 = 0 := by omega
      rw [this]; rfl
    · rfl

/-- The error of a delivery: cut off by the reset of D4, met in its rows, or as it was (R154, R441). -/
theorem fillDelivery_error (hb : d.beats = b :: r) (hk : fld b.words 4 2 = 0) (s : State) : (fillDelivery d s).1.error =
    if 0 < fld b.words 32 13 ∧ (dieInReset s 4 = true ∨ d.error = some 0x0201) then some 0x0201
      else if 0 < fld b.words 32 13 ∧ (readBytes s d.bank.toNat d.row.toNat (fld b.words 32 13)).2 = true then some 0x0903 else d.error := by
  by_cases hl : 0 < fld b.words 32 13
  · by_cases hc : dieInReset s 4 = true ∨ d.error = some 0x0201
    · rw [fillDelivery_cutOff hb ⟨hk, hl⟩ hc, if_pos ⟨hl, hc⟩]
    · rw [fillDelivery_read hb ⟨hk, hl⟩ hc, if_neg (fun e => hc (And.right e))]
      simp only [hl, true_and]
  · rw [fillDelivery_bare hb (fun e => hl e.2), if_neg (fun e => hl e.1), if_neg (fun e => hl e.1)]

theorem fillDelivery_error_control (hb : d.beats = b :: r) (hk : fld b.words 4 2 ≠ 0) (s : State) : (fillDelivery d s).1.error = d.error := by
  rw [fillDelivery_bare hb fun e => hk e.1]

-- The commands of the intake

theorem intakeOf_setIntake (b : Basin) (q : Nat) (i : Intake) : intakeOf (setIntake b q i) q = i := by
  unfold intakeOf setIntake; split <;> rfl
theorem setIntake_items (b : Basin) (q : Nat) (i : Intake) : (setIntake b q i).items = b.items := by
  unfold setIntake; split <;> rfl
theorem setIntake_mode (b : Basin) (q : Nat) (i : Intake) : (setIntake b q i).mode = b.mode := by
  unfold setIntake; split <;> rfl
theorem setIntake_fixedCtx (b : Basin) (q : Nat) (i : Intake) : (setIntake b q i).fixedCtx = b.fixedCtx := by
  unfold setIntake; split <;> rfl

/-- The state after the first delivery on its way to a port, the `i`-th on its way, has arrived there with its payload (R194). -/
def delivered (n q i : Nat) (d : Delivery) (s : State) : State :=
  let v := fillDelivery d (bankTouch d.bank.toNat s)
  let t := withSlu (fun u => { u with transit := u.transit.eraseIdx i }) v.2
  let p := intakeOf (basinOf t n) q
  setBasin n (setIntake (basinOf t n) q { p with waiting := p.waiting ++ [v.1] }) t

theorem execDescriptorBeatDelivery_awake {i : Nat} (h : nextTransit s n q = some (i, d))
    (ha : bankAwake (bankTouch d.bank.toNat s) d.bank.toNat = true) :
    exec (.descriptorBeatDelivery n q) s = .next (delivered n q i d s) := by
  change execDescriptorBeatDelivery n q s = _
  unfold execDescriptorBeatDelivery; rw [h]; dsimp only; rw [ha]; rfl

/-- A delivery leaves the transit, enters its port and touches its basin's work alone (R185, R194). -/
theorem delivered_spec (n q i : Nat) (d : Delivery) (s : State) :
    (delivered n q i d s).slu = { s.slu with transit := s.slu.transit.eraseIdx i }
      ∧ (intakeOf (basinOf (delivered n q i d s) n) q).waiting =
        (intakeOf (basinOf s n) q).waiting ++ [(fillDelivery d (bankTouch d.bank.toNat s)).1]
      ∧ (basinOf (delivered n q i d s) n).items = (basinOf s n).items ∧ workOn n s (delivered n q i d s) := by
  obtain ⟨hlogs, hwork, -⟩ := fillDelivery_frame d (bankTouch d.bank.toNat s)
  unfold delivered
  generalize fillDelivery d (bankTouch d.bank.toNat s) = v at hlogs hwork
  have hslu : v.2.slu = s.slu := (onlyLogs_slu hlogs).trans (bankTouch_slu _ s)
  have hbasin : basinOf (withSlu (fun u => { u with transit := u.transit.eraseIdx i }) v.2) n = basinOf s n :=
    basinOf_congr ((onlyLogs_fab hlogs).trans (bankTouch_fab _ s)) n
  dsimp only
  rw [basinOf_setBasin, intakeOf_setIntake, setIntake_items, hbasin]
  refine ⟨?_, rfl, rfl, ?_⟩
  · rw [← hslu]; rfl
  · exact workOn_setBasin (workOn_of_onlyWork (onlyWork_withSlu (onlyWork_trans (onlyWork_bankTouch (onlyWork_refl s) _) hwork) _) n) _

/-- The basin after it has accepted its first waiting descriptor beat (R106, R155). -/
def acceptedBasin (b : Basin) (q : Nat) (d : Delivery) (rest : List Delivery) : Basin :=
  let c := setIntake b q { waiting := rest, beat := d.beats.head?, rest := d.beats.tail, tag := some d.tag }
  { c with items := c.items ++ [flightOf q d], fixedCtx := if c.mode then c.fixedCtx else some d.tag }

theorem execDescriptorBeatAccept_ready {rest : List Delivery} (h : (intakeOf (basinOf s n) q).waiting = d :: rest)
    (hm : mayAccept s n q d = true) :
    exec (.descriptorBeatAccept n q) s = .next (setBasin n (acceptedBasin (basinOf s n) q d rest) s) := by
  change execDescriptorBeatAccept n q s = _
  unfold execDescriptorBeatAccept; dsimp only; rw [h]; dsimp only; rw [hm]; rfl

theorem execFenceComplete_done {f : Fence} {rest : List Fence} (h : fencesOf s n q = f :: rest) (hd : fenceDone s n q f = true) :
    exec (.fenceComplete n q) s = .next (setFences n q rest s) := by
  change execFenceComplete n q s = _
  unfold execFenceComplete; rw [h]; dsimp only; rw [hd]; rfl

/-- Settles O19: a delivery is filled from its rows and enters its port, an accepted one joins those in flight, a complete fence leaves. -/
theorem intakeAndFences : Obligations.IntakeAndFences := by
  unfold Obligations.IntakeAndFences
  intro n q s
  refine ⟨fun i d h ha => ?_, fun d rest h hm => ?_, fun f rest h hd => ?_⟩
  · obtain ⟨hslu, hwaiting, hitems, hwork⟩ := delivered_spec n q i d s
    obtain ⟨-, -, hkept⟩ := fillDelivery_frame d (bankTouch d.bank.toNat s)
    refine ⟨_, _, execDescriptorBeatDelivery_awake h ha, hslu, hwaiting, hkept, fun b r hb => ⟨?_, ?_, ?_⟩, hitems, hwork⟩
    · exact fillDelivery_beats hb _
    · exact fun hk => fillDelivery_error_control hb hk _
    · intro hk
      rw [fillDelivery_error hb hk, dieInReset_bankTouch, readBytes_bankTouch]
  · refine ⟨_, execDescriptorBeatAccept_ready h hm, ?_⟩
    rw [basinOf_setBasin]
    refine ⟨?_, ?_, ?_, ?_, rfl, workOn_setBasin (workOn_refl n s) _⟩
    · exact congrArg (· ++ [flightOf q d]) (setIntake_items _ q _)
    · exact intakeOf_setIntake _ q _
    · unfold acceptedBasin; dsimp only; rw [setIntake_mode, setIntake_fixedCtx]
    · unfold acceptedBasin setIntake; dsimp only; split <;> rfl
  · refine ⟨_, execFenceComplete_done h hd, tget_tput_same _ _ _ _, rfl, rfl, fun k p hp hq hne => ?_⟩
    rw [fencesOf_setFences hq hp, if_neg (by rw [Prod.mk.injEq]; omega)]

end Sys2Proof.Machine
end

section
/-! Row ports: how a command is accepted (R156 to R159, R161, R162). -/

namespace Sys2Proof.Machine

variable {s t : State} {n r k x : Nat} {w : Word}

-- Far commands of one cycle take numbers in the order of the ports

/-- What a command keeps while it waits: its kind, fault, word, data, lines done and mark of a soft reset. -/
def cmdShape (d : RowCmd) : BitVec 2 × Option (BitVec 16) × Word × BitVec 8192 × Nat × Bool :=
  (d.kind, d.fault, d.word, d.data, d.done, d.reset)

/-- The waiting commands of a basin's row ports but `r` may have other numbers; nothing else differs (R161). -/
def renumbered (n r : Nat) (s t : State) : Prop :=
  (∃ l, t = withFab (fun f => { f with rows := l }) s) ∧ rowPort t n r = rowPort s n r
    ∧ (∀ q, q < 4 → (rowPort t n q).stage = (rowPort s n q).stage
      ∧ (rowPort t n q).cmds.map cmdShape = (rowPort s n q).cmds.map cmdShape)
    ∧ ∀ m q, m ≠ n → q < 4 → rowPort t m q = rowPort s m q

theorem renumbered_refl (n r : Nat) (s : State) : renumbered n r s s := ⟨⟨_, rfl⟩, rfl, fun _ _ => ⟨rfl, rfl⟩, fun _ _ _ _ => rfl⟩

/-- The last command of another port takes a new number. -/
theorem renumbered_last {q : Nat} {c : RowCmd} (h : renumbered n r s t) (hr : r < q) (hq : q < 4)
    (hc : (rowPort t n q).cmds.getLast? = some c) (a : Nat) :
    renumbered n r s (setRowPort n q { rowPort t n q with cmds := (rowPort t n q).cmds.dropLast ++ [{ c with seq := a }] } t) := by
  obtain ⟨⟨l, rfl⟩, hown, hports, hother⟩ := h
  refine ⟨⟨_, rfl⟩, ?_, fun p hp => ?_, fun m p hm hp => ?_⟩
  · rw [rowPort_setRowPort_other hq (by omega) (.inr (by omega)), hown]
  · rw [rowPort_setRowPort hq hp]
    split
    · next e =>
      obtain ⟨-, rfl⟩ := Prod.mk.inj e
      obtain ⟨hstage, hcmds⟩ := hports p hp
      refine ⟨hstage, ?_⟩
      rw [← hcmds, ← List.dropLast_append_getLast? c hc]
      simp [cmdShape]
    · exact hports p hp
  · rw [rowPort_setRowPort_other hq hp (.inl hm)]
    exact hother m p hm hp

theorem renumbered_farSeq (n r : Nat) (s : State) : renumbered n r s (farSeq n r s).2 := by
  unfold farSeq
  refine List.foldlRecOn (motive := fun a : Nat × State => renumbered n r s a.2) _ _ (renumbered_refl n r s) fun a ha q hq => ?_
  dsimp only; split
  · next c hc =>
    split
    · next hmove =>
      have hrq : r < q := by simp at hmove; omega
      exact renumbered_last ha hrq (by simp at hq; omega) hc a.1
    · exact ha
  · exact ha

-- What acceptance finds, and what it asks of the bank

theorem acceptFault_withRows (l : Tab RowPort) (s : State) (n k : Nat) (w : Word) :
    acceptFault (withFab (fun f => { f with rows := l }) s) n k w = acceptFault s n k w := rfl

/-- A row command asks its bank: a refused one is recorded there (R321), an accepted one ends its retention (R327). -/
def askBank (n k : Nat) (w : Word) (f : Option (BitVec 16)) (s : State) : State :=
  if k < 2 then
    if f = some 0x0901 then bankRefuse 1 ((logicalOf s n).getD 0) (cmdBank w) (cmdRow w) s
    else if f.isNone then bankTouch (cmdBank w) s else s
  else s

theorem askBank_frame (n k : Nat) (w : Word) (f : Option (BitVec 16)) (s : State) :
    onlyWork s (askBank n k w f s) ∧ (askBank n k w f s).mem.rows = s.mem.rows ∧ (askBank n k w f s).slu = s.slu
      ∧ (askBank n k w f s).enr = s.enr := by
  have same : onlyWork s s ∧ s.mem.rows = s.mem.rows ∧ s.slu = s.slu ∧ s.enr = s.enr := ⟨onlyWork_refl s, rfl, rfl, rfl⟩
  unfold askBank; split
  · split
    · have hlogs := onlyLogs_bankRefuse (onlyLogs_refl s) 1 ((logicalOf s n).getD 0) (cmdBank w) (cmdRow w)
      exact ⟨onlyWork_bankRefuse (onlyWork_refl s) _ _ _ _, congrArg MemDie.rows (onlyLogs_mem hlogs), onlyLogs_slu hlogs, onlyLogs_enr hlogs⟩
    · split
      · exact ⟨onlyWork_bankTouch (onlyWork_refl s) _, bankTouch_rows _ s, bankTouch_slu _ s, bankTouch_enr _ s⟩
      · exact same
  · exact same

-- Acceptance

/-- A row port has accepted a command of kind `k` and word `w`: it is the last of its port, with the stage as it stood and what acceptance
found; the other commands, the stages and the stored rows are as before (R157 to R159, R162). -/
def rowAccepted (n r k : Nat) (w : Word) (s t : State) : Prop := ∃ c : RowCmd,
  (∀ q, q < 4 → (rowPort t n q).cmds.map cmdShape = ((rowPort s n q).cmds ++ if q = r then [c] else []).map cmdShape)
    ∧ c.kind.toNat = k ∧ c.word = w ∧ c.data = (rowPort s n r).stage ∧ c.done = 0 ∧ c.reset = false
    ∧ c.failed = none ∧ c.fault = acceptFault s n k w
    ∧ (rowPort t n r).taken = some (rowPred s n r) ∧ (∀ q, q < 4 → (rowPort t n q).stage = (rowPort s n q).stage)
    ∧ basinOf t n = basinOf s n ∧ t.mem.rows = s.mem.rows ∧ t.slu = s.slu ∧ t.enr = s.enr ∧ workOn n s t

theorem workOn_of_renumbered (h : renumbered n r s t) : workOn n s t := by
  obtain ⟨⟨l, rfl⟩, -, -, hother⟩ := h
  exact ⟨rfl, fun _ _ _ => rfl, rfl, fun _ _ => rfl, hother⟩

/-- A command that enters its port is accepted: its number, the marks of races and what the bank is asked are no part of that. -/
theorem rowAccepted_enterCmd (hr : r < 4) (hk : k < 4) (w : Word) (s : State) : rowAccepted n r k w s (enterCmd n r k w s) := by
  unfold enterCmd
  extract_lets p next a seq s1 f m clash mine cmd pred s2 s3
  have hnum : renumbered n r s s1 := by
    unfold s1 a; split
    · exact renumbered_refl n r s
    · exact renumbered_farSeq n r s
  have hwork := workOn_of_renumbered hnum
  obtain ⟨⟨l, hl⟩, hown, hports, -⟩ := hnum
  have hf : f = acceptFault s n k w := by unfold f; rw [hl, acceptFault_withRows]
  have hp : ∀ q, q < 4 → rowPort s3 n q = if (n, q) = (n, r) then
      { p with cmds := (p.cmds.map fun c => { c with race := c.race ||| clash c }) ++ [cmd], err := p.err && !p.cmds.isEmpty, taken := some pred }
      else rowPort s1 n q := fun q hq => rowPort_setRowPort hr hq _ s2
  have hrows : s3.mem.rows = s.mem.rows ∧ s3.slu = s.slu ∧ s3.enr = s.enr ∧ basinOf s3 n = basinOf s n := by
    unfold s3 s2; rw [hl]; exact ⟨rfl, rfl, rfl, rfl⟩
  obtain ⟨h3rows, h3slu, h3enr, h3basin⟩ := hrows
  obtain ⟨hask, harows, haslu, haenr⟩ := askBank_frame n k w f s3
  have hasked := rowPort_congr (onlyWork_fab hask) n
  change rowAccepted n r k w s (askBank n k w f s3)
  refine ⟨cmd, fun q hq => ?_, Nat.mod_eq_of_lt hk, rfl, rfl, rfl, rfl, rfl, hf, ?_, fun q hq => ?_,
    (basinOf_congr (onlyWork_fab hask) n).trans h3basin, harows.trans h3rows, haslu.trans h3slu, haenr.trans h3enr, ?_⟩
  · rw [hasked, hp q hq]
    by_cases hqr : q = r
    · subst hqr
      rw [if_pos rfl, if_pos rfl]
      simp [cmdShape, p, Function.comp_def]
    · rw [if_neg (by simpa using hqr), if_neg hqr, List.append_nil]
      exact (hports q hq).2
  · rw [hasked, hp r hr, if_pos rfl]
    unfold pred rowPred; rw [hown]
  · rw [hasked, hp q hq]
    split
    · next e => obtain ⟨-, rfl⟩ := Prod.mk.inj e; rfl
    · exact (hports q hq).1
  · exact workOn_onlyWork (workOn_setRowPort (workOn_withSeq hwork _) hr _) hask

/-- The command of the one issuer of a port that is neither taken nor FULL enters the port (R156, R159). -/
theorem issueRow_single (hs : basinStill s n = false) (ht : (rowPort s n r).taken = none) (hl : (rowPort s n r).cmds.length < 4)
    (hi : rowIssuers s n r = [(x, k)]) : issueRow n r k s = enterCmd n r k (crystalOf s (xk n x)).out s := by
  have notFull : bit (rowPred s n r) 1 = false := by
    unfold rowPred; dsimp only
    rw [ht, show decide (4 ≤ (rowPort s n r).cmds.length) = false by simpa using hl]
    cases (rowPort s n r).cmds.isEmpty <;> cases (rowPort s n r).err <;> rfl
  unfold issueRow
  rw [ht, hs, hi]; dsimp only
  rw [notFull]
  simp [raiseEarly, raiseTraps]

/-- The four commands that issue on a row port, by kind. -/
theorem rowAccepted_issueRow (hr : r < 4) (hk : k < 4) (hs : basinStill s n = false) (ht : (rowPort s n r).taken = none)
    (hl : (rowPort s n r).cmds.length < 4) (hi : rowIssuers s n r = [(x, k)]) :
    rowAccepted n r k (crystalOf s (xk n x)).out s (issueRow n r k s) := by
  rw [issueRow_single hs ht hl hi]; exact rowAccepted_enterCmd hr hk _ s

end Sys2Proof.Machine
end

section
/-! Row ports: how a row command completes (R158, R162). -/

namespace Sys2Proof.Machine

variable {s t : State} {n r i : Nat} {c : RowCmd}

-- A command leaves its port

/-- Leaving the port changes the list of its commands. -/
theorem dropCmd_port (hr : r < 4) (n i : Nat) (s : State) :
    rowPort (dropCmd n r i s) n r = { rowPort s n r with cmds := (rowPort s n r).cmds.eraseIdx i } := rowPort_setRowPort_same hr _ s
theorem dropCmd_port_other {q : Nat} (hr : r < 4) (hq : q < 4) (h : q ≠ r) (n i : Nat) (s : State) :
    rowPort (dropCmd n r i s) n q = rowPort s n q := rowPort_setRowPort_other hr hq (.inr h) _ s
theorem workOn_dropCmd (hr : r < 4) (n i : Nat) (s : State) : workOn n s (dropCmd n r i s) := workOn_setRowPort (workOn_refl n s) hr _

theorem execReadRowComplete_may (h : mayComplete s n r i = some c) (hk : c.kind = 0) :
    exec (.readRowComplete n r i) s = .next (endReadRow n r c (dropCmd n r i s)) := by
  change execReadRowComplete n r i s = _
  unfold execReadRowComplete; rw [h]; dsimp only; rw [if_pos hk]
theorem execWriteRowComplete_may (h : mayComplete s n r i = some c) (hk : c.kind = 1) :
    exec (.writeRowComplete n r i) s = .next (endWriteRow n r c (dropCmd n r i s)) := by
  change execWriteRowComplete n r i s = _
  unfold execWriteRowComplete; rw [h]; dsimp only; rw [if_pos hk]

-- READ_ROW

/-- Where no codeword is uncorrectable the stage is the row (R158). -/
theorem readStage_clean {b w : Nat} (h : (rowData s b w).2 = []) (old : BitVec 8192) : readStage s b w old = (rowData s b w).1 := by
  unfold readStage; dsimp only; rw [h]; rfl

/-- Without a race no stage line is free (R159). -/
theorem raceLines_zero (stage : BitVec 8192) (s : State) : raceLines 0 stage s = (stage, s) := by
  unfold raceLines
  refine List.foldlRecOn (motive := fun a => a = (stage, s)) _ _ rfl fun a ha l _ => ?_
  rw [if_neg (by simp [bit])]; exact ha

theorem endReadRow_clean (hf : c.fault = none) (hrace : c.race = 0) (hres : c.reset = false)
    (hd : (rowData s (cmdBank c.word) (cmdRow c.word)).2 = []) :
    endReadRow n r c s = setRowPort n r
      { rowPort (rowLog (cmdBank c.word) (cmdRow c.word) s) n r with stage := (rowData s (cmdBank c.word) (cmdRow c.word)).1 }
      (rowLog (cmdBank c.word) (cmdRow c.word) s) := by
  unfold endReadRow
  rw [hf]; dsimp only
  rw [readStage_clean hd, hres, hrace, raceLines_zero, hd]; rfl

-- WRITE_ROW

/-- The mask of a whole row covers every codeword. -/
theorem fld_fullMask {k : Nat} (hk : k < 128) : fld (BitVec.allOnes 1024) (8 * k) 8 = 255 := by
  apply Nat.eq_of_testBit_eq; intro j
  rw [fld_testBit, show 255 = 2 ^ 8 - 1 from rfl, Nat.testBit_two_pow_sub_one, ← bit_eq_testBit, bit, BitVec.getLsbD_allOnes]
  by_cases hj : j < 8
  · simp [hj, show 8 * k + j < 1024 by omega]
  · simp [hj]

/-- A write of a whole row reads nothing and writes every codeword (R317). -/
theorem rowWrite_whole (b w : Nat) (d : BitVec 8192) (s : State) : rowWrite b w (BitVec.allOnes 1024) d s =
    (List.range 128).foldl (fun t k => putRowCode b w k (encCode (BitVec.ofNat 64 (fld d (64 * k) 64))) t) s := by
  have reads : maskMerges (BitVec.allOnes 1024) = false := by
    unfold maskMerges
    rw [List.any_eq_false]
    intro k hk
    rw [fld_fullMask (List.mem_range.1 hk)]; decide
  unfold rowWrite; rw [reads]
  refine List.foldl_ext _ _ _ fun t k hk => ?_
  unfold writeCode; rw [fld_fullMask (List.mem_range.1 hk)]; rfl

theorem rowKey_inj {b w k b' w' k' : Nat} (hw : w < 4096) (hw' : w' < 4096) (hk : k < 128) (hk' : k' < 128)
    (h : rowKey b w + k = rowKey b' w' + k') : (b = b' ∧ w = w') ∧ k = k' := by
  unfold rowKey at h; omega

theorem rowCode_putRowCode {b w k b' w' k' : Nat} (hw : w < 4096) (hw' : w' < 4096) (hk : k < 128) (hk' : k' < 128) (v : Code) (s : State) :
    rowCode (putRowCode b' w' k' v s) b w k = if (b = b' ∧ w = w') ∧ k = k' then v else rowCode s b w k := by
  unfold rowCode putRowCode
  rw [tget_tput]
  refine if_congr ⟨rowKey_inj hw hw' hk hk', ?_⟩ rfl rfl
  rintro ⟨⟨rfl, rfl⟩, rfl⟩; rfl

/-- Every codeword of the row written holds its data with valid check bits, every other is as before (R158). -/
theorem rowCode_rowWrite {b w k b' w' : Nat} (hw : w < 4096) (hw' : w' < 4096) (hk : k < 128) (d : BitVec 8192) (s : State) :
    rowCode (rowWrite b' w' (BitVec.allOnes 1024) d s) b w k =
      if b = b' ∧ w = w' then encCode (BitVec.ofNat 64 (fld d (64 * k) 64)) else rowCode s b w k := by
  rw [rowWrite_whole]
  split
  · next h =>
    refine foldl_of_hit (P := fun t => rowCode t b w k = encCode (BitVec.ofNat 64 (fld d (64 * k) 64))) (List.mem_range.2 hk)
      (fun t => ?_) (fun t j hj hne ht => ?_) s
    · rw [rowCode_putRowCode hw hw' hk hk, if_pos ⟨h, rfl⟩]
    · rw [rowCode_putRowCode hw hw' hk (List.mem_range.1 hj), if_neg (fun e => hne e.2.symm), ht]
  · next h =>
    refine List.foldlRecOn (motive := fun t => rowCode t b w k = rowCode s b w k) _ _ rfl fun t ht j hj => ?_
    rw [rowCode_putRowCode hw hw' hk (List.mem_range.1 hj), if_neg (fun e => h e.1), ht]

-- A command that acceptance found faulty

/-- A port error touches the registers of the basin's page and the interrupts (R170). -/
theorem portError_frame (n p : Nat) (h : BitVec 20) (cause : Nat) (s : State) :
    (portError n p h cause s).fab = s.fab ∧ (portError n p h cause s).mem = s.mem ∧ workOn n s (portError n p h cause s)
      ∧ rdB (portError n p h cause s) (irqA (pgBSN n)) 5 = true := by
  have page : ∀ o, o < 0x1000 → at' (pgBSN n) o / 0x1000 = pgBSN n := fun o ho => by unfold at'; omega
  unfold portError; extract_lets a v
  have hv : v.fab = s.fab ∧ v.mem = s.mem ∧ workOn n s v := by
    unfold v; split
    · exact ⟨wrF_fab _ _ _ _ _, wrF_mem _ _ _ _ _, workOn_wr (workOn_refl n s) (page _ (by decide)) _⟩
    · exact ⟨(wr_fab _ _ _).trans (wr_fab _ _ _), (wr_mem _ _ _).trans (wr_mem _ _ _),
        workOn_wr (workOn_wr (workOn_refl n s) (page _ (by decide)) _) (page _ (by decide)) _⟩
  obtain ⟨hfab, hmem, hwork⟩ := hv
  exact ⟨(setIrq_fab v _ _).trans hfab, (setIrq_mem v _ _).trans hmem, workOn_setIrq hwork 5, rdB_setIrq_same v _ _ (by decide)⟩

/-- A command that ends in error with a cause has set ERR and made its item errored, and moved no data (R162). -/
theorem cmdError_spec (hr : r < 4) (hres : c.reset = false) (n : Nat) (f : BitVec 16) (s : State) :
    rowPort (cmdError n r c f.toNat s) n r = { rowPort s n r with err := true }
      ∧ (basinOf (cmdError n r c f.toNat s) n).items = (basinOf s n).items.map (fun j : Flight =>
          if j.handle = cmdHandle c.word then { j with error := some (j.error.getD f) } else j)
      ∧ rdB (cmdError n r c f.toNat s) (irqA (pgBSN n)) 5 = true ∧ (cmdError n r c f.toNat s).mem = s.mem
      ∧ workOn n s (cmdError n r c f.toNat s) := by
  have hset := workOn_setRowPort (workOn_refl n s) hr { rowPort s n r with err := true }
  unfold cmdError; rw [hres, if_neg Bool.false_ne_true]
  extract_lets p v
  obtain ⟨hfab, hmem, hwork, hirq⟩ := portError_frame n (if c.far then 4 else r) (cmdHandle c.word) f.toNat
    (itemErrored n (cmdHandle c.word) f.toNat v)
  refine ⟨?_, ?_, hirq, hmem, workOn_trans (workOn_setBasin hset _) hwork⟩
  · rw [rowPort_congr hfab]; exact rowPort_setRowPort_same hr _ s
  · rw [basinOf_congr hfab]
    unfold itemErrored updItem; dsimp only
    rw [basinOf_setBasin, BitVec.ofNat_toNat, BitVec.setWidth_eq]; rfl

/-- A row command found faulty has left its port in error (R162). -/
def rowFailed (n r i : Nat) (c : RowCmd) (f : BitVec 16) (s t : State) : Prop :=
  (rowPort t n r).err = true ∧ (rowPort t n r).cmds = (rowPort s n r).cmds.eraseIdx i ∧ (rowPort t n r).stage = (rowPort s n r).stage
    ∧ (basinOf t n).items = (basinOf s n).items.map (fun j : Flight =>
        if j.handle = cmdHandle c.word then { j with error := some (j.error.getD f) } else j)
    ∧ rdB t (irqA (pgBSN n)) 5 = true ∧ t.mem.rows = s.mem.rows ∧ workOn n s t

theorem rowFailed_cmdError (hr : r < 4) (hres : c.reset = false) (n i : Nat) (f : BitVec 16) (s : State) :
    rowFailed n r i c f s (cmdError n r c f.toNat (dropCmd n r i s)) := by
  obtain ⟨hport, hitems, hirq, hmem, hwork⟩ := cmdError_spec hr hres n f (dropCmd n r i s)
  unfold rowFailed
  rw [hport, dropCmd_port hr, hitems, hmem]
  exact ⟨rfl, rfl, rfl, rfl, hirq, rfl, workOn_trans (workOn_dropCmd hr n i s) hwork⟩

theorem endReadRow_fault {f : BitVec 16} (hf : c.fault = some f) (n r : Nat) (s : State) : endReadRow n r c s = cmdError n r c f.toNat s := by
  unfold endReadRow; rw [hf]
theorem endWriteRow_fault {f : BitVec 16} (hf : c.fault = some f) (n r : Nat) (s : State) : endWriteRow n r c s = cmdError n r c f.toNat s := by
  unfold endWriteRow; rw [hf]
theorem endWriteRow_whole (hf : c.fault = none) (n r : Nat) (s : State) :
    endWriteRow n r c s = rowWrite (cmdBank c.word) (cmdRow c.word) (BitVec.allOnes 1024) c.data s := by
  unfold endWriteRow; rw [hf]

/-- Settles O20: the one issuer's command enters its port, a READ_ROW puts the row into the stage, a WRITE_ROW the stage into the row, and a
faulty command ends in error. -/
theorem rowPorts : Obligations.RowPorts := by
  unfold Obligations.RowPorts
  refine ⟨fun n r x s hr hs ht hl => ?_, fun n r i s c hr hc hres => ⟨fun hk hf hrace hd => ?_, fun hk hf => ?_, fun f hf => ?_⟩⟩
  · have issued : ∀ k, k < 4 → rowIssuers s n r = [(x, k)] → rowAccepted n r k (crystalOf s (xk n x)).out s (issueRow n r k s) :=
      fun k hk hi => rowAccepted_issueRow hr hk hs ht hl hi
    exact ⟨fun hi => ⟨_, rfl, issued 0 (by decide) hi⟩, fun hi => ⟨_, rfl, issued 1 (by decide) hi⟩,
      fun hi => ⟨_, rfl, issued 2 (by decide) hi⟩, fun hi => ⟨_, rfl, issued 3 (by decide) hi⟩⟩
  · have hlogs := onlyLogs_rowLog (onlyLogs_refl (dropCmd n r i s)) (cmdBank c.word) (cmdRow c.word)
    have hwork := workOn_onlyWork (workOn_dropCmd hr n i s) (onlyWork_rowLog (onlyWork_refl _) (cmdBank c.word) (cmdRow c.word))
    have hport := rowPort_congr (onlyLogs_fab hlogs) n
    have hmem := onlyLogs_mem hlogs
    refine ⟨_, (execReadRowComplete_may hc hk).trans (congrArg _ (endReadRow_clean hf hrace hres hd)), ?_⟩
    rw [rowPort_setRowPort_same hr, hport, dropCmd_port hr]
    refine ⟨rfl, rfl, rfl, fun q hq hne => ?_, basinOf_congr (onlyLogs_fab hlogs) n, hmem, workOn_setRowPort hwork hr _⟩
    rw [rowPort_setRowPort_other hr hq (.inr hne), hport, dropCmd_port_other hr hq hne]
  · have hwrite := onlyWork_rowWrite (onlyWork_refl (dropCmd n r i s)) (cmdBank c.word) (cmdRow c.word) (BitVec.allOnes 1024) c.data
    have hport := rowPort_congr (onlyWork_fab hwrite) n
    refine ⟨_, (execWriteRowComplete_may hc hk).trans (congrArg _ (endWriteRow_whole hf n r _)), fun b w k hw hk => ?_, ?_⟩
    · exact rowCode_rowWrite hw (fld_lt _ _ _) hk _ _
    · rw [hport, dropCmd_port hr]
      exact ⟨rfl, rfl, fun q hq hne => (hport q).trans (dropCmd_port_other hr hq hne n i s), basinOf_congr (onlyWork_fab hwrite) n,
        workOn_onlyWork (workOn_dropCmd hr n i s) hwrite⟩
  · have hfailed := rowFailed_cmdError hr hres n i f s
    exact ⟨fun hk => ⟨_, (execReadRowComplete_may hc hk).trans (congrArg _ (endReadRow_fault hf n r _)), hfailed⟩,
      fun hk => ⟨_, (execWriteRowComplete_may hc hk).trans (congrArg _ (endWriteRow_fault hf n r _)), hfailed⟩⟩

end Sys2Proof.Machine
end

section
/-! Far commands (R158, R161, R371): their lines move one after the other. -/

namespace Sys2Proof.Machine

variable {s t u : State} {n r i : Nat} {c : RowCmd}

/-- The port after line `k` of a far command: the command has one line more behind it, and leaves after its last. -/
def farMoved (i k : Nat) (c : RowCmd) (p : RowPort) : RowPort :=
  { p with cmds := if k + 1 < cmdLines c.word then p.cmds.set i { c with done := k + 1 } else p.cmds.eraseIdx i }

/-- A line of a command of which none failed moves its port on and does nothing else (R158). -/
theorem lineDone_moved (hf : c.failed = none) (n r i k : Nat) (t : State) :
    lineDone n r i { c with done := k } t = setRowPort n r (farMoved i k c (rowPort t n r)) t := by
  unfold lineDone farMoved dropCmd; dsimp only
  split
  · rfl
  · rw [hf]

/-- The port with the next line of a FAR_READ in its stage (R158). -/
def lineStaged (c : RowCmd) (v : BitVec 512) (p : RowPort) : RowPort := { p with stage := putLine p.stage (cmdStageLine c.word + c.done) v }

theorem stageLine_plain (hres : c.reset = false) (hrace : bit c.race (cmdStageLine c.word + c.done) = false) (n r : Nat) (v : BitVec 512)
    (t : State) : stageLine n r c v t = setRowPort n r (lineStaged c v (rowPort t n r)) t := by
  unfold stageLine; rw [hres]; dsimp only
  rw [hrace]; rfl

/-- Two writes of a row port touch the row ports alone. -/
theorem setRowPort_twice_onlyRows (n r : Nat) (p p' : RowPort) (s : State) :
    onlyFab s (setRowPort n r p' (setRowPort n r p s))
      ∧ { (setRowPort n r p' (setRowPort n r p s)).fab with rows := s.fab.rows } = s.fab := ⟨rfl, rfl⟩

/-- FAR_READ_LINE puts the line that the DRAM gives into the stage and moves the command on. -/
theorem execFarReadLine_line {v : BitVec 512} (hr : r < 4) (hm : mayMove s n r i = some c) (hk : c.kind = 2) (hf : c.fault = none)
    (hl : c.failed = none) (hres : c.reset = false) (hrace : bit c.race (cmdStageLine c.word + c.done) = false)
    (hd : dramRead srcFar (farDpa c c.done) s = (.ok v, u)) :
    exec (.farReadLine n r i) s = .next (setRowPort n r (farMoved i c.done c (lineStaged c v (rowPort u n r)))
      (setRowPort n r (lineStaged c v (rowPort u n r)) u)) := by
  change execFarReadLine n r i s = _
  unfold execFarReadLine
  rw [hm]; dsimp only
  rw [if_neg (by simp [hk]), hf]; dsimp only
  rw [hd]; dsimp only
  have hmoved := lineDone_moved hl n r i c.done (setRowPort n r (lineStaged c v (rowPort u n r)) u)
  rw [rowPort_setRowPort_same hr] at hmoved
  rw [stageLine_plain hres hrace, ← hmoved]

/-- FAR_WRITE_COMPLETE gives the DRAM the lines that are left, one after the other (R371). -/
theorem farWriteLines_all (hl : c.failed = none) (w v : Nat → State)
    (hw : ∀ k, k < cmdLines c.word →
      (∃ x, dramWrite srcFar (farDpa c k) (BitVec.allOnes 64) (lineOf c.data (cmdStageLine c.word + k)) (w k) = (.ok x, v k))
        ∧ w (k + 1) = setRowPort n r (farMoved i k c (rowPort (v k) n r)) (v k))
    (hd : c.done = 0) (j : Nat) (hj : j ≤ cmdLines c.word) :
    farWriteLines n r i c j (w (cmdLines c.word - j)) = w (cmdLines c.word) := by
  induction j with
  | zero => rfl
  | succ j ih =>
    obtain ⟨⟨x, hx⟩, hnext⟩ := hw (cmdLines c.word - (j + 1)) (by omega)
    unfold farWriteLines; dsimp only
    rw [hd, if_neg (Nat.not_lt_zero _), hx]; dsimp only
    rw [lineDone_moved hl, ← hnext, show cmdLines c.word - (j + 1) + 1 = cmdLines c.word - j by omega]
    exact ih (by omega)

theorem execFarWriteComplete_lines (hm : mayMove s n r i = some c) (hk : c.kind = 3) (hf : c.fault = none) :
    exec (.farWriteComplete n r i) s = .next (farWriteLines n r i c (cmdLines c.word) s) := by
  change execFarWriteComplete n r i s = _
  unfold execFarWriteComplete
  rw [hm]; dsimp only
  rw [if_neg (by simp [hk]), hf]

/-- Settles O21: a line moves its port on as `farMoved` says, and by induction on the lines left so does a whole write. -/
theorem farCommands : Obligations.FarCommands := by
  unfold Obligations.FarCommands
  intro n r i s c hr hm hf hl hres
  refine ⟨fun v u hk _ hrace hd => ?_, fun w v hk hdone hw0 hw => ?_⟩
  · obtain ⟨hfab, hrows⟩ := setRowPort_twice_onlyRows n r (lineStaged c v (rowPort u n r))
      (farMoved i c.done c (lineStaged c v (rowPort u n r))) u
    refine ⟨_, execFarReadLine_line hr hm hk hf hl hres hrace hd, hfab, ?_, ?_, hrows, fun k q hq hne => ?_⟩
    · rw [rowPort_setRowPort_same hr]; unfold farMoved lineStaged putLine; rfl
    · rw [rowPort_setRowPort_same hr]; unfold farMoved lineStaged; rfl
    · rw [rowPort_setRowPort_other hr hq hne, rowPort_setRowPort_other hr hq hne]
  · have hlines := farWriteLines_all (n := n) (r := r) (i := i) hl w v (fun k hk => ?_) hdone (cmdLines c.word) le_rfl
    · rw [Nat.sub_self, hw0] at hlines
      rw [execFarWriteComplete_lines hm hk hf, hlines]
    · obtain ⟨hwrite, hnext⟩ := hw k hk
      refine ⟨hwrite, hnext.trans ?_⟩
      unfold farMoved; split <;> rfl

end Sys2Proof.Machine
end

section
/-! A staged write that lies in the Sluice page beside the group table's (R494, R495). -/

namespace Sys2Proof.Machine

/-- An update of group 0 is asked for. The Sluice page, of that group, has its STAGED bit set, and a buffered write stands under an address of
that page; user I/O bank 0 is of group 1 and has nothing staged. -/
def misfiledOwner : State :=
  withHst (fun h => { h with staged := [(at' pgSLU 0, some 0x1F)], updActive := true, updMask := 1 })
    (wrF (statA pgSLU) 1 1 1 (wr (stageA (pgUIO 0)) 1 State.reset))

theorem misfiledOwner_asked : misfiledOwner.hst.updActive = true ∧ bit misfiledOwner.hst.updMask (rdF misfiledOwner (stageA (pgUIO 0)) 0 4) = false := by
  decide +kernel

/-- The update takes the write of the Sluice page for one of UIO_OWNER of bank 0. -/
theorem misfiledOwner_applied : ∃ t, exec .stagedUpdateApply misfiledOwner = .next t ∧ rd t (uioOwnerA 0) ≠ rd misfiledOwner (uioOwnerA 0) := by
  refine ⟨_, rfl, ?_⟩
  decide +kernel

/-- Refutes O6: a buffered write under an address of the Sluice page, which no command stages but the statement does not exclude, is applied to
UIO_OWNER of bank 0 although no update of that bank's group was asked for. -/
theorem not_stagedUpdatesAndGates : ¬ Obligations.StagedUpdatesAndGates := by
  unfold Obligations.StagedUpdatesAndGates
  rintro ⟨⟨-, -, -, hupdate⟩, -⟩
  obtain ⟨hactive, hunasked⟩ := misfiledOwner_asked
  obtain ⟨t, ht, -, -, -, -, hkept, -⟩ := hupdate misfiledOwner hactive
  obtain ⟨-, hsame⟩ := hkept 0 (by decide) hunasked
  obtain ⟨u, hu, hchanged⟩ := misfiledOwner_applied
  have htu : t = u := Host.Outcome.next.inj (ht.symm.trans hu)
  exact hchanged (htu ▸ hsame)

end Sys2Proof.Machine
end

section
/-! A dispatch whose payload cannot be read (R441; log entry 316). -/

namespace Sys2Proof.Machine

/-- The dispatcher is enabled in SERVICE. Flow 0 has priority 15 and one item of 64 payload bytes; the only pair of its group lies on device 1,
which the UP port 0 reaches. D4 is in reset. -/
def unreadableItem : State :=
  let s := wrF (at' pgSLU 0x40) 0 1 1 (wrF 0x1040 0 3 mSERVICE State.reset)
  { s with
    slu := { s.slu with
      flow0 := [(0, BitVec.ofNat 64 (15 * 2 ^ 20))]
      flows := [(0, { FlowDyn.zero with queue := [0] })]
      slots := [(0, { Slot.filled with place := .queued, len := 64 })]
      ready := [(15, [0])]
      groups := [(1, 0x9000)] }
    enr := { s.enr with ports := [(0, { EnrPort.zero with st := .up, peer := 1 })], peers := [(32, ⟨1, false, 1⟩)] }
    mod := { s.mod with dieReset := some 4 } }

/-- What the dispatch of its item asks for (R191, R192, R194). -/
def servesUnreadable (u : State) : Prop :=
  (pickFlow u).1 = some 0 ∧ (flowDyn u 0).queue = [0] ∧ (dispatchReads 0 0 (pickFlow u).2).2 = true
    ∧ selectPair (dispatchReads 0 0 (pickFlow u).2).1 (fGroup unreadableItem 0) = some (0, 0x9000)

theorem unreadableItem_mayDispatch : rdB unreadableItem (at' pgSLU 0x40) 0 = true ∧ workHeld unreadableItem = false
    ∧ throttleAllows unreadableItem = true ∧ unreadableItem.slu.damage = [] ∧ fSvcTo unreadableItem 0 = 0
    ∧ emberCondition (settle (dispatchSlot unreadableItem)) = none := by
  decide +kernel

theorem unreadableItem_served : servesUnreadable (touchReady (groupEmptyCheck unreadableItem)) := by
  unfold servesUnreadable
  decide +kernel

/-- The item error of the lost payload ends the service that the dispatch has begun. -/
theorem unreadableItem_unserved : ∃ t, exec (.dispatch false) unreadableItem = .next t ∧ t.slu.services = [] := by
  refine ⟨_, rfl, ?_⟩
  decide +kernel

/-- Refutes O25: a dispatch to another device whose payload cannot be read ends its service at once with an item error (R205), so that no record
of it is left after the slot. -/
theorem not_arrivalDelayAndDispatch : ¬ Obligations.ArrivalDelayAndDispatch := by
  unfold Obligations.ArrivalDelayAndDispatch
  rintro ⟨-, hdispatch⟩
  obtain ⟨hon, hwork, hthrottle, hclean, hto, hember⟩ := unreadableItem_mayDispatch
  obtain ⟨hpick, hqueue, hreads, hpair⟩ := unreadableItem_served
  obtain ⟨t, v, ht, hserved, -⟩ := (hdispatch false unreadableItem).2 _ 0 0 [] (0, 0x9000) hon hwork hthrottle hclean rfl hpick hqueue hreads
    hpair (.inl hto) hember
  obtain ⟨u, hu, hnone⟩ := unreadableItem_unserved
  have htu : t = u := Host.Outcome.next.inj (ht.symm.trans hu)
  rw [htu, hnone] at hserved
  simp at hserved

end Sys2Proof.Machine
end

section
/-! Slots and queues of Sluice (R186, R187, R206, R208): what their operations write. -/

namespace Sys2Proof.Machine

variable {s t u : State}

-- Words without damage (R213)

section
variable (h : s.slu.damage = [])
include h

theorem damageOf_clean (k e lo hi : Nat) : damageOf s k e lo hi = [] := by simp [damageOf, h]
@[simp] theorem sluUe_clean (k e lo hi : Nat) : sluUe s k e lo hi = false := by simp [sluUe, damageOf_clean h]
@[simp] theorem sluTouch_clean (k e lo hi : Nat) : sluTouch k e lo hi s = s := by
  simp only [sluTouch, damageOf_clean h, List.foldl_nil, withSlu]
  rw [h, List.filter_nil, ← h]
@[simp] theorem sluMend_clean (k e lo hi : Nat) : sluMend k e lo hi s = s := by
  simp only [sluMend, withSlu]
  rw [h, List.filter_nil, ← h]
@[simp] theorem readDelay_clean (n : Nat) : readDelay n s = s := by simp [readDelay, h]

end

theorem sluMend_damage (h : s.slu.damage = []) (k e lo hi : Nat) : (sluMend k e lo hi s).slu.damage = [] := by
  rw [sluMend_clean h, h]

-- The registers of the queues

/-- A register that the queues of Sluice and error logging write: of the pages ECC, SLU_X, DBG and BANK, and IRQ_STAT of the SLU page. -/
def queueReg (a : Nat) : Bool :=
  a / 0x1000 = 0xA || a / 0x1000 = 0xC || a / 0x1000 = 0x10 || a / 0x1000 = 0x18 || a = irqA pgSLU

/-- No register differs but those of the queues. -/
abbrev queueRegs (s t : State) : Prop := regsWithin queueReg s t

theorem queueReg_ecc {a : Nat} (h : a / 0x1000 = 0xA) : queueReg a = true := by simp [queueReg, h]

theorem queueRegs_traceOut (h : queueRegs s t) (src : Nat) (v : BitVec 192) : queueRegs s (traceOut src v t) := by
  unfold traceOut; split
  · dsimp only; split
    · exact regsWithin_incF (a := at' pgDBG 0x40) h rfl _ _ _
    · exact h
  · exact h
theorem queueRegs_ringEntry (h : queueRegs s t) {d : Nat} (hd : d < 5) (w0 w1 : Word) : queueRegs s (ringEntry d w0 w1 t) := by
  unfold ringEntry; dsimp only; split
  · exact regsWithin_setIrq (regsWithin_incF h (queueReg_ecc (by omega)) _ _ _) rfl _
  · exact regsWithin_wr (queueRegs_traceOut (regsWithin_withEcc h fun e => { e with rings := _ }) _ _) (queueReg_ecc (by omega)) _

/-- Before its last two interrupts a log entry has written registers of the ECC page and the trace's. -/
theorem queueRegs_logErr (h : queueRegs s t) {kind : Nat} (hk : kind < 16) (addr syn cause : Nat) (ue sweep : Bool) :
    queueRegs s (logErr kind addr syn cause ue sweep t) := by
  have hi : ∀ (b : Bool) (n : Nat) (w : State), queueRegs s w → queueRegs s (if b then setIrq pgECC n w else w) := fun b n w hw => by
    cases b
    · exact hw
    · exact regsWithin_setIrq hw rfl _
  unfold logErr; dsimp only
  have hl := regsWithin_incF (queueRegs_ringEntry (regsWithin_of_regs h (chargeTrack_regs kind (trackUnit kind addr) t)) (logDie_lt kind addr)
    (BitVec.ofNat 64 (cause % 2 ^ 16 + syn % 256 * 2 ^ 16 + addr % 2 ^ 40 * 2 ^ 24))
    (BitVec.ofNat 64 (fld (chargeTrack kind (trackUnit kind addr) t).1.time 4 48 + kind % 16 * 2 ^ 52 + b2n sweep * 2 ^ 61
      + b2n (chargeTrack kind (trackUnit kind addr) t).2 * 2 ^ 62 + b2n ue * 2 ^ 63)))
    (a := 0xA200 + 4 * kind) (queueReg_ecc (by omega)) (if ue then 16 else 0) 16 1
  generalize incF _ _ _ _ _ = v at hl ⊢
  refine hi _ _ _ (hi _ _ _ ?_)
  split
  · exact regsWithin_wr (regsWithin_wr (regsWithin_wr (regsWithin_wr hl rfl _) rfl _) rfl _) rfl _
  · exact hl
theorem queueRegs_rowLog (h : queueRegs s t) (b r : Nat) : queueRegs s (rowLog b r t) := by
  refine regsWithin_foldl _ (fun v p _ => ?_) h
  have hd : queueRegs v (logDecoded 3 (rowLogAddr b r p.1) 0x0903 (decode72 p.2) false v) := by
    unfold logDecoded; split
    · exact regsWithin_refl _ v
    · exact queueRegs_logErr (regsWithin_refl _ v) (by decide) _ _ _ _ _
    · exact queueRegs_logErr (regsWithin_refl _ v) (by decide) _ _ _ _ _
  unfold rowLogOne; dsimp only; split
  · exact regsWithin_setIrq hd rfl _
  · exact hd
theorem queueRegs_logRows (h : queueRegs s t) (b r n : Nat) : queueRegs s (logRows b r n t) :=
  regsWithin_foldl _ (fun v k _ => queueRegs_rowLog (regsWithin_refl _ v) b (r + k)) h

-- Slots, queues and the exception ring

/-- Nothing differs but slots, queues, the exception ring, the row groups taken, and what error logging touches. -/
def onlyQueues (s t : State) : Prop :=
  { t with
    free := s.free, outbox := s.outbox, regs := s.regs, ecc := s.ecc, hst := s.hst
    slu := { t.slu with
      flows := s.slu.flows, slots := s.slu.slots, ready := s.slu.ready, refused := s.slu.refused, ctlWant := s.slu.ctlWant
      damage := s.slu.damage, excRing := s.slu.excRing }
    lan := { t.lan with groups := s.lan.groups } } = s

/-- What an operation on slots and queues keeps: all but their own places, every slot's generation, and words without damage. -/
structure QueueStep (s t : State) : Prop where
  only  : onlyQueues s t
  regs  : queueRegs s t
  gens  : ∀ k, (slotOf t k).gen = (slotOf s k).gen
  clean : s.slu.damage = [] → t.slu.damage = []

namespace QueueStep

theorem refl (s : State) : QueueStep s s := ⟨rfl, regsWithin_refl _ s, fun _ => rfl, id⟩
theorem trans (h : QueueStep s t) (k : QueueStep t u) : QueueStep s u := by
  refine ⟨?_, regsWithin_trans h.regs k.regs, fun n => (k.gens n).trans (h.gens n), fun d => k.clean (h.clean d)⟩
  have hs := h.only
  have ht := k.only
  unfold onlyQueues at *
  rw [← hs, ← ht]
theorem foldl {β : Type} {f : State → β → State} (l : List β) (hf : ∀ t, ∀ b ∈ l, QueueStep t (f t b)) (h : QueueStep s t) :
    QueueStep s (l.foldl f t) :=
  l.foldlRecOn f h fun v hv b hb => hv.trans (hf v b hb)

/-- What error logging does (R463) to no slot and no word of Sluice. -/
theorem of_logs (ho : onlyLogs s t) (hr : queueRegs s t) : QueueStep s t := by
  have hs : t.slu = s.slu := onlyLogs_slu ho
  refine ⟨?_, hr, fun k => by unfold slotOf; rw [hs], fun d => by rw [hs]; exact d⟩
  unfold onlyLogs at ho
  unfold onlyQueues
  rw [← ho]

section
variable (h : QueueStep s t)
include h

theorem setIrq (p b : Nat) (hp : queueReg (irqA p) = true) : QueueStep s (setIrq p b t) :=
  h.trans (of_logs (onlyLogs_setIrq (onlyLogs_refl t) p b) (regsWithin_setIrq (regsWithin_refl _ t) hp b))
theorem wr {a : Nat} (ha : queueReg a = true) (v : Reg) : QueueStep s (wr a v t) := ⟨h.only, regsWithin_wr h.regs ha v, h.gens, h.clean⟩
theorem setReady (p : Nat) (l : List Nat) : QueueStep s (setReady p l t) := ⟨h.only, h.regs, h.gens, h.clean⟩
theorem withWant (f : Sluice → Tab (Option Bool)) : QueueStep s (withSlu (fun u => { u with ctlWant := f u }) t) :=
  ⟨h.only, h.regs, h.gens, h.clean⟩
theorem withRing (f : Sluice → Tab Word) : QueueStep s (withSlu (fun u => { u with excRing := f u }) t) :=
  ⟨h.only, h.regs, h.gens, h.clean⟩
theorem setSlot (n : Nat) {v : Slot} (hv : v.gen = (slotOf t n).gen) : QueueStep s (setSlot n v t) := by
  refine ⟨h.only, h.regs, fun k => ?_, h.clean⟩
  rw [← h.gens k]
  unfold slotOf Machine.setSlot withSlu; dsimp only
  rw [tget_tput]; split
  · next e => rw [e]; exact hv
  · rfl
theorem sluMend (k e lo hi : Nat) : QueueStep s (sluMend k e lo hi t) := ⟨h.only, h.regs, h.gens, fun d => sluMend_damage (h.clean d) k e lo hi⟩
theorem sluTouch (k e lo hi : Nat) : QueueStep s (sluTouch k e lo hi t) := by
  have hl : QueueStep s ((damageOf t k e lo hi).foldl (fun t d =>
      let t := logErr 4 (k * 2 ^ 36 + d.word % 16 * 2 ^ 32 + e) d.syn.toNat (structCause k d.word) d.ue false t
      if d.ue then Machine.setIrq pgSLU 6 t else t) t) := by
    refine foldl _ (fun v d _ => ?_) h
    have hv : QueueStep v (logErr 4 (k * 2 ^ 36 + d.word % 16 * 2 ^ 32 + e) d.syn.toNat (structCause k d.word) d.ue false v) :=
      of_logs (onlyLogs_logErr (onlyLogs_refl v) _ _ _ _ _ _) (queueRegs_logErr (regsWithin_refl _ v) (by decide) _ _ _ _ _)
    dsimp only; split
    · exact hv.setIrq _ _ rfl
    · exact hv
  refine ⟨hl.only, hl.regs, hl.gens, fun d => ?_⟩
  rw [sluTouch_clean (h.clean d)]; exact h.clean d
theorem setFlowDyn (f : Nat) (d : FlowDyn) : QueueStep s (setFlowDyn f d t) := by
  unfold Machine.setFlowDyn; extract_lets o v w
  have hv : QueueStep s v := ⟨h.only, h.regs, h.gens, h.clean⟩
  have hw : QueueStep s w := by unfold w; split; exacts [hv, hv.sluMend _ _ _ _]
  split
  · exact hw
  · exact hw.sluMend _ _ _ _
theorem reeval (f : Nat) : QueueStep s (reeval f t) := by
  unfold Machine.reeval; dsimp only; split
  · split
    · exact h
    · exact h.setReady _ _
  · exact h.setReady _ _
theorem mendLinks (l : List Nat) : QueueStep s (mendLinks l t) := foldl l (fun v _ _ => (refl v).sluMend _ _ _ _) h
/-- A slot joins a queue: its links and its flow are written, and its place. -/
theorem pushTail (f n : Nat) : QueueStep s (pushTail f n t) := by
  unfold Machine.pushTail; extract_lets d v
  have hv : QueueStep s v := h.mendLinks _
  exact ((hv.setSlot n (v := { slotOf v n with place := .queued }) rfl).setFlowDyn f _).reeval f
theorem takeWant (n : Nat) : QueueStep s (takeWant n t) := by
  unfold Machine.takeWant; split
  · split
    · next on _ =>
      exact ((h.setSlot n (v := { slotOf t n with meta0 := controlMeta t (n - ctlBase) on }) rfl).sluMend _ _ _ _).withWant _
    · exact h
  · exact h
theorem pushHead (f n : Nat) : QueueStep s (pushHead f n t) := by
  unfold Machine.pushHead; extract_lets v d
  have hv : QueueStep s v := (h.takeWant n).mendLinks _
  exact ((hv.setSlot n (v := { slotOf v n with place := .queued }) rfl).setFlowDyn f _).reeval f
theorem quarantineFlow (f : Nat) : QueueStep s (quarantineFlow f t) := by
  unfold Machine.quarantineFlow; split
  · exact h
  · exact ((h.setFlowDyn f _).reeval f).setIrq _ _ rfl
theorem excEntry (f c : Nat) (k : BitVec 20) : QueueStep s (excEntry f c k t) := by
  unfold Machine.excEntry; extract_lets a i j w0 w1 v
  split
  · exact h.wr (a := at' pgSLUX 0x48) rfl _
  · have hv : QueueStep s v := (h.withRing _).sluMend _ _ _ _
    exact (hv.wr (a := at' pgSLUX 0x40) rfl _).setIrq _ _ rfl
theorem returnGroup (b r : Nat) : QueueStep s (returnGroup b r t) := ⟨h.only, h.regs, h.gens, h.clean⟩
theorem freeOne (n : Nat) : QueueStep s (freeOne n t) := by
  unfold Machine.freeOne; extract_lets v w
  have hw : QueueStep s w := by unfold w; split; exacts [h, h.returnGroup _ _]
  have hg : v.gen = (slotOf w n).gen := by unfold v w; split <;> rfl
  exact (hw.setSlot n (v := { Slot.filled with gen := v.gen }) hg).sluMend _ _ _ _
theorem controlItem (p : Nat) (on : Bool) : QueueStep s (controlItem p on t) := by
  unfold Machine.controlItem; extract_lets n f
  split
  · exact (h.setSlot n (v := { slotOf t n with flow := BitVec.ofNat 16 f, len := 0, meta0 := controlMeta t p on }) rfl).pushHead f n
  · exact (h.setSlot n (v := { slotOf t n with meta0 := controlMeta t p on }) rfl).sluMend _ _ _ _
  · exact h.withWant _
theorem releaseSlot (n : Nat) : QueueStep s (releaseSlot n t) := by
  unfold Machine.releaseSlot; extract_lets ops v
  have hv : QueueStep s v := (foldl ops (fun w m _ => (refl w).freeOne m) h).freeOne n
  split
  · split
    · exact (hv.withWant _).controlItem _ _
    · exact hv
  · exact hv
theorem toException (n c : Nat) : QueueStep s (toException n c t) := (h.excEntry _ _ _).releaseSlot n

end

-- What is kept

section
variable (h : QueueStep s t)
include h

theorem services : t.slu.services = s.slu.services := congrArg (·.slu.services) h.only
theorem partners : t.slu.partners = s.slu.partners := congrArg (·.slu.partners) h.only
theorem bpTold : t.slu.bpTold = s.slu.bpTold := congrArg (·.slu.bpTold) h.only
theorem bpPartner : t.slu.bpPartner = s.slu.bpPartner := congrArg (·.slu.bpPartner) h.only
theorem held : t.lan.held = s.lan.held := congrArg (·.lan.held) h.only

/-- Nothing for back-pressure to do, before as after. -/
theorem bpStill (hs : bpStill s) : bpStill t := by
  unfold Machine.bpStill at *
  rw [h.held, h.bpTold, h.bpPartner, h.partners]; exact hs

end

end QueueStep

end Sys2Proof.Machine
end

section
/-! What sending on the Enrus link touches (R262 to R275): blocks sent, the place in the marker period, the port. -/

namespace Sys2Proof.Machine

variable {s t u : State}

theorem onlySent_refl (s : State) : onlySent s s := rfl
theorem onlySent_trans (h : onlySent s t) (k : onlySent t u) : onlySent s u := by
  unfold onlySent at *
  rw [← h, ← k]
theorem onlySent_foldl {β : Type} {f : State → β → State} (l : List β) (hf : ∀ t, ∀ b ∈ l, onlySent t (f t b)) (h : onlySent s t) :
    onlySent s (l.foldl f t) :=
  l.foldlRecOn f h fun _ hv b hb => onlySent_trans hv (hf _ b hb)

theorem onlySent_send (h : onlySent s t) (o : Out) : onlySent s (send o t) := h
theorem onlySent_setEnrPort (h : onlySent s t) (p : Nat) (e : EnrPort) : onlySent s (setEnrPort p e t) := h

/-- Rytis markers take no free value (R235). -/
theorem onlySent_sendMarkers (h : onlySent s t) {f : TxForm} (hf : f.fmt ≠ 1) : onlySent s (sendMarkers f t) := by
  refine onlySent_foldl _ (fun u b _ => ?_) h
  rw [if_neg hf]
  exact onlySent_send (onlySent_refl u) _
theorem onlySent_txPass (h : onlySent s t) {f : TxForm} (hf : f.fmt ≠ 1) (g k : Nat) : onlySent s (txPass f g k t) := by
  unfold txPass; extract_lets j v
  have hv : onlySent s v := by
    unfold v; split
    · exact h
    · exact onlySent_foldl _ (fun u _ _ => onlySent_sendMarkers (onlySent_refl u) hf) h
  exact hv
theorem onlySent_putFlit (h : onlySent s t) (p : Nat) (f : BitVec 2048) : onlySent s (putFlit p f t) :=
  onlySent_foldl _ (fun u _ _ => onlySent_txPass (onlySent_send (onlySent_refl u) _) (by change 2 ≠ 1; decide) _ _) h
theorem onlySent_sendFlit (h : onlySent s t) (p typ vc seq ack : Nat) (pl : List Byte) : onlySent s (sendFlit p typ vc seq ack pl t) := by
  unfold sendFlit; dsimp only; split
  · exact h
  · exact onlySent_putFlit (onlySent_setEnrPort h _ _) _ _
theorem onlySent_sendIdle (h : onlySent s t) (p : Nat) : onlySent s (sendIdle p t) := by
  unfold sendIdle; split
  · exact onlySent_sendFlit h _ _ _ _ _ _
  · exact h
theorem onlySent_pumpOne (h : onlySent s t) (p v : Nat) : onlySent s (pumpOne p v t) := by
  unfold pumpOne; dsimp only; split
  · exact h
  · split
    · exact onlySent_sendFlit (onlySent_setEnrPort h _ _) _ _ _ _ _ _
    · exact h
theorem onlySent_pump (h : onlySent s t) (p n : Nat) : onlySent s (pump p n t) := by
  induction n generalizing t with
  | zero => exact h
  | succ n ih => exact ih (onlySent_foldl _ (fun u v _ => onlySent_pumpOne (onlySent_refl u) p v) h)
theorem onlySent_sendMsg (h : onlySent s t) (p : Nat) (m : Msg) : onlySent s (sendMsg p m t) :=
  onlySent_pump (onlySent_setEnrPort h _ _) _ _

end Sys2Proof.Machine
end

section
/-! Arrivals, the matching store, the delay lists and back-pressure (R188, R189, R197, R201, R207, R240): what they keep. -/

namespace Sys2Proof.Machine

variable {s t u : State} {g : Prop}

/-- Nothing differs but the items of Sluice and what holds them: slots, queues, services, the matching store, the delay lists, back-pressure, the
exception ring, row groups, held segments, messages on their way, banks that wake, and what error logging touches. -/
def onlyFlow (s t : State) : Prop :=
  { t with
    free := s.free, outbox := s.outbox, regs := s.regs, ecc := s.ecc, hst := s.hst
    slu := { t.slu with
      flows := s.slu.flows, slots := s.slu.slots, ready := s.slu.ready, refused := s.slu.refused, ctlWant := s.slu.ctlWant
      damage := s.slu.damage, excRing := s.slu.excRing, services := s.slu.services, matching := s.slu.matching, delays := s.slu.delays
      bpDevice := s.slu.bpDevice, bpPartner := s.slu.bpPartner, bpTold := s.slu.bpTold }
    lan := { t.lan with groups := s.lan.groups, held := s.lan.held, txNext := s.lan.txNext }
    enr := { t.enr with ports := s.enr.ports, lost := s.enr.lost, stalled := s.enr.stalled }
    mem := { t.mem with banks := s.mem.banks } } = s

/-- A service but for its timeout. -/
def Service.undated (v : Service) : Service := { v with deadline := none }

/-- What the flow of items keeps. No service is added, and without damage none changes. Where `g` holds no slot is taken and back-pressure is
left alone. -/
structure FlowStep (g : Prop) (s t : State) : Prop where
  only     : onlyFlow s t
  regs     : queueRegs s t
  services : ∀ v ∈ t.slu.services, ∃ w ∈ s.slu.services, v.undated = w.undated
  clean    : s.slu.damage = [] → t.slu.damage = [] ∧ t.slu.services = s.slu.services
  gens     : g → ∀ k, (slotOf t k).gen = (slotOf s k).gen
  still    : g → t.lan.held = s.lan.held ∧ t.slu.bpTold = s.slu.bpTold ∧ t.slu.bpPartner = s.slu.bpPartner

namespace FlowStep

theorem refl (s : State) : FlowStep g s s := ⟨rfl, regsWithin_refl _ s, fun v hv => ⟨v, hv, rfl⟩, fun d => ⟨d, rfl⟩, fun _ _ => rfl, fun _ => ⟨rfl, rfl, rfl⟩⟩
theorem trans (h : FlowStep g s t) (k : FlowStep g t u) : FlowStep g s u := by
  refine ⟨?_, regsWithin_trans h.regs k.regs, fun v hv => ?_, fun d => ?_, fun hg n => (k.gens hg n).trans (h.gens hg n), fun hg => ?_⟩
  · have hs := h.only
    have ht := k.only
    unfold onlyFlow at *
    rw [← hs, ← ht]
  · obtain ⟨w, hw, hvw⟩ := k.services v hv
    obtain ⟨x, hx, hwx⟩ := h.services w hw
    exact ⟨x, hx, hvw.trans hwx⟩
  · obtain ⟨hd, hs⟩ := h.clean d
    obtain ⟨kd, ks⟩ := k.clean hd
    exact ⟨kd, ks.trans hs⟩
  · obtain ⟨h1, h2, h3⟩ := h.still hg
    obtain ⟨k1, k2, k3⟩ := k.still hg
    exact ⟨k1.trans h1, k2.trans h2, k3.trans h3⟩
theorem foldl {β : Type} {f : State → β → State} (l : List β) (hf : ∀ t, ∀ b ∈ l, FlowStep g t (f t b)) (h : FlowStep g s t) :
    FlowStep g s (l.foldl f t) :=
  l.foldlRecOn f h fun _ hv b hb => hv.trans (hf _ b hb)

theorem of_queue (h : QueueStep s t) : FlowStep g s t := by
  have hs := h.services
  refine ⟨?_, h.regs, fun v hv => ⟨v, hs ▸ hv, rfl⟩, fun d => ⟨h.clean d, hs⟩, fun _ => h.gens, fun _ => ⟨h.held, h.bpTold, h.bpPartner⟩⟩
  have ho := h.only
  unfold onlyQueues at ho
  unfold onlyFlow
  rw [← ho]
theorem of_sent (h : onlySent s t) (hr : t.regs = s.regs) : FlowStep g s t := by
  have hs : t.slu = s.slu := congrArg (·.slu) h
  have hh : t.lan.held = s.lan.held := congrArg (·.lan.held) h
  refine ⟨?_, regsWithin_of_regs (regsWithin_refl _ s) hr, fun v hv => ⟨v, hs ▸ hv, rfl⟩, fun d => ?_, fun _ k => by unfold slotOf; rw [hs],
    fun _ => ⟨hh, by rw [hs], by rw [hs]⟩⟩
  · unfold onlySent at h
    unfold onlyFlow
    rw [← h]
  · rw [hs]; exact ⟨d, rfl⟩

section
variable (h : FlowStep g s t)
include h

theorem queue (k : QueueStep t u) : FlowStep g s u := h.trans (of_queue k)

/-- An entry that reads uncorrectable is due at once, and only a damaged one does (R213). -/
theorem readDelay (n : Nat) : FlowStep g s (readDelay n t) := by
  by_cases hd : t.slu.damage = []
  · rw [readDelay_clean hd]; exact h
  have ht : FlowStep g t (sluTouch 5 n 0 2 t) := of_queue ((QueueStep.refl t).sluTouch 5 n 0 2)
  unfold Machine.readDelay; split
  · have he : FlowStep g t (expireNow n (sluTouch 5 n 0 2 t)) := by
      refine ⟨ht.only, ht.regs, fun v hv => ?_, fun d => absurd d hd, ht.gens, ht.still⟩
      obtain ⟨w, hw, rfl⟩ := List.mem_map.1 hv
      obtain ⟨x, hx, e⟩ := ht.services w hw
      refine ⟨x, hx, Eq.trans ?_ e⟩
      split <;> rfl
    exact h.trans (he.queue ((QueueStep.refl _).sluMend _ _ _ _))
  · exact h.trans ht
theorem delayLinks (k x : Nat) : FlowStep g s (delayLinks k x t) :=
  h.trans (foldl (f := fun t (e : Nat × Nat) => Machine.readDelay e.2 t) _ (fun v e _ => (refl v).readDelay e.2) (refl t))
theorem putDelay (k x n : Nat) : FlowStep g s (putDelay k x n t) := (h.delayLinks k x).queue ((QueueStep.refl _).sluMend _ _ _ _)
theorem withMatching (f : Sluice → List MatchEntry) : FlowStep g s (withSlu (fun u => { u with matching := f u }) t) :=
  ⟨h.only, h.regs, h.services, h.clean, h.gens, h.still⟩
theorem withDelays (f : Sluice → List DelayEntry) : FlowStep g s (withSlu (fun u => { u with delays := f u }) t) :=
  ⟨h.only, h.regs, h.services, h.clean, h.gens, h.still⟩
theorem withRefused (f : Sluice → Nat) : FlowStep g s (withSlu (fun u => { u with refused := f u }) t) :=
  ⟨h.only, h.regs, h.services, h.clean, h.gens, h.still⟩
theorem setPlace (n : Nat) (p : SlotPlace) : FlowStep g s (setSlot n { slotOf t n with place := p } t) :=
  h.queue ((QueueStep.refl t).setSlot n (v := { slotOf t n with place := p }) rfl)
theorem dropMatch (m : MatchEntry) : FlowStep g s (dropMatch m t) := by
  unfold Machine.dropMatch; dsimp only; split
  · exact (h.withMatching _).delayLinks _ _
  · exact h.withMatching _
theorem readMatch (m : MatchEntry) : FlowStep g s (readMatch m t).1 := by
  unfold Machine.readMatch; extract_lets k ue v
  have hv : FlowStep g s v := h.queue ((QueueStep.refl t).sluTouch _ _ _ _)
  split
  · refine foldl _ (fun w n _ => (refl w).queue ((QueueStep.refl w).toException n _)) ?_
    exact (hv.queue ((QueueStep.refl v).sluMend _ _ _ _)).dropMatch m
  · exact hv
theorem delayOrQueue (f n d : Nat) : FlowStep g s (delayOrQueue f n d t) := by
  unfold Machine.delayOrQueue; split
  · exact h.queue ((QueueStep.refl t).pushTail f n)
  · split
    · have hp := fun k x => (((refl (g := True) t).putDelay k x n).gens trivial n).symm
      exact ((h.putDelay _ _ n).queue ((QueueStep.refl _).setSlot n (v := { slotOf t n with place := .delayed }) (hp _ _))).withDelays _
    · exact ((h.queue ((QueueStep.refl t).pushTail f n)).withRefused _).queue ((QueueStep.refl _).setIrq _ _ rfl)
theorem fuseItems (f : Nat) (ns : List Nat) : FlowStep g s (fuseItems f ns t) := by
  unfold Machine.fuseItems; split
  · exact h
  next n rest =>
    extract_lets d ops v src w
    have hv : FlowStep g s v := h.trans (foldl (f := fun t m => setSlot m { slotOf t m with place := .fusedInto } t) rest
      (fun x m _ => (refl x).setPlace m .fusedInto) (refl t))
    have hw : FlowStep g s w := by
      unfold w; split
      · exact hv
      · exact hv.queue ((QueueStep.refl v).setSlot n (v := { slotOf v n with fused := true, operands := rest.length, ops := ops }) rfl)
    exact hw.delayOrQueue _ _ _
theorem matchArrive (f n : Nat) : FlowStep g s (matchArrive f n t) := by
  unfold Machine.matchArrive; extract_lets tag isKey v src mto e w src'
  have hv : FlowStep g s v := by
    unfold v; split
    · exact h.readMatch _
    · exact h
  split
  · extract_lets ns
    split
    · exact (hv.dropMatch _).fuseItems f ns
    · exact (hv.setPlace n .matching).withMatching _
  · split
    · exact hv.queue (((QueueStep.refl v).toException n _).setIrq _ _ rfl)
    · have hw : FlowStep g s w := by
        unfold w; split
        · exact hv.queue ((QueueStep.refl v).sluMend _ _ _ _)
        · exact (hv.putDelay _ _ n).queue ((QueueStep.refl _).sluMend _ _ _ _)
      exact (hw.setPlace n .matching).withMatching _
/-- The place of an item that holds a slot (R189). -/
theorem arriveSlot (n : Nat) : FlowStep g s (arriveSlot n t) := by
  unfold Machine.arriveSlot; extract_lets f v w
  have hv : FlowStep g s v := h.queue ((QueueStep.refl t).sluTouch _ _ _ _)
  have hw : FlowStep g s w := by
    unfold w; split
    · exact hv.queue ((QueueStep.refl v).quarantineFlow f)
    · exact hv
  split
  · exact hw.queue ((QueueStep.refl w).toException n _)
  · split
    · exact hw.queue ((QueueStep.refl w).toException n _)
    · split
      · exact hw.matchArrive f n
      · exact hw.delayOrQueue f n _

end

section
variable (h : FlowStep False s t)
include h

theorem fillSlot (n : Nat) (a : Arrival) : FlowStep False s (fillSlot n a t) :=
  FlowStep.queue (t := setSlot n _ t) ⟨h.only, h.regs, h.services, h.clean, nofun, nofun⟩ ((QueueStep.refl _).sluMend _ _ _ _)
theorem payloadRead (x : Stalled) : FlowStep False s (payloadRead x t).2 := by
  unfold Machine.payloadRead; split
  · exact h
  · split
    · exact h
    · exact h.queue (.of_logs (onlyLogs_logRows (onlyLogs_refl t) _ _ _) (queueRegs_logRows (regsWithin_refl _ t) _ _ _))
theorem sendMsg (p : Nat) (m : Msg) : FlowStep False s (sendMsg p m t) :=
  h.trans (of_sent (onlySent_sendMsg (onlySent_refl t) p m) (sendMsg_regs p m t))
theorem sendArrive (x : Stalled) : FlowStep False s (sendArrive x t) := by
  unfold Machine.sendArrive; extract_lets r v
  have hr : FlowStep False s r.2 := h.payloadRead x
  have hv : FlowStep False s v := by
    unfold v; split
    · exact hr.queue ((QueueStep.refl _).returnGroup _ _)
    · exact hr
  split
  · exact hv.sendMsg _ _
  · exact ⟨hv.only, hv.regs, hv.services, hv.clean, nofun, nofun⟩
theorem stallPayload (x : Stalled) : FlowStep False s (stallPayload x t) := by
  unfold Machine.stallPayload; dsimp only; split
  · obtain ⟨l, e⟩ := bankTouch_eq x.bank t
    rw [e]; exact ⟨h.only, h.regs, h.services, h.clean, nofun, nofun⟩
  · exact ⟨h.only, h.regs, h.services, h.clean, nofun, nofun⟩
theorem forwardArrival (a : Arrival) : FlowStep False s (forwardArrival a t) := by
  unfold Machine.forwardArrival; extract_lets x; split
  · exact h.stallPayload x
  · exact h.sendArrive x
/-- An arriving item (R188, R189). -/
theorem itemArrive (a : Arrival) : FlowStep False s (itemArrive a t).1 := by
  unfold Machine.itemArrive; split
  · exact h.forwardArrival a
  · split
    · exact h
    · exact (h.fillSlot _ a).arriveSlot _
theorem bpEval : FlowStep False s (bpEval t) := by
  unfold Machine.bpEval; extract_lets ps v w
  have hv : FlowStep False s v := ⟨h.only, h.regs, h.services, h.clean, nofun, nofun⟩
  have hw : FlowStep False s w := by
    unfold w; split
    · exact hv.queue ((QueueStep.refl v).setIrq _ _ rfl)
    · exact hv
  refine foldl _ (fun x p _ => ?_) hw
  unfold tellBp; split
  · have hx : FlowStep False x (withSlu (fun u => { u with bpTold := tput false p (bpOf w p) u.bpTold }) x) :=
      ⟨rfl, regsWithin_refl _ x, (refl (g := False) x).services, (refl (g := False) x).clean, nofun, nofun⟩
    exact hx.queue ((QueueStep.refl _).controlItem p _)
  · exact refl x
theorem releaseHeld (n : Nat) : FlowStep False s (releaseHeld n t) := by
  induction n generalizing t with
  | zero => exact h
  | succ n ih =>
    unfold Machine.releaseHeld; split
    · exact h
    · next sg i _ =>
      have hh : FlowStep False s { t with lan := { t.lan with held := t.lan.held.eraseIdx i } } := ⟨h.only, h.regs, h.services, h.clean, nofun, nofun⟩
      exact ih (hh.itemArrive _).bpEval
/-- Back-pressure and the segments that it held (R207, R240). -/
theorem settle : FlowStep False s (settle t) := h.bpEval.releaseHeld _

end

section
variable (h : FlowStep g s t)
include h

theorem mem_rows : t.mem.rows = s.mem.rows := congrArg (·.mem.rows) h.only
theorem fab : t.fab = s.fab := congrArg (·.fab) h.only
theorem enrHeld : t.enr.held = s.enr.held := congrArg (·.enr.held) h.only

end

/-- Nothing for back-pressure to do, before as after. -/
theorem bpStill (h : FlowStep True s t) (hs : bpStill s) : bpStill t := by
  obtain ⟨hheld, htold, hpartner⟩ := h.still trivial
  have hp : t.slu.partners = s.slu.partners := congrArg (·.slu.partners) h.only
  unfold Machine.bpStill at *
  rw [hheld, htold, hpartner, hp]; exact hs

/-- Of the SLU page the flow of items writes IRQ_STAT alone, so that its STAT stays. -/
theorem busy (h : FlowStep g s t) : busy t pgSLU = busy s pgSLU := by
  have hr := h.regs (statA pgSLU) rfl
  unfold Machine.busy rdB
  rw [hr]

end FlowStep

-- Settling where nothing is to be done

/-- A partner without a watermark is under no partner rule (R207). -/
theorem bpRule_still (h : bpStill s) (p : Nat) : bpRule s p = false ∧ bit (partner0 s p) 30 = false := by
  obtain ⟨-, -, -, hp⟩ := h
  have hw : bit (partner0 s p) 30 = false ∧ fld (partner0 s p) 32 12 = 0 := by
    unfold partner0
    generalize s.slu.partners = l at hp
    induction l with
    | nil => simp [tget, bit, fld]
    | cons q l ih =>
      obtain ⟨j, w⟩ := q
      unfold tget; split
      · exact hp (j, w) (List.mem_cons_self ..)
      · exact ih fun q hq => hp q (List.mem_cons_of_mem _ hq)
  exact ⟨by simp [bpRule, hw.2], hw.1⟩

/-- The state with the device rule evaluated anew (R207). -/
def bpDeviceSet (s : State) : State :=
  let t := withSlu (fun u => { u with bpDevice := bpDeviceRule s }) s
  if !s.slu.bpDevice && bpDeviceRule s then setIrq pgSLU 2 t else t

theorem settle_still (h : bpStill s) : settle s = bpDeviceSet s := by
  have hrule := bpRule_still h
  obtain ⟨hheld, htold, hpartner, -⟩ := h
  have hrules : ∀ l : List Nat, l.foldl (fun m p => tput false p (bpRule s p) m) s.slu.bpPartner = s.slu.bpPartner := by
    intro l
    refine List.foldlRecOn (motive := fun m => m = s.slu.bpPartner) l _ rfl fun m hm p _ => ?_
    rw [hm, hpartner, (hrule p).1]; rfl
  have heval : bpEval s = bpDeviceSet s := by
    have hset : (bpDeviceSet s).slu = { s.slu with bpDevice := bpDeviceRule s } := by
      unfold bpDeviceSet; dsimp only; split <;> simp
    have hsame : ∀ p, tellBp (bpDeviceSet s) (bpDeviceSet s) p = bpDeviceSet s := by
      intro p
      have hw : bit (partner0 (bpDeviceSet s) p) 30 = false := by
        have := (hrule p).2
        unfold partner0 at *
        rw [hset]; exact this
      unfold tellBp bpOf
      rw [hset]; dsimp only
      rw [htold, hpartner, hw]; simp [tget]
    unfold bpEval; extract_lets ps v w
    have hv : v = withSlu (fun u => { u with bpDevice := bpDeviceRule s }) s := by
      unfold v withSlu; dsimp only
      rw [hrules]
    have hw : w = bpDeviceSet s := by
      unfold w bpDeviceSet
      rw [hv]; rfl
    rw [hw]
    exact List.foldlRecOn (motive := fun x => x = bpDeviceSet s) ps _ rfl fun x hx p _ => by rw [hx, hsame p]
  have hlan : (bpDeviceSet s).lan = s.lan := by
    unfold bpDeviceSet; dsimp only; split <;> simp
  unfold settle; dsimp only
  rw [heval, hlan, hheld]; rfl

/-- Settling then changes no more of Sluice than the device rule's outcome. -/
theorem settle_still_slu (h : bpStill s) : (settle s).slu = { s.slu with bpDevice := bpDeviceRule s } := by
  rw [settle_still h]; unfold bpDeviceSet; dsimp only; split <;> simp

end Sys2Proof.Machine
end

section
/-! Rings, SLU_CTRL, the tick, QUARANTINE and FLOW_RESET (R200, R206, R214, R215, R463). -/

namespace Sys2Proof.Machine

variable {s t : State}

-- Posted writes and flows

/-- A posted write that is neither gated nor dropped does what it says (R492). -/
theorem posted_open {p : Nat} {f : State → State} (hr : reaches s p = true) (hg : gated s p = false) (hb : busy s p = false) :
    posted p f s = f s := by
  unfold posted
  rw [guarded_open hr hg, hb]; rfl

theorem setFlowDyn_flows (f : Nat) (d : FlowDyn) (s : State) : (setFlowDyn f d s).slu.flows = tput .zero f d s.slu.flows := by
  unfold setFlowDyn; dsimp only; split <;> split <;> rfl
theorem reeval_flows (f : Nat) (s : State) : (reeval f s).slu.flows = s.slu.flows := by
  unfold reeval; dsimp only; split
  · split <;> rfl
  · rfl
theorem flowDyn_congr (h : t.slu.flows = s.slu.flows) (f : Nat) : flowDyn t f = flowDyn s f := by unfold flowDyn; rw [h]
theorem flowDyn_setFlowDyn_same (f : Nat) (d : FlowDyn) (s : State) : flowDyn (setFlowDyn f d s) f = d := by
  unfold flowDyn; rw [setFlowDyn_flows, tget_tput_same]
theorem flowDyn_setFlowDyn_other {f h : Nat} (hh : h ≠ f) (d : FlowDyn) (s : State) : flowDyn (setFlowDyn f d s) h = flowDyn s h := by
  unfold flowDyn; rw [setFlowDyn_flows, tget_tput_other _ _ hh]
@[simp] theorem flowDyn_reeval (f h : Nat) (s : State) : flowDyn (reeval f s) h = flowDyn s h := flowDyn_congr (reeval_flows f s) h
theorem setFlowDyn_slots (f : Nat) (d : FlowDyn) (s : State) : (setFlowDyn f d s).slu.slots = s.slu.slots := by
  unfold setFlowDyn; dsimp only; split <;> split <;> rfl
theorem setFlowDyn_flow0 (f : Nat) (d : FlowDyn) (s : State) : (setFlowDyn f d s).slu.flow0 = s.slu.flow0 := by
  unfold setFlowDyn; dsimp only; split <;> split <;> rfl
theorem reeval_slots (f : Nat) (s : State) : (reeval f s).slu.slots = s.slu.slots := by
  unfold reeval; dsimp only; split
  · split <;> rfl
  · rfl

/-- A quarantined flow is QUARANTINED whatever it holds (R181). -/
theorem flowState_quarantined {f : Nat} (h : (flowDyn s f).quarantined = true) : flowState s f = 3 := by
  unfold flowState; dsimp only; rw [if_pos h]

/-- A flow that is not READY is on no ready list of its priority (R182). -/
theorem reeval_off {f : Nat} (h : flowState s f ≠ 1) : f ∉ readyList (reeval f s) (fPriority s f) := by
  unfold reeval; dsimp only
  rw [if_neg h]
  simp [readyList, setReady, withSlu]

-- The rings (R206, R463)

theorem ringTail_holds (k : Nat) (v : Reg) (s : State) (hk : k < 6) (hr : reaches s (ringPage k) = true) (hg : gated s (ringPage k) = false) :
    ∃ t, exec (.ringTailWrite k v) s = .next t ∧ rdF t (ringHeadA k + 4) 0 (ringBits k) = fld v 0 (ringBits k)
      ∧ rdB t (ringHeadA k) (ringBits k) = false ∧ rdF t (ringHeadA k) 0 (ringBits k) = rdF s (ringHeadA k) 0 (ringBits k)
      ∧ regsBut [ringHeadA k, ringHeadA k + 4] s t ∧ onlyRegs s t := by
  have hb : ringBits k ≤ 10 := by unfold ringBits; split <;> omega
  refine ⟨_, rfl, ?_⟩
  rw [if_pos hk, guarded_open hr hg]
  have hne : ringHeadA k ≠ ringHeadA k + 4 := by omega
  refine ⟨?_, ?_, ?_, ?_, rfl⟩
  · rw [rdF_wrF_same _ _ _ _ _ (by omega)]
    exact Nat.mod_eq_of_lt (fld_lt v 0 _)
  · rw [rdB, rd_wrF_other _ hne, ← rdB, rdB_wrF_same _ _ _ _ _ _ (by omega) (by omega)]
    simp
  · rw [rdF, rd_wrF_other _ hne, ← rdF, rdF_wrF_other _ _ _ _ _ _ _ (by omega) (by omega)]
  · exact regsBut_wrF (regsBut_wrF (regsBut_refl _ s) (by simp) _ _ _) (by simp) _ _ _

-- SLU_CTRL (R215)

theorem writtenValue_sluCtrl (s : State) (v : Reg) (h : fld v 1 5 < 18) :
    writtenValue s (at' pgSLU 0x40) v = (setFld (setFld (rd s (at' pgSLU 0x40)) 1 5 (fld v 1 5)) 0 1 (fld v 0 1), false) := by
  have hf : regFields (at' pgSLU 0x40) = some [⟨5, 1, .rw, 2, .range 0 17⟩, ⟨0, 0, .rw, 0, .any⟩] := rfl
  unfold writtenValue
  rw [hf]
  have hok : Legal.ok (.range 0 17) (fld v 1 5) (rd s (at' pgSLU 0x40)) = true := by simp [Legal.ok]; omega
  simp only [List.foldl, writeField]
  rw [if_pos hok]; rfl

theorem sluCtrl_holds (v : Reg) (s : State) (hr : reaches s pgSLU = true) (hg : gated s pgSLU = false) (hv : fld v 1 5 < 18) :
    (rdB s (at' pgSLU 0x40) 0 = false ∨ fld v 1 5 = rdF s (at' pgSLU 0x40) 1 5 → ∃ t, exec (.sluCtrlWrite v) s = .next t
        ∧ rdB t (at' pgSLU 0x40) 0 = bit v 0 ∧ rdF t (at' pgSLU 0x40) 1 5 = fld v 1 5 ∧ regsBut [at' pgSLU 0x40] s t ∧ onlyRegs s t)
      ∧ (rdB s (at' pgSLU 0x40) 0 = true → fld v 1 5 ≠ rdF s (at' pgSLU 0x40) 1 5 → ∃ t, exec (.sluCtrlWrite v) s = .next t
        ∧ rd t (errA pgSLU) = 0x0642 ∧ rdB t (statA pgSLU) 2 = true ∧ regsBut [statA pgSLU, errA pgSLU] s t ∧ onlyRegs s t) := by
  have hexec : exec (.sluCtrlWrite v) s = .next (if fld v 1 5 < 18 && fld v 1 5 ≠ rdF s (at' pgSLU 0x40) 1 5 && rdB s (at' pgSLU 0x40) 0
      then setFault pgSLU 0x0642 s else writeReg (at' pgSLU 0x40) v s) := by
    change execSluCtrlWrite v s = _
    unfold execSluCtrlWrite; dsimp only
    rw [guarded_open hr hg]
  rw [hexec]
  constructor
  · intro h
    rw [if_neg (by rcases h with h | h <;> simp [h])]
    refine ⟨_, rfl, ?_⟩
    unfold writeReg
    rw [writtenValue_sluCtrl s v hv]
    refine ⟨?_, ?_, regsBut_wr (regsBut_refl _ s) (by simp) _, rfl⟩
    · rw [show ∀ w, rdB (noteReserved (at' pgSLU 0x40 / 0x1000) false (wr (at' pgSLU 0x40) w s)) (at' pgSLU 0x40) 0 = bit w 0 from
        fun w => by simp [noteReserved, rdB], bit_setFld_same _ _ _ _ _ (by omega) (by omega)]
      exact (fld_testBit v 0 1 0).trans (by simp [bit_eq_testBit])
    · rw [show ∀ w, rdF (noteReserved (at' pgSLU 0x40 / 0x1000) false (wr (at' pgSLU 0x40) w s)) (at' pgSLU 0x40) 1 5 = fld w 1 5 from
        fun w => by simp [noteReserved, rdF], fld_setFld_other _ _ _ _ _ _ (by omega) (by omega), fld_setFld_same _ _ _ _ (by omega)]
      exact Nat.mod_eq_of_lt (fld_lt v 1 5)
  · intro hen hne
    rw [if_pos (by simp [hv, hen, hne])]
    exact ⟨_, rfl, setFault_notes pgSLU 0x0642 s⟩

-- TICK (R200)

/-- Nothing but the pins' cells differs. -/
def onlyCells (s t : State) : Prop := { t with hst := { t.hst with uioCells := s.hst.uioCells } } = s

/-- The UIO clocks of a bank move the pins' cells alone (R519). -/
theorem onlyCells_bankTick (h : onlyCells s t) (n k : Nat) : onlyCells s (bankTick n t k) := by
  unfold bankTick; extract_lets runs d m; split
  · exact h
  · exact List.foldlRecOn (motive := onlyCells s) _ _ h fun _ hu _ _ => hu
theorem onlyCells_uioTick (n : Nat) (s : State) : onlyCells s (uioTick n s) :=
  List.foldlRecOn (motive := onlyCells s) _ _ rfl fun _ hu k _ => onlyCells_bankTick hu n k

theorem fillTick_frame (s : State) : (fillTick s).time = s.time ∧ rd (fillTick s) (at' pgSLU 0x40) = rd s (at' pgSLU 0x40) := by
  unfold fillTick; dsimp only; split
  · exact ⟨rfl, rfl⟩
  · exact ⟨rfl, rd_wrF_other _ (by decide) _ _ _⟩
theorem fillTick_idle (h : drcState s ≠ dFILL) : fillTick s = s := by unfold fillTick; rw [if_pos h]

/-- The tick number that the next tick's time gives (R200). -/
theorem next_tick {n L : Nat} (hL : 0 < L) (h : n + L < 2 ^ 64) : BitVec.ofNat 48 ((BitVec.ofNat 64 ((n / L + 1) * L)).toNat / L) = BitVec.ofNat 48 (n / L) + 1 := by
  have hle : (n / L + 1) * L ≤ n + L := by rw [Nat.add_mul, one_mul]; exact Nat.add_le_add_right (Nat.div_mul_le_self n L) L
  rw [BitVec.toNat_ofNat, Nat.mod_eq_of_lt (by omega), Nat.mul_div_cancel _ hL]
  apply BitVec.eq_of_toNat_eq; simp

theorem tick_holds (s : State) : ∃ t, exec .tick s = .next t ∧ ((∀ p, p < 7 → (enrPort s p).st = .down) →
    t.time = BitVec.ofNat 64 ((s.time.toNat / tickLen s + 1) * tickLen s)
      ∧ (s.time.toNat + tickLen s < 2 ^ 64 → tickNow t = tickNow s + 1)
      ∧ (drcState s ≠ dFILL → { t with time := s.time, hst := { t.hst with uioCells := s.hst.uioCells } } = s)) := by
  refine ⟨_, rfl, fun hdown => ?_⟩
  have hall : ((List.range 7).all fun p => (enrPort s p).st = .down) = true := by
    simpa [List.all_eq_true] using hdown
  dsimp only
  rw [if_pos hall]
  have hcells := onlyCells_uioTick s.time.toNat { s with time := BitVec.ofNat 64 ((s.time.toNat / tickLen s + 1) * tickLen s) }
  generalize uioTick _ _ = u at hcells ⊢
  have htime : u.time = BitVec.ofNat 64 ((s.time.toNat / tickLen s + 1) * tickLen s) := congrArg (·.time) hcells
  have hregs : u.regs = s.regs := congrArg (·.regs) hcells
  obtain ⟨hft, hfr⟩ := fillTick_frame u
  refine ⟨hft.trans htime, fun hlt => ?_, fun hd => ?_⟩
  · have hlen : tickLen (fillTick u) = tickLen s := by
      unfold tickLen rdF
      rw [hfr, rd_congr hregs]
    unfold tickNow
    rw [hlen, hft, htime]
    exact next_tick (by unfold tickLen; positivity) hlt
  · have hdu : drcState u ≠ dFILL := by
      unfold drcState rdF at *
      rwa [rd_congr hregs]
    rw [fillTick_idle hdu]
    unfold onlyCells at hcells
    calc { u with time := s.time, hst := { u.hst with uioCells := s.hst.uioCells } }
        = { ({ u with hst := { u.hst with uioCells := s.hst.uioCells } } : State) with time := s.time } := rfl
      _ = s := by rw [show ({ u with hst := { u.hst with uioCells := s.hst.uioCells } } : State) = _ from hcells]

-- QUARANTINE and FLOW_RESET (R214)

theorem quarantine_holds (f : BitVec 16) (s : State) (hr : reaches s pgSLU = true) (hg : gated s pgSLU = false) (hb : busy s pgSLU = false) :
    ∃ t, exec (.quarantine f) s = .next t ∧ (flowDyn t f.toNat).quarantined = true ∧ flowState t f.toNat = 3
      ∧ ((flowDyn s f.toNat).quarantined = false → f.toNat ∉ readyList t (fPriority s f.toNat) ∧ rdB t (irqA pgSLU) 3 = true)
      ∧ (∀ h, h ≠ f.toNat → flowDyn t h = flowDyn s h) ∧ t.slu.slots = s.slu.slots ∧ regsBut [irqA pgSLU] s t ∧ onlyWork s t := by
  refine ⟨quarantineFlow f.toNat s, ?_, ?_⟩
  · change Host.Outcome.next (posted pgSLU (quarantineFlow f.toNat) s) = _
    rw [posted_open hr hg hb]
  have hw := onlyWork_quarantineFlow (onlyWork_refl s) f.toNat
  cases hq : (flowDyn s f.toNat).quarantined with
  | true =>
    have he : quarantineFlow f.toNat s = s := by unfold quarantineFlow; rw [if_pos hq]
    rw [he] at hw ⊢
    exact ⟨hq, flowState_quarantined hq, nofun, fun _ _ => rfl, rfl, regsBut_refl _ s, hw⟩
  | false =>
    let d : FlowDyn := { flowDyn s f.toNat with quarantined := true }
    let v := setFlowDyn f.toNat d s
    have he : quarantineFlow f.toNat s = setIrq pgSLU 3 (reeval f.toNat v) := by unfold quarantineFlow; rw [if_neg (by simp [hq])]
    rw [he] at hw ⊢
    have hd : ∀ h, flowDyn (setIrq pgSLU 3 (reeval f.toNat v)) h = flowDyn v h := fun h =>
      (flowDyn_congr (t := setIrq pgSLU 3 (reeval f.toNat v)) (s := reeval f.toNat v) (by simp) h).trans (flowDyn_reeval _ _ v)
    have hself : flowDyn v f.toNat = d := flowDyn_setFlowDyn_same _ _ _
    have hquar : (flowDyn (setIrq pgSLU 3 (reeval f.toNat v)) f.toNat).quarantined = true := by rw [hd, hself]
    refine ⟨hquar, flowState_quarantined hquar, fun _ => ⟨?_, rdB_setIrq_same _ _ _ (by omega)⟩,
      fun h hne => (hd h).trans (flowDyn_setFlowDyn_other hne _ _), ?_, ?_, hw⟩
    · have hoff : f.toNat ∉ readyList (reeval f.toNat v) (fPriority v f.toNat) :=
        reeval_off (by rw [flowState_quarantined (by rw [hself])]; decide)
      have hp : fPriority v f.toNat = fPriority s f.toNat := by
        unfold fPriority flowW0; rw [show v.slu.flow0 = s.slu.flow0 from setFlowDyn_flow0 _ _ _]
      unfold readyList at *
      rw [← hp]; simpa using hoff
    · simp [v, reeval_slots, setFlowDyn_slots]
    · exact regsBut_setIrq (regsBut_of_regs (by simp [v])) (by simp) _

theorem flowReset_holds (f : BitVec 16) (s : State) (hr : reaches s pgSLU = true) (hg : gated s pgSLU = false) (hb : busy s pgSLU = false) :
    ((flowDyn s f.toNat).quarantined = true → ∃ t, exec (.flowReset f) s = .next t ∧ busy t pgSLU = true
        ∧ flowDyn t f.toNat = { flowDyn s f.toNat with resetting := true } ∧ (∀ h, h ≠ f.toNat → flowDyn t h = flowDyn s h)
        ∧ regsBut [statA pgSLU] s t ∧ onlyWork s t)
      ∧ ((flowDyn s f.toNat).quarantined = false → ∃ t, exec (.flowReset f) s = .next t ∧ rd t (errA pgSLU) = 0x0640
        ∧ regsBut [statA pgSLU, errA pgSLU] s t ∧ onlyRegs s t) := by
  have hexec : exec (.flowReset f) s = .next (if (flowDyn s f.toNat).quarantined
      then setBusy pgSLU true (setFlowDyn f.toNat { flowDyn s f.toNat with resetting := true } s) else setFault pgSLU 0x0640 s) := by
    change execFlowReset f s = _
    unfold execFlowReset
    rw [posted_open hr hg hb]
  rw [hexec]
  constructor
  · intro hq
    rw [if_pos hq]
    refine ⟨_, rfl, ?_, flowDyn_setFlowDyn_same _ _ _, fun h hne => flowDyn_setFlowDyn_other hne _ _, ?_, ?_⟩
    · unfold busy setBusy
      rw [rdB_wrF_same _ _ _ _ _ _ (by omega) (by omega)]; simp [b2n]
    · exact regsBut_wrF (regsBut_of_regs (by simp)) (by simp) _ _ _
    · exact onlyWork_wr (onlyWork_setFlowDyn (onlyWork_refl s) _ _) _ _ (by decide)
  · intro hq
    rw [if_neg (by simp [hq])]
    obtain ⟨herr, -, hregs, honly⟩ := setFault_notes pgSLU 0x0640 s
    exact ⟨_, rfl, herr, hregs, honly⟩

/-- The flow as its reset leaves it, before back-pressure. -/
def flowCleared (f : Nat) (s : State) : State :=
  let t := (flowDyn s f).queue.foldl (fun t n => releaseSlot n t) s
  reeval f (setFlowDyn f { (flowDyn t f).withQueue [] with quarantined := false, resetting := false } t)

theorem execFlowResetDone_eq {f : BitVec 16} (h : (flowDyn s f.toNat).resetting = true) :
    exec (.flowResetDone f) s = .next (settle (setBusy pgSLU false (flowCleared f.toNat s))) := by
  change execFlowResetDone f s = _
  unfold execFlowResetDone; dsimp only
  rw [if_pos h]; rfl

theorem flowCleared_step (f : Nat) (s : State) : QueueStep s (flowCleared f s) :=
  ((QueueStep.foldl _ (fun t n _ => (QueueStep.refl t).releaseSlot n) (QueueStep.refl s)).setFlowDyn f _).reeval f
theorem onlyWork_flowCleared (f : Nat) (s : State) : onlyWork s (flowCleared f s) :=
  onlyWork_reeval (onlyWork_setFlowDyn
    (List.foldlRecOn (motive := onlyWork s) _ _ (onlyWork_refl s) fun _ hu n _ => onlyWork_releaseSlot hu n) _ _) _

theorem flowResetDone_holds (f : BitVec 16) (s : State) (h : (flowDyn s f.toNat).resetting = true) :
    ∃ t, exec (.flowResetDone f) s = .next t ∧ busy t pgSLU = false ∧ onlyWork s t
      ∧ (bpStill s → (flowDyn t f.toNat).quarantined = false ∧ (flowDyn t f.toNat).resetting = false ∧ (flowDyn t f.toNat).queue = []) := by
  refine ⟨_, execFlowResetDone_eq h, ?_, ?_, fun hs => ?_⟩
  · rw [((FlowStep.refl _).settle).busy]
    unfold busy setBusy
    rw [rdB_wrF_same _ _ _ _ _ _ (by omega) (by omega)]; simp [b2n]
  · exact onlyWork_settle (onlyWork_wr (onlyWork_flowCleared _ s) _ _ (by decide))
  · have hstill : bpStill (setBusy pgSLU false (flowCleared f.toNat s)) := (flowCleared_step _ s).bpStill hs
    have hflow : flowDyn (settle (setBusy pgSLU false (flowCleared f.toNat s))) f.toNat = flowDyn (flowCleared f.toNat s) f.toNat :=
      flowDyn_congr (by rw [settle_still_slu hstill]; rfl) _
    unfold flowCleared at hflow; dsimp only at hflow
    rw [flowDyn_reeval, flowDyn_setFlowDyn_same] at hflow
    unfold flowCleared; dsimp only
    rw [hflow]; exact ⟨rfl, rfl, rfl⟩

/-- Settles O24: each command on its own. -/
theorem ringsAndFlowCommands : Obligations.RingsAndFlowCommands := by
  unfold Obligations.RingsAndFlowCommands
  exact ⟨⟨ringTail_holds, sluCtrl_holds, tick_holds⟩, fun f s =>
    ⟨fun hr hg hb => ⟨quarantine_holds f s hr hg hb, flowReset_holds f s hr hg hb⟩, flowResetDone_holds f s⟩⟩

end Sys2Proof.Machine
end

section
/-! The words that the table windows hold in Sluice and in the lanes (R176): what the flow of items and the lane machine leave of them. -/

namespace Sys2Proof.Machine

variable {s t : State} {l : Nat}

/-- The words of the windows that can be written, but the retirement table's, with the windows' buffers. -/
def tablesOf (s : State) : (Tab Word × Tab Word × Tab Word × Tab Word) × Tab (Option Word) × Tab (Option (Nat × Reg)) × Tab Word :=
  ((s.slu.partners, s.slu.flow0, s.slu.flow1, s.slu.groups), s.slu.groupsSt, s.slu.winBuf, s.lan.rungs)

theorem FlowStep.tables {g : Prop} (h : FlowStep g s t) : tablesOf t = tablesOf s := by
  have ho : _ = s := h.only
  have e := congrArg tablesOf ho
  exact e
theorem tablesOf_of_logs (h : onlyLogs s t) : tablesOf t = tablesOf s := by
  have ho : _ = s := h
  have e := congrArg tablesOf ho
  exact e

theorem tablesOf_foldl {β : Type} {f : State → β → State} (xs : List β) (hf : ∀ t, ∀ b ∈ xs, tablesOf (f t b) = tablesOf t) (s : State) :
    tablesOf (xs.foldl f s) = tablesOf s :=
  xs.foldlRecOn (motive := fun t => tablesOf t = tablesOf s) f rfl fun t ht b hb => (hf t b hb).trans ht

@[simp] theorem tablesOf_wr (a : Nat) (v : Reg) (s : State) : tablesOf (wr a v s) = tablesOf s := (rfl)
@[simp] theorem tablesOf_setIrq (p b : Nat) (s : State) : tablesOf (setIrq p b s) = tablesOf s := by simp [tablesOf]
@[simp] theorem tablesOf_wrF (a lo n x : Nat) (s : State) : tablesOf (wrF a lo n x s) = tablesOf s := (rfl)
@[simp] theorem tablesOf_incF (a lo n k : Nat) (s : State) : tablesOf (incF a lo n k s) = tablesOf s := (rfl)
@[simp] theorem tablesOf_setFault (p c : Nat) (s : State) : tablesOf (setFault p c s) = tablesOf s := (rfl)
@[simp] theorem tablesOf_setLane (l : Nat) (v : Lane) (s : State) : tablesOf (setLane l v s) = tablesOf s := (rfl)
@[simp] theorem tablesOf_setTxIndex (g i : Nat) (s : State) : tablesOf (setTxIndex g i s) = tablesOf s := (rfl)
@[simp] theorem tablesOf_setEgress (l c : Nat) (q : List Egress) (s : State) : tablesOf (setEgress l c q s) = tablesOf s := (rfl)
@[simp] theorem tablesOf_setIncoming (l : Nat) (v : Option Incoming) (s : State) : tablesOf (setIncoming l v s) = tablesOf s := (rfl)
@[simp] theorem tablesOf_putSeg (g : Segment) (s : State) : tablesOf (putSeg g s) = tablesOf s := (rfl)
@[simp] theorem tablesOf_noteDrop (k c : Nat) (s : State) : tablesOf (noteDrop k c s) = tablesOf s := (rfl)
@[simp] theorem tablesOf_returnGroup (b r : Nat) (s : State) : tablesOf (returnGroup b r s) = tablesOf s := (rfl)
@[simp] theorem tablesOf_takeGroup (g : Nat) (s : State) : tablesOf (takeGroup g s) = tablesOf s := (rfl)
@[simp] theorem tablesOf_settle (s : State) : tablesOf (settle s) = tablesOf s := ((FlowStep.refl s).settle).tables
@[simp] theorem tablesOf_itemArrive (a : Arrival) (s : State) : tablesOf (itemArrive a s).1 = tablesOf s := ((FlowStep.refl s).itemArrive a).tables
@[simp] theorem tablesOf_sluTouch (k e lo hi : Nat) (s : State) : tablesOf (sluTouch k e lo hi s) = tablesOf s :=
  (FlowStep.of_queue (g := True) ((QueueStep.refl s).sluTouch k e lo hi)).tables

-- Rows and banks

@[simp] theorem tablesOf_bankTouch (b : Nat) (s : State) : tablesOf (bankTouch b s) = tablesOf s := by
  obtain ⟨l, e⟩ := bankTouch_eq b s; rw [e]; rfl
@[simp] theorem tablesOf_rowLog (b r : Nat) (s : State) : tablesOf (rowLog b r s) = tablesOf s := tablesOf_of_logs (onlyLogs_rowLog (onlyLogs_refl s) b r)
theorem tablesOf_writeCode (b r w m : Nat) (x : Word) (s : State) : tablesOf (writeCode b r w m x s) = tablesOf s := by
  have hput : ∀ c, tablesOf (putRowCode b r w c s) = tablesOf s := fun _ => rfl
  unfold writeCode; split
  · rfl
  · split
    · exact hput _
    · split
      · exact hput _
      · rfl
@[simp] theorem tablesOf_rowWrite (b r : Nat) (m : BitVec 1024) (d : BitVec 8192) (s : State) : tablesOf (rowWrite b r m d s) = tablesOf s := by
  unfold rowWrite
  rw [tablesOf_foldl _ fun t w _ => tablesOf_writeCode b r w _ _ t]
  split
  · exact tablesOf_rowLog b r s
  · rfl
@[simp] theorem tablesOf_writeBytes (b r o : Nat) (bs : List Byte) (s : State) : tablesOf (writeBytes b r o bs s) = tablesOf s := by
  unfold writeBytes; dsimp only
  rw [tablesOf_foldl _ fun _ _ _ => tablesOf_rowWrite ..]
@[simp] theorem tablesOf_bankRefuse (q n b r : Nat) (s : State) : tablesOf (bankRefuse q n b r s) = tablesOf s := by
  have hrec : ∀ a v, tablesOf (recordFirst a v s) = tablesOf s := fun a v => by unfold recordFirst; split <;> simp
  unfold bankRefuse; dsimp only; split <;> simp [hrec]
@[simp] theorem tablesOf_refuseHanded (typ lim : Nat) (s : State) : tablesOf (refuseHanded typ lim s) = tablesOf s := by
  unfold refuseHanded
  rw [tablesOf_foldl _ fun _ _ _ => tablesOf_bankRefuse ..]

-- Intake (R236 to R240)

@[simp] theorem tablesOf_intakeDrop (l c : Nat) (s : State) : tablesOf (intakeDrop l c s) = tablesOf s := by simp [intakeDrop]
@[simp] theorem tablesOf_closeSegment (g : Segment) (s : State) : tablesOf (closeSegment g s) = tablesOf s := by
  unfold closeSegment; dsimp only; split
  · simp
  · split
    · rfl
    · simp
@[simp] theorem tablesOf_endSegment (g : Segment) (s : State) : tablesOf (endSegment g s) = tablesOf s := by
  simp only [endSegment, tablesOf_closeSegment, tablesOf_writeBytes, tablesOf_bankTouch]; rfl
@[simp] theorem tablesOf_beginSegment (l : Nat) (b : BitVec 6) (p r : Nat) (records first : Bool) (a : BitVec 32) (s : State) :
    tablesOf (beginSegment l b p r records first a s).2 = tablesOf s := by
  unfold beginSegment; split <;> simp
theorem tablesOf_matchPartner (l b n : Nat) (s : State) : tablesOf (matchPartner l b n s).2 = tablesOf s := by
  induction n generalizing s with
  | zero => rfl
  | succ n ih =>
    unfold matchPartner; split
    · rfl
    · dsimp only; split
      · exact (ih _).trans (tablesOf_sluTouch ..)
      · simp
@[simp] theorem tablesOf_addRecord (l : Nat) (b : BitVec 6) (p r : Nat) (rec : List Byte) (a : BitVec 32) (s : State) :
    tablesOf (addRecord l b p r rec a s) = tablesOf s := by
  unfold addRecord; extract_lets v
  have hv : tablesOf v = tablesOf s := by
    unfold v; split
    · split <;> simp
    · rfl
  have hb := tablesOf_beginSegment l b p r true false a v
  split
  · exact hv
  · split <;> next e => rw [e] at hb; simpa [hv] using hb
theorem tablesOf_plainFill (l : Nat) (b : BitVec 6) (p r : Nat) (err trunc ends : Bool) (a : BitVec 32) (n : Nat) (first : Bool) (bs : List Byte)
    (s : State) : tablesOf (plainFill l b p r err trunc ends a n first bs s).1 = tablesOf s := by
  induction n generalizing first bs s with
  | zero => rfl
  | succ n ih =>
    unfold plainFill; extract_lets cur
    have hc : tablesOf cur.2 = tablesOf s := by
      unfold cur; split
      · rfl
      · split
        · rfl
        · exact tablesOf_beginSegment ..
    clear_value cur
    obtain ⟨g, v⟩ := cur
    change tablesOf v = _ at hc
    cases g with
    | none => dsimp only; split <;> simp [hc]
    | some g =>
      dsimp only; split
      · dsimp only; split <;> simp [hc]
      · rw [ih, tablesOf_endSegment, hc]
@[simp] theorem tablesOf_feedFrame (l : Nat) (r0 : Word) (r : Nat) (bs : List Byte) (err ends trunc : Bool) (s : State) :
    tablesOf (feedFrame l r0 r bs err ends trunc s) = tablesOf s := by
  unfold feedFrame; extract_lets i j b
  split
  · rfl
  · split
    · rfl
    · split
      · rfl
      · split
        next d v e =>
        have hv : tablesOf v = tablesOf s := by
          split at e
          · cases e; rfl
          · have hm := tablesOf_matchPartner l b.toNat 4096 s
            split at e <;> next e' => cases e; rw [e'] at hm; exact hm
        split
        · simp [hv]
        · dsimp only; split
          · split <;> simp [hv]
          · rw [tablesOf_setIncoming, tablesOf_plainFill]
            split
            · exact hv
            · split <;> simp [hv]
@[simp] theorem tablesOf_cutFrames (l m : Nat) (s : State) : tablesOf (cutFrames l m s) = tablesOf s := by
  unfold cutFrames; dsimp only
  rw [tablesOf_foldl _ fun _ _ _ => tablesOf_endSegment ..]
  split <;> simp
@[simp] theorem tablesOf_cutLane (l : Nat) (s : State) : tablesOf (cutLane l s) = tablesOf s := by
  unfold cutLane; split <;> simp

-- Egress and the states of a lane (R229, R238, R242)

@[simp] theorem tablesOf_discardEgress (l : Nat) (s : State) : tablesOf (discardEgress l s) = tablesOf s := by
  have hq : tablesOf ((List.range 8).foldl (fun t c => setEgress l c [] t) s) = tablesOf s :=
    tablesOf_foldl _ (fun _ _ _ => tablesOf_setEgress ..) s
  unfold discardEgress egressDrop; split <;> simp [hq]
@[simp] theorem tablesOf_laneDown (l : Nat) (s : State) : tablesOf (laneDown l s) = tablesOf s := by
  unfold laneDown
  rw [tablesOf_foldl _ fun t w _ => by split <;> simp]
  exact tablesOf_setIrq ..
@[simp] theorem tablesOf_clearLocks (s : State) (l : Nat) : tablesOf (clearLocks s l) = tablesOf s := by
  unfold clearLocks restartAdapt
  exact tablesOf_foldl _ (fun t m _ => by simp) s
theorem tablesOf_resetPrbs (l : Nat) (s : State) : tablesOf (resetPrbs l s) = tablesOf s := rfl
@[simp] theorem tablesOf_enterRung (l : Nat) (k : Option Nat) (s : State) : tablesOf (enterRung l k s) = tablesOf s := by
  unfold enterRung noRung; split <;> simp
@[simp] theorem tablesOf_enterDiag (l : Nat) (s : State) : tablesOf (laneEval.enterDiag l s) = tablesOf s := by
  unfold laneEval.enterDiag; dsimp only
  rw [tablesOf_setLane, tablesOf_foldl _ fun _ _ _ => tablesOf_resetPrbs ..]
  exact tablesOf_clearLocks s l
@[simp] theorem tablesOf_enterLifeline (l : Nat) (s : State) : tablesOf (enterLifeline l s) = tablesOf s := by
  unfold enterLifeline; dsimp only; split <;> simp
@[simp] theorem tablesOf_setLaneState (l : Nat) (v : LaneState) (s : State) : tablesOf (setLaneState l v s) = tablesOf s := (rfl)
theorem tablesOf_moveLane (l : Nat) {f : State → State} (hf : ∀ u, tablesOf (f u) = tablesOf u) (s : State) :
    tablesOf (moveLane l f s) = tablesOf s := by
  unfold moveLane; split <;> simp [hf]
@[simp] theorem tablesOf_laneEval (l : Nat) (s : State) : tablesOf (laneEval l s) = tablesOf s := by
  refine tablesOf_moveLane l (fun u => ?_) s
  split
  · split
    · split <;> simp
    · rfl
  · split <;> (repeat' split) <;> simp
@[simp] theorem tablesOf_settleLanes (ls : List Nat) (s : State) : tablesOf (settleLanes ls s) = tablesOf s :=
  tablesOf_foldl _ (fun t l _ => by simp [laneSettle]) s

end Sys2Proof.Machine
end

section
/-! The table windows of Sluice (R176). -/

namespace Sys2Proof.Machine

variable {s t : State} {a b w : Nat} {v : Reg} {x : Word}

-- Addresses

theorem windowOf_eq0 : windowOf a = some 0 ↔ 0x100000 ≤ a ∧ a < 0x110000 := by unfold windowOf; grind
theorem windowOf_eq1 : windowOf a = some 1 ↔ 0x200000 ≤ a ∧ a < 0x400000 := by unfold windowOf; grind
theorem windowOf_eq4 : windowOf a = some 4 ↔ 0x120000 ≤ a ∧ a < 0x122400 := by unfold windowOf; grind
theorem windowOf_eq5 : windowOf a = some 5 ↔ 0x130000 ≤ a ∧ a < 0x132000 := by unfold windowOf; grind

/-- The words that can be written are partners' words 0, flows' words 0 and 1, and those of groups, rungs and retirement (R176). -/
theorem tableRo_cases (h : tableRo a = false) : (windowOf a = some 0 ∧ a / 8 % 2 = 0) ∨ (windowOf a = some 1 ∧ a / 8 % 4 < 2)
    ∨ windowOf a = some 2 ∨ windowOf a = some 4 ∨ windowOf a = some 5 := by
  unfold tableRo at h
  split at h
  · next e => exact .inl ⟨e, by simp at h; omega⟩
  · next e => exact .inr (.inl ⟨e, by simpa using h⟩)
  · next e => exact .inr (.inr (.inl e))
  · next e => exact .inr (.inr (.inr (.inl e)))
  · next e => exact .inr (.inr (.inr (.inr e)))
  · cases h

-- Reading a word

theorem tableWord_partner (h : windowOf a = some 0) (hw : a / 8 % 2 = 0) (s : State) : tableWord s a = partner0 s ((a - 0x100000) / 16) := by
  unfold tableWord; rw [h]; exact if_pos hw
theorem tableWord_flow0 (h : windowOf a = some 1) (hw : a / 8 % 4 = 0) (s : State) : tableWord s a = flowW0 s ((a - 0x200000) / 32) := by
  unfold tableWord; rw [h, hw]; rfl
theorem tableWord_flow1 (h : windowOf a = some 1) (hw : a / 8 % 4 = 1) (s : State) : tableWord s a = flowW1 s ((a - 0x200000) / 32) := by
  unfold tableWord; rw [h, hw]; rfl
theorem tableWord_group (h : windowOf a = some 2) (s : State) :
    tableWord s a = if a / 8 % 8 < 5 then groupW s ((a - 0x110000) / 64) (a / 8 % 8) else 0 := by unfold tableWord; rw [h]; rfl
theorem tableWord_rung (h : windowOf a = some 4) (s : State) :
    tableWord s a = tget 0 ((a - 0x120000) / 8 % 32 + 32 * ((a - 0x120000) / 256)) s.lan.rungs := by
  obtain ⟨hlo, hhi⟩ := windowOf_eq4.1 h
  have hk : 32 * ((a - 0x120000) / 256) + 2 * (a / 16 % 16) + a / 8 % 2 = (a - 0x120000) / 8 % 32 + 32 * ((a - 0x120000) / 256) := by omega
  rw [← hk]; unfold tableWord; rw [h]; rfl
theorem tableWord_retire (h : windowOf a = some 5) (s : State) : tableWord s a = tget 0 ((a - 0x130000) / 8) s.drm.retire := by
  unfold tableWord; rw [h]; rfl

/-- A word that can be written is a partner's, a flow's, a group's, a rung's or a retirement entry's. -/
theorem tableWord_parts (hb : tableRo b = false)
    (hp : windowOf b = some 0 → b / 8 % 2 = 0 → partner0 t ((b - 0x100000) / 16) = partner0 s ((b - 0x100000) / 16))
    (h0 : windowOf b = some 1 → b / 8 % 4 = 0 → flowW0 t ((b - 0x200000) / 32) = flowW0 s ((b - 0x200000) / 32))
    (h1 : windowOf b = some 1 → b / 8 % 4 = 1 → flowW1 t ((b - 0x200000) / 32) = flowW1 s ((b - 0x200000) / 32))
    (hg : t.slu.groups = s.slu.groups)
    (hr : windowOf b = some 4 → tget 0 ((b - 0x120000) / 8 % 32 + 32 * ((b - 0x120000) / 256)) t.lan.rungs
      = tget 0 ((b - 0x120000) / 8 % 32 + 32 * ((b - 0x120000) / 256)) s.lan.rungs)
    (hd : windowOf b = some 5 → tget 0 ((b - 0x130000) / 8) t.drm.retire = tget 0 ((b - 0x130000) / 8) s.drm.retire) :
    tableWord t b = tableWord s b := by
  rcases tableRo_cases hb with ⟨hv, hw⟩ | ⟨hv, hw⟩ | hv | hv | hv
  · rw [tableWord_partner hv hw, tableWord_partner hv hw, hp hv hw]
  · obtain hw | hw : b / 8 % 4 = 0 ∨ b / 8 % 4 = 1 := by omega
    · rw [tableWord_flow0 hv hw, tableWord_flow0 hv hw, h0 hv hw]
    · rw [tableWord_flow1 hv hw, tableWord_flow1 hv hw, h1 hv hw]
  · rw [tableWord_group hv, tableWord_group hv, groupW, hg]; rfl
  · rw [tableWord_rung hv, tableWord_rung hv, hr hv]
  · rw [tableWord_retire hv, tableWord_retire hv, hd hv]

theorem tableWord_congr (h : tablesOf t = tablesOf s) (hd : t.drm.retire = s.drm.retire) (hb : tableRo b = false) : tableWord t b = tableWord s b := by
  simp only [tablesOf, Prod.mk.injEq] at h
  obtain ⟨⟨hp, h0, h1, hg⟩, -, -, hr⟩ := h
  exact tableWord_parts hb (fun _ _ => by rw [partner0, hp]; rfl) (fun _ _ => by rw [flowW0, h0]; rfl) (fun _ _ => by rw [flowW1, h1]; rfl) hg
    (fun _ => by rw [hr]) (fun _ => by rw [hd])

-- Writing a word

/-- The word in its table, before anything follows from it; the retirement table stands for itself. -/
def tableStored (a : Nat) (x : Word) (s : State) : State :=
  match windowOf a with
  | some 0 => withSlu (fun u => { u with partners := tput 0 ((a - 0x100000) / 16) x u.partners }) s
  | some 1 => if a / 8 % 4 = 0 then withSlu (fun u => { u with flow0 := tput 0 ((a - 0x200000) / 32) x u.flow0 }) s
    else withSlu (fun u => { u with flow1 := tput 0 ((a - 0x200000) / 32) x u.flow1 }) s
  | some 2 => if a / 8 % 8 < 5 then withSlu (fun u => { u with groupsSt := tput none ((a - 0x110000) / 8) (some x) u.groupsSt }) s else s
  | some 4 => withLan (fun u => { u with rungs := tput 0 ((a - 0x120000) / 8 % 32 + 32 * ((a - 0x120000) / 256)) x u.rungs }) s
  | some 5 => withDrm (fun d => { d with retire := tput 0 ((a - 0x130000) / 8) (setFld x 62 1 0) d.retire }) s
  | _ => s

/-- The state with a retirement entry, and the copies that it asks for. -/
def retireSet (e : Nat) (y : Word) (c : List Nat → List Nat) (s : State) : State :=
  withDrm (fun d => { d with retire := tput 0 e y d.retire, copying := c d.copying }) s
theorem tableWord_retireSet {e : Nat} (hb : tableRo b = false) (he : windowOf b = some 5 → (b - 0x130000) / 8 ≠ e) (y : Word)
    (c : List Nat → List Nat) (s : State) : tableWord (retireSet e y c s) b = tableWord s b :=
  tableWord_parts hb (fun _ _ => rfl) (fun _ _ => rfl) (fun _ _ => rfl) rfl (fun _ => rfl) fun hv => tget_tput_other _ _ (he hv) _ _

theorem tableStored_partner (h : windowOf a = some 0) (x : Word) (s : State) :
    tableStored a x s = withSlu (fun u => { u with partners := tput 0 ((a - 0x100000) / 16) x u.partners }) s := by
  unfold tableStored; rw [h]; rfl
theorem tableStored_flow (h : windowOf a = some 1) (x : Word) (s : State) :
    tableStored a x s = if a / 8 % 4 = 0 then withSlu (fun u => { u with flow0 := tput 0 ((a - 0x200000) / 32) x u.flow0 }) s
      else withSlu (fun u => { u with flow1 := tput 0 ((a - 0x200000) / 32) x u.flow1 }) s := by
  unfold tableStored; rw [h]; rfl
theorem tableStored_group (h : windowOf a = some 2) (x : Word) (s : State) :
    tableStored a x s = if a / 8 % 8 < 5 then withSlu (fun u => { u with groupsSt := tput none ((a - 0x110000) / 8) (some x) u.groupsSt }) s
      else s := by
  unfold tableStored; rw [h]; rfl
theorem tableStored_rung (h : windowOf a = some 4) (x : Word) (s : State) :
    tableStored a x s
      = withLan (fun u => { u with rungs := tput 0 ((a - 0x120000) / 8 % 32 + 32 * ((a - 0x120000) / 256)) x u.rungs }) s := by
  unfold tableStored; rw [h]; rfl
theorem tableStored_retire (h : windowOf a = some 5) (x : Word) (s : State) :
    tableStored a x s = retireSet ((a - 0x130000) / 8) (setFld x 62 1 0) id s := by
  unfold tableStored; rw [h]; rfl

theorem commitTable_partner (h : windowOf a = some 0) (x : Word) (s : State) :
    commitTable a x s = settle (sluMend 0 ((a - 0x100000) / 16) 0 2 (withSlu (fun u => { u with
      partners := tput 0 ((a - 0x100000) / 16) x u.partners, pFault := tput false ((a - 0x100000) / 16) false u.pFault }) s)) := by
  unfold commitTable; rw [h]; rfl
theorem commitTable_flow (h : windowOf a = some 1) (x : Word) (s : State) :
    commitTable a x s = if a / 8 % 4 = 0 then reeval ((a - 0x200000) / 32) (sluMend 1 ((a - 0x200000) / 32) 0 1
        (withSlu (fun u => { u with flow0 := tput 0 ((a - 0x200000) / 32) x u.flow0 }) s))
      else sluMend 1 ((a - 0x200000) / 32) 1 2 (withSlu (fun u => { u with flow1 := tput 0 ((a - 0x200000) / 32) x u.flow1 }) s) := by
  unfold commitTable; rw [h]; rfl
theorem commitTable_group (h : windowOf a = some 2) (x : Word) (s : State) :
    commitTable a x s = if a / 8 % 8 < 5 then
        wrF (statA pgSLU) 1 1 1 (withSlu (fun u => { u with groupsSt := tput none ((a - 0x110000) / 8) (some x) u.groupsSt }) s)
      else s := by
  unfold commitTable; rw [h]; rfl
theorem commitTable_rung (h : windowOf a = some 4) (x : Word) (s : State) :
    commitTable a x s = settleLanes (quadLanes ((a - 0x120000) / 256))
      (withLan (fun u => { u with rungs := tput 0 ((a - 0x120000) / 8 % 32 + 32 * ((a - 0x120000) / 256)) x u.rungs }) s) := by
  unfold commitTable; rw [h]; rfl
theorem commitTable_retire (h : windowOf a = some 5) (x : Word) (s : State) :
    commitTable a x s = retireSet ((a - 0x130000) / 8) (setFld x 62 1 0) (fun l =>
      (l.filter fun k => decide (k ≠ (a - 0x130000) / 8)) ++ (if bit x 63 && bit x 62 then [(a - 0x130000) / 8] else [])) s := by
  unfold commitTable; rw [h]; rfl

theorem FlowStep.drm {g : Prop} (h : FlowStep g s t) : t.drm = s.drm := congrArg (·.drm) h.only
theorem FlowStep.stores {g : Prop} (h : FlowStep g s t) : storesKept s t := by
  have hf := h.fab
  have ho : _ = s := h.only
  have hs : t.sec = s.sec := by
    have e := congrArg (·.sec) ho
    exact e
  exact ⟨by rw [hf], by rw [hf], by rw [hf], by rw [hf], by rw [hf], by rw [hf], h.mem_rows, by rw [h.drm], by rw [hs]⟩

theorem mem_quadLanes_lt {q m : Nat} (hq : q < 36) (h : m ∈ quadLanes q) : m < 144 := by
  obtain ⟨k, hk, rfl⟩ := List.mem_map.1 h
  rw [List.mem_range] at hk; omega

/-- A word that is written leaves the words of every table as they are once it is stored, and the pages off the flow of items. -/
def tableFollows (s t u : State) : Prop :=
  tablesOf u = tablesOf t ∧ u.drm.retire = t.drm.retire ∧ ∀ b, workPage (b / 0x1000) = false → rd u b = rd s b

theorem storesKept_refl (s : State) : storesKept s s := ⟨rfl, rfl, rfl, rfl, rfl, rfl, rfl, rfl, rfl⟩
theorem tableFollows_self (h : ∀ b, rd t b = rd s b) : tableFollows s t t := ⟨rfl, rfl, fun b _ => h b⟩

/-- Of what is written with a partner's word, `pFault` is not among the tables. -/
theorem partner_follows (p : Nat) (x : Word) (f : Tab Bool → Tab Bool) (s : State) :
    tableFollows s (withSlu (fun u => { u with partners := tput 0 p x u.partners }) s)
        (settle (sluMend 0 p 0 2 (withSlu (fun u => { u with partners := tput 0 p x u.partners, pFault := f u.pFault }) s)))
      ∧ storesKept s (settle (sluMend 0 p 0 2 (withSlu (fun u => { u with partners := tput 0 p x u.partners, pFault := f u.pFault }) s))) := by
  generalize hv : withSlu (fun u => { u with partners := tput 0 p x u.partners, pFault := f u.pFault }) s = v
  have hf := ((FlowStep.refl (g := False) v).queue ((QueueStep.refl v).sluMend 0 p 0 2)).settle
  have ht := hf.tables
  have hst := hf.stores
  have hd := hf.drm
  have hwork := (onlyWork_settle (onlyWork_sluMend (onlyWork_refl v) 0 p 0 2)).2
  subst hv
  exact ⟨⟨ht, by rw [hd]; rfl, hwork⟩, hst⟩
theorem flow0_follows (f : Nat) (x : Word) (s : State) :
    tableFollows s (withSlu (fun u => { u with flow0 := tput 0 f x u.flow0 }) s)
        (reeval f (sluMend 1 f 0 1 (withSlu (fun u => { u with flow0 := tput 0 f x u.flow0 }) s)))
      ∧ storesKept s (reeval f (sluMend 1 f 0 1 (withSlu (fun u => { u with flow0 := tput 0 f x u.flow0 }) s))) := by
  generalize hv : withSlu (fun u => { u with flow0 := tput 0 f x u.flow0 }) s = v
  have hf : FlowStep True v (reeval f (sluMend 1 f 0 1 v)) := .of_queue (((QueueStep.refl v).sluMend _ _ _ _).reeval _)
  have ht := hf.tables
  have hst := hf.stores
  have hd := hf.drm
  subst hv
  exact ⟨⟨ht, by rw [hd], fun b _ => rd_congr (by simp) b⟩, hst⟩
theorem flow1_follows (f : Nat) (x : Word) (s : State) :
    tableFollows s (withSlu (fun u => { u with flow1 := tput 0 f x u.flow1 }) s)
        (sluMend 1 f 1 2 (withSlu (fun u => { u with flow1 := tput 0 f x u.flow1 }) s))
      ∧ storesKept s (sluMend 1 f 1 2 (withSlu (fun u => { u with flow1 := tput 0 f x u.flow1 }) s)) :=
  ⟨⟨rfl, rfl, fun _ _ => rfl⟩, storesKept_refl s⟩
theorem group_follows (f : Sluice → Sluice) {a : Nat} (ha : workPage (a / 0x1000) = true) (v : Reg) (s : State) :
    tableFollows s (withSlu f s) (wr a v (withSlu f s)) ∧ storesKept s (wr a v (withSlu f s)) :=
  ⟨⟨rfl, rfl, fun b hb => rd_wr_other _ (by rintro rfl; rw [ha] at hb; cases hb) v⟩, storesKept_refl s⟩
theorem rung_follows {q : Nat} (hq : q < 36) (f : Lanes → Lanes) (s : State) : tableFollows s (withLan f s) (settleLanes (quadLanes q) (withLan f s)) := by
  generalize hv : withLan f s = v
  have hl := (onlyLanes_settleLanes (onlyLanes_refl v) (ls := quadLanes q) fun m hm => mem_quadLanes_lt hq hm).1
  have ho : _ = v := hl.1
  have hd : (settleLanes (quadLanes q) v).drm = v.drm := by have e := congrArg (·.drm) ho; exact e
  have hrd := hl.2
  refine ⟨tablesOf_settleLanes _ v, by rw [hd], ?_⟩
  subst hv; exact hrd
theorem retire_follows (e : Nat) (y : Word) (c c' : List Nat → List Nat) (s : State) :
    tableFollows s (retireSet e y c' s) (retireSet e y c s) ∧ storesKept s (retireSet e y c s) :=
  ⟨⟨rfl, rfl, fun _ _ => rfl⟩, storesKept_refl s⟩

theorem commitTable_stored (ha : tableRo a = false) (x : Word) (s : State) :
    tableFollows s (tableStored a x s) (commitTable a x s) ∧ (windowOf a ≠ some 4 → storesKept s (commitTable a x s)) := by
  rcases tableRo_cases ha with ⟨hw, -⟩ | ⟨hw, -⟩ | hw | hw | hw
  · rw [commitTable_partner hw, tableStored_partner hw]
    exact (partner_follows _ x _ s).imp_right fun h _ => h
  · rw [commitTable_flow hw, tableStored_flow hw]
    split
    · exact (flow0_follows _ x s).imp_right fun h _ => h
    · exact (flow1_follows _ x s).imp_right fun h _ => h
  · rw [commitTable_group hw, tableStored_group hw]
    split
    · exact (group_follows _ (by decide) _ s).imp_right fun h _ => h
    · exact ⟨tableFollows_self fun _ => rfl, fun _ => storesKept_refl s⟩
  · rw [commitTable_rung hw, tableStored_rung hw]
    have := windowOf_eq4.1 hw
    exact ⟨rung_follows (by omega) _ s, fun h => absurd hw h⟩
  · rw [commitTable_retire hw, tableStored_retire hw]
    exact (retire_follows _ _ _ _ s).imp_right fun h _ => h

/-- A stored word reads back; of a group the copy alone is written (R183), and of a retirement entry bit 62 reads 0 (R353). -/
theorem tableWord_stored (ha : tableRo a = false) (x : Word) (s : State) :
    (windowOf a ≠ some 2 → tableWord (tableStored a x s) a = if windowOf a = some 5 then setFld x 62 1 0 else x)
      ∧ (windowOf a = some 2 → tableWord (tableStored a x s) a = tableWord s a) := by
  rcases tableRo_cases ha with ⟨hw, hk⟩ | ⟨hw, hk⟩ | hw | hw | hw
  · rw [tableWord_partner hw hk]
    simp [hw, tableStored, partner0]
  · obtain hk | hk : a / 8 % 4 = 0 ∨ a / 8 % 4 = 1 := by omega
    · rw [tableWord_flow0 hw hk]
      simp [hw, hk, tableStored, flowW0]
    · rw [tableWord_flow1 hw hk]
      simp [hw, hk, tableStored, flowW1]
  · rw [tableWord_group hw, tableWord_group hw]
    refine ⟨fun h => absurd hw h, fun _ => ?_⟩
    unfold tableStored; simp only [hw]; split <;> rfl
  · rw [tableWord_rung hw]
    simp [hw, tableStored]
  · rw [tableWord_retire hw]
    simp [hw, tableStored]

/-- No other word is stored. -/
theorem tableWord_stored_other (ha : tableRo a = false) (hb : tableRo b = false) (hne : b / 8 ≠ a / 8) (x : Word) (s : State) :
    tableWord (tableStored a x s) b = tableWord s b := by
  rcases tableRo_cases ha with ⟨hw, hk⟩ | ⟨hw, hk⟩ | hw | hw | hw
  · rw [tableStored_partner hw]
    have hr := windowOf_eq0.1 hw
    generalize hp : (a - 0x100000) / 16 = p
    refine tableWord_parts hb (fun hv hj => ?_) (fun _ _ => rfl) (fun _ _ => rfl) rfl (fun _ => rfl) fun _ => rfl
    have := windowOf_eq0.1 hv
    exact tget_tput_other _ _ (by omega) _ _
  · rw [tableStored_flow hw]
    have hr := windowOf_eq1.1 hw
    generalize hf : (a - 0x200000) / 32 = f
    split
    · refine tableWord_parts hb (fun _ _ => rfl) (fun hv hj => ?_) (fun _ _ => rfl) rfl (fun _ => rfl) fun _ => rfl
      have := windowOf_eq1.1 hv
      exact tget_tput_other _ _ (by omega) _ _
    · refine tableWord_parts hb (fun _ _ => rfl) (fun _ _ => rfl) (fun hv hj => ?_) rfl (fun _ => rfl) fun _ => rfl
      have := windowOf_eq1.1 hv
      exact tget_tput_other _ _ (by omega) _ _
  · rw [tableStored_group hw]
    generalize (a - 0x110000) / 8 = k
    split
    · exact tableWord_parts hb (fun _ _ => rfl) (fun _ _ => rfl) (fun _ _ => rfl) rfl (fun _ => rfl) fun _ => rfl
    · rfl
  · rw [tableStored_rung hw]
    have hr := windowOf_eq4.1 hw
    generalize hk : (a - 0x120000) / 8 % 32 + 32 * ((a - 0x120000) / 256) = k
    refine tableWord_parts hb (fun _ _ => rfl) (fun _ _ => rfl) (fun _ _ => rfl) rfl (fun hv => ?_) fun _ => rfl
    have := windowOf_eq4.1 hv
    exact tget_tput_other _ _ (by omega) _ _
  · rw [tableStored_retire hw]
    refine tableWord_retireSet hb (fun hv => ?_) _ _ s
    have hr := windowOf_eq5.1 hw
    have := windowOf_eq5.1 hv
    omega

end Sys2Proof.Machine
end

section
/-! Writes and reads of the halves of a table word (R176). -/

namespace Sys2Proof.Machine

variable {s t : State} {a b w : Nat} {v : Reg} {x : Word}

/-- A word is its two halves. -/
theorem eq_of_halves {lo hi : Nat} (h : fld x 32 32 = hi) (l : fld x 0 32 = lo) : BitVec.ofNat 64 (lo + hi * 2 ^ 32) = x := by
  have := x.isLt
  apply BitVec.eq_of_toNat_eq
  simp only [fld, Nat.shiftRight_eq_div_pow] at h l
  rw [BitVec.toNat_ofNat]; omega

/-- The window's buffer gives up the lower half that it holds of the word. -/
def bufTaken (a w : Nat) (s : State) : State :=
  match winBufOf s w with
  | some (k, _) => if k = a / 8 then withSlu (fun u => { u with winBuf := tput none w none u.winBuf }) s else s
  | none => s

theorem bufTaken_cases (a w : Nat) (s : State) : bufTaken a w s = s ∧ (∀ lo, winBufOf s w ≠ some (a / 8, lo))
    ∨ bufTaken a w s = withSlu (fun u => { u with winBuf := tput none w none u.winBuf }) s := by
  unfold bufTaken
  split
  · next k lo e =>
    split
    · exact .inr rfl
    · next hk => exact .inl ⟨rfl, fun lo h => hk (by rw [e] at h; cases h; rfl)⟩
  · next e => exact .inl ⟨rfl, fun lo h => by rw [e] at h; cases h⟩

/-- The buffer is all that changes. -/
theorem bufTaken_keeps (hb : tableRo b = false) (a w : Nat) (s : State) :
    tableWord (bufTaken a w s) b = tableWord s b ∧ (∀ c, rd (bufTaken a w s) c = rd s c) ∧ storesKept s (bufTaken a w s) := by
  rcases bufTaken_cases a w s with ⟨h, -⟩ | h <;> rw [h]
  · exact ⟨rfl, fun _ => rfl, storesKept_refl s⟩
  · exact ⟨tableWord_parts hb (fun _ _ => rfl) (fun _ _ => rfl) (fun _ _ => rfl) rfl (fun _ => rfl) fun _ => rfl, fun _ => rfl, storesKept_refl s⟩
theorem bufTaken_gone {lo : Reg} (h : winBufOf s w = some (a / 8, lo)) : winBufOf (bufTaken a w s) w = none := by
  rcases bufTaken_cases a w s with ⟨-, hn⟩ | h'
  · exact absurd h (hn lo)
  · rw [h']; simp [winBufOf]

/-- The lower half that an upper half goes with. -/
def lowerHalf (s : State) (a w : Nat) : Nat :=
  match winBufOf s w with
  | some (k, lo) => if k = a / 8 then lo.toNat else fld (tableBase s a) 0 32
  | none => fld (tableBase s a) 0 32

/-- An upper half completes the word, which is refused or written as a whole. -/
theorem tableUpperWrite_eq (hw : windowOf a = some w) (ho : tableRo a = false) (hx : BitVec.ofNat 64 (lowerHalf s a w + v.toNat * 2 ^ 32) = x) :
    tableUpperWrite a v s = match tableRefusal s a x with
      | some (p, c) => setFault p c s
      | none => commitTable a x (bufTaken a w s) := by
  subst hx
  unfold tableUpperWrite
  rw [hw]; dsimp only
  rw [ho, if_neg (by decide)]
  unfold lowerHalf bufTaken
  cases winBufOf s w with
  | none => rfl
  | some p =>
    obtain ⟨k, lo⟩ := p
    dsimp only
    by_cases hk : k = a / 8
    · simp only [if_pos hk, Option.isSome_some, if_true] <;> rfl
    · simp only [if_neg hk, Option.isSome_none, Bool.false_eq_true, if_false] <;> rfl

theorem retireSet_winBuf (e : Nat) (y : Word) (c : List Nat → List Nat) (s : State) : (retireSet e y c s).slu.winBuf = s.slu.winBuf := rfl
theorem tableStored_winBuf (ha : tableRo a = false) (x : Word) (s : State) : (tableStored a x s).slu.winBuf = s.slu.winBuf := by
  rcases tableRo_cases ha with ⟨hw, -⟩ | ⟨hw, -⟩ | hw | hw | hw
  · rw [tableStored_partner hw]; rfl
  · rw [tableStored_flow hw]; split <;> rfl
  · rw [tableStored_group hw]; split <;> rfl
  · rw [tableStored_rung hw]; rfl
  · rw [tableStored_retire hw, retireSet_winBuf]

/-- A write of a word (R176, R178, R179, R183, R224, R355) from the state `u` that its buffer leaves. -/
theorem commitTable_holds (hw : windowOf a = some w) (ho : tableRo a = false) (x : Word) (u : State) :
    (w ≠ 2 → tableWord (commitTable a x u) a = if w = 5 then setFld x 62 1 0 else x)
      ∧ (w = 2 → a / 8 % 8 < 5 → tget none ((a - 0x110000) / 8) (commitTable a x u).slu.groupsSt = some x
          ∧ rdB (commitTable a x u) (statA pgSLU) 1 = true ∧ tableWord (commitTable a x u) a = tableWord u a)
      ∧ (∀ b, tableRo b = false → b / 8 ≠ a / 8 → tableWord (commitTable a x u) b = tableWord u b)
      ∧ (commitTable a x u).slu.winBuf = u.slu.winBuf := by
  obtain ⟨⟨ht, hd, -⟩, -⟩ := commitTable_stored ho x u
  have hword : ∀ b, tableRo b = false → tableWord (commitTable a x u) b = tableWord (tableStored a x u) b := fun b hb =>
    tableWord_congr ht hd hb
  obtain ⟨hself, hgroup⟩ := tableWord_stored ho x u
  refine ⟨fun hne => ?_, fun h2 hk => ⟨?_, ?_, ?_⟩, fun b hb hne => ?_, ?_⟩
  · rw [hword a ho, hself (by rw [hw]; simpa using hne), hw]; simp
  · subst h2
    have hg : (commitTable a x u).slu.groupsSt = (tableStored a x u).slu.groupsSt := congrArg (·.2.1) ht
    rw [hg, tableStored_group hw, if_pos hk]; simp
  · subst h2
    rw [commitTable_group hw, if_pos hk, rdB_wrF_same _ _ _ _ _ _ (by omega) (by omega)]; rfl
  · rw [hword a ho, hgroup (by rw [hw, h2])]
  · rw [hword b hb, tableWord_stored_other ho hb hne]
  · have hb : (commitTable a x u).slu.winBuf = (tableStored a x u).slu.winBuf := congrArg (·.2.2.1) ht
    rw [hb, tableStored_winBuf ho]

-- Reads

theorem readTable_clean (h : s.slu.damage = []) (a : Nat) : readTable a s = (tableWord s a, s) := by
  unfold readTable
  split
  · rfl
  · simp [sluUe_clean h, sluTouch_clean h]

theorem hostRead_open {f : State → Reg × State} (hdor : modeOf s ≠ mDORMANT) (hsea : modeOf s ≠ mSEALED) (hd3 : s.hst.d3 = false) (a : Nat) :
    hostRead a f s = send (.readData a (f s).1) (f s).2 := by
  unfold hostRead; dsimp only
  rw [if_neg hdor, hd3, if_neg (by decide), if_neg (by simp [hsea])]

/-- The live upper half of a word is read where its window's latch holds no half of that word. -/
theorem tableUpperRead_live (hw : windowOf a = some w) (hd : s.slu.damage = []) (h : ∀ hi, tget none w s.slu.winLatch ≠ some (a / 8, hi)) :
    tableUpperRead a s = (BitVec.ofNat 32 (fld (tableWord s a) 32 32), s) := by
  unfold tableUpperRead
  rw [hw]; dsimp only
  rw [readTable_clean hd]
  split
  · next k hi e => rw [if_neg (by rintro rfl; exact h hi e)]
  · rfl
theorem tableUpperRead_latched {hi : Reg} (hw : windowOf a = some w) (h : tget none w s.slu.winLatch = some (a / 8, hi)) :
    tableUpperRead a s = (hi, withSlu (fun u => { u with winLatch := tput none w none u.winLatch }) s) := by
  unfold tableUpperRead
  rw [hw]; dsimp only
  rw [h]; dsimp only
  rw [if_pos rfl]

-- The commands

theorem tableLowerWrite_holds (a w : Nat) (v : Reg) (s : State) (hw : windowOf a = some w) (ha : a % 8 = 0) (hr : reaches s pgSLU = true)
    (ho : tableRo a = false) : ∃ t, exec (.tableLowerWrite a v) s = .next t ∧ winBufOf t w = some (a / 8, v)
      ∧ (∀ x, x ≠ w → winBufOf t x = winBufOf s x) ∧ { t with slu := { t.slu with winBuf := s.slu.winBuf } } = s := by
  refine ⟨withSlu (fun u => { u with winBuf := tput none w (some (a / 8, v)) u.winBuf }) s, ?_, by simp [winBufOf],
    fun x hx => by simp [winBufOf, tget_tput_other _ _ hx], rfl⟩
  change execTableLowerWrite a v s = _
  unfold execTableLowerWrite reaching tableLowerWrite
  rw [if_pos ha, if_pos hr, hw, ho]; rfl

theorem tableUpperWrite_holds (a w : Nat) (v : Reg) (s : State) (hw : windowOf a = some w) (ha : a % 8 = 4) (hr : reaches s pgSLU = true)
    (ho : tableRo a = false) (x : Word) (hhi : fld x 32 32 = v.toNat) (hlo : fld x 0 32 = lowerHalf s a w) :
    (tableRefusal s a x = none → ∃ t, exec (.tableUpperWrite a v) s = .next t
        ∧ (w ≠ 2 → tableWord t a = if w = 5 then setFld x 62 1 0 else x)
        ∧ (w = 2 → a / 8 % 8 < 5 → tget none ((a - 0x110000) / 8) t.slu.groupsSt = some x ∧ rdB t (statA pgSLU) 1 = true
            ∧ tableWord t a = tableWord s a)
        ∧ (∀ b, tableRo b = false → b / 8 ≠ a / 8 → tableWord t b = tableWord s b)
        ∧ (∀ lo, winBufOf s w = some (a / 8, lo) → winBufOf t w = none)
        ∧ (∀ b, workPage (b / 0x1000) = false → rd t b = rd s b) ∧ (w ≠ 4 → storesKept s t))
      ∧ ∀ p c, tableRefusal s a x = some (p, c) → ∃ t, exec (.tableUpperWrite a v) s = .next t
        ∧ rd t (errA p) = BitVec.ofNat 32 c ∧ rdB t (statA p) 2 = true ∧ regsBut [statA p, errA p] s t ∧ onlyRegs s t := by
  have hexec : exec (.tableUpperWrite a v) s = .next (tableUpperWrite a v s) := by
    change execTableUpperWrite a v s = _
    unfold execTableUpperWrite reaching
    rw [if_pos ha, if_pos hr]
  rw [hexec, tableUpperWrite_eq hw ho (eq_of_halves hhi hlo)]
  constructor
  · intro hn
    rw [hn]
    obtain ⟨hself, hgroup, hother, hbuf⟩ := commitTable_holds hw ho x (bufTaken a w s)
    obtain ⟨⟨-, -, hrd⟩, hst⟩ := commitTable_stored ho x (bufTaken a w s)
    obtain ⟨hwa, hrds, hsts⟩ := bufTaken_keeps ho a w s
    refine ⟨_, rfl, hself, fun h2 hk => ?_, fun b hb hne => ?_, fun lo hl => ?_, fun b hb => ?_, fun h4 => ?_⟩
    · obtain ⟨hcopy, hstat, hword⟩ := hgroup h2 hk
      exact ⟨hcopy, hstat, hword.trans hwa⟩
    · exact (hother b hb hne).trans (bufTaken_keeps hb a w s).1
    · unfold winBufOf
      rw [hbuf]; exact bufTaken_gone hl
    · exact (hrd b hb).trans (hrds b)
    · obtain ⟨h1, h2, h3, h4, h5, h6, h7, h8, h9⟩ := hst (by rw [hw]; simpa using h4)
      obtain ⟨g1, g2, g3, g4, g5, g6, g7, g8, g9⟩ := hsts
      exact ⟨h1.trans g1, h2.trans g2, h3.trans g3, h4.trans g4, h5.trans g5, h6.trans g6, h7.trans g7, h8.trans g8, h9.trans g9⟩
  · intro p c hc
    rw [hc]
    exact ⟨_, rfl, setFault_notes p c s⟩

theorem tableReads_hold (a w : Nat) (s : State) (hw : windowOf a = some w) (hdor : modeOf s ≠ mDORMANT) (hsea : modeOf s ≠ mSEALED)
    (hd3 : s.hst.d3 = false) (hd : s.slu.damage = []) :
    (a % 8 = 0 → ∃ t, exec (.tableLowerRead a) s = .next t
        ∧ t.outbox = .readData a (BitVec.ofNat 32 (fld (tableWord s a) 0 32)) :: s.outbox
        ∧ tget none w t.slu.winLatch = some (a / 8, BitVec.ofNat 32 (fld (tableWord s a) 32 32))
        ∧ { t with outbox := s.outbox, slu := { t.slu with winLatch := s.slu.winLatch } } = s)
      ∧ (a % 8 = 4 → ∃ t, exec (.tableUpperRead a) s = .next t
        ∧ (∀ hi, tget none w s.slu.winLatch = some (a / 8, hi) → t.outbox = .readData a hi :: s.outbox ∧ tget none w t.slu.winLatch = none)
        ∧ ((∀ hi, tget none w s.slu.winLatch ≠ some (a / 8, hi)) →
            t.outbox = .readData a (BitVec.ofNat 32 (fld (tableWord s a) 32 32)) :: s.outbox ∧ t.slu = s.slu)
        ∧ { t with outbox := s.outbox, slu := { t.slu with winLatch := s.slu.winLatch } } = s) := by
  constructor
  · intro ha
    have hread : tableLowerRead a s = (BitVec.ofNat 32 (fld (tableWord s a) 0 32), withSlu (fun u =>
        { u with winLatch := tput none w (some (a / 8, BitVec.ofNat 32 (fld (tableWord s a) 32 32))) u.winLatch }) s) := by
      unfold tableLowerRead
      rw [hw]; dsimp only
      rw [readTable_clean hd]
    refine ⟨hostRead a (tableLowerRead a) s, ?_, ?_⟩
    · change execTableLowerRead a s = _
      unfold execTableLowerRead; rw [if_pos ha]
    · rw [hostRead_open hdor hsea hd3, hread]
      exact ⟨rfl, by simp, rfl⟩
  · intro ha
    refine ⟨hostRead a (tableUpperRead a) s, ?_, ?_⟩
    · change execTableUpperRead a s = _
      unfold execTableUpperRead; rw [if_pos ha]
    rw [hostRead_open hdor hsea hd3]
    by_cases hl : ∃ hi, tget none w s.slu.winLatch = some (a / 8, hi)
    · obtain ⟨hi, hl⟩ := hl
      rw [tableUpperRead_latched hw hl]
      refine ⟨fun hi' h => ?_, fun h => absurd hl (h hi), rfl⟩
      rw [hl] at h; cases h
      exact ⟨rfl, by simp⟩
    · have hn := not_exists.1 hl
      rw [tableUpperRead_live hw hd hn]
      exact ⟨fun hi h => absurd h (hn hi), fun _ => ⟨rfl, rfl⟩, rfl⟩

/-- Settles O23: the halves that are written, and the halves that are read. -/
theorem tableWindows : Obligations.TableWindows := by
  unfold Obligations.TableWindows
  intro a w v s hw
  exact ⟨tableLowerWrite_holds a w v s hw, fun ha hr ho x hhi hlo => tableUpperWrite_holds a w v s hw ha hr ho x hhi (hlo.trans (by rfl)),
    tableReads_hold a w s hw⟩

end Sys2Proof.Machine
end

section
/-! A failover under an index that no basin has (R210). -/

namespace Sys2Proof.Machine

/-- An index far above those of the 32 basins: its entry of BASIN_MAP would stand at IRQ_STAT of the Sluice page. -/
def strayBasin : Nat := irqA pgSLU - 0x7200

/-- The watermark of free slots lies above their number, so that settling raises bit 2 of IRQ_STAT of Sluice. A failover stands in its last
state under the stray index, and an item from port 0 is in physical basin 0, which that index reads as. -/
def strayFailover : State :=
  let s := wrF (at' pgSLU 0x48) 0 12 4095 State.reset
  { s with
    slu := { s.slu with failover := [(strayBasin, 3)] }
    enr := { s.enr with guests := [{ port := 0, service := 0, handle := 0, basin := 0 }] } }

theorem strayFailover_reads : tget 0 strayBasin strayFailover.slu.failover = 3 ∧ physOf strayFailover strayBasin = 0 := by
  decide +kernel

/-- Once back-pressure has settled the stray index reads as another basin, and the item of basin 0 stays. -/
theorem strayFailover_reissued : ∃ t, exec (.failoverReissue strayBasin) strayFailover = .next t
    ∧ t.enr.guests = [{ port := 0, service := 0, handle := 0, basin := 0 }] := by
  refine ⟨_, rfl, ?_⟩
  decide +kernel

/-- Refutes O26: under an index that no basin has, which no command gives a failover but the statement does not exclude, the physical basin is
read from a register that settling writes, so that the items of the one it was before are not ended. -/
theorem not_timeoutsAndFailover : ¬ Obligations.TimeoutsAndFailover := by
  unfold Obligations.TimeoutsAndFailover
  rintro ⟨-, hfailover, -⟩
  obtain ⟨hstate, hphys⟩ := strayFailover_reads
  obtain ⟨t, ht, -, hguests, -⟩ := (hfailover strayBasin strayFailover).2 hstate
  obtain ⟨u, hu, hkept⟩ := strayFailover_reissued
  have htu : t = u := Host.Outcome.next.inj (ht.symm.trans hu)
  rw [htu, hphys, hkept] at hguests
  exact hguests _ (List.mem_singleton_self _) rfl

end Sys2Proof.Machine
end

section
/-! The end of services (R204, R205, R210): what it keeps. -/

namespace Sys2Proof.Machine

variable {s t : State}

-- Within the flow of items

theorem onlyWork_enr (h : onlyWork s t) (x : Enrus) : onlyWork s { t with enr := x } := h

section
variable (h : onlyWork s t)
include h

theorem onlyWork_endService (v : Service) : onlyWork s (endService v t) := by
  unfold endService; dsimp only
  refine onlyWork_reeval ?_ _
  split
  · exact onlyWork_delayLinks (onlyWork_withSlu h _) _ _
  · exact onlyWork_withSlu h _
theorem onlyWork_retryItem (n c : Nat) : onlyWork s (retryItem n c t) := by
  unfold retryItem; dsimp only; split
  · exact onlyWork_pushHead (onlyWork_setSlot h _ _) _ _
  · exact onlyWork_toException h _ _
theorem onlyWork_failoverItem (v : Service) : onlyWork s (failoverItem v t) := by
  have he := onlyWork_endService h v
  unfold failoverItem; dsimp only; split
  · split
    · exact onlyWork_toException he _ _
    · exact onlyWork_pushHead (onlyWork_setSlot he _ _) _ _
  · exact he
theorem onlyWork_reissueWhere (p : Service → Bool) : onlyWork s (reissueWhere p t) :=
  onlyWork_settle (onlyWork_foldl _ (fun u v => onlyWork_failoverItem (onlyWork_refl u) v) _ _ h)
theorem onlyWork_noticeOne (l p : Nat) : onlyWork s (noticeOne l p t) := by
  unfold noticeOne; dsimp only
  exact onlyWork_sendMsg (onlyWork_enr h _) _ _
theorem onlyWork_rearmEmpty : onlyWork s (rearmEmpty t) :=
  onlyWork_foldl _ (fun u q => by dsimp only; split; exacts [onlyWork_setFlowDyn (onlyWork_refl u) _ _, onlyWork_refl u]) _ _ h
theorem onlyWork_lateCompletion (id : Nat) : onlyWork s (lateCompletion id t) := by
  have hc : onlyWork s (incF (at' pgSLU 0x68) 0 32 1 t) := onlyWork_incF h _ _ _ _ (by decide)
  unfold lateCompletion; dsimp only; split
  · split
    · exact onlyWork_endService hc _
    · exact hc
  · exact hc
theorem onlyWork_traceCompletion : onlyWork s (traceCompletion t) := by
  unfold traceCompletion; split
  · exact onlyWork_traceOut (onlyWork_takeFree h 192) _ _
  · exact h
theorem onlyWork_finishService (id : Nat) : onlyWork s (finishService id t) := by
  unfold finishService; split
  · next v _ =>
    split
    · have ht : onlyWork s (sluTouch 3 v.slot 8 16 t) := onlyWork_sluTouch h _ _ _ _
      dsimp only; split
      · exact onlyWork_endService (onlyWork_toException ht _ _) v
      · exact onlyWork_endService (onlyWork_traceCompletion (onlyWork_setFlowDyn (onlyWork_releaseSlot ht _) _ _)) v
    · exact onlyWork_lateCompletion h id
  · exact onlyWork_lateCompletion h id
theorem onlyWork_completeService (id : Nat) : onlyWork s (completeService id t) := onlyWork_settle (onlyWork_finishService h id)
theorem onlyWork_itemError (id c : Nat) : onlyWork s (itemError id c t) := by
  unfold itemError; split
  · next v _ =>
    split
    · have he := onlyWork_endService (onlyWork_setFlowDyn (onlyWork_sluTouch h 3 v.slot 8 16) v.flow.toNat
        { flowDyn (sluTouch 3 v.slot 8 16 t) v.flow.toNat with
          errors := satAdd (flowDyn (sluTouch 3 v.slot 8 16 t) v.flow.toNat).errors 1 65535 }) v
      refine onlyWork_settle ?_
      split
      · exact onlyWork_toException he _ _
      · exact onlyWork_retryItem he _ _
    · exact onlyWork_lateCompletion h id
  · exact onlyWork_lateCompletion h id

end

-- Slots and queues

namespace QueueStep

section
variable (h : QueueStep s t)
include h

theorem retryItem (n c : Nat) : QueueStep s (retryItem n c t) := by
  unfold Machine.retryItem; dsimp only; split
  · exact (h.setSlot n (v := { slotOf t n with reissue := true, errTries := (slotOf t n).errTries + 1, service := none }) rfl).pushHead _ n
  · exact h.toException n c
theorem bumpErrors (f : Nat) : QueueStep s (bumpErrors f t) := h.setFlowDyn f _
theorem bumpDone (f : Nat) : QueueStep s (bumpDone f t) := h.setFlowDyn f _
theorem traceCompletion : QueueStep s (traceCompletion t) := by
  unfold Machine.traceCompletion; split
  · have hl : onlyLogs t (takeFree 192 t).2 := rfl
    have hr : queueRegs t (takeFree 192 t).2 := regsWithin_refl _ t
    exact h.trans (of_logs (onlyLogs_traceOut hl _ _) (queueRegs_traceOut hr _ _))
  · exact h
end

end QueueStep

/-- The end of a service, but for its record, is the flow's. -/
theorem endService_step (v : Service) (s : State) :
    FlowStep True (withSlu (fun u => { u with services := u.services.filter fun w => decide (w.id ≠ v.id) }) s) (endService v s) := by
  unfold endService
  refine FlowStep.queue ?_ ((QueueStep.refl _).reeval _)
  split
  · exact (FlowStep.refl _).delayLinks _ _
  · exact .refl _

/-- It takes the service from the table, whatever it dates there (R201, R213). -/
theorem endService_services (v : Service) (s : State) :
    ∀ x ∈ (endService v s).slu.services, x.id ≠ v.id ∧ ∃ w ∈ s.slu.services, x.undated = w.undated := by
  intro x hx
  obtain ⟨w, hw, e⟩ := (endService_step v s).services x hx
  obtain ⟨hws, hid⟩ := List.mem_filter.1 hw
  exact ⟨by rw [show x.id = w.id from congrArg (·.id) e]; simpa using hid, w, hws, e⟩
theorem endService_clean (v : Service) (h : s.slu.damage = []) :
    (endService v s).slu.damage = [] ∧ (endService v s).slu.services = s.slu.services.filter fun w => decide (w.id ≠ v.id) :=
  (endService_step v s).clean h

/-- The item of an ended service goes to its queue or to the exception ring: no service changes. -/
theorem failoverItem_step (v : Service) (s : State) : QueueStep (endService v s) (failoverItem v s) := by
  have hr := QueueStep.refl (endService v s)
  unfold failoverItem; dsimp only; split
  · split
    · exact hr.toException _ _
    · exact (hr.setSlot v.slot (v := { slotOf (endService v s) v.slot with
        reissue := true, failTries := (slotOf (endService v s) v.slot).failTries + 1, service := none }) rfl).pushHead _ _
  · exact hr
theorem failoverItems_services (l : List Service) (s : State) :
    ∀ x ∈ (l.foldl (fun t v => failoverItem v t) s).slu.services, (∀ v ∈ l, x.id ≠ v.id) ∧ ∃ w ∈ s.slu.services, x.undated = w.undated := by
  induction l generalizing s with
  | nil => exact fun x hx => ⟨nofun, x, hx, rfl⟩
  | cons v l ih =>
    intro x hx
    obtain ⟨hids, w, hw, hxw⟩ := ih (failoverItem v s) x hx
    rw [(failoverItem_step v s).services] at hw
    obtain ⟨hid, y, hy, hwy⟩ := endService_services v s w hw
    have hxid : x.id = w.id := congrArg (·.id) hxw
    refine ⟨fun u hu => ?_, y, hy, hxw.trans hwy⟩
    rcases List.mem_cons.1 hu with rfl | hu
    · rw [hxid]; exact hid
    · exact hids u hu

/-- A set of services that depends on none of their timeouts leaves the table as a whole (R210). -/
theorem reissueWhere_services {p : Service → Bool} (hp : ∀ v w : Service, v.undated = w.undated → p v = p w) (s : State) :
    ∀ x ∈ (reissueWhere p s).slu.services, p x = false := by
  intro x hx
  obtain ⟨w, hw, hxw⟩ := ((FlowStep.refl (g := False) _).settle).services x hx
  obtain ⟨hids, y, hy, hwy⟩ := failoverItems_services _ s w hw
  rw [hp x w hxw, hp w y hwy]
  refine Bool.eq_false_iff.2 fun hpy => ?_
  have hid : w.id = y.id := congrArg (·.id) hwy
  exact hids y (List.mem_reverse.2 (List.mem_filter.2 ⟨hy, hpy⟩)) hid

-- Services that end for good

theorem serviceOf_only {v : Service} (hv : v ∈ s.slu.services) (h : ∀ x ∈ s.slu.services, x.id = v.id → x = v) : serviceOf s v.id = some v := by
  unfold serviceOf
  cases hf : s.slu.services.find? fun w => w.id = v.id with
  | none => exact absurd (List.find?_eq_none.1 hf v hv) (by simp)
  | some x =>
    have hid : x.id = v.id := by simpa using List.find?_some hf
    rw [h x (List.mem_of_find?_eq_some hf) hid]

/-- Without damage a service of this record ends, and nothing else of the table or of the held outputs changes. -/
def serviceGone (v : Service) (s t : State) : Prop :=
  t.slu.services = s.slu.services.filter (fun x => decide (x.id ≠ v.id)) ∧ t.enr.held = s.enr.held

/-- What stands before the end of a service, and after it, is the flow's. -/
theorem serviceGone_settle {v : Service} {a b : State} (hd : s.slu.damage = []) (ha : QueueStep s a) (hb : QueueStep (endService v a) b) :
    serviceGone v s (settle b) := by
  have hf : FlowStep False b (settle b) := (FlowStep.refl b).settle
  have hqa : FlowStep False s a := .of_queue ha
  have hqb : FlowStep False (endService v a) b := .of_queue hb
  obtain ⟨hde, hse⟩ := endService_clean v (ha.clean hd)
  constructor
  · rw [(hf.clean (hb.clean hde)).2, hb.services, hse, ha.services]
  · rw [hf.enrHeld, hqb.enrHeld, (endService_step v a).enrHeld]
    exact hqa.enrHeld
theorem completeService_gone {v : Service} (h : serviceOf s v.id = some v) (hc : v.current = true) (hd : s.slu.damage = []) :
    serviceGone v s (completeService v.id s) := by
  have hfin : finishService v.id s = endService v (traceCompletion (bumpDone v.flow.toNat (releaseSlot v.slot s))) := by
    unfold finishService
    rw [h]; dsimp only
    rw [if_pos hc, sluTouch_clean hd, sluUe_clean hd]; rfl
  unfold completeService
  rw [hfin]
  exact serviceGone_settle hd ((((QueueStep.refl s).releaseSlot _).bumpDone _).traceCompletion) (.refl _)
theorem itemError_gone {v : Service} (h : serviceOf s v.id = some v) (hc : v.current = true) (hd : s.slu.damage = []) (c : Nat) :
    serviceGone v s (itemError v.id c s) := by
  unfold itemError
  rw [h]; dsimp only
  rw [if_pos hc]
  have hb : QueueStep s (bumpErrors v.flow.toNat (sluTouch 3 v.slot 8 16 s)) := ((QueueStep.refl s).sluTouch _ _ _ _).bumpErrors _
  rw [sluUe_clean (endService_clean v (hb.clean hd)).1]
  exact serviceGone_settle hd hb ((QueueStep.refl _).retryItem _ _)

end Sys2Proof.Machine
end

section
/-! The ports of the Enrus link (R262 to R275): what sending leaves of them. -/

namespace Sys2Proof.Machine

variable {s t : State} {e f g : EnrPort}

-- Channels and keys of a port

/-- The flits given to its channels, the messages received and not yet taken, the state and the peer of a port are as before. -/
structure PortKept (e f : EnrPort) : Prop where
  pending : ∀ v, v < 4 → pendingFlits f v = pendingFlits e v
  ready   : ∀ v, (chan f v).ready = (chan e v).ready
  waiting : f.waiting = e.waiting
  peer    : f.peer = e.peer
  st      : f.st = e.st

theorem PortKept.refl (e : EnrPort) : PortKept e e := ⟨fun _ _ => rfl, fun _ => rfl, rfl, rfl, rfl⟩
theorem PortKept.trans (h : PortKept e f) (k : PortKept f g) : PortKept e g :=
  ⟨fun v hv => (k.pending v hv).trans (h.pending v hv), fun v => (k.ready v).trans (h.ready v), k.waiting.trans h.waiting, k.peer.trans h.peer,
    k.st.trans h.st⟩

theorem chan_setChan_same (e : EnrPort) (v : Nat) (c : Channel) : chan (setChan e v c) v = c := by
  match v with
  | 0 | 1 | 2 | _ + 3 => rfl
/-- The channels are numbered 0 to 3; any other number names the last. -/
theorem chan_setChan_other {v w : Nat} (h : w ≠ v) (hv : v < 3 ∨ w < 3) (e : EnrPort) (c : Channel) : chan (setChan e v c) w = chan e w := by
  match v, w with
  | 0, 0 | 1, 1 | 2, 2 => exact absurd rfl h
  | 0, 1 | 0, 2 | 0, _ + 3 | 1, 0 | 1, 2 | 1, _ + 3 | 2, 0 | 2, 1 | 2, _ + 3 | _ + 3, 0 | _ + 3, 1 | _ + 3, 2 => rfl
  | _ + 3, _ + 3 => omega
theorem setChan_rest (e : EnrPort) (v : Nat) (c : Channel) : (setChan e v c).kept = e.kept ∧ (setChan e v c).waiting = e.waiting
    ∧ (setChan e v c).peer = e.peer ∧ (setChan e v c).st = e.st := by
  unfold setChan; split <;> exact ⟨rfl, rfl, rfl, rfl⟩

theorem chan_ge (e : EnrPort) {v : Nat} (h : 3 ≤ v) : chan e v = e.vc3 := by
  match v with
  | 0 | 1 | 2 => omega
  | _ + 3 => rfl

/-- A channel that keeps its list of flits and its messages is all the same to the rest of the port. -/
theorem PortKept.setChan (v : Nat) {c : Channel} (ht : c.txq = (chan e v).txq) (hr : c.ready = (chan e v).ready) : PortKept e (setChan e v c) := by
  obtain ⟨hkept, hwaiting, hpeer, hst⟩ := setChan_rest e v c
  have hchan : ∀ w, (chan (Machine.setChan e v c) w).txq = (chan e w).txq ∧ (chan (Machine.setChan e v c) w).ready = (chan e w).ready := by
    intro w
    by_cases hw : w = v
    · rw [hw, chan_setChan_same]; exact ⟨ht, hr⟩
    · by_cases h3 : v < 3 ∨ w < 3
      · rw [chan_setChan_other hw h3]; exact ⟨rfl, rfl⟩
      · have hv : chan (Machine.setChan e v c) w = chan (Machine.setChan e v c) v := by rw [chan_ge _ (by omega), chan_ge _ (by omega)]
        rw [hv, chan_setChan_same, ht, hr, chan_ge e (by omega : 3 ≤ v), chan_ge e (by omega : 3 ≤ w)]; exact ⟨rfl, rfl⟩
  refine ⟨fun w _ => ?_, fun w => (hchan w).2, hwaiting, hpeer, hst⟩
  unfold pendingFlits
  rw [hkept, (hchan w).1]
theorem PortKept.setKeySlot (b : Bool) (k : KeySlot) : PortKept e (setKeySlot e b k) := by
  unfold Machine.setKeySlot; split <;> exact ⟨fun _ _ => rfl, fun _ => rfl, rfl, rfl, rfl⟩
theorem PortKept.oweCredits (v n : Nat) : PortKept e (oweCredits v n e) := .setChan v rfl rfl

-- Ports of the state

@[simp] theorem enrPort_setEnrPort_same (p : Nat) (e : EnrPort) (s : State) : enrPort (setEnrPort p e s) p = e := tget_tput_same _ _ _ _
theorem enrPort_setEnrPort_other {p q : Nat} (h : q ≠ p) (e : EnrPort) (s : State) : enrPort (setEnrPort p e s) q = enrPort s q :=
  tget_tput_other _ _ h _ _
theorem enrPort_congr (h : t.enr = s.enr) (q : Nat) : enrPort t q = enrPort s q := by unfold enrPort; rw [h]

/-- Only port `p` differs, and of it what `PortKept` says stays. -/
def sentOn (p : Nat) (s t : State) : Prop := PortKept (enrPort s p) (enrPort t p) ∧ ∀ q, q ≠ p → enrPort t q = enrPort s q

section
variable {p : Nat} {u : State}

theorem sentOn_refl (p : Nat) (s : State) : sentOn p s s := ⟨.refl _, fun _ _ => rfl⟩
theorem sentOn_trans (h : sentOn p s t) (k : sentOn p t u) : sentOn p s u := ⟨h.1.trans k.1, fun q hq => (k.2 q hq).trans (h.2 q hq)⟩
theorem sentOn_foldl {β : Type} {f : State → β → State} (l : List β) (hf : ∀ t, ∀ b ∈ l, sentOn p t (f t b)) (s : State) :
    sentOn p s (l.foldl f s) :=
  l.foldlRecOn (motive := sentOn p s) f (sentOn_refl p s) fun _ hv b hb => sentOn_trans hv (hf _ b hb)
theorem sentOn_setEnrPort {e : EnrPort} (h : PortKept (enrPort s p) e) : sentOn p s (setEnrPort p e s) :=
  ⟨by rw [enrPort_setEnrPort_same]; exact h, fun _ hq => enrPort_setEnrPort_other hq e s⟩
theorem sentOn_of_enr (h : t.enr = s.enr) : sentOn p s t := ⟨by rw [enrPort_congr h]; exact .refl _, fun q _ => enrPort_congr h q⟩

end

-- Sending

theorem txPass_enr (f : TxForm) (g k : Nat) (s : State) : (txPass f g k s).enr = s.enr := by
  have hmark : ∀ u : State, (sendMarkers f u).enr = u.enr := fun u => by
    refine List.foldlRecOn (motive := fun (v : State) => v.enr = u.enr) _ _ rfl fun v hv b _ => ?_
    dsimp only; split <;> exact hv
  unfold txPass; dsimp only
  unfold setTxIndex; dsimp only
  split
  · rfl
  · exact List.foldlRecOn (motive := fun (v : State) => v.enr = s.enr) _ _ rfl fun v hv _ _ => (hmark v).trans hv
theorem putFlit_enr (p : Nat) (f : BitVec 2048) (s : State) : (putFlit p f s).enr = s.enr :=
  List.foldlRecOn (motive := fun (v : State) => v.enr = s.enr) _ _ rfl fun _ hv _ _ => (txPass_enr ..).trans hv

/-- A flit that is sent advances a key's counter and returns credits. -/
theorem sentOn_sendFlit (p typ vc seq ack : Nat) (pl : List Byte) (s : State) : sentOn p s (sendFlit p typ vc seq ack pl s) := by
  unfold sendFlit; extract_lets e k cr h
  split
  · exact sentOn_refl p s
  · refine sentOn_trans (sentOn_setEnrPort ?_) (sentOn_of_enr (putFlit_enr _ _ _))
    exact (PortKept.setChan cr.1 (c := { chan e cr.1 with owed := (chan e cr.1).owed - cr.2 }) rfl rfl).trans (.setKeySlot _ _)
theorem sentOn_sendIdle (p : Nat) (s : State) : sentOn p s (sendIdle p s) := by
  unfold sendIdle; split
  · exact sentOn_sendFlit ..
  · exact sentOn_refl p s

/-- A waiting flit that is sent is kept until it is acknowledged (R270). -/
theorem portKept_sent {v : Nat} (hv : v < 4) {pl : List Byte} {rest : List (List Byte)} (h : (chan e v).txq = pl :: rest) (n q : Nat) :
    PortKept e { setChan e v { chan e v with txq := rest, credits := n } with
      seqTx := q, kept := e.kept ++ [⟨e.seqTx, v, pl, 1, none⟩] } := by
  obtain ⟨hkept, hwaiting, hpeer, hst⟩ := setChan_rest e v { chan e v with txq := rest, credits := n }
  have hchan : ∀ w x y, chan { setChan e v { chan e v with txq := rest, credits := n } with seqTx := x, kept := y } w
      = chan (setChan e v { chan e v with txq := rest, credits := n }) w := fun w _ _ => by unfold chan; split <;> rfl
  refine ⟨fun w hw => ?_, fun w => ?_, hwaiting, hpeer, hst⟩
  · unfold pendingFlits
    rw [hchan, List.filter_append, List.map_append]
    by_cases hwv : w = v
    · subst hwv
      rw [chan_setChan_same, h]; simp
    · rw [chan_setChan_other hwv (by omega)]
      simp [Ne.symm hwv]
  · rw [hchan]
    have := (PortKept.setChan (e := e) v (c := { chan e v with credits := n }) rfl rfl).ready w
    rw [← this]
    by_cases hwv : w = v
    · rw [hwv, chan_setChan_same, chan_setChan_same]
    · by_cases h3 : v < 3 ∨ w < 3
      · rw [chan_setChan_other hwv h3, chan_setChan_other hwv h3]
      · rw [chan_ge _ (by omega : 3 ≤ w), chan_ge _ (by omega : 3 ≤ w), ← chan_ge _ (by omega : 3 ≤ v), ← chan_ge _ (by omega : 3 ≤ v),
          chan_setChan_same, chan_setChan_same]
theorem sentOn_pumpOne (p : Nat) {v : Nat} (hv : v < 4) (s : State) : sentOn p s (pumpOne p v s) := by
  unfold pumpOne; dsimp only; split
  · exact sentOn_refl p s
  · next pl rest h =>
    split
    · exact sentOn_trans (sentOn_setEnrPort (portKept_sent hv h _ _)) (sentOn_sendFlit ..)
    · exact sentOn_refl p s
theorem sentOn_pump (p n : Nat) (s : State) : sentOn p s (pump p n s) := by
  induction n generalizing s with
  | zero => exact sentOn_refl p s
  | succ n ih => exact sentOn_trans (sentOn_foldl _ (fun u v hv => sentOn_pumpOne p (List.mem_range.1 hv) u) s) (ih _)

theorem msgVc_lt (k : Nat) : msgVc k < 4 := by unfold msgVc; grind

/-- The port with a message's flits at the end of its channel's list (R275). -/
def msgQueued (m : Msg) (e : EnrPort) : EnrPort :=
  setChan e (msgVc m.kind) { chan e (msgVc m.kind) with txq := (chan e (msgVc m.kind)).txq ++ msgPayloads m }

theorem sendMsg_sentOn (p : Nat) (m : Msg) (s : State) :
    PortKept (msgQueued m (enrPort s p)) (enrPort (sendMsg p m s) p) ∧ ∀ q, q ≠ p → enrPort (sendMsg p m s) q = enrPort s q := by
  obtain ⟨hp, ho⟩ := sentOn_pump p _ (setEnrPort p (msgQueued m (enrPort s p)) s)
  rw [enrPort_setEnrPort_same] at hp
  exact ⟨hp, fun q hq => (ho q hq).trans (enrPort_setEnrPort_other hq _ _)⟩
theorem pendingFlits_msgQueued (m : Msg) (e : EnrPort) : pendingFlits (msgQueued m e) (msgVc m.kind) = pendingFlits e (msgVc m.kind) ++ msgPayloads m := by
  unfold pendingFlits msgQueued
  rw [(setChan_rest ..).1, chan_setChan_same, List.append_assoc]

/-- A message sent stands behind all that the channel has been given (R269). -/
theorem pendingFlits_sendMsg (p : Nat) (m : Msg) (s : State) :
    pendingFlits (enrPort (sendMsg p m s) p) (msgVc m.kind) = pendingFlits (enrPort s p) (msgVc m.kind) ++ msgPayloads m :=
  ((sendMsg_sentOn p m s).1.pending _ (msgVc_lt _)).trans (pendingFlits_msgQueued m _)
theorem waiting_sendMsg (p : Nat) (m : Msg) (s : State) : (enrPort (sendMsg p m s) p).waiting = (enrPort s p).waiting :=
  (sendMsg_sentOn p m s).1.waiting.trans (setChan_rest ..).2.1

end Sys2Proof.Machine
end

section
/-! Messages that are taken, held outputs and notices (R275 to R279), and the bytes that a message stores. -/

namespace Sys2Proof.Machine

variable {s t u : State} {e : EnrPort}

-- Sending and taking

section
variable (h : onlySent s t)
include h

theorem onlySent_slu : t.slu = s.slu := congrArg (·.slu) h
theorem onlySent_fab : t.fab = s.fab := congrArg (·.fab) h
theorem onlySent_mem : t.mem = s.mem := congrArg (·.mem) h
theorem onlySent_regs : t.regs = s.regs := congrArg (·.regs) h
theorem onlySent_groups : t.lan.groups = s.lan.groups := congrArg (·.lan.groups) h
theorem onlySent_guests : t.enr.guests = s.enr.guests := congrArg (·.enr.guests) h
theorem onlySent_held : t.enr.held = s.enr.held := congrArg (·.enr.held) h
theorem onlySent_notices : t.enr.notices = s.enr.notices := congrArg (·.enr.notices) h
theorem onlySent_peers : t.enr.peers = s.enr.peers := congrArg (·.enr.peers) h
theorem onlySent_onlyWork : onlyWork s t := by
  refine ⟨?_, fun a _ => rd_congr (onlySent_regs h) a⟩
  unfold onlySent at h
  rw [← h]

end

theorem onlySent_updPort (h : onlySent s t) (p : Nat) (f : EnrPort → EnrPort) : onlySent s (updPort p f t) := onlySent_setEnrPort h _ _
theorem onlySent_dropMsg (h : onlySent s t) (p k : Nat) : onlySent s (dropMsg p k t) := by
  unfold dropMsg; dsimp only; split
  · exact h
  · exact onlySent_sendIdle (onlySent_setEnrPort h _ _) _
theorem onlySent_sendEnd (h : onlySent s t) (p svc : Nat) (r : BitVec 20) (k c : Nat) : onlySent s (sendEnd p svc r k c t) := onlySent_sendMsg h _ _
theorem onlySent_sendAll (h : onlySent s t) (m : Msg) : onlySent s (sendAll m t) :=
  onlySent_foldl _ (fun v p _ => onlySent_sendMsg (onlySent_refl v) p m) h

-- The remote queue (R277)

/-- A DISPATCH that enters the remote queue leaves channel 0: the other channels, and the flits to be sent, stay. -/
theorem queueDispatch_keeps (e : EnrPort) : (∀ v, pendingFlits (queueDispatch e) v = pendingFlits e v)
    ∧ (∀ v, v ≠ 0 → chan (queueDispatch e) v = chan e v) ∧ (queueDispatch e).waiting.length ≤ e.waiting.length + 1
    ∧ (queueDispatch e).peer = e.peer ∧ (queueDispatch e).st = e.st := by
  unfold queueDispatch; split
  · exact ⟨fun _ => rfl, fun _ _ => rfl, Nat.le_succ _, rfl, rfl⟩
  · split
    · refine ⟨fun v => ?_, fun v hv => ?_, by simp [oweCredits, setChan], rfl, rfl⟩
      · match v with
        | 0 | 1 | 2 | _ + 3 => rfl
      · match v with
        | 0 => exact absurd rfl hv
        | 1 | 2 | _ + 3 => rfl
    · exact ⟨fun _ => rfl, fun _ _ => rfl, Nat.le_succ _, rfl, rfl⟩

theorem enrPort_updPort_same (p : Nat) (f : EnrPort → EnrPort) (s : State) : enrPort (updPort p f s) p = f (enrPort s p) :=
  enrPort_setEnrPort_same _ _ _
/-- The state whose port has given up a DISPATCH of its remote queue. -/
def dispatchTaken (p : Nat) (m : Msg) (s : State) : State := updPort p (fun e => queueDispatch { e with waiting := e.waiting.erase m }) s

theorem onlySent_dispatchTaken (p : Nat) (m : Msg) (s : State) : onlySent s (dispatchTaken p m s) := onlySent_updPort (onlySent_refl s) _ _
theorem dispatchTaken_pending (p : Nat) (m : Msg) (s : State) (v : Nat) :
    pendingFlits (enrPort (dispatchTaken p m s) p) v = pendingFlits (enrPort s p) v := by
  unfold dispatchTaken
  rw [enrPort_updPort_same]
  exact ((queueDispatch_keeps _).1 v).trans (by unfold pendingFlits chan; split <;> rfl)
theorem dispatchTaken_waiting {p : Nat} {m : Msg} (h : m ∈ (enrPort s p).waiting) :
    (enrPort (dispatchTaken p m s) p).waiting.length ≤ (enrPort s p).waiting.length := by
  have hpos := List.length_pos_of_mem h
  have hle := (queueDispatch_keeps { enrPort s p with waiting := (enrPort s p).waiting.erase m }).2.2.1
  unfold dispatchTaken
  rw [enrPort_updPort_same]
  refine hle.trans ?_
  dsimp only
  rw [List.length_erase_of_mem h]; omega

-- A message taken from its channel

/-- The port that has given up its next message of a kind. -/
theorem dropMsg_port {p k : Nat} {m : Msg} (hm : nextMsg s p k = some m) (hk : msgVc k ≠ 0) :
    (enrPort (dropMsg p k s) p).peer = (enrPort s p).peer
      ∧ (chan (enrPort (dropMsg p k s) p) (msgVc k)).ready = (chan (enrPort s p) (msgVc k)).ready.eraseP fun x => x.kind = k := by
  unfold dropMsg; dsimp only
  rw [hm]; dsimp only
  generalize hc : ({ chan (enrPort s p) (msgVc k) with ready := (chan (enrPort s p) (msgVc k)).ready.eraseP fun x => x.kind = k } : Channel) = c
  generalize hq : oweCredits (msgVc k) m.flits (setChan (enrPort s p) (msgVc k) c) = q
  have howe : PortKept (setChan (enrPort s p) (msgVc k) c) q := hq ▸ .oweCredits _ _
  obtain ⟨-, hchan, -, hpeer, -⟩ := queueDispatch_keeps q
  have hidle := (sentOn_sendIdle p (setEnrPort p (queueDispatch q) s)).1
  rw [enrPort_setEnrPort_same] at hidle
  refine ⟨hidle.peer.trans (hpeer.trans (howe.peer.trans (setChan_rest ..).2.2.1)), ?_⟩
  rw [hidle.ready, hchan _ hk, howe.ready, chan_setChan_same, ← hc]
theorem nextMsg_head {p k : Nat} {m : Msg} (hm : nextMsg s p k = some m) (hk : k ≠ 1) :
    (chan (enrPort s p) (msgVc k)).ready.eraseP (fun x => x.kind = k) = (chan (enrPort s p) (msgVc k)).ready.drop 1 := by
  unfold nextMsg at hm; dsimp only at hm
  rw [if_neg hk] at hm
  generalize (chan (enrPort s p) (msgVc k)).ready = l at hm ⊢
  cases l with
  | nil => rfl
  | cons x l =>
    obtain ⟨hx, hkind⟩ := Option.filter_eq_some_iff.1 hm
    cases hx
    exact List.eraseP_cons_of_pos (p := fun x : Msg => decide (x.kind = k)) hkind

-- What is stored of a message

/-- Nothing differs but the memory die and what error logging and interrupts touch. -/
def onlyStored (s t : State) : Prop :=
  { t with free := s.free, outbox := s.outbox, regs := s.regs, ecc := s.ecc, hst := s.hst, mem := s.mem } = s

theorem onlyStored_refl (s : State) : onlyStored s s := rfl
theorem onlyStored_trans (h : onlyStored s t) (k : onlyStored t u) : onlyStored s u := by
  unfold onlyStored at *
  rw [← h, ← k]
theorem onlyStored_of_logs (h : onlyLogs s t) : onlyStored s t := by
  unfold onlyLogs at h
  unfold onlyStored
  rw [← h]
theorem onlyStored_foldl {β : Type} {f : State → β → State} (l : List β) (hf : ∀ t, ∀ b ∈ l, onlyStored t (f t b)) (s : State) :
    onlyStored s (l.foldl f s) :=
  l.foldlRecOn (motive := onlyStored s) f (onlyStored_refl s) fun _ hv b hb => onlyStored_trans hv (hf _ b hb)
theorem onlyStored_putRowCode (b r w : Nat) (c : Code) (s : State) : onlyStored s (putRowCode b r w c s) := rfl
theorem onlyStored_writeCode (b r w m : Nat) (x : Word) (s : State) : onlyStored s (writeCode b r w m x s) := by
  unfold writeCode; split
  · exact onlyStored_refl s
  · split
    · exact onlyStored_putRowCode ..
    · split
      · exact onlyStored_putRowCode ..
      · exact onlyStored_refl s
theorem onlyStored_rowWrite (b r : Nat) (m : BitVec 1024) (d : BitVec 8192) (s : State) : onlyStored s (rowWrite b r m d s) := by
  unfold rowWrite
  refine onlyStored_trans ?_ (onlyStored_foldl _ (fun t w _ => onlyStored_writeCode ..) _)
  split
  · exact onlyStored_of_logs (onlyLogs_rowLog (onlyLogs_refl s) b r)
  · exact onlyStored_refl s
theorem onlyStored_writeBytes (b r o : Nat) (bs : List Byte) (s : State) : onlyStored s (writeBytes b r o bs s) := by
  unfold writeBytes; dsimp only
  exact onlyStored_foldl _ (fun _ _ _ => onlyStored_rowWrite ..) s
theorem onlyStored_bankTouch (b : Nat) (s : State) : onlyStored s (bankTouch b s) := by
  obtain ⟨l, e⟩ := bankTouch_eq b s; rw [e]; rfl
theorem onlyStored_refuseHanded (typ lim : Nat) (s : State) : onlyStored s (refuseHanded typ lim s) := by
  unfold refuseHanded
  exact onlyStored_foldl _ (fun v n _ => onlyStored_of_logs (onlyLogs_bankRefuse (onlyLogs_refl v) typ 0 n 0)) s

/-- The bytes of a payload in a row group that it takes of a bank type (R325, R327): the bank that a handover takes from it refuses. -/
def groupFilled (typ g : Nat) (bs : List Byte) (s : State) : State :=
  writeBytes (g / 1024) (4 * (g % 1024)) 0 bs (takeGroup g (bankTouch (g / 1024) (refuseHanded typ (g / 1024) s)))

theorem onlyWork_refuseHanded (h : onlyWork s t) (typ lim : Nat) : onlyWork s (refuseHanded typ lim t) := by
  unfold refuseHanded
  exact onlyWork_foldl _ (fun v n => onlyWork_bankRefuse (onlyWork_refl v) typ 0 n 0) _ _ h
theorem onlyWork_groupFilled (h : onlyWork s t) (typ g : Nat) (bs : List Byte) : onlyWork s (groupFilled typ g bs t) :=
  onlyWork_writeBytes (onlyWork_takeGroup (onlyWork_bankTouch (onlyWork_refuseHanded h _ _) _) _) _ _ _ _

/-- Of Sluice, the fabric and Enrus nothing changes, and of the lanes' record the group alone is taken. -/
theorem groupFilled_keeps (typ g : Nat) (bs : List Byte) (s : State) : (groupFilled typ g bs s).slu = s.slu
    ∧ (groupFilled typ g bs s).fab = s.fab ∧ (groupFilled typ g bs s).enr = s.enr
    ∧ (groupFilled typ g bs s).lan = { s.lan with groups := g :: s.lan.groups } := by
  have hb := onlyStored_trans (onlyStored_refuseHanded typ (g / 1024) s) (onlyStored_bankTouch (g / 1024) _)
  have hw : onlyStored _ (groupFilled typ g bs s) := onlyStored_writeBytes (g / 1024) (4 * (g % 1024)) 0 bs
    (takeGroup g (bankTouch (g / 1024) (refuseHanded typ (g / 1024) s)))
  have hb' : _ = s := hb
  have hw' : _ = takeGroup g (bankTouch (g / 1024) (refuseHanded typ (g / 1024) s)) := hw
  have hlb : (bankTouch (g / 1024) (refuseHanded typ (g / 1024) s)).lan = s.lan := by have e := congrArg (·.lan) hb'; exact e
  refine ⟨?_, ?_, ?_, ?_⟩
  · have e1 := congrArg (·.slu) hw'
    have e2 := congrArg (·.slu) hb'
    exact Eq.trans e1 e2
  · have e1 := congrArg (·.fab) hw'
    have e2 := congrArg (·.fab) hb'
    exact Eq.trans e1 e2
  · have e1 := congrArg (·.enr) hw'
    have e2 := congrArg (·.enr) hb'
    exact Eq.trans e1 e2
  · have e1 := congrArg (·.lan) hw'
    refine Eq.trans e1 ?_
    unfold takeGroup; dsimp only
    rw [hlb]

-- Held outputs and notices

theorem onlyWork_dropHeld (h : onlyWork s t) (p : HeldOut → Bool) : onlyWork s (dropHeld p t) :=
  onlyWork_enr (onlyWork_foldl _ (fun v g => onlyWork_returnGroup (onlyWork_refl v) (g / 1024) (4 * (g % 1024))) _ _ h) _
theorem dropHeld_keeps (p : HeldOut → Bool) (s : State) : (dropHeld p s).slu = s.slu
    ∧ (dropHeld p s).enr = { s.enr with held := s.enr.held.filter fun h => !p h } := by
  have hfold : ∀ l : List Nat, (l.foldl (fun t g => returnGroup (g / 1024) (4 * (g % 1024)) t) s).slu = s.slu
      ∧ (l.foldl (fun t g => returnGroup (g / 1024) (4 * (g % 1024)) t) s).enr = s.enr := fun l =>
    l.foldlRecOn (motive := fun v => State.slu v = s.slu ∧ State.enr v = s.enr) _ ⟨rfl, rfl⟩ fun v hv g _ => hv
  unfold dropHeld; dsimp only
  obtain ⟨hslu, henr⟩ := hfold ((s.enr.held.filter p).filterMap (·.group))
  rw [hslu, henr]; exact ⟨rfl, rfl⟩

/-- A failover that waits for its notices ends with the last of them (R210, R276). -/
def noticesDone (l : Nat) (s : State) : State :=
  if tget 0 l s.slu.failover = 4 && !s.enr.notices.any fun k => k.2.1 = l then
    { s with slu := { s.slu with failover := tput 0 l 0 s.slu.failover } }
  else s

theorem noticesDone_enr (l : Nat) (s : State) : (noticesDone l s).enr = s.enr := by unfold noticesDone; split <;> rfl
theorem noticesDone_same {l : Nat} {s : State} (h : ∀ k ∈ s.enr.notices, k.2.1 ≠ l) (h4 : tget 0 l s.slu.failover = 4) :
    tget 0 l (noticesDone l s).slu.failover = 0 := by
  have hany : (s.enr.notices.any fun k => k.2.1 = l) = false := by simpa using h
  unfold noticesDone
  rw [if_pos (by simp [h4, hany])]; simp
theorem noticesDone_other {l k : Nat} (h : k ≠ l) (s : State) : tget 0 k (noticesDone l s).slu.failover = tget 0 k s.slu.failover := by
  unfold noticesDone; split
  · simp [tget_tput_other _ _ h]
  · rfl
theorem onlyWork_noticesDone (h : onlyWork s t) (l : Nat) : onlyWork s (noticesDone l t) := by
  unfold noticesDone; split
  · exact onlyWork_withSlu h fun u => { u with failover := tput 0 l 0 u.failover }
  · exact h

theorem dropNotices_eq (p : Nat × Nat × Nat → Bool) (s : State) : dropNotices p s
    = (List.range 32).foldl (fun t l => noticesDone l t) { s with enr := { s.enr with notices := s.enr.notices.filter fun k => !p k } } := rfl
theorem onlyWork_dropNotices (h : onlyWork s t) (p : Nat × Nat × Nat → Bool) : onlyWork s (dropNotices p t) := by
  rw [dropNotices_eq]
  exact onlyWork_foldl _ (fun v l => onlyWork_noticesDone (onlyWork_refl v) l) _ _ (onlyWork_enr h _)

/-- Over the basins one after the other: each that waits and has no notice left is done, and no notice changes. -/
theorem noticesDone_range (n : Nat) (s t : State) (ht : t = (List.range n).foldl (fun t l => noticesDone l t) s) : t.enr = s.enr
    ∧ (∀ k, n ≤ k → tget 0 k t.slu.failover = tget 0 k s.slu.failover)
    ∧ ∀ k, k < n → tget 0 k s.slu.failover = 4 → (∀ x ∈ s.enr.notices, x.2.1 ≠ k) →
      tget 0 k t.slu.failover = 0 := by
  induction n generalizing t with
  | zero => subst ht; exact ⟨rfl, fun _ _ => rfl, fun _ h => absurd h (Nat.not_lt_zero _)⟩
  | succ n ih =>
    obtain ⟨henr, hrest, hdone⟩ := ih _ rfl
    rw [List.range_succ, List.foldl_append] at ht
    subst ht
    refine ⟨(noticesDone_enr n _).trans henr, fun k hk => (noticesDone_other (by omega) _).trans (hrest k (by omega)), fun k hk h4 hn => ?_⟩
    by_cases hkn : k = n
    · subst hkn
      exact noticesDone_same (by rw [henr]; exact hn) ((hrest k le_rfl).trans h4)
    · exact (noticesDone_other hkn _).trans (hdone k (by omega) h4 hn)
theorem dropNotices_holds (p : Nat × Nat × Nat → Bool) (s : State) :
    (dropNotices p s).enr.notices = s.enr.notices.filter (fun k => !p k)
      ∧ ∀ l, l < 32 → tget 0 l s.slu.failover = 4 → (∀ k ∈ (dropNotices p s).enr.notices, k.2.1 ≠ l) →
        tget 0 l (dropNotices p s).slu.failover = 0 := by
  obtain ⟨henr, -, hdone⟩ := noticesDone_range 32 _ _ (dropNotices_eq p s)
  have hn : (dropNotices p s).enr.notices = s.enr.notices.filter (fun k => !p k) := by rw [henr]
  rw [hn]
  exact ⟨rfl, hdone⟩

end Sys2Proof.Machine
end

section
/-! Items across the mesh, credit reports and fault notices (R188, R276 to R279). -/

namespace Sys2Proof.Machine

variable {s t u : State} {p : Nat} {m : Msg}

-- DISPATCH (R277)

/-- The delivery of a DISPATCH at row group `g`. -/
def dispatchDelivery (p : Nat) (m : Msg) (g : Nat) : Delivery :=
  let len := bodyNat m 4 2 % 8192
  let rows := (len + 1023) / 1024 - 1
  let beat := setFld (ofBytes 512 (m.body.take 64)) 128 21 (g / 1024 + 4 * (g % 1024) * 2 ^ 7 + rows % 4 * 2 ^ 19)
  ⟨m.ref, BitVec.ofNat 4 (dispatchPlane m), BitVec.ofNat 8 (fld beat 76 8), BitVec.ofNat 7 (g / 1024), BitVec.ofNat 12 (4 * (g % 1024)), rows,
    2 * (65536 * p + bodyNat m 64 2) + 1, none, [⟨beat, true, true⟩]⟩

/-- A basin that does not run is waked where its clock is enabled (R119). -/
def basinWoken (n : Nat) (s : State) : State :=
  if (basinOf s n).power = .run || !rdB s (clkEnA (pgBSN n)) 0 then s else setBasin n { basinOf s n with waking := true } s

/-- The item and its home, and its delivery on its way to the basin. -/
def dispatchEntered (n p port : Nat) (m : Msg) (d : Delivery) (s : State) : State :=
  withSlu (fun u => { u with transit := u.transit ++ [(n, port, d)] })
    { s with enr := { s.enr with guests := s.enr.guests ++ [⟨p, bodyNat m 64 2, m.ref, n⟩] } }

theorem presentDispatch_eq (p : Nat) (m : Msg) (port g : Nat) (s : State) : presentDispatch p m port g s
    = dispatchEntered (dispatchBasin s m) p port m (dispatchDelivery p m g)
        (basinWoken (dispatchBasin s m) (groupFilled 2 g ((m.body.drop 68).take (bodyNat m 4 2 % 8192)) s)) := rfl

theorem workOn_basinWoken (n : Nat) (s : State) : workOn n s (basinWoken n s) := by
  unfold basinWoken; split
  · exact workOn_refl n s
  · exact workOn_setBasin (workOn_refl n s) _
theorem basinWoken_keeps (n : Nat) (s : State) : (basinWoken n s).slu = s.slu ∧ (basinWoken n s).enr = s.enr ∧ (basinWoken n s).lan = s.lan := by
  unfold basinWoken; split <;> exact ⟨rfl, rfl, rfl⟩

theorem dispatchBasin_congr (h : t.regs = s.regs) (m : Msg) : dispatchBasin t m = dispatchBasin s m := by
  unfold dispatchBasin physOf rdF
  rw [rd_congr h]

theorem dispatchMsg_presented {k g : Nat} (hm : (enrPort s p).waiting.find? (dispatchReady s) = some m) (hf : dispatchFaulted s m = false)
    (hv : dispatchValid s m = true) (hp : dispatchPort s m = some k) (hg : freeGroup s 2 = some g) :
    ∃ t d, exec (.dispatchMsg p) s = .next t
      ∧ t.slu = { s.slu with transit := s.slu.transit ++ [(dispatchBasin s m, k, d)] } ∧ d.handle = m.ref
      ∧ d.tag = BitVec.ofNat 4 (dispatchPlane m) ∧ d.bank.toNat = g / 1024 % 128 ∧ d.row.toNat = 4 * (g % 1024) ∧ d.error = none
      ∧ t.enr.guests = s.enr.guests ++ [⟨p, bodyNat m 64 2, m.ref, dispatchBasin s m⟩] ∧ t.lan.groups = g :: s.lan.groups
      ∧ workOn (dispatchBasin s m) s t := by
  have hexec : exec (.dispatchMsg p) s = .next (sendIdle p (presentDispatch p m k g (dispatchTaken p m s))) := by
    change execDispatchMsg p s = _
    unfold execDispatchMsg
    rw [hm]; dsimp only
    rw [hf, if_neg (by decide), hv, if_neg (by decide), hp, hg]; rfl
  have htaken := onlySent_dispatchTaken p m s
  have hn : dispatchBasin (dispatchTaken p m s) m = dispatchBasin s m := dispatchBasin_congr (onlySent_regs htaken) m
  rw [presentDispatch_eq, hn] at hexec
  generalize dispatchBasin s m = n at hexec ⊢
  generalize (m.body.drop 68).take (bodyNat m 4 2 % 8192) = bs at hexec
  obtain ⟨hgs, -, hge, hgl⟩ := groupFilled_keeps 2 g bs (dispatchTaken p m s)
  obtain ⟨hws, hwe, hwl⟩ := basinWoken_keeps n (groupFilled 2 g bs (dispatchTaken p m s))
  have hidle := onlySent_sendIdle (onlySent_refl (dispatchEntered n p k m (dispatchDelivery p m g)
    (basinWoken n (groupFilled 2 g bs (dispatchTaken p m s))))) p
  refine ⟨_, dispatchDelivery p m g, hexec, ?_, rfl, rfl, BitVec.toNat_ofNat _ _, ?_, rfl, ?_, ?_, ?_⟩
  · rw [onlySent_slu hidle]
    unfold dispatchEntered
    rw [withSlu_slu, hws, hgs, onlySent_slu htaken]
  · refine (BitVec.toNat_ofNat _ _).trans (Nat.mod_eq_of_lt ?_)
    omega
  · rw [onlySent_guests hidle]
    unfold dispatchEntered
    rw [withSlu_enr, hwe, hge, onlySent_guests htaken]
  · rw [onlySent_groups hidle]
    unfold dispatchEntered
    rw [withSlu_lan, hwl, hgl, onlySent_groups htaken]
  · have hfill := workOn_of_onlyWork (onlyWork_groupFilled (onlySent_onlyWork htaken) 2 g bs) n
    have hin : onlyWork (basinWoken n (groupFilled 2 g bs (dispatchTaken p m s))) (dispatchEntered n p k m (dispatchDelivery p m g)
        (basinWoken n (groupFilled 2 g bs (dispatchTaken p m s)))) := onlyWork_withSlu (onlyWork_enr (onlyWork_refl _) _) _
    exact workOn_onlyWork (workOn_onlyWork (workOn_trans hfill (workOn_basinWoken n _)) hin) (onlySent_onlyWork hidle)

/-- A DISPATCH for a basin offline on a fault is answered by its notice (R279). -/
theorem dispatchMsg_discarded (hm : (enrPort s p).waiting.find? (dispatchReady s) = some m) (hf : dispatchFaulted s m = true) :
    ∃ t, exec (.dispatchMsg p) s = .next t ∧ (enrPort t p).waiting.length ≤ (enrPort s p).waiting.length ∧ t.enr.guests = s.enr.guests
      ∧ t.slu = s.slu ∧ t.fab = s.fab ∧ (∃ k ∈ t.enr.notices, k.1 = p ∧ k.2.1 = dispatchLogical m) ∧ onlyWork s t := by
  have hexec : exec (.dispatchMsg p) s = .next (discardDispatch p m (dispatchTaken p m s)) := by
    change execDispatchMsg p s = _
    unfold execDispatchMsg
    rw [hm]; dsimp only
    rw [if_pos hf]; rfl
  have htaken := onlySent_dispatchTaken p m s
  have hwait := dispatchTaken_waiting (s := s) (p := p) (List.mem_of_find?_eq_some hm)
  have hwork := onlySent_onlyWork htaken
  have hguests := onlySent_guests htaken
  have hslu := onlySent_slu htaken
  have hfab := onlySent_fab htaken
  refine ⟨_, hexec, ?_⟩
  generalize dispatchTaken p m s = v at *
  unfold discardDispatch; dsimp only
  split
  · next h =>
    obtain ⟨k, hk, hkp⟩ := List.any_eq_true.1 h
    exact ⟨hwait, hguests, hslu, hfab, ⟨k, hk, by simpa using hkp⟩, hwork⟩
  · have hnotice : onlyWork v (noticeOne (dispatchLogical m) p v) := onlyWork_noticeOne (onlyWork_refl v) _ _
    unfold noticeOne at hnotice ⊢; dsimp only at hnotice ⊢
    generalize hw : ({ v with enr := { v.enr with noticeNo := (v.enr.noticeNo + 1) % 65536, notices := v.enr.notices ++ [(p, dispatchLogical m, v.enr.noticeNo)] } } : State) = w at hnotice ⊢
    generalize ({ kind := 5, ref := 0, body := _, flits := 0 } : Msg) = x at hnotice ⊢
    have hsent := onlySent_sendMsg (onlySent_refl w) p x
    have hport : enrPort w p = enrPort v p := by rw [← hw]; rfl
    refine ⟨?_, ?_, ?_, ?_, ⟨(p, dispatchLogical m, v.enr.noticeNo), ?_, rfl, rfl⟩, onlyWork_trans hwork hnotice⟩
    · rw [waiting_sendMsg, hport]; exact hwait
    · rw [onlySent_guests hsent, ← hw]; exact hguests
    · rw [onlySent_slu hsent, ← hw]; exact hslu
    · rw [onlySent_fab hsent, ← hw]; exact hfab
    · rw [onlySent_notices hsent, ← hw]; simp

/-- A DISPATCH for a plane that is not VALID is answered with an END (R277). -/
theorem dispatchMsg_refused (hm : (enrPort s p).waiting.find? (dispatchReady s) = some m) (hf : dispatchFaulted s m = false)
    (hv : dispatchValid s m = false) : ∃ t, exec (.dispatchMsg p) s = .next t
      ∧ pendingFlits (enrPort t p) 1 = pendingFlits (enrPort s p) 1 ++ msgPayloads
          ⟨3, m.ref, toBytes 2 (BitVec.ofNat 16 (bodyNat m 64 2)) ++ [2] ++ toBytes 2 (0x080F : BitVec 16), 0⟩
      ∧ t.slu = s.slu ∧ t.lan.groups = s.lan.groups ∧ t.fab = s.fab ∧ onlyWork s t := by
  have hexec : exec (.dispatchMsg p) s = .next (sendEnd p (bodyNat m 64 2) m.ref 2 0x080F (dispatchTaken p m s)) := by
    change execDispatchMsg p s = _
    unfold execDispatchMsg
    rw [hm]; dsimp only
    rw [hf, if_neg (by decide), hv, if_pos (by decide)]; rfl
  have hsent := onlySent_sendEnd (onlySent_dispatchTaken p m s) p (bodyNat m 64 2) m.ref 2 0x080F
  refine ⟨_, hexec, ?_, onlySent_slu hsent, onlySent_groups hsent, onlySent_fab hsent, onlySent_onlyWork hsent⟩
  have hpend := pendingFlits_sendMsg p ⟨3, m.ref, toBytes 2 (BitVec.ofNat 16 (bodyNat m 64 2)) ++ [2] ++ toBytes 2 (0x080F : BitVec 16), 0⟩
    (dispatchTaken p m s)
  rw [← dispatchTaken_pending p m s 1]
  exact hpend

end Sys2Proof.Machine
end

section
/-! ARRIVE, OUTPUT and END of the mesh (R188, R204, R205, R278). -/

namespace Sys2Proof.Machine

variable {s t u : State} {p : Nat} {m : Msg}

theorem onlySent_refl_dropMsg (p k : Nat) (s : State) : onlySent s (dropMsg p k s) := onlySent_dropMsg (onlySent_refl s) p k
theorem onlyWork_dropMsg (h : onlyWork s t) (p k : Nat) : onlyWork s (dropMsg p k t) :=
  onlyWork_trans h (onlySent_onlyWork (onlySent_refl_dropMsg p k t))

-- ARRIVE (R188)

/-- The payload of a message in a row group, where it takes one. -/
def groupFilledWhere (typ : Nat) (g : Option Nat) (bs : List Byte) (s : State) : State :=
  match g with
  | some k => groupFilled typ k bs s
  | none => s

theorem onlyWork_groupFilledWhere (typ : Nat) (g : Option Nat) (bs : List Byte) (h : onlyWork s t) : onlyWork s (groupFilledWhere typ g bs t) := by
  cases g with
  | none => exact h
  | some k => exact onlyWork_groupFilled h typ k bs
theorem groupFilledWhere_keeps (typ : Nat) (g : Option Nat) (bs : List Byte) (s : State) : (groupFilledWhere typ g bs s).slu = s.slu
    ∧ (groupFilledWhere typ g bs s).enr = s.enr ∧ (groupFilledWhere typ g bs s).lan.held = s.lan.held := by
  cases g with
  | none => exact ⟨rfl, rfl, rfl⟩
  | some k =>
    obtain ⟨hslu, -, henr, hlan⟩ := groupFilled_keeps typ k bs s
    exact ⟨hslu, henr, congrArg (·.held) hlan⟩

/-- The arrival that an ARRIVE brings with its payload in row group `g`. -/
def meshArrival (m : Msg) (g : Option Nat) : Arrival :=
  { flow := BitVec.ofNat 16 (bodyNat m 6 2), len := bodyNat m 4 2 % 8192, mtag := BitVec.ofNat 32 (bodyNat m 12 4), delay := bodyNat m 32 4
    meta0 := BitVec.ofNat 64 (bodyNat m 24 8), bank := BitVec.ofNat 7 (g.getD 0 / 1024), row := BitVec.ofNat 12 (4 * (g.getD 0 % 1024))
    owner := if g.isSome then .enrus else .none }

/-- The state with an ARRIVE's payload stored. -/
def arriveStored (m : Msg) (s : State) : State :=
  groupFilledWhere 8 (if bodyNat m 4 2 % 8192 = 0 then none else freeGroup s 8) ((m.body.drop 36).take (bodyNat m 4 2 % 8192)) s

theorem takeArrive_eq (p : Nat) (m : Msg) (s : State) (hroom : bodyNat m 4 2 % 8192 = 0 ∨ (freeGroup s 8).isSome = true) :
    takeArrive p m s = if fHome s (BitVec.ofNat 16 (bodyNat m 6 2)).toNat = devIndex s && (nextFree s).isNone then s
      else dropMsg p 1 (settle (itemArrive (meshArrival m (if bodyNat m 4 2 % 8192 = 0 then none else freeGroup s 8)) (arriveStored m s)).1) := by
  unfold takeArrive arriveStored; extract_lets len flow bytes g
  have hg : (decide (len ≠ 0) && g.isNone) = false := by
    unfold g
    rcases hroom with h | h
    · rw [show len = 0 from h]; rfl
    · split
      · next h0 => rw [h0]; rfl
      · rw [Option.isNone_eq_false_iff.2 h, Bool.and_false]
  rw [hg, Bool.false_or]
  split
  · rfl
  · change dropMsg p 1 (settle (itemArrive (meshArrival m g) _).1) = dropMsg p 1 (settle (itemArrive (meshArrival m g) (groupFilledWhere 8 g bytes s)).1)
    clear_value g
    cases g with
    | none => rfl
    | some k => rfl

/-- An item that enters at home takes the free slot with its next generation (R187). -/
theorem itemArrive_gen {a : Arrival} {k : Nat} (hh : fHome s a.flow.toNat = devIndex s) (hk : nextFree s = some k) (hs : bpStill s) :
    (slotOf (settle (itemArrive a s).1) k).gen = (slotOf s k).gen + 1 := by
  have he : (itemArrive a s).1 = arriveSlot k (fillSlot k a s) := by
    unfold itemArrive
    rw [if_neg (by simpa using hh), hk]
  have hstep : FlowStep True (fillSlot k a s) (arriveSlot k (fillSlot k a s)) := (FlowStep.refl _).arriveSlot k
  have hgen : (slotOf (fillSlot k a s) k).gen = (slotOf s k).gen + 1 := by simp [slotOf, fillSlot, sluMend, setSlot]
  have hslots := congrArg (·.slots) (settle_still_slu (hstep.bpStill (s := fillSlot k a s) hs))
  rw [he, ← hgen, ← hstep.gens trivial k]
  unfold slotOf
  exact congrArg (fun l => (tget Slot.filled k l).gen) hslots

theorem arrive_holds (hm : nextMsg s p 1 = some m) (hroom : bodyNat m 4 2 % 8192 = 0 ∨ (freeGroup s 8).isSome = true) :
    (∃ t, exec (.arrive p) s = .next t ∧ onlyWork s t)
      ∧ ∀ k, fHome s (BitVec.ofNat 16 (bodyNat m 6 2)).toNat = devIndex s → nextFree s = some k → bpStill s →
        ∃ t, exec (.arrive p) s = .next t ∧ (slotOf t k).gen = (slotOf s k).gen + 1 := by
  have hexec : exec (.arrive p) s = .next (takeArrive p m s) := by
    change execArrive p s = _
    unfold execArrive; rw [hm]
  rw [hexec, takeArrive_eq p m s hroom]
  have hwork : onlyWork s (arriveStored m s) := onlyWork_groupFilledWhere _ _ _ (onlyWork_refl s)
  obtain ⟨hslu, -, hheld⟩ : (arriveStored m s).slu = s.slu ∧ (arriveStored m s).enr = s.enr ∧ (arriveStored m s).lan.held = s.lan.held :=
    groupFilledWhere_keeps _ _ _ s
  constructor
  · refine ⟨_, rfl, ?_⟩
    split
    · exact onlyWork_refl s
    · exact onlyWork_dropMsg (onlyWork_settle (onlyWork_itemArrive hwork _)) p 1
  · intro k hh hk hs
    refine ⟨_, rfl, ?_⟩
    rw [if_neg (by simp [hk])]
    have hdev : devIndex (arriveStored m s) = devIndex s := by
      unfold devIndex rdF
      rw [hwork.2 _ (by decide)]
    have hslot : ∀ w : State, slotOf (dropMsg p 1 w) k = slotOf w k := fun w => by
      unfold slotOf; rw [onlySent_slu (onlySent_refl_dropMsg p 1 w)]
    have hback : slotOf (arriveStored m s) k = slotOf s k := by unfold slotOf; rw [hslu]
    rw [hslot, itemArrive_gen (s := arriveStored m s) (k := k) ?_ ?_ ?_, hback]
    · rw [hdev, ← hh]
      unfold fHome flowW0 meshArrival
      rw [hslu]
    · rw [← hk]
      unfold nextFree freeSlots slotOf
      rw [hslu]
    · unfold bpStill at *
      rw [hslu, hheld]; exact hs

-- OUTPUT (R278)

/-- A remote service's output is held at home. -/
def outputHeld (h : HeldOut) (s : State) : State := { s with enr := { s.enr with held := s.enr.held ++ [h] } }

theorem takeOutput_current {v : Service} (hv : remoteService s p (bodyNat m 0 2) = some v) (hc : v.current = true) {w : BitVec 256}
    (hw : w = ofBytes 256 ((m.body.drop 2).take 32)) (hroom : fld w 64 13 = 0 ∨ (freeGroup s 8).isSome = true) :
    takeOutput p m s = dropMsg p 2 (outputHeld ⟨p, bodyNat m 0 2, w, (m.body.drop 34).take (fld w 64 13), if fld w 64 13 = 0 then none else freeGroup s 8⟩
      (groupFilledWhere 8 (if fld w 64 13 = 0 then none else freeGroup s 8) ((m.body.drop 34).take (fld w 64 13)) s)) := by
  subst hw
  unfold takeOutput; extract_lets svc words len bytes current hold
  have hcur : current = true := by unfold current; rw [hv]; exact hc
  rw [hcur, if_neg (by decide)]
  change (if len = 0 then hold none s else _) = dropMsg p 2 (outputHeld ⟨p, svc, words, bytes, if len = 0 then none else freeGroup s 8⟩
    (groupFilledWhere 8 (if len = 0 then none else freeGroup s 8) bytes s))
  by_cases hl : len = 0
  · rw [if_pos hl, if_pos hl]; rfl
  · obtain ⟨g, hg⟩ := Option.isSome_iff_exists.1 (hroom.resolve_left hl)
    rw [if_neg hl, if_neg hl, hg]; rfl

theorem output_holds (hm : nextMsg s p 2 = some m) {w : BitVec 256} {v : Service} (hw : w = ofBytes 256 ((m.body.drop 2).take 32))
    (hv : remoteService s p (bodyNat m 0 2) = some v) :
    (v.current = true → (fld w 64 13 = 0 ∨ (freeGroup s 8).isSome = true) → ∃ t h, exec (.output p) s = .next t
        ∧ t.enr.held = s.enr.held ++ [h] ∧ h.port = p ∧ h.service = bodyNat m 0 2 ∧ h.words = w
        ∧ h.bytes = (m.body.drop 34).take (fld w 64 13) ∧ h.group = (if fld w 64 13 = 0 then none else freeGroup s 8)
        ∧ t.slu = s.slu ∧ onlyWork s t)
      ∧ (v.current = false → ∃ t, exec (.output p) s = .next t ∧ t.enr.held = s.enr.held ∧ t.slu = s.slu ∧ t.lan.groups = s.lan.groups
        ∧ t.mem = s.mem ∧ onlyWork s t) := by
  have hexec : exec (.output p) s = .next (takeOutput p m s) := by
    change execOutput p s = _
    unfold execOutput; rw [hm]
  rw [hexec]
  constructor
  · intro hc hroom
    rw [takeOutput_current hv hc hw hroom]
    generalize (if fld w 64 13 = 0 then none else freeGroup s 8) = g
    generalize (m.body.drop 34).take (fld w 64 13) = bs
    obtain ⟨hslu, henr, -⟩ := groupFilledWhere_keeps 8 g bs s
    have hsent := onlySent_refl_dropMsg p 2 (outputHeld ⟨p, bodyNat m 0 2, w, bs, g⟩ (groupFilledWhere 8 g bs s))
    refine ⟨_, ⟨p, bodyNat m 0 2, w, bs, g⟩, rfl, ?_, rfl, rfl, rfl, rfl, rfl, (onlySent_slu hsent).trans hslu, ?_⟩
    · rw [onlySent_held hsent]
      unfold outputHeld; dsimp only
      rw [henr]
    · exact onlyWork_dropMsg (onlyWork_enr (onlyWork_groupFilledWhere 8 g bs (onlyWork_refl s)) _) p 2
  · intro hc
    have htake : takeOutput p m s = dropMsg p 2 s := by
      unfold takeOutput; dsimp only
      rw [hv, Option.map_some, Option.getD_some, hc]; rfl
    rw [htake]
    have hsent := onlySent_refl_dropMsg p 2 s
    exact ⟨_, rfl, onlySent_held hsent, onlySent_slu hsent, onlySent_groups hsent, onlySent_mem hsent, onlySent_onlyWork hsent⟩

-- END (R204, R205, R278)

theorem onlyWork_touchPartners (h : onlyWork s t) (rs : List Release) : onlyWork s (touchPartners rs t) :=
  onlyWork_foldl _ (fun v r => by
    have hv : onlyWork v (sluTouch 0 r.partner 0 2 v) := onlyWork_sluTouch (onlyWork_refl v) _ _ _ _
    dsimp only; split
    · exact onlyWork_withSlu hv _
    · exact hv) _ _ h
theorem onlyWork_enterItem (h : onlyWork s t) (r : Release) : onlyWork s (enterItem r t) := by
  unfold enterItem; extract_lets g bank row v
  have hv : onlyWork s v := by
    unfold v
    clear_value g
    cases g with
    | none => exact h
    | some k => exact onlyWork_writeBytes (onlyWork_takeGroup (onlyWork_bankTouch (onlyWork_refuseHanded h _ _) _) _) _ _ _ _
  exact onlyWork_itemArrive hv _
/-- What an END releases goes to no stream of this device. -/
theorem onlyWork_releaseOne (h : onlyWork s t) (r : Release) : onlyWork s (releaseOne none t r) := by
  have hm : toMaster t none r = false := by simp [toMaster]
  unfold releaseOne
  rw [hm, if_neg (by decide)]
  split
  · exact onlyWork_enterItem h r
  · split
    · exact onlyWork_lan (onlyWork_incF h (at' pgSLU 0x78) 0 32 1 (by decide)) _
    · exact onlyWork_withLan h _
theorem onlyWork_commitService (h : onlyWork s t) (id : Nat) (rs : List Release) (hu : commitService id none rs t = some u) : onlyWork s u := by
  unfold commitService at hu; extract_lets rs v at hu
  split at hu
  · cases hu
  · cases hu
    exact onlyWork_settle (onlyWork_foldl _ (fun v r => onlyWork_releaseOne (onlyWork_refl v) r) _ _
      (onlyWork_touchPartners (onlyWork_finishService h id) _))

/-- What follows the end of a remote service: its held outputs go, and the message is taken. -/
def endTaken (p : Nat) (m : Msg) (s : State) : State := dropMsg p 3 (dropService p (bodyNat m 0 2) s)

theorem onlyWork_endTaken (h : onlyWork s t) (p : Nat) (m : Msg) : onlyWork s (endTaken p m t) := onlyWork_dropMsg (onlyWork_dropHeld h _) p 3
theorem onlyWork_takeEnd (p : Nat) (m : Msg) (s : State) : onlyWork s (takeEnd p m s) := by
  unfold takeEnd; extract_lets svc id rs fin
  have hr := onlyWork_refl s
  split
  · split
    · next hc => exact onlyWork_endTaken (onlyWork_commitService hr id rs hc) p m
    · exact hr
  · exact onlyWork_endTaken (onlyWork_completeService hr id) p m
  · exact onlyWork_endTaken (onlyWork_itemError hr id _) p m

theorem takeEnd_noCommit {v : Service} (hv : remoteService s p (bodyNat m 0 2) = some v) (h0 : bodyNat m 2 1 ≠ 0) :
    takeEnd p m s = endTaken p m (if bodyNat m 2 1 = 1 then completeService v.id s else itemError v.id (bodyNat m 3 2) s) := by
  unfold takeEnd; extract_lets svc id rs fin
  have hid : id = v.id := by unfold id; rw [hv]; rfl
  rw [hid]
  generalize bodyNat m 2 1 = k at h0 ⊢
  match k with
  | 0 => exact absurd rfl h0
  | 1 => rfl
  | _ + 2 => rfl

theorem endTaken_gone {v : Service} (h : serviceGone v s t) (p : Nat) (m : Msg) :
    (endTaken p m t).slu.services = s.slu.services.filter (fun x => decide (x.id ≠ v.id))
      ∧ (endTaken p m t).enr.held = s.enr.held.filter (fun h => decide (¬(h.port = p ∧ h.service = bodyNat m 0 2))) := by
  obtain ⟨hserv, hheld⟩ := h
  have hsent := onlySent_refl_dropMsg p 3 (dropService p (bodyNat m 0 2) t)
  obtain ⟨hslu, henr⟩ := dropHeld_keeps (fun h => h.port = p && h.service = bodyNat m 0 2) t
  unfold endTaken
  constructor
  · rw [onlySent_slu hsent, show (dropService p (bodyNat m 0 2) t).slu = t.slu from hslu, hserv]
  · rw [onlySent_held hsent, show (dropService p (bodyNat m 0 2) t).enr = _ from henr]
    dsimp only
    rw [hheld]
    exact List.filter_congr fun h _ => by simp

theorem endMsg_holds (hm : nextMsg s p 3 = some m) : (∃ t, exec (.endMsg p) s = .next t ∧ onlyWork s t)
    ∧ ∀ v, bodyNat m 2 1 ≠ 0 → s.slu.damage = [] → remoteService s p (bodyNat m 0 2) = some v → v.current = true →
      (∀ x ∈ s.slu.services, x.id = v.id → x = v) → ∃ t, exec (.endMsg p) s = .next t
        ∧ t.slu.services = s.slu.services.filter (fun x => decide (x.id ≠ v.id))
        ∧ t.enr.held = s.enr.held.filter (fun h => decide (¬(h.port = p ∧ h.service = bodyNat m 0 2))) := by
  have hexec : exec (.endMsg p) s = .next (takeEnd p m s) := by
    change execEndMsg p s = _
    unfold execEndMsg; rw [hm]
  rw [hexec]
  refine ⟨⟨_, rfl, onlyWork_takeEnd p m s⟩, fun v h0 hd hv hc honly => ⟨_, rfl, ?_⟩⟩
  have hserv : serviceOf s v.id = some v := serviceOf_only (List.mem_of_find?_eq_some hv) honly
  rw [takeEnd_noCommit hv h0]
  refine endTaken_gone ?_ p m
  split
  · exact completeService_gone hserv hc hd
  · exact itemError_gone hserv hc hd _

end Sys2Proof.Machine
end

section
/-! Credit reports and fault notices (R276, R279). -/

namespace Sys2Proof.Machine

variable {s t : State} {p : Nat} {m : Msg}

-- Credit reports (R276)

/-- What a credit report says of basin `l`. -/
def reported (m : Msg) (l : Nat) : PeerBasin :=
  ⟨bodyNat m (4 * l) 1 % 32, (bodyNat m (4 * l) 1).testBit 7, BitVec.ofNat 16 (bodyNat m (4 * l + 2) 2)⟩

/-- The known basins of device `d` as a report gives them, the first `n` of them. -/
def peersReported (d : Nat) (m : Msg) (n : Nat) (ps : Tab PeerBasin) : Tab PeerBasin :=
  (List.range n).foldl (fun q l => tput ⟨0, false, 0⟩ (32 * d + l) (reported m l) q) ps

theorem tget_peersReported (d : Nat) (m : Msg) (n k : Nat) (ps : Tab PeerBasin) : tget ⟨0, false, 0⟩ k (peersReported d m n ps)
    = if 32 * d ≤ k ∧ k < 32 * d + n then reported m (k - 32 * d) else tget ⟨0, false, 0⟩ k ps := by
  induction n with
  | zero => rw [if_neg (by omega)]; rfl
  | succ n ih =>
    unfold peersReported at ih ⊢
    rw [List.range_succ, List.foldl_append, List.foldl_cons, List.foldl_nil, tget_tput, ih]
    by_cases hk : k = 32 * d + n
    · rw [if_pos hk, if_pos (by omega), hk, Nat.add_sub_cancel_left]
    · rw [if_neg hk]
      exact if_congr (by omega) rfl rfl

/-- The state with a report in place of the last one. -/
def reportTaken (p : Nat) (m : Msg) (s : State) : State :=
  { s with enr := { s.enr with peers := peersReported (enrPort s p).peer.toNat m 32 s.enr.peers } }

/-- Rearming the notices of empty groups changes flows alone. -/
theorem rearmEmpty_keeps (s : State) :
    (rearmEmpty s).enr = s.enr ∧ (rearmEmpty s).slu.services = s.slu.services ∧ (rearmEmpty s).slu.slots = s.slu.slots := by
  have hset : ∀ f d (v : State), (setFlowDyn f d v).enr = v.enr ∧ (setFlowDyn f d v).slu.services = v.slu.services
      ∧ (setFlowDyn f d v).slu.slots = v.slu.slots := fun f d v => by
    unfold setFlowDyn; dsimp only
    split <;> split <;> exact ⟨rfl, rfl, rfl⟩
  unfold rearmEmpty
  refine List.foldlRecOn (motive := fun (v : State) => v.enr = s.enr ∧ v.slu.services = s.slu.services ∧ v.slu.slots = s.slu.slots) _ _
    ⟨rfl, rfl, rfl⟩ fun v ⟨he, hs, hl⟩ q _ => ?_
  split
  · obtain ⟨h1, h2, h3⟩ := hset q.1 { flowDyn v q.1 with emptyRaised := false } v
    exact ⟨h1.trans he, h2.trans hs, h3.trans hl⟩
  · exact ⟨he, hs, hl⟩

theorem takeReport_eq (p : Nat) (m : Msg) (s : State) : takeReport p m s = rearmEmpty (reportTaken p m s) := by
  have hfold : ∀ (l : List Nat) (v : State), l.foldl (fun t l => ({ t with enr := { t.enr with
      peers := tput ⟨0, false, 0⟩ (32 * (enrPort s p).peer.toNat + l) (reported m l) t.enr.peers } } : State)) v
      = { v with enr := { v.enr with
          peers := l.foldl (fun q l => tput ⟨0, false, 0⟩ (32 * (enrPort s p).peer.toNat + l) (reported m l) q) v.enr.peers } } := by
    intro l
    induction l with
    | nil => exact fun _ => rfl
    | cons x l ih => exact fun v => ih _
  exact congrArg rearmEmpty (hfold (List.range 32) s)

theorem creditReport_holds (hm : nextMsg s p 4 = some m) : ∃ t, exec (.creditReport p) s = .next t
    ∧ (∀ l, l < 32 → tget ⟨0, false, 0⟩ (32 * (enrPort s p).peer.toNat + l) t.enr.peers
        = ⟨bodyNat m (4 * l) 1 % 32, (bodyNat m (4 * l) 1).testBit 7, BitVec.ofNat 16 (bodyNat m (4 * l + 2) 2)⟩)
    ∧ (∀ k, k / 32 ≠ (enrPort s p).peer.toNat → tget ⟨0, false, 0⟩ k t.enr.peers = tget ⟨0, false, 0⟩ k s.enr.peers)
    ∧ (chan (enrPort t p) 3).ready = (chan (enrPort s p) 3).ready.drop 1 ∧ t.slu.services = s.slu.services
    ∧ t.slu.slots = s.slu.slots ∧ onlyWork s t := by
  have hexec : exec (.creditReport p) s = .next (takeReport p m (dropMsg p 4 s)) := by
    change execCreditReport p s = _
    unfold execCreditReport; rw [hm]
  obtain ⟨hpeer, hready⟩ := dropMsg_port hm (by decide)
  rw [nextMsg_head hm (by decide)] at hready
  have hsent := onlySent_refl_dropMsg p 4 s
  obtain ⟨henr, hserv, hslots⟩ := rearmEmpty_keeps (reportTaken p m (dropMsg p 4 s))
  have hpeers : (rearmEmpty (reportTaken p m (dropMsg p 4 s))).enr.peers = peersReported (enrPort s p).peer.toNat m 32 s.enr.peers := by
    rw [henr]
    unfold reportTaken; dsimp only
    rw [hpeer, onlySent_peers hsent]
  rw [takeReport_eq] at hexec
  refine ⟨_, hexec, fun l hl => ?_, fun k hk => ?_, ?_, ?_, ?_, ?_⟩
  · rw [hpeers, tget_peersReported, if_pos (by omega), Nat.add_sub_cancel_left]; rfl
  · rw [hpeers, tget_peersReported, if_neg (by omega)]
  · rw [enrPort_congr henr]; exact hready
  · exact hserv.trans (congrArg (·.services) (onlySent_slu hsent))
  · exact hslots.trans (congrArg (·.slots) (onlySent_slu hsent))
  · exact onlyWork_rearmEmpty (onlyWork_enr (onlySent_onlyWork hsent) _)

/-- A message sent on some ports stands once in each of their channels, and no other port changes. -/
theorem sendMsg_ports (m : Msg) (l : List Nat) (hl : l.Nodup) (s : State) :
    (∀ q ∈ l, pendingFlits (enrPort (l.foldl (fun t p => sendMsg p m t) s) q) (msgVc m.kind)
        = pendingFlits (enrPort s q) (msgVc m.kind) ++ msgPayloads m)
      ∧ ∀ q, q ∉ l → enrPort (l.foldl (fun t p => sendMsg p m t) s) q = enrPort s q := by
  induction l generalizing s with
  | nil => exact ⟨fun _ h => absurd h List.not_mem_nil, fun _ _ => rfl⟩
  | cons p l ih =>
    obtain ⟨hp, hnd⟩ := List.nodup_cons.1 hl
    obtain ⟨hin, hout⟩ := ih hnd (sendMsg p m s)
    have hother := (sendMsg_sentOn p m s).2
    refine ⟨fun q hq => ?_, fun q hq => ?_⟩
    · by_cases hqp : q = p
      · rw [hqp, List.foldl_cons, hout p hp, pendingFlits_sendMsg]
      · rw [List.foldl_cons, hin q ((List.mem_cons.1 hq).resolve_left hqp), hother q hqp]
    · obtain ⟨hqp, hql⟩ := not_or.1 (fun h => hq (List.mem_cons.2 h))
      rw [List.foldl_cons, hout q hql, hother q hqp]

theorem mem_upPorts {q : Nat} : q ∈ upPorts s ↔ q < 7 ∧ (enrPort s q).st = .up := by
  unfold upPorts; simp [List.mem_filter]

theorem creditReportSend_holds (s : State) : ∃ t, exec .creditReportSend s = .next t
    ∧ (∀ q, q < 7 → (enrPort s q).st = .up → pendingFlits (enrPort t q) 3
        = pendingFlits (enrPort s q) 3 ++ msgPayloads { kind := 4, ref := 0, body := (List.range 32).flatMap (reportBytes s), flits := 0 })
    ∧ (∀ q, q < 7 → (enrPort s q).st ≠ .up → enrPort t q = enrPort s q) ∧ onlySent s t := by
  have hexec : exec .creditReportSend s
      = .next (sendAll { kind := 4, ref := 0, body := (List.range 32).flatMap (reportBytes s), flits := 0 } s) := rfl
  generalize hx : ({ kind := 4, ref := 0, body := (List.range 32).flatMap (reportBytes s), flits := 0 } : Msg) = x at hexec
  have hvc : msgVc x.kind = 3 := by rw [← hx]; rfl
  obtain ⟨hin, hout⟩ := sendMsg_ports x (upPorts s) (List.nodup_range.filter _) s
  rw [hvc] at hin
  exact ⟨_, hexec, fun q hq hup => hin q (mem_upPorts.2 ⟨hq, hup⟩), fun q _ hdown => hout q fun h => hdown (mem_upPorts.1 h).2,
    onlySent_sendAll (onlySent_refl s) x⟩

-- Fault notices (R279)

/-- The services that a peer's notice ends. -/
def noticed (s : State) (p : Nat) (m : Msg) (v : Service) : Bool :=
  v.dev = (enrPort s p).peer && v.dev.toNat ≠ devIndex s && v.basin.toNat = bodyNat m 0 1

theorem noticed_iff (hp : (enrPort s p).peer.toNat ≠ devIndex s) (v : Service) :
    noticed s p m v = true ↔ v.dev = (enrPort s p).peer ∧ v.basin.toNat = bodyNat m 0 1 := by
  unfold noticed
  simp only [Bool.and_eq_true, decide_eq_true_eq]
  constructor
  · rintro ⟨⟨hd, -⟩, hb⟩; exact ⟨hd, hb⟩
  · rintro ⟨hd, hb⟩; exact ⟨⟨hd, hd ▸ hp⟩, hb⟩

theorem faultNotice_holds (hm : nextMsg s p 5 = some m) (hp : (enrPort s p).peer.toNat ≠ devIndex s) : ∃ t, exec (.faultNotice p) s = .next t
    ∧ (∀ v ∈ t.slu.services, ¬(v.dev = (enrPort s p).peer ∧ v.basin.toNat = bodyNat m 0 1))
    ∧ (∀ h ∈ t.enr.held, ∀ v ∈ s.slu.services, v.dev = (enrPort s p).peer → v.basin.toNat = bodyNat m 0 1 →
        ¬(h.port = p ∧ h.service = v.id % 65536)) ∧ onlyWork s t := by
  generalize hids : ((s.slu.services.filter (noticed s p m)).map fun v => v.id % 65536) = ids
  generalize hx : ({ kind := 6, ref := 0, body := m.body.take 3, flits := 0 } : Msg) = x
  generalize hu : reissueWhere (noticed s p m) (dropMsg p 5 s) = u
  have hexec : exec (.faultNotice p) s = .next (sendMsg p x (dropHeld (fun h => h.port = p && ids.contains h.service) u)) := by
    change execFaultNotice p s = _
    unfold execFaultNotice
    rw [hm, ← hids, ← hx, ← hu]; rfl
  obtain ⟨hslu, henr⟩ := dropHeld_keeps (fun h => h.port = p && ids.contains h.service) u
  have hsent := onlySent_sendMsg (onlySent_refl (dropHeld (fun h => h.port = p && ids.contains h.service) u)) p x
  have hgone := reissueWhere_services (p := noticed s p m) (fun v w e => by
    unfold noticed
    rw [show v.dev = w.dev from congrArg (·.dev) e, show v.basin = w.basin from congrArg (·.basin) e]) (dropMsg p 5 s)
  rw [hu] at hgone
  refine ⟨_, hexec, fun v hv hvp => ?_, fun h hh v hv hd hb hhv => ?_, ?_⟩
  · rw [onlySent_slu hsent, hslu] at hv
    have hno := hgone v hv
    rw [(noticed_iff hp v).2 hvp] at hno
    cases hno
  · rw [onlySent_held hsent, henr] at hh
    obtain ⟨hport, hservice⟩ := hhv
    have hin : h.service ∈ ids := by
      rw [← hids, hservice]
      exact List.mem_map.2 ⟨v, List.mem_filter.2 ⟨hv, (noticed_iff hp v).2 ⟨hd, hb⟩⟩, rfl⟩
    have hout := (List.mem_filter.1 hh).2
    simp [hport, hin] at hout
  · have hwork : onlyWork s u := hu ▸ onlyWork_reissueWhere (onlySent_onlyWork (onlySent_refl_dropMsg p 5 s)) _
    exact onlyWork_trans (onlyWork_dropHeld hwork _) (onlySent_onlyWork hsent)

theorem noticeAck_holds (hm : nextMsg s p 6 = some m) : ∃ t, exec (.noticeAck p) s = .next t
    ∧ t.enr.notices = s.enr.notices.filter (fun k => decide (k ≠ (p, bodyNat m 0 1, bodyNat m 1 2)))
    ∧ (∀ l, l < 32 → tget 0 l s.slu.failover = 4 → (∀ k ∈ t.enr.notices, k.2.1 ≠ l) → tget 0 l t.slu.failover = 0)
    ∧ onlyWork s t := by
  have hexec : exec (.noticeAck p) s = .next (dropNotices (fun k => k = (p, bodyNat m 0 1, bodyNat m 1 2)) (dropMsg p 6 s)) := by
    change execNoticeAck p s = _
    unfold execNoticeAck; rw [hm]
  have hsent := onlySent_refl_dropMsg p 6 s
  obtain ⟨hnotices, hdone⟩ := dropNotices_holds (fun k => k = (p, bodyNat m 0 1, bodyNat m 1 2)) (dropMsg p 6 s)
  rw [onlySent_slu hsent] at hdone
  refine ⟨_, hexec, ?_, hdone, onlyWork_dropNotices (onlySent_onlyWork hsent) _⟩
  rw [hnotices, onlySent_notices hsent]
  exact List.filter_congr fun k _ => by simp

/-- Settles O38: each message and each report on its own. -/
theorem enrusItemsAndReports : Obligations.EnrusItemsAndReports := by
  unfold Obligations.EnrusItemsAndReports
  refine ⟨fun p m s _ => ⟨fun k g => dispatchMsg_presented, dispatchMsg_discarded, dispatchMsg_refused, arrive_holds,
    fun hm w v hw hv => output_holds hm hw hv, endMsg_holds⟩, fun p m s _ => ⟨creditReport_holds, creditReportSend_holds s, faultNotice_holds, noticeAck_holds⟩⟩

end Sys2Proof.Machine
end

section
/-! What the intake touches of a lane's surroundings (R236 to R240): its own segments and frames, and the flow of items. -/

namespace Sys2Proof.Machine

variable {s t u : State} {l : Nat}

/-- Nothing differs but the segments and frames of the intake, the flow of items, the memory die and what error logging and interrupts touch. -/
def onlyIntake (s t : State) : Prop :=
  { t with
    free := s.free, outbox := s.outbox, regs := s.regs, slu := s.slu, enr := s.enr, mem := s.mem, ecc := s.ecc, hst := s.hst
    lan := { t.lan with
      openSegs := s.lan.openSegs, held := s.lan.held, incoming := s.lan.incoming, groups := s.lan.groups, txNext := s.lan.txNext
      drops := s.lan.drops } } = s

theorem onlyIntake_refl (s : State) : onlyIntake s s := rfl
theorem onlyIntake_trans (h : onlyIntake s t) (k : onlyIntake t u) : onlyIntake s u := by
  unfold onlyIntake at *
  rw [← h, ← k]
theorem onlyIntake_foldl {β : Type} {f : State → β → State} (l : List β) (hf : ∀ t, ∀ b ∈ l, onlyIntake t (f t b)) (h : onlyIntake s t) :
    onlyIntake s (l.foldl f t) :=
  l.foldlRecOn f h fun _ hv b hb => onlyIntake_trans hv (hf _ b hb)
theorem onlyIntake_of_flow {g : Prop} (h : onlyIntake s t) (k : FlowStep g t u) : onlyIntake s u := by
  refine onlyIntake_trans h ?_
  have ho := k.only
  unfold onlyFlow at ho
  unfold onlyIntake
  rw [← ho]
theorem onlyIntake_of_stored (h : onlyIntake s t) (k : onlyStored t u) : onlyIntake s u := by
  refine onlyIntake_trans h ?_
  unfold onlyStored at k
  unfold onlyIntake
  rw [← k]

section
variable (h : onlyIntake s t)
include h

theorem onlyIntake_lanes : t.lan.lanes = s.lan.lanes := congrArg (·.lan.lanes) h
theorem onlyIntake_rungs : t.lan.rungs = s.lan.rungs := congrArg (·.lan.rungs) h
theorem onlyIntake_laneOf (l : Nat) : laneOf t l = laneOf s l := by unfold laneOf; rw [onlyIntake_lanes h]

theorem onlyIntake_setIncoming (l : Nat) (v : Option Incoming) : onlyIntake s (setIncoming l v t) := h
theorem onlyIntake_putSeg (g : Segment) : onlyIntake s (putSeg g t) := h
theorem onlyIntake_takeGroup (g : Nat) : onlyIntake s (takeGroup g t) := h
theorem onlyIntake_intakeDrop (l c : Nat) : onlyIntake s (intakeDrop l c t) := by
  refine onlyIntake_of_stored (t := noteDrop (2 * l) c t) h (onlyStored_of_logs ?_)
  exact onlyLogs_setIrq (onlyLogs_incF (onlyLogs_refl _) _ _ _ _) _ _

/-- A segment that closes enters, is held, or is dropped (R238, R240). -/
theorem onlyIntake_closeSegment (g : Segment) : onlyIntake s (closeSegment g t) := by
  unfold closeSegment; dsimp only; split
  · exact onlyIntake_of_flow h ((FlowStep.refl t).itemArrive _).settle
  · split
    · exact h
    · exact onlyIntake_intakeDrop (t := returnGroup g.bank g.row t) h _ _
theorem onlyIntake_endSegment (g : Segment) : onlyIntake s (endSegment g t) := by
  unfold endSegment; extract_lets v
  have hv : onlyIntake s v := h
  exact onlyIntake_closeSegment (onlyIntake_of_stored hv (onlyStored_trans (onlyStored_bankTouch _ v) (onlyStored_writeBytes ..))) g
theorem onlyIntake_beginSegment (l : Nat) (b : BitVec 6) (p r : Nat) (records first : Bool) (a : BitVec 32) :
    onlyIntake s (beginSegment l b p r records first a t).2 := by
  have hr := fun n => onlyIntake_of_stored h (onlyStored_refuseHanded 2 n t)
  unfold beginSegment; split
  · next g _ => exact onlyIntake_takeGroup (onlyIntake_of_stored (hr (g / 1024)) (onlyStored_bankTouch ..)) g
  · exact hr 128
theorem onlyIntake_matchPartner (l b n : Nat) : onlyIntake s (matchPartner l b n t).2 := by
  induction n generalizing t with
  | zero => exact h
  | succ n ih =>
    unfold matchPartner; split
    · exact h
    · next p _ =>
      have hp : onlyIntake s (sluTouch 0 p 0 2 t) := onlyIntake_of_flow h (.of_queue (g := True) ((QueueStep.refl t).sluTouch 0 p 0 2))
      dsimp only; split
      · exact ih hp
      · exact hp

theorem onlyIntake_addRecord (l : Nat) (b : BitVec 6) (p r : Nat) (rec : List Byte) (a : BitVec 32) :
    onlyIntake s (addRecord l b p r rec a t) := by
  unfold addRecord; extract_lets v
  have hv : onlyIntake s v := by
    unfold v; split
    · split
      · exact h
      · exact onlyIntake_endSegment h _
    · exact h
  have hb := onlyIntake_beginSegment hv l b p r true false a
  split
  · exact onlyIntake_putSeg hv _
  · split
    · next e => rw [e] at hb; exact onlyIntake_putSeg hb _
    · next e => rw [e] at hb; exact onlyIntake_intakeDrop hb _ _

end

/-- The pieces of a long frame (R237, R238). -/
theorem onlyIntake_plainFill (b : BitVec 6) (p r : Nat) (err trunc ends : Bool) (a : BitVec 32) (n : Nat) (first : Bool) (bs : List Byte)
    (h : onlyIntake s t) : onlyIntake s (plainFill l b p r err trunc ends a n first bs t).1 := by
  induction n generalizing first bs t with
  | zero => exact h
  | succ n ih =>
    unfold plainFill; extract_lets cur
    have hc : onlyIntake s cur.2 := by
      unfold cur; split
      · exact h
      · split
        · exact h
        · exact onlyIntake_beginSegment h ..
    clear_value cur
    obtain ⟨g, v⟩ := cur
    cases g with
    | none =>
      dsimp only; split
      · exact hc
      · exact onlyIntake_intakeDrop hc _ _
    | some g =>
      dsimp only; split
      · dsimp only; split
        · exact onlyIntake_endSegment hc _
        · exact onlyIntake_putSeg hc _
      · exact ih _ _ (onlyIntake_endSegment hc _)

theorem onlyIntake_feedFrame (h : onlyIntake s t) (l : Nat) (r0 : Word) (r : Nat) (bs : List Byte) (err ends trunc : Bool) :
    onlyIntake s (feedFrame l r0 r bs err ends trunc t) := by
  unfold feedFrame; extract_lets i j b
  split
  · exact onlyIntake_setIncoming h _ _
  · split
    · exact onlyIntake_setIncoming h _ _
    · split
      · exact onlyIntake_setIncoming h _ _
      · split
        next d v e =>
        have hv : onlyIntake s v := by
          split at e
          · cases e; exact h
          · have hm := onlyIntake_matchPartner h l b.toNat 4096
            split at e <;> next e' => cases e; rw [e'] at hm; exact hm
        split
        · exact onlyIntake_setIncoming (onlyIntake_intakeDrop hv _ _) _ _
        · dsimp only; split
          · split
            · exact onlyIntake_setIncoming (onlyIntake_addRecord hv _ _ _ _ _ _) _ _
            · exact onlyIntake_setIncoming hv _ _
          · refine onlyIntake_setIncoming (onlyIntake_plainFill _ _ _ _ _ _ _ _ _ _ ?_) _ _
            split
            · exact hv
            · split
              · exact onlyIntake_endSegment hv _
              · exact hv

/-- The frame in progress and the open segments of a partner lane are cut off (R238). -/
theorem onlyIntake_cutFrames (h : onlyIntake s t) (l m : Nat) : onlyIntake s (cutFrames l m t) := by
  unfold cutFrames; extract_lets v
  have hv : onlyIntake s v := by
    unfold v; split
    · exact onlyIntake_feedFrame h ..
    · exact h
  exact onlyIntake_foldl _ (fun u g _ => onlyIntake_endSegment (onlyIntake_refl u) g) hv
theorem onlyIntake_cutLane (h : onlyIntake s t) (l : Nat) : onlyIntake s (cutLane l t) := by
  unfold cutLane; split
  · exact onlyIntake_cutFrames h _ _
  · exact h

end Sys2Proof.Machine
end

section
/-! A lane enters a rung, and locks (R221, R226, R228, R229). -/

namespace Sys2Proof.Machine

variable {s t u : State} {l m k : Nat} {g : List Nat}

-- One lane

theorem laneOf_setLane_other {j : Nat} (h : j ≠ l) (v : Lane) (s : State) : laneOf (setLane l v s) j = laneOf s j := tget_tput_other _ _ h _ _
theorem laneOf_setLane (l j : Nat) (v : Lane) (s : State) : laneOf (setLane l v s) j = if j = l then v else laneOf s j := tget_tput _ _ _ _ _
theorem laneOf_wr (a : Nat) (v : Reg) (s : State) (j : Nat) : laneOf (wr a v s) j = laneOf s j := rfl
theorem laneOf_of_lanes (h : t.lan.lanes = s.lan.lanes) (j : Nat) : laneOf t j = laneOf s j := by unfold laneOf; rw [h]

theorem groupSize_pos (s : State) (l : Nat) : 0 < groupSize s l := Nat.pos_of_dvd_of_pos (groupSize_dvd s l) (by decide)
theorem lead_mem_laneGroup (h : leadOf s m = m) : m ∈ laneGroup s m :=
  List.mem_map.2 ⟨0, List.mem_range.2 (groupSize_pos s m), by rw [Nat.add_zero, h]⟩

-- Entering a rung

/-- Nothing differs but some lanes, places in the marker period, and registers of the pages of those lanes. -/
structure OnlyEntry (g : List Nat) (s t : State) : Prop where
  only  : { t with regs := s.regs, lan := { t.lan with lanes := s.lan.lanes, txNext := s.lan.txNext } } = s
  regs  : ∀ a, (∀ j ∈ g, a / 0x1000 ≠ pgQUAD (j / 4)) → rd t a = rd s a
  lanes : ∀ j, j ∉ g → laneOf t j = laneOf s j

theorem onlyEntry_refl (g : List Nat) (s : State) : OnlyEntry g s s := ⟨rfl, fun _ _ => rfl, fun _ _ => rfl⟩
theorem onlyEntry_trans (h : OnlyEntry g s t) (k : OnlyEntry g t u) : OnlyEntry g s u := by
  obtain ⟨hs, hr, hl⟩ := h
  obtain ⟨ks, kr, kl⟩ := k
  exact ⟨by rw [← hs, ← ks], fun a ha => (kr a ha).trans (hr a ha), fun j hj => (kl j hj).trans (hl j hj)⟩
theorem onlyEntry_foldl {β : Type} {f : State → β → State} (xs : List β) (hf : ∀ t, ∀ b ∈ xs, OnlyEntry g t (f t b)) (s : State) :
    OnlyEntry g s (xs.foldl f s) :=
  xs.foldlRecOn (motive := OnlyEntry g s) f (onlyEntry_refl g s) fun _ hv b hb => onlyEntry_trans hv (hf _ b hb)
theorem onlyEntry_rungs (h : OnlyEntry g s t) : t.lan.rungs = s.lan.rungs := congrArg (·.lan.rungs) h.only

theorem onlyEntry_setLane (h : OnlyEntry g s t) (hm : m ∈ g) (v : Lane) : OnlyEntry g s (setLane m v t) := by
  obtain ⟨hs, hr, hl⟩ := h
  exact ⟨hs, hr, fun j hj => (laneOf_setLane_other (by rintro rfl; exact hj hm) v t).trans (hl j hj)⟩
theorem onlyEntry_setTxIndex (h : OnlyEntry g s t) (m i : Nat) : OnlyEntry g s (setTxIndex m i t) := ⟨h.only, h.regs, h.lanes⟩
theorem onlyEntry_wr_detailA (h : OnlyEntry g s t) (hm : m ∈ g) {o : Nat} (ho : o < 0x40) (v : Reg) : OnlyEntry g s (wr (detailA m o) v t) := by
  obtain ⟨hs, hr, hl⟩ := h
  refine ⟨hs, fun a ha => (rd_wr_other t (fun e => ha m hm ?_) v).trans (hr a ha), hl⟩
  rw [e]; unfold detailA at'; omega
theorem onlyEntry_restartAdapt (h : OnlyEntry g s t) (hm : m ∈ g) : OnlyEntry g s (restartAdapt m t) :=
  onlyEntry_wr_detailA (onlyEntry_wr_detailA (onlyEntry_wr_detailA h hm (by decide) _) hm (by decide) _) hm (by decide) _

/-- A lane whose locks have been cleared. -/
def Lane.unlocked (v : Lane) : Lane :=
  { v with cdr := false, blk := false, fec := false, mkr := false, polInv := false, polDone := false, mkGood := 0, mkBad := 0, skewed := false,
           logical := 0 }
/-- What a rung entry restarts in one lane of the group. -/
def clearLock (m : Nat) (s : State) : State := restartAdapt m (setTxIndex m 0 (setLane m (laneOf s m).unlocked s))

theorem clearLocks_eq (s : State) (l : Nat) : clearLocks s l = (laneGroup s l).foldl (fun t m => clearLock m t) s := rfl
theorem laneOf_clearLock_same (m : Nat) (s : State) : laneOf (clearLock m s) m = (laneOf s m).unlocked := by
  unfold clearLock restartAdapt
  rw [laneOf_wr, laneOf_wr, laneOf_wr]
  exact laneOf_setLane_same m _ s
theorem onlyEntry_clearLock (hm : m ∈ g) (s : State) : OnlyEntry g s (clearLock m s) :=
  onlyEntry_restartAdapt (onlyEntry_setTxIndex (onlyEntry_setLane (onlyEntry_refl g s) hm _) m 0) hm
theorem onlyEntry_clearLocks (s : State) (l : Nat) : OnlyEntry (laneGroup s l) s (clearLocks s l) :=
  onlyEntry_foldl _ (fun t _ hm => onlyEntry_clearLock hm t) s

/-- The locks of each lane of the group are cleared. -/
theorem laneOf_clearLocks (h : m ∈ laneGroup s l) : laneOf (clearLocks s l) m = (laneOf s m).unlocked := by
  have hfold : ∀ (xs : List Nat) (t : State), laneOf (xs.foldl (fun t m => clearLock m t) t) m = laneOf t m ∧ m ∉ xs
      ∨ laneOf (xs.foldl (fun t m => clearLock m t) t) m = (laneOf t m).unlocked := by
    intro xs
    induction xs with
    | nil => exact fun t => .inl ⟨rfl, List.not_mem_nil⟩
    | cons x xs ih =>
      intro t
      have hx := ih (clearLock x t)
      rw [List.foldl_cons]
      by_cases e : m = x
      · subst e
        rw [laneOf_clearLock_same] at hx
        exact .inr (hx.elim (·.1) id)
      · rw [(onlyEntry_clearLock (List.mem_singleton_self x) t).lanes m (by simpa using e)] at hx
        exact hx.imp_left fun ⟨h, hn⟩ => ⟨h, by simp [e, hn]⟩
  rw [clearLocks_eq]
  exact (hfold (laneGroup s l) s).resolve_left fun hn => hn.2 h

theorem enterRung_of_valid (hk : rungV s (l / 4) k = true) : enterRung l (some k) s = setLane l { laneOf (clearLocks s l) l with
    state := .seek, rung := k, rung0 := rungW s (l / 4) k 0, rung1 := rungW s (l / 4) k 1 } (clearLocks s l) := by
  have hf : (some k).filter (rungV s (l / 4)) = some k := by simp [hk]
  have hw : ∀ w, rungW (clearLocks s l) (l / 4) k w = rungW s (l / 4) k w := fun w => by
    unfold rungW; rw [onlyEntry_rungs (onlyEntry_clearLocks s l)]
  unfold enterRung; rw [hf]; dsimp only
  rw [hw, hw]

/-- A group enters a valid rung (R226, R229). -/
theorem enterRung_of_lead (hl : leadOf s m = m) (hk : rungV s (m / 4) k = true) :
    laneOf (enterRung m (some k) s) m = { (laneOf s m).unlocked with
        state := .seek, rung := k, rung0 := rungW s (m / 4) k 0, rung1 := rungW s (m / 4) k 1 }
      ∧ OnlyEntry (laneGroup s m) s (enterRung m (some k) s) := by
  have hm := lead_mem_laneGroup hl
  rw [enterRung_of_valid hk, laneOf_setLane_same, laneOf_clearLocks hm]
  exact ⟨rfl, onlyEntry_setLane (onlyEntry_clearLocks s m) hm _⟩

-- The dwell

theorem rungV_of_topRung (h : topRung s l = some k) : rungV s (l / 4) k = true := by
  unfold topRung at h; split at h
  · split at h
    · next hv => cases h; exact hv
    · cases h
  · exact List.find?_some h
theorem rungV_of_nextRung {r : Nat} {w : Bool} (h : nextRung s l r = some (k, w)) : rungV s (l / 4) k = true := by
  unfold nextRung at h; split at h
  · next hj => cases h; exact List.find?_some hj
  · obtain ⟨j, hj, e⟩ := Option.map_eq_some_iff.1 h
    cases e; exact rungV_of_topRung hj

/-- The lane counts a walk of the ladder where the next rung wraps (R229). -/
def walked (m : Nat) (w : Bool) (s : State) : State :=
  if w then setLane m { laneOf s m with walks := satAdd (laneOf s m).walks 1 4095 } s else s

theorem laneOf_walked (m : Nat) (w : Bool) (s : State) :
    laneOf (walked m w s) m = { laneOf s m with walks := if w = true then satAdd (laneOf s m).walks 1 4095 else (laneOf s m).walks } := by
  cases w
  · rfl
  · exact laneOf_setLane_same m _ s
theorem onlyEntry_walked (hm : m ∈ g) (w : Bool) (s : State) : OnlyEntry g s (walked m w s) := by
  unfold walked; split
  · exact onlyEntry_setLane (onlyEntry_refl g s) hm _
  · exact onlyEntry_refl g s
theorem walked_settings (m : Nat) (w : Bool) (s : State) : leadOf (walked m w s) m = leadOf s m
    ∧ laneGroup (walked m w s) m = laneGroup s m ∧ (walked m w s).lan.rungs = s.lan.rungs := by
  cases w <;> exact ⟨rfl, rfl, rfl⟩

theorem execDwellExpiry_of_next {w : Bool} (hm : m = leadOf s l) (hs : (laneOf s m).state = .seek) (hf : laneForce s m = false)
    (hn : nextRung s m (laneOf s m).rung = some (k, w)) : execDwellExpiry l s = .next (enterRung m (some k) (walked m w s)) := by
  unfold execDwellExpiry; dsimp only
  rw [← hm, hn, if_neg (by simp [hs]), hf]; rfl

/-- The dwell ends: the lane enters the next rung (R229). -/
theorem dwellExpiry_holds {w : Bool} (hm : m = leadOf s l) (hs : (laneOf s m).state = .seek) (hf : laneForce s m = false)
    (hn : nextRung s m (laneOf s m).rung = some (k, w)) (hl : leadOf s m = m) : ∃ t, exec (.dwellExpiry l) s = .next t
      ∧ laneOf t m = { (laneOf s m).unlocked with
          state := .seek, rung := k, rung0 := rungW s (m / 4) k 0, rung1 := rungW s (m / 4) k 1
          walks := if w = true then satAdd (laneOf s m).walks 1 4095 else (laneOf s m).walks }
      ∧ OnlyEntry (laneGroup s m) s t := by
  obtain ⟨hlead, hgroup, hrungs⟩ := walked_settings m w s
  have hw : ∀ i, rungW (walked m w s) (m / 4) k i = rungW s (m / 4) k i := fun i => by unfold rungW; rw [hrungs]
  have hk : rungV (walked m w s) (m / 4) k = true := by
    unfold rungV; rw [hw]
    exact rungV_of_nextRung hn
  obtain ⟨hlane, honly⟩ := enterRung_of_lead (hlead.trans hl) hk
  refine ⟨_, execDwellExpiry_of_next hm hs hf hn, ?_, onlyEntry_trans (onlyEntry_walked (lead_mem_laneGroup hl) w s) (hgroup ▸ honly)⟩
  rw [hlane, hw, hw, laneOf_walked]; rfl

-- The lock

/-- Nothing differs but the detail windows of some lanes, and free values. -/
structure OnlyDetail (g : List Nat) (s t : State) : Prop where
  only : { t with free := s.free, regs := s.regs } = s
  regs : ∀ a, (∀ j ∈ g, ∀ k, a ≠ detailA j k) → rd t a = rd s a

theorem onlyDetail_refl (g : List Nat) (s : State) : OnlyDetail g s s := ⟨rfl, fun _ _ => rfl⟩
theorem onlyDetail_trans (h : OnlyDetail g s t) (k : OnlyDetail g t u) : OnlyDetail g s u :=
  ⟨by rw [← h.only, ← k.only], fun a ha => (k.regs a ha).trans (h.regs a ha)⟩
theorem onlyDetail_wr (h : OnlyDetail g s t) (hm : m ∈ g) (o : Nat) (v : Reg) : OnlyDetail g s (wr (detailA m o) v t) :=
  ⟨h.only, fun a ha => (rd_wr_other t (ha m hm o) v).trans (h.regs a ha)⟩
theorem onlyDetail_takeFree (h : OnlyDetail g s t) (w : Nat) : OnlyDetail g s (takeFree w t).2 := ⟨h.only, h.regs⟩
theorem onlyDetail_adapted (hm : m ∈ g) (s : State) : OnlyDetail g s (adapted m s) :=
  onlyDetail_wr (onlyDetail_wr (onlyDetail_wr
    (onlyDetail_takeFree (onlyDetail_takeFree (onlyDetail_takeFree (onlyDetail_refl g s) 32) 32) 32) hm _ _) hm _ _) hm _ _

/-- The equalisers of the lanes of a group converge (R221). -/
def groupAdapted (m : Nat) (s : State) : State := (laneGroup s m).foldl (fun t j => adapted j t) s

theorem onlyDetail_groupAdapted (m : Nat) (s : State) : OnlyDetail (laneGroup s m) s (groupAdapted m s) :=
  (laneGroup s m).foldlRecOn (motive := OnlyDetail (laneGroup s m) s) _ (onlyDetail_refl _ s) fun t ht _ hj =>
    onlyDetail_trans ht (onlyDetail_adapted hj t)

/-- A lane that has locked (R228). -/
def Lane.locked (v : Lane) : Lane :=
  { v with state := .locked, cdr := true, blk := laneEnc v ≠ 0, fec := fld v.rung0 23 2 ≠ 0, mkr := laneMk v ≠ 0, los := false }

/-- A state with all that a lock touches as it is in another. -/
def lockedAs (s t : State) : State := { t with free := s.free, outbox := s.outbox, regs := s.regs, lan := s.lan, hst := s.hst }

theorem execLaneLock_of_seek (hm : m = leadOf s l) (he : enrusQuad s (l / 4) = false) (hs : (laneOf s m).state = .seek)
    (hk : laneMk (laneOf s m) = 0 ∨ markersLocked s m = true) (hb : bondOk s m = true) :
    execLaneLock l s = .next (setIrq (pgQUAD (m / 4)) 0 (setLane m (laneOf s m).locked (groupAdapted m s))) := by
  have hlane : laneOf (groupAdapted m s) m = laneOf s m := laneOf_of_lanes (congrArg (·.lan.lanes) (onlyDetail_groupAdapted m s).only) m
  have hmk : (decide (laneMk (laneOf s m) ≠ 0) && !markersLocked s m) = false := by
    rcases hk with h | h <;> simp [h]
  unfold groupAdapted at hlane
  unfold execLaneLock; dsimp only
  rw [← hm, he, hs]; dsimp only
  rw [hmk, hb, hlane]; rfl

/-- The lock criteria hold: the lane is LOCKED, with LINK_CHANGE (R228, R229). -/
theorem laneLock_holds (hm : m = leadOf s l) (he : enrusQuad s (l / 4) = false) (hs : (laneOf s m).state = .seek)
    (hk : laneMk (laneOf s m) = 0 ∨ markersLocked s m = true) (hb : bondOk s m = true) : ∃ t, exec (.laneLock l) s = .next t
      ∧ laneOf t m = (laneOf s m).locked ∧ rdB t (irqA (pgQUAD (m / 4))) 0 = true ∧ (∀ j, j ≠ m → laneOf t j = laneOf s j)
      ∧ (∀ a, a ≠ irqA (pgQUAD (m / 4)) → (∀ j ∈ laneGroup s m, ∀ k, a ≠ detailA j k) → rd t a = rd s a)
      ∧ onlyHost s { t with lan := s.lan, free := s.free } := by
  obtain ⟨honly, hregs⟩ := onlyDetail_groupAdapted m s
  have hlanes : ∀ j, laneOf (groupAdapted m s) j = laneOf s j := laneOf_of_lanes (congrArg (·.lan.lanes) honly)
  have hset : ∀ j, laneOf (setIrq (pgQUAD (m / 4)) 0 (setLane m (laneOf s m).locked (groupAdapted m s))) j
      = laneOf (setLane m (laneOf s m).locked (groupAdapted m s)) j := laneOf_of_lanes (by rw [setIrq_lan])
  refine ⟨_, execLaneLock_of_seek hm he hs hk hb, ?_, rdB_setIrq_same _ _ _ (by decide), fun j hj => ?_, fun a hi hd => ?_, ?_⟩
  · rw [hset, laneOf_setLane_same]
  · rw [hset, laneOf_setLane_other hj, hlanes]
  · rw [rd_setIrq, rd_wrF_other _ hi]
    exact hregs a hd
  · have hirq := onlyHost_setIrq (onlyHost_refl (setLane m (laneOf s m).locked (groupAdapted m s))) (pgQUAD (m / 4)) 0
    unfold onlyHost at hirq
    have hset := congrArg (lockedAs s) hirq
    have hgroup := congrArg (lockedAs s) honly
    exact Eq.trans hset hgroup

end Sys2Proof.Machine
end

section
/-! A lane loses its lock (R229, R238, R242, R247). -/

namespace Sys2Proof.Machine

variable {s t u : State} {l m w p : Nat}

-- What a loss leaves of the other units

/-- The fabric, the DRAM, the configuration controller and the mode machine are as before. -/
def unitsKept (s t : State) : Prop := t.fab = s.fab ∧ t.drm = s.drm ∧ t.cfc = s.cfc ∧ t.mod = s.mod

theorem unitsKept_refl (s : State) : unitsKept s s := ⟨rfl, rfl, rfl, rfl⟩
theorem unitsKept_trans (h : unitsKept s t) (k : unitsKept t u) : unitsKept s u := by
  obtain ⟨hf, hd, hc, hm⟩ := h
  obtain ⟨kf, kd, kc, km⟩ := k
  exact ⟨kf.trans hf, kd.trans hd, kc.trans hc, km.trans hm⟩
theorem unitsKept_wr (h : unitsKept s t) (a : Nat) (v : Reg) : unitsKept s (wr a v t) := h
theorem unitsKept_setLane (h : unitsKept s t) (l : Nat) (v : Lane) : unitsKept s (setLane l v t) := h
theorem unitsKept_of_onlyIntake (h : onlyIntake s t) : unitsKept s t :=
  ⟨congrArg (·.fab) h, congrArg (·.drm) h, congrArg (·.cfc) h, congrArg (·.mod) h⟩
theorem unitsKept_of_onlyLanes (h : onlyLanes s t) : unitsKept s t := by
  obtain ⟨⟨honly, -⟩, -⟩ := h
  exact ⟨congrArg (·.fab) honly, congrArg (·.drm) honly, congrArg (·.cfc) honly, congrArg (·.mod) honly⟩

/-- What the lane machine needs of a lane until its loss is judged: the lane's state, LANE_CTRL, the ladder; and the other units are as before. -/
structure LaneStays (m : Nat) (s t : State) : Prop where
  state : (laneOf t m).state = (laneOf s m).state
  ctrl  : rd t (laneA m 0) = rd s (laneA m 0)
  rungs : t.lan.rungs = s.lan.rungs
  units : unitsKept s t

namespace LaneStays

theorem refl (m : Nat) (s : State) : LaneStays m s s := ⟨rfl, rfl, rfl, unitsKept_refl s⟩
theorem trans (h : LaneStays m s t) (k : LaneStays m t u) : LaneStays m s u :=
  ⟨k.state.trans h.state, k.ctrl.trans h.ctrl, k.rungs.trans h.rungs, unitsKept_trans h.units k.units⟩
theorem of_intake (h : onlyIntake s t) (hr : rd t (laneA m 0) = rd s (laneA m 0)) : LaneStays m s t :=
  ⟨by rw [onlyIntake_laneOf h], hr, onlyIntake_rungs h, unitsKept_of_onlyIntake h⟩

/-- A register at no multiple of 0x40 is no LANE_CTRL. -/
theorem wr (h : LaneStays m s t) {a : Nat} (ha : a % 0x40 ≠ 0) (v : Reg) : LaneStays m s (wr a v t) := by
  refine ⟨h.state, (rd_wr_other t ?_ v).trans h.ctrl, h.rungs, h.units⟩
  rintro rfl
  exact ha (by unfold laneA at'; omega)
theorem setIrq (h : LaneStays m s t) (q b : Nat) : LaneStays m s (setIrq (pgQUAD q) b t) := by
  have hs : LaneStays m s (wrF (irqA (pgQUAD q)) b 1 1 t) := h.wr (by unfold irqA; omega) _
  obtain ⟨hf, hd, hc, hm⟩ := hs.units
  refine ⟨?_, ?_, ?_, ⟨?_, ?_, ?_, ?_⟩⟩
  · have hl : laneOf (Machine.setIrq (pgQUAD q) b t) m = laneOf t m := laneOf_of_lanes (by rw [setIrq_lan]) m
    rw [hl]; exact hs.state
  · rw [rd_setIrq]; exact hs.ctrl
  · rw [setIrq_lan]; exact hs.rungs
  · rw [setIrq_fab]; exact hf
  · rw [setIrq_drm]; exact hd
  · rw [setIrq_cfc]; exact hc
  · rw [setIrq_mod]; exact hm
theorem setFault (h : LaneStays m s t) (q c : Nat) : LaneStays m s (setFault (pgQUAD q) c t) :=
  (h.wr (a := statA (pgQUAD q)) (by unfold statA; omega) _).wr (by unfold errA; omega) _

end LaneStays

-- A switch to protect (R247 to R250)

theorem onlyIntake_sendMarkers (h : onlyIntake s t) (f : TxForm) : onlyIntake s (sendMarkers f t) := by
  refine onlyIntake_foldl _ (fun u b _ => ?_) h
  dsimp only; split <;> exact onlyIntake_refl u
theorem onlyIntake_txPass (h : onlyIntake s t) (f : TxForm) (g k : Nat) : onlyIntake s (txPass f g k t) := by
  unfold txPass; extract_lets j v
  have hv : onlyIntake s v := by
    unfold v; split
    · exact h
    · exact onlyIntake_foldl _ (fun u _ _ => onlyIntake_sendMarkers (onlyIntake_refl u) f) h
  exact hv
/-- The announcement of a switch (R248) is sent, and the place in the marker period goes on. -/
theorem sendSwitch_keeps (l w : Nat) (b : Bool) (s : State) : onlyIntake s (sendSwitch l w b s) ∧ (sendSwitch l w b s).regs = s.regs := by
  have hblocks : ∀ (xs : List Nat) (v : Word) (t : State), onlyIntake t (xs.foldl (fun u l => send (.block l 2 v) u) t)
      ∧ (xs.foldl (fun u l => send (.block l 2 v) u) t).regs = t.regs := fun xs v t =>
    ⟨onlyIntake_foldl xs (fun u _ _ => onlyIntake_refl u) (onlyIntake_refl t),
      foldl_regs (f := fun u l => send (.block l 2 v) u) (fun _ _ => rfl) xs t⟩
  unfold sendSwitch sendEvery64
  exact ⟨onlyIntake_foldl _ (fun t _ _ => onlyIntake_txPass (hblocks _ _ t).1 _ _ _) (onlyIntake_refl s),
    foldl_regs (fun t _ => (txPass_regs _ _ _ _).trans (hblocks _ _ t).2) _ s⟩
theorem LaneStays.sendSwitch (h : LaneStays m s t) (l w : Nat) (b : Bool) : LaneStays m s (sendSwitch l w b t) :=
  h.trans (.of_intake (sendSwitch_keeps l w b t).1 (rd_congr (sendSwitch_keeps l w b t).2 _))

/-- The receive selector alone is written in a lane (R246). -/
theorem laneOf_setRx (w j : Nat) (b : Bool) (s : State) :
    laneOf (setLane w { laneOf s w with rxProt := b } s) j = { laneOf s j with rxProt := if j = w then b else (laneOf s j).rxProt } := by
  rw [laneOf_setLane]; split
  · next e => rw [e]
  · rfl
/-- A moved selector cuts the frame in progress off, and touches no more of any lane. -/
theorem moveRx_keeps (w : Nat) (b : Bool) (s : State) : unitsKept s (moveRx w b s) ∧ (moveRx w b s).lan.rungs = s.lan.rungs
    ∧ ∀ j, laneOf (moveRx w b s) j = { laneOf s j with rxProt := (laneOf (moveRx w b s) j).rxProt } := by
  unfold moveRx; split
  · exact ⟨unitsKept_refl s, rfl, fun _ => rfl⟩
  · extract_lets v
    have hv : onlyIntake s v := onlyIntake_cutFrames (onlyIntake_refl s) _ _
    have hunits := unitsKept_of_onlyIntake hv
    have hrungs := onlyIntake_rungs hv
    refine ⟨hunits, hrungs, fun j => ?_⟩
    rw [laneOf_setRx, onlyIntake_laneOf hv]
theorem LaneStays.moveRx (h : LaneStays m s t) (hm : m < 144) (hw : w < 144) (b : Bool) : LaneStays m s (moveRx w b t) := by
  obtain ⟨hunits, hrungs, hlane⟩ := moveRx_keeps w b t
  refine h.trans ⟨by rw [hlane], ?_, hrungs, hunits⟩
  unfold Machine.moveRx; split
  · rfl
  · exact (onlyLanes_cutFrames (onlyLanes_refl t) hw _).2 _ (by simp [laneSetting_laneA hm])

theorem LaneStays.noteSwitch (h : LaneStays m s t) (w p c : Nat) : LaneStays m s (noteSwitch w p c t) := by
  have hstat : ∀ l, protStatA l % 0x40 ≠ 0 := fun l => by unfold protStatA laneA at'; omega
  have hone : ∀ (l : Nat) {v : State}, LaneStays m s v →
      LaneStays m s (if c = 0 then incF (protStatA l) 0 16 1 v else wrF (protStatA l) 24 4 c (incF (protStatA l) 0 16 1 v)) := by
    intro l v hv
    have hi : LaneStays m s (incF (protStatA l) 0 16 1 v) := hv.wr (hstat l) _
    split
    · exact hi
    · exact hi.wr (hstat l) _
  have hq := ((hone p (hone w h)).setIrq (w / 4) 1)
  unfold Machine.noteSwitch; dsimp only; split
  · exact hq
  · exact hq.setIrq _ _

/-- A switch, made or refused, keeps the state of its working lane. -/
theorem LaneStays.switchToProtect (hm : m < 144) (c : Nat) (s : State) : LaneStays m s (switchToProtect m c s).1 := by
  have hstat : ∀ l, protStatA l % 0x40 ≠ 0 := fun l => by unfold protStatA laneA at'; omega
  unfold Machine.switchToProtect; extract_lets p v x
  have hv : LaneStays m s v := ((LaneStays.refl m s).wr (hstat p) _).wr (hstat m) _
  split
  · refine LaneStays.noteSwitch ?_ _ _ _
    unfold x; split
    · exact (hv.wr (hstat p) _).sendSwitch _ _ _
    · exact hv.moveRx hm hm _
  · exact (LaneStays.refl m s).setFault _ _

-- The lane leaves LOCKED

@[simp] theorem discardEgress_lanes (l : Nat) (s : State) : (discardEgress l s).lan.lanes = s.lan.lanes := by
  have hq : ((List.range 8).foldl (fun t c => setEgress l c [] t) s).lan.lanes = s.lan.lanes :=
    (List.range 8).foldlRecOn (motive := fun t : State => t.lan.lanes = s.lan.lanes) _ rfl fun _ ht _ _ => ht
  unfold discardEgress egressDrop incF; split
  · exact hq
  · rw [setIrq_lan, wrF_lan]; exact hq

theorem rdB_setIrq_other {p q a b i : Nat} (s : State) (ha : a = irqA p) (h : i ≠ b) (hi : b < 32) : rdB (setIrq q b s) a i = rdB s a i := by
  unfold rdB
  rw [rd_setIrq]
  by_cases e : a = irqA q
  · subst e
    exact rdB_wrF_other s _ _ _ _ _ (by omega) (by omega)
  · rw [rd_wrF_other _ e]
/-- The discarded outputs of a lane are counted beside LINK_CHANGE (R242). -/
theorem rdB_discardEgress_link (w q : Nat) (s : State) : rdB (discardEgress w s) (irqA (pgQUAD q)) 0 = rdB s (irqA (pgQUAD q)) 0 := by
  have hq : ((List.range 8).foldl (fun t c => setEgress w c [] t) s).regs = s.regs :=
    foldl_regs (f := fun t c => setEgress w c [] t) (fun _ _ => rfl) _ s
  unfold discardEgress egressDrop; split
  · unfold rdB; rw [rd_congr hq]
  · rw [rdB_setIrq_other _ rfl (by decide) (by decide)]
    unfold rdB incF wrF
    rw [rd_wr_other _ (by unfold irqA laneA at'; omega)]
    exact congrArg (bit · 0) (rd_congr hq _)
theorem laneDown_holds (m : Nat) (s : State) : (laneDown m s).lan.lanes = s.lan.lanes ∧ rdB (laneDown m s) (irqA (pgQUAD (m / 4))) 0 = true := by
  unfold laneDown
  refine List.foldlRecOn (motive := fun t : State => t.lan.lanes = s.lan.lanes ∧ rdB t (irqA (pgQUAD (m / 4))) 0 = true) _ _
    ⟨by rw [setIrq_lan], rdB_setIrq_same _ _ _ (by decide)⟩ fun t ⟨hl, hi⟩ w _ => ?_
  split
  · exact ⟨(discardEgress_lanes w t).trans hl, (rdB_discardEgress_link w _ t).trans hi⟩
  · exact ⟨hl, hi⟩

theorem topRung_congr (hc : rd t (laneA l 0) = rd s (laneA l 0)) (hr : t.lan.rungs = s.lan.rungs) : topRung t l = topRung s l := by
  have hv : rungV t (l / 4) = rungV s (l / 4) := by funext n; unfold rungV rungW; rw [hr]
  unfold topRung laneForce forceRung rdB rdF
  rw [hc, hv]
/-- A lane that enters Top is in SEEK, or in NO_RUNG where no rung is valid (R229). -/
theorem enterTop_state (l : Nat) (v : Lane) (s : State) :
    (laneOf (enterRung l (topRung s l) (setLane l v s)) l).state = if (topRung s l).isSome = true then .seek else .noRung := by
  cases h : topRung s l with
  | none => exact congrArg Lane.state (laneOf_setLane_same _ _ _)
  | some k =>
    rw [enterRung_of_valid (s := setLane l v s) (rungV_of_topRung (s := s) h), laneOf_setLane_same]; rfl

/-- What a loss does to a LOCKED lane: LOS is noted, and the lane enters Top (R229). -/
def lostTop (m r : Nat) (s : State) : State := enterRung m (topRung s m) (setLane m { laneOf s m with los := decide (r = 1) } s)

/-- A LOCKED lane enters Top once it has been cut off, and the link change is noted (R229, R238). -/
theorem moveLane_lostTop (hm : m < 144) (r : Nat) (hs : (laneOf s m).state = .locked) :
    (laneOf (moveLane m (lostTop m r) s) m).state = (if (topRung s m).isSome = true then .seek else .noRung)
      ∧ rdB (moveLane m (lostTop m r) s) (irqA (pgQUAD (m / 4))) 0 = true ∧ unitsKept s (moveLane m (lostTop m r) s) := by
  have hcut := onlyIntake_cutLane (onlyIntake_refl s) m
  have hctrl : rd (cutLane m s) (laneA m 0) = rd s (laneA m 0) := (onlyLanes_cutLane (onlyLanes_refl s) hm).2 _ (by simp [laneSetting_laneA hm])
  have hleaves : (laneOf (lostTop m r s) m).state ≠ .locked := by
    unfold lostTop; rw [enterTop_state]; split <;> decide
  have hmove : moveLane m (lostTop m r) s = laneDown m (lostTop m r (cutLane m s)) := by
    unfold moveLane; rw [if_pos (by simp [hs, hleaves])]
  obtain ⟨hlanes, hirq⟩ := laneDown_holds m (lostTop m r (cutLane m s))
  rw [hmove]
  refine ⟨?_, hirq, unitsKept_trans (unitsKept_of_onlyIntake hcut) (unitsKept_of_onlyLanes ?_)⟩
  · rw [laneOf_of_lanes hlanes, ← topRung_congr hctrl (onlyIntake_rungs hcut)]
    exact enterTop_state _ _ _
  · exact onlyLanes_laneDown (onlyLanes_enterRung (onlyLanes_setLane (onlyLanes_refl _) _ _) hm _) hm

theorem execLockLost_of_locked {r : BitVec 4} (hm : m = leadOf s l) (he : enrusQuad s (l / 4) = false) (hs : (laneOf s m).state = .locked)
    (hmode : modeOf s ≠ mSIMMER) (h1 : 1 ≤ r.toNat) (h4 : r.toNat ≤ 4) : execLockLost l r s = .next (moveLane m (lostTop m r.toNat)
      (if isWorking s m && !protActive s m then (switchToProtect m (lossCause r.toNat) s).1 else s)) := by
  have hr : (decide (r.toNat = 0) || decide (4 < r.toNat) || decide (modeOf s = mSIMMER)) = false := by
    simp [hmode]; omega
  unfold execLockLost; dsimp only
  rw [← hm, hr, he, hs]; rfl

theorem lockLost_holds {r : BitVec 4} (hm : m = leadOf s l) (he : enrusQuad s (l / 4) = false) (hs : (laneOf s m).state = .locked)
    (hmode : modeOf s ≠ mSIMMER) (h1 : 1 ≤ r.toNat) (h4 : r.toNat ≤ 4) (hlt : m < 144) : ∃ t, exec (.lockLost l r) s = .next t
      ∧ (laneOf t m).state = (if (topRung s m).isSome = true then .seek else .noRung) ∧ rdB t (irqA (pgQUAD (m / 4))) 0 = true
      ∧ unitsKept s t := by
  refine ⟨_, execLockLost_of_locked hm he hs hmode h1 h4, ?_⟩
  have hstays : LaneStays m s (if isWorking s m && !protActive s m then (switchToProtect m (lossCause r.toNat) s).1 else s) := by
    split
    · exact .switchToProtect hlt _ s
    · exact .refl m s
  generalize (if isWorking s m && !protActive s m then _ else s) = v at hstays ⊢
  obtain ⟨hstate, hirq, hunits⟩ := moveLane_lostTop hlt r.toNat (hstays.state.trans hs)
  rw [topRung_congr hstays.ctrl hstays.rungs] at hstate
  exact ⟨hstate, hirq, unitsKept_trans hstays.units hunits⟩

end Sys2Proof.Machine
end

section
/-! The polarity test and the markers of a lane (R228, R230, R231, R235, R248). -/

namespace Sys2Proof.Machine

variable {s t u : State} {l m j : Nat} {b : Word}

-- The polarity test

/-- A lane that the polarity test has decided, with its count of inverted blocks (R230). -/
def Lane.tested (v : Lane) (n : Nat) : Lane :=
  let v := { v with polDone := true, cdr := true, blk := true, los := false }
  if 48 ≤ n then { v with polInv := true, mkGood := 0, mkBad := 0, mkr := false } else v

theorem Lane.tested_holds (v : Lane) (n : Nat) : (v.tested n).polDone = true ∧ (v.tested n).polInv = (v.polInv || decide (48 ≤ n))
    ∧ (v.tested n).state = v.state := by
  unfold Lane.tested; dsimp only; split
  · next h => simp [h]
  · next h => simp [h]

theorem execPolarityTest_of_seek {n : BitVec 7} (hm : m = leadOf s l) (he : enrusQuad s (l / 4) = false) (hs : (laneOf s m).state = .seek)
    (hp : bit (laneOf s m).rung0 52 = true) (hc : laneEnc (laneOf s m) ≠ 0) (hd : (laneOf s l).polDone = false) :
    execPolarityTest l n s = .next (setLane l ((laneOf s l).tested n.toNat) s) := by
  unfold execPolarityTest; dsimp only
  rw [← hm, he, hs, hp, hd, if_neg (by decide), if_pos (by simp [hc])]; rfl

/-- The polarity test decides once per entry (R230). -/
theorem polarityTest_holds {n : BitVec 7} (hm : m = leadOf s l) (he : enrusQuad s (l / 4) = false) (hs : (laneOf s m).state = .seek)
    (hp : bit (laneOf s m).rung0 52 = true) (hc : laneEnc (laneOf s m) ≠ 0) (hd : (laneOf s l).polDone = false) :
    ∃ t, exec (.polarityTest l n) s = .next t ∧ (laneOf t l).polDone = true
      ∧ (laneOf t l).polInv = ((laneOf s l).polInv || decide (48 ≤ n.toNat)) ∧ (laneOf t m).state = .seek
      ∧ (∀ j, j ≠ l → laneOf t j = laneOf s j) ∧ { t with lan := { t.lan with lanes := s.lan.lanes } } = s := by
  obtain ⟨hdone, hinv, hstate⟩ := (laneOf s l).tested_holds n.toNat
  refine ⟨_, execPolarityTest_of_seek hm he hs hp hc hd, ?_, ?_, ?_, fun j hj => laneOf_setLane_other hj _ s, rfl⟩
  · rw [laneOf_setLane_same]; exact hdone
  · rw [laneOf_setLane_same]; exact hinv
  · rw [laneOf_setLane]; split
    · next e => rw [hstate, ← e]; exact hs
    · exact hs

-- Markers

/-- What a lane holds of its markers: the counts, the logical number, marker lock. -/
def Lane.marks (v : Lane) : Nat × Nat × Nat × Bool := (v.mkGood, v.mkBad, v.logical, v.mkr)

theorem Lane.marks_eq {v w : Lane} (h : v.marks = w.marks) :
    v.mkGood = w.mkGood ∧ v.mkBad = w.mkBad ∧ v.logical = w.logical ∧ v.mkr = w.mkr := by
  simpa [Lane.marks] using h

/-- The marks of every lane are as before, and so are the other units. -/
def marksKept (s t : State) : Prop := unitsKept s t ∧ ∀ j, (laneOf t j).marks = (laneOf s j).marks

theorem marksKept_refl (s : State) : marksKept s s := ⟨unitsKept_refl s, fun _ => rfl⟩
theorem marksKept_trans (h : marksKept s t) (k : marksKept t u) : marksKept s u :=
  ⟨unitsKept_trans h.1 k.1, fun j => (k.2 j).trans (h.2 j)⟩
theorem marksKept_setFault (h : marksKept s t) (p c : Nat) : marksKept s (setFault p c t) := h
theorem marksKept_setLane (h : marksKept s t) {v : Lane} (hv : v.marks = (laneOf t l).marks) : marksKept s (setLane l v t) := by
  refine ⟨h.1, fun j => Eq.trans ?_ (h.2 j)⟩
  rw [laneOf_setLane]; split
  · next e => rw [hv, e]
  · rfl
theorem marksKept_moveRx (h : marksKept s t) (w : Nat) (x : Bool) : marksKept s (moveRx w x t) := by
  obtain ⟨hunits, -, hlane⟩ := moveRx_keeps w x t
  exact marksKept_trans h ⟨hunits, fun j => by rw [hlane]; rfl⟩
/-- The judgement of the bond (R231) records a failure and the skew. -/
theorem marksKept_judgeBond (h : marksKept s t) (l ns : Nat) : marksKept s (judgeBond l ns t) := by
  unfold judgeBond; split
  · exact h
  · extract_lets _ v
    have hv : marksKept s v := marksKept_setLane h rfl
    repeat' split
    exacts [marksKept_setFault hv _ _, marksKept_setFault hv _ _, marksKept_setFault hv _ _, hv]
/-- The receive selectors that follow a marker's BUNDLE (R248). -/
theorem marksKept_followBundle (h : marksKept s t) (p : Nat) : marksKept s (followBundle p t) := by
  unfold followBundle; split
  · exact (workingOf t p).foldlRecOn (motive := marksKept s) _ h fun v hv w _ => marksKept_moveRx hv w _
  · exact h

/-- A lane after a marker that is counted under its rung's second word (R228, R229). -/
def Lane.counted (v : Lane) (rung1 : Word) (good : Bool) : Lane :=
  let n := if good then v.mkGood + 1 else 0
  let b := if good then 0 else v.mkBad + 1
  { v with
    mkGood := n, mkBad := b, mkr := if v.mkr then b < fld rung1 36 4 else fld rung1 32 4 ≤ n && 0 < n
    cdr := true, blk := true, los := false }

/-- A lane counts a marker: the two writes of its record as MARKER_RECEIVE makes them. -/
def markerCounted (l : Nat) (lead : Lane) (good : Bool) (s : State) : State :=
  let t := countMarker l lead good s
  setLane l { laneOf t l with cdr := true, blk := true, los := false } t

theorem laneOf_markerCounted_same (l : Nat) (lead : Lane) (good : Bool) (s : State) :
    laneOf (markerCounted l lead good s) l = (laneOf s l).counted lead.rung1 good := by
  unfold markerCounted countMarker; dsimp only
  rw [laneOf_setLane_same, laneOf_setLane_same]; rfl
theorem laneOf_markerCounted_other (h : j ≠ l) (lead : Lane) (good : Bool) (s : State) :
    laneOf (markerCounted l lead good s) j = laneOf s j :=
  (laneOf_setLane_other h _ _).trans (laneOf_setLane_other h _ s)

/-- The marker of a lane is judged: the lane runs at its rung, with markers, and its polarity is known (R230). -/
def judgesMarker (s : State) (l m : Nat) : Prop :=
  m = leadOf s l ∧ enrusQuad s (l / 4) = false ∧ ((laneOf s m).state = .seek ∨ (laneOf s m).state = .locked) ∧ laneMk (laneOf s m) ≠ 0
    ∧ ((laneOf s l).polDone = true ∨ bit (laneOf s m).rung0 52 = false)

/-- What follows the count of a good marker that names logical lane `j`: the number and, of a Rytis marker, BUNDLE and GEN are reported (R231,
R235). -/
def markerReported (l mk j : Nat) (b : Word) (s : State) : State :=
  let t := setLane l { laneOf s l with logical := j } s
  if mk = 2 then wr (laneA l 0x0C) (BitVec.ofNat 32 (fld b 24 16 + fld b 12 12 * 2 ^ 16)) t else t

theorem laneOf_markerReported (l mk j : Nat) (b : Word) (s : State) : laneOf (markerReported l mk j b s) l = { laneOf s l with logical := j }
    ∧ unitsKept s (markerReported l mk j b s) := by
  have hset := unitsKept_setLane (unitsKept_refl s) l { laneOf s l with logical := j }
  unfold markerReported; dsimp only; split
  · exact ⟨(laneOf_wr _ _ _ l).trans (laneOf_setLane_same _ _ _), unitsKept_wr hset _ _⟩
  · exact ⟨laneOf_setLane_same _ _ _, hset⟩

/-- What MARKER_RECEIVE does with a judged marker that names logical lane `j`, and that is good or not (R228, R231). -/
def markerTaken (l m j ns : Nat) (b : Word) (ok : Bool) (s : State) : State :=
  let t := markerCounted l (laneOf s m) ok s
  if !ok then (if 1 < groupSize s l && groupSize s l ≤ j then setFault (pgQUAD (m / 4)) 0x0705 t else t)
  else followBundle l (judgeBond m ns (markerReported l (laneMk (laneOf s m)) j b t))

theorem execMarkerReceive_of_judged {g : Bool} {ns : Nat} (h : judgesMarker s l m) (hj : markerLane (laneMk (laneOf s m)) b = some j) :
    execMarkerReceive l b g ns s = .next (markerTaken l m j ns b ((laneMk (laneOf s m) = 2 || g) && j < groupSize s l) s) := by
  obtain ⟨hm, he, hst, hk, ht⟩ := h
  have hfar : farLoop s m = false := by
    unfold farLoop
    rcases hst with e | e <;> rw [e] <;> rfl
  have hruns : (!(decide ((laneOf s m).state = .seek) || decide ((laneOf s m).state = .locked)) || decide (laneMk (laneOf s m) = 0)
      || !((laneOf s l).polDone || !bit (laneOf s m).rung0 52)) = false := by
    rcases hst with e | e <;> rcases ht with p | p <;> simp [e, p, hk]
  unfold execMarkerReceive; dsimp only
  rw [← hm, he, hfar, hruns, hj]; rfl

/-- A marker of a lane of the group counts toward marker lock (R228, R231). -/
theorem markerReceive_good {g : Bool} {ns : Nat} (h : judgesMarker s l m) (hj : markerLane (laneMk (laneOf s m)) b = some j)
    (hn : j < groupSize s l) (hg : laneMk (laneOf s m) = 2 ∨ g = true) : ∃ t, exec (.markerReceive l b g ns) s = .next t
      ∧ (laneOf t l).marks = { (laneOf s l).counted (laneOf s m).rung1 true with logical := j }.marks ∧ unitsKept s t := by
  have hok : ((decide (laneMk (laneOf s m) = 2) || g) && decide (j < groupSize s l)) = true := by simpa [hn] using hg
  have hexec := execMarkerReceive_of_judged (g := g) (ns := ns) h hj
  rw [hok] at hexec
  obtain ⟨hlane, hunits⟩ := laneOf_markerReported l (laneMk (laneOf s m)) j b (markerCounted l (laneOf s m) true s)
  obtain ⟨hkeeps, hmarks⟩ := marksKept_followBundle (marksKept_judgeBond (marksKept_refl
    (markerReported l (laneMk (laneOf s m)) j b (markerCounted l (laneOf s m) true s))) m ns) l
  refine ⟨_, hexec, (hmarks l).trans ?_, unitsKept_trans (unitsKept_trans (unitsKept_refl s) hunits) hkeeps⟩
  rw [hlane, laneOf_markerCounted_same]

/-- A marker of a lane that the group does not have counts toward marker loss (R228, R231). -/
theorem markerReceive_stray {g : Bool} {ns : Nat} (h : judgesMarker s l m) (hj : markerLane (laneMk (laneOf s m)) b = some j)
    (hn : groupSize s l ≤ j) : ∃ t, exec (.markerReceive l b g ns) s = .next t ∧ (laneOf t l).mkGood = 0
      ∧ (laneOf t l).mkBad = (laneOf s l).mkBad + 1 ∧ (∀ k, k ≠ l → laneOf t k = laneOf s k)
      ∧ regsBut [statA (pgQUAD (m / 4)), errA (pgQUAD (m / 4))] s t := by
  have hok : ((decide (laneMk (laneOf s m) = 2) || g) && decide (j < groupSize s l)) = false := by simp [hn]
  have hexec := execMarkerReceive_of_judged (g := g) (ns := ns) h hj
  rw [hok] at hexec
  unfold markerTaken at hexec; dsimp only at hexec
  rw [Bool.not_false, if_pos rfl] at hexec
  have hsame := laneOf_markerCounted_same l (laneOf s m) false s
  have hother : ∀ k, k ≠ l → laneOf (markerCounted l (laneOf s m) false s) k = laneOf s k := fun k hk => laneOf_markerCounted_other hk _ _ s
  have hregs : regsBut [statA (pgQUAD (m / 4)), errA (pgQUAD (m / 4))] s (markerCounted l (laneOf s m) false s) := regsBut_of_regs rfl
  generalize markerCounted l (laneOf s m) false s = v at hexec hsame hother hregs
  refine ⟨_, hexec, ?_⟩
  split
  · have hfault : ∀ k, laneOf (setFault (pgQUAD (m / 4)) 0x0705 v) k = laneOf v k := laneOf_of_lanes rfl
    refine ⟨?_, ?_, fun k hk => (hfault k).trans (hother k hk), regsBut_setFault hregs (by simp) (by simp) _⟩
    · rw [hfault, hsame]; rfl
    · rw [hfault, hsame]; rfl
  · exact ⟨by rw [hsame]; rfl, by rw [hsame]; rfl, hother, hregs⟩

/-- Settles O32: each command on its own; what enters and leaves a rung are the equations of `enterRung`, and what a loss or a switch sends through
the intake leaves the lanes alone. -/
theorem laneMachine : Obligations.LaneMachine := by
  unfold Obligations.LaneMachine
  intro l m s hm he
  refine ⟨fun k w hs hf hn hl => ?_, fun hs hk hb _ => ?_, fun r hs hmode h1 h4 hlt => ?_,
    fun n hs hp hc hd => polarityTest_holds hm he hs hp hc hd, fun b g ns j hs hk ht hj => ?_⟩
  · obtain ⟨t, hexec, hlane, honly, hregs, hother⟩ := dwellExpiry_holds hm hs hf hn hl
    refine ⟨t, hexec, ?_⟩
    rw [hlane]
    exact ⟨rfl, rfl, rfl, rfl, rfl, rfl, rfl, rfl, hother, honly, hregs⟩
  · obtain ⟨t, hexec, hlane, hrest⟩ := laneLock_holds hm he hs hk hb
    refine ⟨t, hexec, ?_⟩
    rw [hlane]
    exact ⟨rfl, rfl, rfl, rfl, hrest⟩
  · exact lockLost_holds hm he hs hmode h1 h4 hlt
  · have h : judgesMarker s l m := ⟨hm, he, hs, hk, ht⟩
    refine ⟨fun hn hg => ?_, markerReceive_stray h hj⟩
    obtain ⟨t, hexec, hmarks, hunits⟩ := markerReceive_good (ns := ns) h hj hn hg
    obtain ⟨hgood, hbad, hlogical, hmkr⟩ := Lane.marks_eq hmarks
    refine ⟨t, hexec, hgood, hbad, hlogical, ?_, hunits⟩
    rw [hmkr]
    unfold Lane.counted
    cases (laneOf s l).mkr <;> simp

end Sys2Proof.Machine
end

section
/-! The intake of a short frame, and the end of a segment (R236 to R238). -/

namespace Sys2Proof.Machine

variable {s t : State} {l m w : Nat} {b : BitVec 6} {bs : List Byte}

-- Counters

theorem satAdd_le (x n k : Nat) : satAdd x n k ≤ k := by unfold satAdd; split <;> omega
/-- A counter that has been counted up saturates at its largest value. -/
theorem rdF_incF_same (a lo n k : Nat) (s : State) (h : lo + n ≤ 32) :
    rdF (incF a lo n k s) a lo n = satAdd (rdF s a lo n) k (2 ^ n - 1) := by
  have hpos := Nat.two_pow_pos n
  have hle := satAdd_le (rdF s a lo n) k (2 ^ n - 1)
  unfold incF
  rw [rdF_wrF_same s a lo n _ h]
  exact Nat.mod_eq_of_lt (by omega)
theorem rdF_incF_other {a c : Nat} (h : c ≠ a) (lo n k i j : Nat) (s : State) : rdF (incF a lo n k s) c i j = rdF s c i j := by
  unfold rdF incF; rw [rd_wrF_other s h]

/-- A lane counts the errors met in a frame: in its two counters, and in the open BER window (R243, R257). -/
def errorsCounted (m y c : Nat) (s : State) : State :=
  setLane m { laneOf s m with corr := (laneOf s m).corr + y, unc := (laneOf s m).unc + c }
    (incF (laneA m 0x18) 0 32 y (incF (laneA m 0x1C) 0 32 c s))

/-- What such a count leaves alone: all but the two counters and the lane's record, and of that the receive selector. -/
structure OnlyCounts (m : Nat) (s t : State) : Prop where
  only : { t with regs := s.regs, lan := { t.lan with lanes := s.lan.lanes } } = s
  regs : regsBut [laneA m 0x18, laneA m 0x1C] s t
  rx   : ∀ j, (laneOf t j).rxProt = (laneOf s j).rxProt

namespace OnlyCounts

theorem refl (m : Nat) (s : State) : OnlyCounts m s s := ⟨rfl, regsBut_refl _ s, fun _ => rfl⟩

section
variable (h : OnlyCounts m s t)
include h

theorem incF {a : Nat} (ha : a ∈ [laneA m 0x18, laneA m 0x1C]) (lo n k : Nat) : OnlyCounts m s (incF a lo n k t) :=
  ⟨h.only, regsBut_wr h.regs ha _, h.rx⟩
theorem setLane {v : Lane} (hv : v.rxProt = (laneOf s l).rxProt) : OnlyCounts m s (setLane l v t) := by
  refine ⟨h.only, h.regs, fun j => ?_⟩
  rw [laneOf_setLane]; split
  · next e => rw [hv, e]
  · exact h.rx j

theorem rd_eq {a : Nat} (ha : a % 0x40 ≠ 0x18 ∧ a % 0x40 ≠ 0x1C ∨ a < 0x20000) : rd t a = rd s a := by
  refine h.regs a ?_
  unfold laneA at' pgQUAD
  simp only [List.mem_cons, List.not_mem_nil, or_false]
  omega
theorem rxFor_eq (l : Nat) : rxFor t l = rxFor s l := by
  have hprot : ∀ j, rd t (protA j) = rd s (protA j) := fun j => h.rd_eq (.inl (by unfold protA laneA at'; omega))
  unfold rxFor workingOf isWorking isProtect protPeer rdB rdF
  simp only [hprot, h.rx]
theorem workHeld_eq : workHeld t = workHeld s := by
  have hstep : t.mod.step = s.mod.step := congrArg (·.mod.step) h.only
  unfold workHeld modeOf rdF
  rw [h.rd_eq (.inr (by decide)), hstep]
theorem tick32_eq : tick32 t = tick32 s := by
  have htime : t.time = s.time := congrArg (·.time) h.only
  unfold tick32 tickNow tickLen rdF
  rw [h.rd_eq (.inr (by decide)), htime]
theorem bundleMax_eq (w : Nat) : bundleMax t w = bundleMax s w := by
  unfold bundleMax rdF
  rw [h.rd_eq (.inl (by unfold quadCfgA at'; omega))]
theorem slu_eq : t.slu = s.slu := congrArg (·.slu) h.only
theorem mem_eq : t.mem = s.mem := congrArg (·.mem) h.only
theorem incomingOf_eq (w : Nat) : incomingOf t w = incomingOf s w := by
  have hi : t.lan.incoming = s.lan.incoming := congrArg (·.lan.incoming) h.only
  unfold incomingOf; rw [hi]
theorem openSeg_eq (w : Nat) (b : BitVec 6) : openSeg t w b = openSeg s w b := by
  have ho : t.lan.openSegs = s.lan.openSegs := congrArg (·.lan.openSegs) h.only
  unfold openSeg; rw [ho]
theorem groups_eq : t.lan.groups = s.lan.groups := congrArg (·.lan.groups) h.only
theorem freeGroup_eq (typ : Nat) : freeGroup t typ = freeGroup s typ := by
  have hreset : t.mod.dieReset = s.mod.dieReset := congrArg (·.mod.dieReset) h.only
  unfold freeGroup bankOf
  rw [hreset, h.mem_eq, h.groups_eq]

end

end OnlyCounts

theorem laneA_ne {o p : Nat} (h : o ≠ p) (l : Nat) : laneA l o ≠ laneA l p := by unfold laneA at'; omega
theorem onlyCounts_errorsCounted (m y c : Nat) (s : State) : OnlyCounts m s (errorsCounted m y c s) :=
  (((OnlyCounts.refl m s).incF (a := laneA m 0x1C) (by simp) 0 32 c).incF (a := laneA m 0x18) (by simp) 0 32 y).setLane rfl
theorem errorsCounted_counts (m y c : Nat) (s : State) :
    rdF (errorsCounted m y c s) (laneA m 0x18) 0 32 = satAdd (rdF s (laneA m 0x18) 0 32) y (2 ^ 32 - 1)
      ∧ rdF (errorsCounted m y c s) (laneA m 0x1C) 0 32 = satAdd (rdF s (laneA m 0x1C) 0 32) c (2 ^ 32 - 1) := by
  have hlane : ∀ (v : Lane) (t : State) a, rdF (setLane m v t) a 0 32 = rdF t a 0 32 := fun _ _ _ => rfl
  unfold errorsCounted
  rw [hlane, hlane, rdF_incF_same _ _ _ _ _ (by decide), rdF_incF_other (laneA_ne (by decide) m), rdF_incF_other (laneA_ne (by decide) m),
    rdF_incF_same _ _ _ _ _ (by decide)]
  exact ⟨rfl, rfl⟩

-- A record

theorem matchPartner_clean {p n : Nat} {x : Nat} (hp : findPartner s l x = some p) (hd : s.slu.damage = []) :
    matchPartner l x (n + 1) s = (some p, s) := by
  unfold matchPartner
  rw [hp]; dsimp only
  rw [sluTouch_clean hd, sluUe_clean hd]; rfl

/-- The first free row group lies in one of the banks. -/
theorem freeGroup_bank {typ g : Nat} (h : freeGroup s typ = some g) : g / 1024 < 128 := by
  unfold freeGroup at h; split at h
  · cases h
  · obtain ⟨n, hn, hg⟩ := List.exists_of_findSome?_eq_some h
    dsimp only at hg; split at hg
    · obtain ⟨j, hj, hg⟩ := List.exists_of_findSome?_eq_some hg
      rw [List.mem_range] at hn hj
      split at hg
      · cases hg
      · cases hg; omega
    · cases hg

/-- No bank is being handed over or in retention. -/
def banksStill (s : State) : Prop := ∀ k, k < 128 → (bankOf s k).target = none ∧ (bankOf s k).ret = false

theorem refuseHanded_still (h : banksStill s) {lim : Nat} (hl : lim ≤ 128) (typ : Nat) : refuseHanded typ lim s = s := by
  have hnone : ((List.range lim).filter fun n =>
      let b := bankOf s n
      b.typ = typ && !b.drain && b.target.isSome && heldGroups s n < 1024) = [] := by
    refine List.filter_eq_nil_iff.2 fun n hn => ?_
    rw [List.mem_range] at hn
    simp [(h n (by omega)).1]
  unfold refuseHanded
  rw [hnone]; rfl
theorem bankTouch_still (h : banksStill s) {n : Nat} (hn : n < 128) : bankTouch n s = s := by
  unfold bankTouch; dsimp only
  rw [(h n hn).2]; rfl

/-- The segment that a row group begins (R237). -/
def segmentAt (l : Nat) (b : BitVec 6) (p rung g : Nat) (arrival : BitVec 32) (bs : List Byte) : Segment :=
  ⟨l, b, p, g / 1024, g % 1024 * 4, true, false, false, false, false, arrival, rung, bs⟩

theorem find?_filter_not {α : Type} (p : α → Bool) (xs : List α) : (xs.filter fun x => !p x).find? p = none :=
  List.find?_eq_none.2 fun _ hx => by simpa using (List.mem_filter.1 hx).2
theorem openSeg_putSeg_same (g : Segment) (s : State) : openSeg (putSeg g s) g.lane g.sub = some g := by
  unfold openSeg putSeg; dsimp only [withLan]
  rw [List.find?_append, find?_filter_not]
  simp

/-- The first record of a segment takes a free row group (R237). -/
theorem addRecord_begins {g p r : Nat} {a : BitVec 32} (ho : openSeg s w b = none) (hg : freeGroup s 2 = some g) (hb : banksStill s) :
    addRecord w b p r bs a s = putSeg (segmentAt w b p r g a bs) (takeGroup g s) := by
  have hbank := freeGroup_bank hg
  unfold addRecord; rw [ho]; dsimp only
  rw [ho]; dsimp only
  unfold beginSegment; rw [hg]; dsimp only
  rw [refuseHanded_still hb hbank.le, bankTouch_still hb hbank]; rfl

/-- A segment put into a row group that it takes, and the frame in progress forgotten. -/
theorem recordStored_holds (w g : Nat) (q : Segment) (s : State) :
    openSeg (setIncoming w none (putSeg q (takeGroup g s))) q.lane q.sub = some q
      ∧ (setIncoming w none (putSeg q (takeGroup g s))).lan.groups = g :: s.lan.groups
      ∧ (∀ a, rd (setIncoming w none (putSeg q (takeGroup g s))) a = rd s a)
      ∧ { setIncoming w none (putSeg q (takeGroup g s)) with lan := s.lan } = s :=
  ⟨openSeg_putSeg_same q (takeGroup g s), rfl, fun _ => rfl, rfl⟩

/-- A short frame that comes whole becomes a record of its partner's segment (R236, R237). -/
theorem feedFrame_short {r0 : Word} {r p : Nat} {e : Bool} (hi : incomingOf s w = none) (hbs : bs ≠ []) (hlen : bs.length ≤ bundleMax s w)
    (hp : findPartner s w (subOf r0 bs).toNat = some p) (hd : s.slu.damage = []) :
    feedFrame w r0 r bs e true false s
      = setIncoming w none (addRecord w (subOf r0 bs) p r (recordBytes (tick32 s) false e bs) (tick32 s) s) := by
  unfold feedFrame
  rw [hi]
  simp [hbs, hlen, matchPartner_clean hp hd]

/-- A frame that comes whole on a LOCKED lane with an encoding, whose partner lane has none in progress; it is short, its partner has no open
segment, and the intake has a free row group (R236, R237). -/
structure ShortFrame (s : State) (l m w p g : Nat) (b : BitVec 6) (bs : List Byte) : Prop where
  lead     : m = leadOf s l
  locked   : (laneOf s m).state = .locked
  works    : workHeld s = false
  receives : rxFor s m = some w
  encoded  : laneEnc (laneOf s m) ≠ 0
  first    : incomingOf s w = none
  nonempty : bs ≠ []
  short    : bs.length ≤ bundleMax s w
  sub      : b = subOf (laneOf s m).rung0 bs
  partner  : findPartner s w b.toNat = some p
  clean    : s.slu.damage = []
  unopened : openSeg s w b = none
  free     : freeGroup s 2 = some g
  still    : banksStill s

section
variable {p g : Nat} (h : ShortFrame s l m w p g b bs)
include h

theorem execFrameReceive_of_shortFrame (y c : Nat) (e : Bool) : execFrameReceive l bs e y c true s
    = .next (feedFrame w (laneOf s m).rung0 (laneOf s m).rung bs (e || decide (0 < c)) true false (errorsCounted m y c s)) := by
  have hfar : farLoop s m = false := by unfold farLoop; rw [h.locked]; rfl
  have hcounts := onlyCounts_errorsCounted m y c s
  have hheld := hcounts.workHeld_eq.trans h.works
  have hrx := (hcounts.rxFor_eq m).trans h.receives
  unfold errorsCounted at *
  unfold execFrameReceive; dsimp only
  rw [← h.lead, hfar, if_neg (by decide), if_neg (by simp [h.locked]), hheld, if_neg (by decide), hrx]; dsimp only
  rw [if_neg h.encoded]

/-- The frame's record stands in a segment of the row group taken, and the errors are counted. -/
theorem execFrameReceive_stores (y c : Nat) (e : Bool) : execFrameReceive l bs e y c true s
    = .next (setIncoming w none (putSeg (segmentAt w b p (laneOf s m).rung g (tick32 s)
      (recordBytes (tick32 s) false (e || decide (0 < c)) bs)) (takeGroup g (errorsCounted m y c s)))) := by
  rw [execFrameReceive_of_shortFrame h]
  have hcounts := onlyCounts_errorsCounted m y c s
  generalize errorsCounted m y c s = t at hcounts
  have hpartner : findPartner t w b.toNat = some p := by
    have hp := h.partner
    unfold findPartner at hp ⊢
    rw [hcounts.slu_eq]; exact hp
  have hstill : banksStill t := by
    have hk := h.still
    unfold banksStill bankOf at hk ⊢
    rw [hcounts.mem_eq]; exact hk
  have hshort : bs.length ≤ bundleMax t w := hcounts.bundleMax_eq w ▸ h.short
  have hclean : t.slu.damage = [] := hcounts.slu_eq ▸ h.clean
  rw [feedFrame_short ((hcounts.incomingOf_eq w).trans h.first) h.nonempty hshort (h.sub ▸ hpartner) hclean, ← h.sub, hcounts.tick32_eq,
    addRecord_begins ((hcounts.openSeg_eq w b).trans h.unopened) ((hcounts.freeGroup_eq 2).trans h.free) hstill]

/-- A short frame with its partner becomes the record of a segment in a free row group (R236, R237). -/
theorem frameReceive_holds (y c : Nat) (e : Bool) : ∃ t q, exec (.frameReceive l bs e y c true) s = .next t ∧ openSeg t w b = some q
    ∧ q.bytes = recordBytes (tick32 s) false (e || decide (0 < c)) bs ∧ q.partner = p ∧ q.bank = g / 1024
    ∧ q.row = g % 1024 * 4 ∧ q.records = true ∧ t.lan.groups = g :: s.lan.groups
    ∧ rdF t (laneA m 0x18) 0 32 = satAdd (rdF s (laneA m 0x18) 0 32) y (2 ^ 32 - 1)
    ∧ rdF t (laneA m 0x1C) 0 32 = satAdd (rdF s (laneA m 0x1C) 0 32) c (2 ^ 32 - 1)
    ∧ regsBut [laneA m 0x18, laneA m 0x1C] s t ∧ { t with regs := s.regs, lan := s.lan } = s := by
  have hexec := execFrameReceive_stores h y c e
  have hcounts := onlyCounts_errorsCounted m y c s
  obtain ⟨hsym, hcw⟩ := errorsCounted_counts m y c s
  generalize errorsCounted m y c s = v at hexec hcounts hsym hcw
  generalize hq : segmentAt w b p (laneOf s m).rung g (tick32 s) (recordBytes (tick32 s) false (e || decide (0 < c)) bs) = q at hexec
  obtain ⟨hopen, hgroups, hregs, honly⟩ := recordStored_holds w g q v
  generalize setIncoming w none (putSeg q (takeGroup g v)) = t at hexec hopen hgroups hregs honly
  subst hq
  refine ⟨t, _, hexec, hopen, rfl, rfl, rfl, rfl, rfl, ?_, ?_, ?_, fun a ha => (hregs a).trans (hcounts.regs a ha), ?_⟩
  · rw [hgroups, hcounts.groups_eq]
  · unfold rdF at hsym ⊢
    rw [hregs, hsym]
  · unfold rdF at hcw ⊢
    rw [hregs, hcw]
  · rw [← hcounts.only, ← honly]

end

-- The end of a segment

theorem closeSegment_openSegs (g : Segment) (s : State) : (closeSegment g s).lan.openSegs = s.lan.openSegs := by
  unfold closeSegment; dsimp only; split
  · exact congrArg (·.lan.openSegs) ((FlowStep.refl (g := False) s).itemArrive _).settle.only
  · split
    · rfl
    · unfold intakeDrop incF
      rw [setIrq_lan, wrF_lan]; rfl
/-- A segment that ends leaves its lane and sub-channel without one, and every other segment stays (R238). -/
theorem endSegment_openSegs (g : Segment) (s : State) :
    (endSegment g s).lan.openSegs = s.lan.openSegs.filter fun h => !(h.lane = g.lane && h.sub = g.sub) := by
  unfold endSegment; extract_lets v
  rw [closeSegment_openSegs]
  exact congrArg (·.lan.openSegs) (onlyStored_trans (onlyStored_bankTouch g.bank v) (onlyStored_writeBytes ..))
theorem openSeg_endSegment (g : Segment) (s : State) : openSeg (endSegment g s) g.lane g.sub = none
    ∧ ∀ k c, k ≠ g.lane ∨ c ≠ g.sub → openSeg (endSegment g s) k c = openSeg s k c := by
  unfold openSeg
  rw [endSegment_openSegs]
  refine ⟨?_, fun k c h => ?_⟩
  · exact find?_filter_not _ _
  · rw [List.find?_filter]
    congr 1; funext x
    by_cases e : x.lane = k ∧ x.sub = c
    · obtain ⟨rfl, rfl⟩ := e
      simp; tauto
    · simp; tauto

theorem segmentFlush_holds {g : Segment} (ho : openSeg s l b = some g) (hl : g.lane < 144) : ∃ t, exec (.segmentFlush l b) s = .next t
    ∧ openSeg t l b = none ∧ (∀ k c, (k ≠ l ∨ c ≠ b) → openSeg t k c = openSeg s k c) ∧ onlyWork s t := by
  have hexec : exec (.segmentFlush l b) s = .next (endSegment g s) := by
    change execSegmentFlush l b s = _
    unfold execSegmentFlush; rw [ho]
  obtain ⟨hlane, hsub⟩ : g.lane = l ∧ g.sub = b := by simpa using List.find?_some ho
  obtain ⟨hnone, hothers⟩ := openSeg_endSegment g s
  rw [hlane, hsub] at hnone hothers
  exact ⟨_, hexec, hnone, hothers, (onlyLanes_endSegment (onlyLanes_refl s) g hl).1⟩

end Sys2Proof.Machine
end

section
/-! The head of the egress classes goes out or is dropped (R241, R242, R246). -/

namespace Sys2Proof.Machine

variable {s t : State} {l c : Nat} {o : Egress} {q : List Egress}

-- The classes of a lane

theorem egressOf_setEgress_same (l c : Nat) (q : List Egress) (s : State) : egressOf (setEgress l c q s) l c = q := tget_tput_same _ _ _ _
theorem egressOf_setEgress_other {k d : Nat} (hc : c < 8) (hd : d < 8) (h : k ≠ l ∨ d ≠ c) (q : List Egress) (s : State) :
    egressOf (setEgress l c q s) k d = egressOf s k d :=
  tget_tput_other _ _ (by omega) _ _

/-- The highest class with an output waiting (R241). -/
theorem highestClass_eq (hc : c < 8) (h : egressOf s l c = o :: q) (hh : ∀ d, c < d → d < 8 → egressOf s l d = []) :
    (((List.range 8).map (7 - ·)).find? fun d => egressOf s l d ≠ []) = some c := by
  have hfirst : ((List.range 8).find? ((fun d => decide (egressOf s l d ≠ [])) ∘ (7 - ·))) = some (7 - c) := by
    refine List.find?_range_eq_some.2 ⟨?_, List.mem_range.2 (by omega), fun j hj => ?_⟩
    · rw [Function.comp_apply, show 7 - (7 - c) = c by omega, h]; rfl
    · rw [Function.comp_apply, hh (7 - j) (by omega) (by omega)]; rfl
  rw [List.find?_map, hfirst, Option.map_some, show 7 - (7 - c) = c by omega]

/-- What EGRESS_SEND does with the head of a class (R242), the class being without it. -/
def headSent (l : Nat) (o : Egress) (s : State) : State :=
  let framing := fld o.meta0 62 2
  let raw := laneEnc (laneOf s (leadOf s (carrier s l))) = 0
  if !laneUp s (carrier s l) then egressDrop l 1 0x0713 s
  else if framing = 3 || (framing = 2) ≠ raw then egressDrop l 1 0x0714 s
  else if framing = 2 then (txLanes s l).foldl (fun t k => send (.raw k o.bytes) t) s
  else if framing = 1 then (recordFrames (o.bytes.length / 8 + 1) o.bytes).foldl (fun t b => sendFrame l b t) s
  else sendFrame l o.bytes s

theorem execEgressSend_of_head (hc : c < 8) (h : egressOf s l c = o :: q) (hh : ∀ d, c < d → d < 8 → egressOf s l d = []) :
    execEgressSend l s = .next (headSent l o (setEgress l c q s)) := by
  unfold execEgressSend
  rw [highestClass_eq hc h hh]; dsimp only
  rw [h]; rfl

section
variable (hup : laneUp s (carrier s l) = true)
include hup

theorem headSent_raw (hf : fld o.meta0 62 2 = 2) (he : laneEnc (laneOf s (leadOf s (carrier s l))) = 0) :
    headSent l o s = (txLanes s l).foldl (fun t k => send (.raw k o.bytes) t) s := by
  unfold headSent; simp [hup, hf, he]
theorem headSent_records (hf : fld o.meta0 62 2 = 1) (he : laneEnc (laneOf s (leadOf s (carrier s l))) ≠ 0) :
    headSent l o s = (recordFrames (o.bytes.length / 8 + 1) o.bytes).foldl (fun t b => sendFrame l b t) s := by
  unfold headSent; simp [hup, hf, he]
theorem headSent_frame (hf : fld o.meta0 62 2 = 0) (he : laneEnc (laneOf s (leadOf s (carrier s l))) ≠ 0) :
    headSent l o s = sendFrame l o.bytes s := by
  unfold headSent; simp [hup, hf, he]

end

theorem headSent_down (hup : laneUp s (carrier s l) = false) : headSent l o s = egressDrop l 1 0x0713 s := by
  unfold headSent; simp [hup]

-- What is sent

/-- A list of outputs has left the block, the first of them first. -/
def outsSent (os : List Out) (s : State) : State := { s with outbox := os.reverse ++ s.outbox }

theorem outsSent_outsSent (a b : List Out) (s : State) : outsSent b (outsSent a s) = outsSent (a ++ b) s := by simp [outsSent]
theorem foldl_send {α : Type} (f : α → Out) (xs : List α) (s : State) : xs.foldl (fun t x => send (f x) t) s = outsSent (xs.map f) s := by
  induction xs generalizing s with
  | nil => rfl
  | cons x xs ih =>
    rw [List.foldl_cons, ih]
    exact outsSent_outsSent [f x] (xs.map f) s

/-- On lanes that do not run 64b/66b a frame goes out as it is. -/
theorem sendFrame_eq (he : ∀ k ∈ txLanes s l, laneEnc (laneOf s k) ≠ 2) (bs : List Byte) :
    sendFrame l bs s = outsSent ((txLanes s l).map fun k => .frame k bs) s := by
  have hfold : ∀ (xs : List Nat) (t : State), (∀ k ∈ xs, laneEnc (laneOf t k) ≠ 2) →
      xs.foldl (sendOn bs) t = xs.foldl (fun t k => send (.frame k bs) t) t := by
    intro xs
    induction xs with
    | nil => exact fun _ _ => rfl
    | cons x xs ih =>
      intro t ht
      have hx : sendOn bs t x = send (.frame x bs) t := if_neg (ht x (List.mem_cons_self ..))
      rw [List.foldl_cons, List.foldl_cons, hx]
      exact ih _ fun k hk => ht k (List.mem_cons_of_mem _ hk)
  unfold sendFrame
  rw [hfold _ _ he, foldl_send]
theorem sendFrames_eq (fs : List (List Byte)) (he : ∀ k ∈ txLanes s l, laneEnc (laneOf s k) ≠ 2) :
    fs.foldl (fun t b => sendFrame l b t) s = outsSent (fs.flatMap fun b => (txLanes s l).map fun k => .frame k b) s := by
  induction fs generalizing s with
  | nil => rfl
  | cons f fs ih =>
    rw [List.foldl_cons, sendFrame_eq he, ih (s := outsSent _ s) he, outsSent_outsSent]; rfl

/-- What an output leaves the lanes as, by its framing: a frame, raw bytes, or the frames of its records (R242). -/
def leavesAs (s : State) (l : Nat) (o : Egress) (outs : List Out) : Prop :=
  fld o.meta0 62 2 = 0 ∧ laneEnc (laneOf s (leadOf s (carrier s l))) ≠ 0 ∧ outs = (txLanes s l).map (fun k => Out.frame k o.bytes)
    ∨ fld o.meta0 62 2 = 2 ∧ laneEnc (laneOf s (leadOf s (carrier s l))) = 0 ∧ outs = (txLanes s l).map (fun k => Out.raw k o.bytes)
    ∨ fld o.meta0 62 2 = 1 ∧ laneEnc (laneOf s (leadOf s (carrier s l))) ≠ 0 ∧ outs = (recordFrames (o.bytes.length / 8 + 1) o.bytes).flatMap
        (fun f => (txLanes s l).map fun k => Out.frame k f)

theorem headSent_outs {outs : List Out} (hup : laneUp s (carrier s l) = true) (he : ∀ k ∈ txLanes s l, laneEnc (laneOf s k) ≠ 2)
    (h : leavesAs s l o outs) : headSent l o s = outsSent outs s := by
  rcases h with ⟨hf, hc, rfl⟩ | ⟨hf, hc, rfl⟩ | ⟨hf, hc, rfl⟩
  · rw [headSent_frame hup hf hc, sendFrame_eq he]
  · rw [headSent_raw hup hf hc, foldl_send]
  · rw [headSent_records hup hf hc, sendFrames_eq _ he]

theorem egressSend_outs {outs : List Out} (hc : c < 8) (h : egressOf s l c = o :: q) (hh : ∀ d, c < d → d < 8 → egressOf s l d = [])
    (hup : laneUp s (carrier s l) = true) (he : ∀ k ∈ txLanes s l, laneEnc (laneOf s k) ≠ 2) (ho : leavesAs s l o outs) :
    ∃ t, exec (.egressSend l) s = .next t ∧ t.outbox = outs.reverse ++ s.outbox ∧ egressOf t l c = q
      ∧ (∀ k d, d < 8 → (k ≠ l ∨ d ≠ c) → egressOf t k d = egressOf s k d)
      ∧ { t with outbox := s.outbox, lan := { t.lan with egress := s.lan.egress } } = s := by
  have hexec := execEgressSend_of_head hc h hh
  rw [headSent_outs (s := setEgress l c q s) hup he ho] at hexec
  exact ⟨_, hexec, rfl, egressOf_setEgress_same l c q s, fun k d hd hkd => egressOf_setEgress_other hc hd hkd q s, rfl⟩

/-- A dropped output is counted, with IRQ_STAT bit 4 (R242, R257). -/
theorem egressDrop_one (l cause : Nat) (s : State) : (egressDrop l 1 cause s).lan = { s.lan with drops := (noteDrop (2 * l + 1) cause s).lan.drops }
    ∧ rdF (egressDrop l 1 cause s) (laneA l 0x2C) 0 16 = satAdd (rdF s (laneA l 0x2C) 0 16) 1 (2 ^ 16 - 1)
    ∧ rdB (egressDrop l 1 cause s) (irqA (pgQUAD (l / 4))) 4 = true
    ∧ regsBut [laneA l 0x2C, irqA (pgQUAD (l / 4))] s (egressDrop l 1 cause s)
    ∧ onlyHost (noteDrop (2 * l + 1) cause s) (egressDrop l 1 cause s) := by
  have hirq : laneA l 0x2C ≠ irqA (pgQUAD (l / 4)) := by unfold laneA irqA at'; omega
  have hdrop : egressDrop l 1 cause s = setIrq (pgQUAD (l / 4)) 4 (incF (laneA l 0x2C) 0 16 1 (noteDrop (2 * l + 1) cause s)) := if_neg (by decide)
  have hregs : regsBut [laneA l 0x2C, irqA (pgQUAD (l / 4))] s (noteDrop (2 * l + 1) cause s) := regsBut_of_regs rfl
  have hcount : rdF (noteDrop (2 * l + 1) cause s) (laneA l 0x2C) 0 16 = rdF s (laneA l 0x2C) 0 16 := rfl
  have hlan : (noteDrop (2 * l + 1) cause s).lan = { s.lan with drops := (noteDrop (2 * l + 1) cause s).lan.drops } := rfl
  rw [hdrop]
  generalize noteDrop (2 * l + 1) cause s = v at hregs hcount hlan ⊢
  refine ⟨?_, ?_, rdB_setIrq_same _ _ _ (by decide), ?_, onlyHost_setIrq (onlyHost_wrF (onlyHost_refl v) _ _ _ _) _ _⟩
  · rw [setIrq_lan]
    unfold incF
    rw [wrF_lan]; exact hlan
  · rw [← hcount, ← rdF_incF_same _ _ _ _ _ (by decide)]
    unfold rdF
    rw [rd_setIrq, rd_wrF_other _ hirq]
  · exact regsBut_setIrq (regsBut_wrF hregs (by simp) _ _ _) (by simp) _

/-- A state with all that a dropped output touches as it is in another. -/
def dropAs (s t : State) : State :=
  { t with regs := s.regs, outbox := s.outbox, hst := s.hst, lan := { t.lan with egress := s.lan.egress, drops := s.lan.drops } }

theorem egressSend_down (hc : c < 8) (h : egressOf s l c = o :: q) (hh : ∀ d, c < d → d < 8 → egressOf s l d = [])
    (hup : laneUp s (carrier s l) = false) : ∃ t, exec (.egressSend l) s = .next t ∧ egressOf t l c = q
      ∧ rdF t (laneA l 0x2C) 0 16 = satAdd (rdF s (laneA l 0x2C) 0 16) 1 65535 ∧ rdB t (irqA (pgQUAD (l / 4))) 4 = true
      ∧ regsBut [laneA l 0x2C, irqA (pgQUAD (l / 4))] s t
      ∧ onlyHost s { t with lan := { t.lan with egress := s.lan.egress, drops := s.lan.drops } } := by
  have hexec := execEgressSend_of_head hc h hh
  rw [headSent_down (s := setEgress l c q s) hup] at hexec
  obtain ⟨hlan, hcount, hirq, hregs, hhost⟩ := egressDrop_one l 0x0713 (setEgress l c q s)
  refine ⟨_, hexec, ?_, hcount, hirq, hregs, ?_⟩
  · unfold egressOf
    rw [hlan]
    exact egressOf_setEgress_same l c q s
  · unfold onlyHost at hhost
    have hsame := congrArg (dropAs s) hhost
    exact hsame

/-- Settles O33: each command on its own. The frame's path through the intake and the output's through the classes are the equations of
FRAME_RECEIVE and EGRESS_SEND for those states. -/
theorem intakeAndEgress : Obligations.IntakeAndEgress := by
  unfold Obligations.IntakeAndEgress
  intro l s
  refine ⟨fun bs e y c w p g b hs hw hr hc hi hbs hlen hb hp hd ho hg hk =>
      frameReceive_holds ⟨rfl, hs, hw, hr, hc, hi, hbs, hlen, hb, hp, hd, ho, hg, hk⟩ y c e,
    fun b g ho hl => segmentFlush_holds ho hl, fun c o q hc h hh => ⟨fun hup he hf => ?_, fun outs hup he ho => egressSend_outs hc h hh hup he ho,
      egressSend_down hc h hh⟩⟩
  exact (execEgressSend_of_head hc h hh).trans (congrArg _ (headSent_frame (s := setEgress l c q s) hup hf he))

end Sys2Proof.Machine
end

section
/-! A switch block at a working lane whose PEER is no lane (R245, R248). -/

namespace Sys2Proof.Machine

/-- Lane 0 is the working lane of an N:1 group, and its traffic is on the peer that LANE_PROT names: 144, one above the lanes. -/
def strayPeer : State := wrF (protStatA 0) 31 1 1 (wr (protA 0) 0xC0900000 State.reset)
/-- A switch block with DIR 0 and BUNDLE 0. -/
def blockToWorking : Word := rytisBlock 0x5C

theorem strayPeer_reads : protPeer strayPeer 0 = 144 ∧ manyToOne strayPeer 0 = true ∧ isWorking strayPeer 0 = true := by decide +kernel

theorem blockToWorking_valid : rytisOk blockToWorking 0x5C = true ∧ fld blockToWorking 9 3 = 0 ∧ fld blockToWorking 24 16 = 0
    ∧ bit blockToWorking 8 = false := by
  decide +kernel

/-- The switch back is counted in LANE_PROT_STAT of lane 144, which would stand above the pages of the quads. -/
theorem strayPeer_counted : ∃ t, exec (.switchBlockReceive 0 blockToWorking) strayPeer = .next t
    ∧ rd t (protStatA 144) ≠ rd strayPeer (protStatA 144) := by
  refine ⟨_, rfl, ?_⟩
  decide +kernel

/-- Refutes O34: LANE_PROT takes any PEER, and the statement does not ask that it names a lane. A switch block moves a working lane back from
PEER 144, which no switch has taken into use, and its count falls on a page beside those that the flow of items touches. -/
theorem not_protectionLifelineAndPrbs : ¬ Obligations.ProtectionLifelineAndPrbs := by
  unfold Obligations.ProtectionLifelineAndPrbs
  rintro ⟨hprotection, -⟩
  obtain ⟨hpeer, hmany, hworking⟩ := strayPeer_reads
  obtain ⟨hok, hzero, hgen, hdir⟩ := blockToWorking_valid
  obtain ⟨-, -, hblock, -⟩ := hprotection 0 144 strayPeer (by decide) hpeer.symm (by decide)
  obtain ⟨t, ht, hwork, -⟩ := (hblock blockToWorking 0 hok hzero hgen hmany).2 hdir hworking
  obtain ⟨u, hu, hcounted⟩ := strayPeer_counted
  have htu : t = u := Host.Outcome.next.inj (ht.symm.trans hu)
  exact hcounted (htu ▸ hwork.2 (protStatA 144) (by decide))

end Sys2Proof.Machine
end

section
/-! The ports of the Enrus link (R262 to R275): what sending flits and taking messages leave of a port. -/

namespace Sys2Proof.Machine

variable {s t u : State} {e f : EnrPort} {p : Nat}

-- Two views of a port

/-- A key slot but for its transmit counter. -/
def KeySlot.uncounted (k : KeySlot) : KeySlot := { k with txCtr := 0 }
/-- A channel but for what it receives: the credits owed, and the messages that arrive. -/
def Channel.sender (c : Channel) : Channel := { c with owed := 0, part := none, ready := [] }

/-- A port but for its keys' counters and what it receives: sending a flit and taking a message leave it as it is. -/
def EnrPort.sender (e : EnrPort) : EnrPort :=
  { e with
    slot0 := e.slot0.uncounted, slot1 := e.slot1.uncounted, waiting := []
    vc0 := e.vc0.sender, vc1 := e.vc1.sender, vc2 := e.vc2.sender, vc3 := e.vc3.sender }

/-- A port but for its channels, its retry buffer and its counters: the state, the handshake and the keys. Sending a message leaves it as it
is. -/
def EnrPort.session (e : EnrPort) : EnrPort :=
  { e with
    slot0 := e.slot0.uncounted, slot1 := e.slot1.uncounted, waiting := [], seqTx := 0, kept := []
    vc0 := .zero, vc1 := .zero, vc2 := .zero, vc3 := .zero }

theorem sender_proj {α : Type} (g : EnrPort → α) (hg : ∀ e, g e.sender = g e) (h : f.sender = e.sender) : g f = g e := by
  rw [← hg f, h, hg e]
theorem session_proj {α : Type} (g : EnrPort → α) (hg : ∀ e, g e.session = g e) (h : f.session = e.session) : g f = g e := by
  rw [← hg f, h, hg e]
theorem session_of_sender (h : f.sender = e.sender) : f.session = e.session := sender_proj EnrPort.session (fun _ => rfl) h

theorem sender_chan (h : f.sender = e.sender) (v : Nat) : (chan f v).sender = (chan e v).sender := by
  match v with
  | 0 => exact sender_proj (·.vc0.sender) (fun _ => rfl) h
  | 1 => exact sender_proj (·.vc1.sender) (fun _ => rfl) h
  | 2 => exact sender_proj (·.vc2.sender) (fun _ => rfl) h
  | _ + 3 => exact sender_proj (·.vc3.sender) (fun _ => rfl) h
theorem session_keySlot (h : f.session = e.session) (b : Bool) : (keySlot f b).uncounted = (keySlot e b).uncounted := by
  cases b
  · exact session_proj (·.slot0.uncounted) (fun _ => rfl) h
  · exact session_proj (·.slot1.uncounted) (fun _ => rfl) h

section
variable (h : f.sender = e.sender)
include h

theorem sender_kept : f.kept = e.kept := sender_proj (·.kept) (fun _ => rfl) h
theorem sender_txq (v : Nat) : (chan f v).txq = (chan e v).txq := by
  have hv := congrArg Channel.txq (sender_chan h v)
  exact hv
theorem sender_credits (v : Nat) : (chan f v).credits = (chan e v).credits := by
  have hv := congrArg Channel.credits (sender_chan h v)
  exact hv
/-- The flits given to a channel are the sender's. -/
theorem sender_pendingFlits (v : Nat) : pendingFlits f v = pendingFlits e v := by
  unfold pendingFlits
  rw [sender_kept h, sender_txq h]

end

section
variable (h : f.session = e.session)
include h

theorem session_st : f.st = e.st := session_proj (·.st) (fun _ => rfl) h
theorem session_keys (b : Bool) : (keySlot f b).keys = (keySlot e b).keys := by
  have hb := congrArg KeySlot.keys (session_keySlot h b)
  exact hb
theorem session_rxLast (b : Bool) : (keySlot f b).rxLast = (keySlot e b).rxLast := by
  have hb := congrArg KeySlot.rxLast (session_keySlot h b)
  exact hb

end

-- What the parts of a port's operations leave

theorem sender_setChan (v : Nat) {c : Channel} (hc : c.sender = (chan e v).sender) : (setChan e v c).sender = e.sender := by
  match v with
  | 0 => exact congrArg (fun x => { e.sender with vc0 := x }) hc
  | 1 => exact congrArg (fun x => { e.sender with vc1 := x }) hc
  | 2 => exact congrArg (fun x => { e.sender with vc2 := x }) hc
  | _ + 3 => exact congrArg (fun x => { e.sender with vc3 := x }) hc
theorem session_setChan (v : Nat) (c : Channel) : (setChan e v c).session = e.session := by
  match v with
  | 0 | 1 | 2 | _ + 3 => rfl
theorem sender_setKeySlot (b : Bool) {k : KeySlot} (hk : k.uncounted = (keySlot e b).uncounted) : (setKeySlot e b k).sender = e.sender := by
  cases b
  · exact congrArg (fun x => { e.sender with slot0 := x }) hk
  · exact congrArg (fun x => { e.sender with slot1 := x }) hk
theorem keySlot_setChan (e : EnrPort) (v : Nat) (c : Channel) (b : Bool) : keySlot (setChan e v c) b = keySlot e b := by
  match v with
  | 0 | 1 | 2 | _ + 3 => rfl
theorem sender_oweCredits (v n : Nat) : (oweCredits v n e).sender = e.sender := sender_setChan v rfl
theorem sender_queueDispatch : (queueDispatch e).sender = e.sender := by
  unfold queueDispatch; split
  · rfl
  · split
    · exact sender_oweCredits ..
    · rfl

-- Sending

theorem sender_sendFlit (p typ vc seq ack : Nat) (pl : List Byte) (s : State) :
    (enrPort (sendFlit p typ vc seq ack pl s) p).sender = (enrPort s p).sender := by
  unfold sendFlit; dsimp only; split
  · rfl
  · rw [enrPort_congr (putFlit_enr ..), enrPort_setEnrPort_same]
    refine (sender_setKeySlot _ ?_).trans (sender_setChan (creditReturn (enrPort s p)).1 rfl)
    rw [keySlot_setChan, session_proj (·.slot) (fun _ => rfl) (session_setChan _ _)]; rfl
theorem sender_sendIdle (p : Nat) (s : State) : (enrPort (sendIdle p s) p).sender = (enrPort s p).sender := by
  unfold sendIdle; split
  · exact sender_sendFlit ..
  · rfl

theorem session_pumpOne (p v : Nat) (s : State) : (enrPort (pumpOne p v s) p).session = (enrPort s p).session := by
  unfold pumpOne; dsimp only; split
  · rfl
  · split
    · refine (session_of_sender (sender_sendFlit ..)).trans ?_
      rw [enrPort_setEnrPort_same]
      exact session_setChan (e := enrPort s p) v _
    · rfl
theorem session_pump (p n : Nat) (s : State) : (enrPort (pump p n s) p).session = (enrPort s p).session := by
  induction n generalizing s with
  | zero => rfl
  | succ n ih =>
    exact (ih _).trans ((List.range 4).foldlRecOn (motive := fun t => (enrPort t p).session = (enrPort s p).session) _ rfl
      fun t ht v _ => (session_pumpOne p v t).trans ht)
theorem session_sendMsg (p : Nat) (m : Msg) (s : State) : (enrPort (sendMsg p m s) p).session = (enrPort s p).session := by
  refine (session_pump ..).trans ?_
  rw [enrPort_setEnrPort_same]
  exact session_setChan ..

/-- Where nothing waits, nothing is sent. -/
theorem pumpAll_of_empty (h : ∀ v, v < 4 → (chan (enrPort s p) v).txq = []) : pumpAll p s = s := by
  have h0 : (enrPort s p).vc0.txq = [] := h 0 (by decide)
  have h1 : (enrPort s p).vc1.txq = [] := h 1 (by decide)
  have h2 : (enrPort s p).vc2.txq = [] := h 2 (by decide)
  have h3 : (enrPort s p).vc3.txq = [] := h 3 (by decide)
  unfold pumpAll; dsimp only
  rw [h0, h1, h2, h3]; rfl

-- Taking messages

theorem sender_dropMsg (p k : Nat) (s : State) : (enrPort (dropMsg p k s) p).sender = (enrPort s p).sender := by
  unfold dropMsg; dsimp only; split
  · rfl
  · refine (sender_sendIdle ..).trans ?_
    rw [enrPort_setEnrPort_same]
    exact sender_queueDispatch.trans ((sender_oweCredits ..).trans (sender_setChan _ rfl))

end Sys2Proof.Machine
end

section
/-! What the Enrus ports touch besides themselves (R265, R280, R400): the flow of items, interrupts, the alarm counter, the random source. -/

namespace Sys2Proof.Machine

variable {s t u : State} {p : Nat}

/-- What a command of an Enrus port keeps: the stored bits, the configuration controller, the clocks and the mode; of the root of trust all but
the alarm counter and the random source; and a broadcast, but for whom it reaches. -/
structure LinkStep (s t : State) : Prop where
  only  : { t with
    free := s.free, outbox := s.outbox, regs := s.regs, slu := s.slu, lan := s.lan, enr := s.enr, mem := s.mem, ecc := s.ecc, hst := s.hst
    sec := { t.sec with alarms := s.sec.alarms, drbgNo := s.sec.drbgNo } } = s
  rows  : t.mem.rows = s.mem.rows
  bcast : ∀ b, t.enr.bcast = some b → ∃ c, s.enr.bcast = some c ∧ b.started = c.started

/-- Where no stream waits, no stream goes on (R303, R311). -/
theorem streamAfter_of_still (hs : streamStill s) : streamAfter s = s := by
  obtain ⟨hbcast, hboot⟩ := hs
  have hflow : bcastFlow s = s := by
    unfold bcastFlow
    cases hb : s.enr.bcast with
    | none => rfl
    | some b =>
      dsimp only
      rw [hbcast b hb]; rfl
  unfold streamAfter bootNext
  rw [hflow]
  cases hb : s.cfc.boot with
  | none => rfl
  | some b =>
    obtain ⟨hfailed, hcur⟩ := hboot b hb
    dsimp only
    rw [hfailed]
    unfold turnToSlot
    rw [hb]
    refine if_neg ?_
    rcases hcur with hbegun | hcur
    · simp [hbegun]
    · simp [show ¬ b.cur ≤ 1 by omega]

namespace LinkStep

theorem refl (s : State) : LinkStep s s := ⟨rfl, rfl, fun b hb => ⟨b, hb, rfl⟩⟩
theorem trans (h : LinkStep s t) (k : LinkStep t u) : LinkStep s u := by
  refine ⟨?_, k.rows.trans h.rows, fun b hb => ?_⟩
  · rw [← h.only, ← k.only]
  · obtain ⟨c, hc, hbc⟩ := k.bcast b hb
    obtain ⟨d, hd, hcd⟩ := h.bcast c hc
    exact ⟨d, hd, hbc.trans hcd⟩
theorem of_work (h : onlyWork s t) (hr : t.mem.rows = s.mem.rows) (hb : t.enr.bcast = s.enr.bcast) : LinkStep s t := by
  refine ⟨?_, hr, fun b hbt => ⟨b, hb ▸ hbt, rfl⟩⟩
  rw [← h.1]
theorem of_sent (h : onlySent s t) : LinkStep s t :=
  of_work (onlySent_onlyWork h) (congrArg State.mem h ▸ rfl) (by have e := congrArg (·.enr.bcast) h; exact e)
theorem of_host (h : onlyHost s t) : LinkStep s t := by
  have hm : t.mem = s.mem := congrArg (·.mem) h
  have he : t.enr = s.enr := congrArg (·.enr) h
  refine ⟨?_, by rw [hm], fun b hb => ⟨b, he ▸ hb, rfl⟩⟩
  unfold onlyHost at h
  rw [← h]

theorem fab (h : LinkStep s t) : t.fab = s.fab := congrArg (·.fab) h.only
theorem cfc (h : LinkStep s t) : t.cfc = s.cfc := congrArg (·.cfc) h.only

/-- Every stored bit is as before. -/
theorem stores (h : LinkStep s t) : storesKept s t := by
  have hd : t.drm = s.drm := congrArg (·.drm) h.only
  have ho : t.sec.otp = s.sec.otp := congrArg (·.sec.otp) h.only
  unfold storesKept
  rw [h.fab, h.rows, hd, ho]
  exact ⟨rfl, rfl, rfl, rfl, rfl, rfl, rfl, rfl, rfl⟩

/-- Where no stream waits, none does after it (R303, R311). -/
theorem still (h : LinkStep s t) (hs : streamStill s) : streamStill t := by
  obtain ⟨hbcast, hboot⟩ := hs
  refine ⟨fun b hb => ?_, fun b hb => hboot b (by rw [← h.cfc]; exact hb)⟩
  obtain ⟨c, hc, hbc⟩ := h.bcast b hb
  exact hbc.trans (hbcast c hc)
theorem streamAfter (h : LinkStep s t) (hs : streamStill s) : streamAfter t = t := streamAfter_of_still (h.still hs)

section
variable (h : LinkStep s t)
include h

theorem wr (a : Nat) (v : Reg) : LinkStep s (wr a v t) := ⟨h.only, h.rows, h.bcast⟩
theorem wrF (a lo n x : Nat) : LinkStep s (wrF a lo n x t) := ⟨h.only, h.rows, h.bcast⟩
theorem incF (a lo n k : Nat) : LinkStep s (incF a lo n k t) := ⟨h.only, h.rows, h.bcast⟩
theorem setIrq (p b : Nat) : LinkStep s (setIrq p b t) := h.trans (of_host (onlyHost_setIrq (onlyHost_refl t) p b))
theorem withAlarms (w : Win) : LinkStep s (withSec (fun x => { x with alarms := w }) t) := ⟨h.only, h.rows, h.bcast⟩
theorem updPort (p : Nat) (f : EnrPort → EnrPort) : LinkStep s (updPort p f t) := ⟨h.only, h.rows, h.bcast⟩
theorem sent (k : onlySent t u) : LinkStep s u := h.trans (of_sent k)

end

end LinkStep

theorem onlyHost_sec (h : onlyHost s t) : t.sec = s.sec := congrArg (·.sec) h
theorem onlyHost_enr (h : onlyHost s t) : t.enr = s.enr := congrArg (·.enr) h

-- A security alarm (R400, R401)

/-- An alarm recorded and counted. -/
def alarmCounted (c : Nat) (s : State) : State := setIrq pgSEC 0 (incF (at' pgSEC 0x4C) 0 16 1 (recordFirst (at' pgSEC 0x48) c s))
/-- An alarm that does not seal the device. -/
def alarmNoted (c : Nat) (s : State) : State :=
  wrF (at' pgSEC 0x4C) 28 4 (alarmWindows s.sec.alarms.event) (withSec (fun x => { x with alarms := s.sec.alarms.event }) (alarmCounted c s))

theorem recordFirst_keeps (a c : Nat) (s : State) : onlyRegs s (recordFirst a c s) ∧ regsBut [a] s (recordFirst a c s) := by
  unfold recordFirst; split
  · exact ⟨onlyRegs_wrF (onlyRegs_refl s) _ _ _ _, regsBut_wrF (regsBut_refl _ s) (by simp) _ _ _⟩
  · exact ⟨onlyRegs_wr (onlyRegs_refl s) _ _, regsBut_wr (regsBut_refl _ s) (by simp) _⟩
theorem onlyHost_alarmCounted (c : Nat) (s : State) : onlyHost s (alarmCounted c s) :=
  onlyHost_setIrq (onlyHost_wrF (onlyHost_of_onlyRegs (recordFirst_keeps (at' pgSEC 0x48) c s).1) _ _ _ _) pgSEC 0

theorem secAlarm_unsealed (c : Nat) (h : (s.sec.alarms.event).activeNow 3 3 8 = false) : secAlarm c s = alarmNoted c s := by
  have hsec : (alarmCounted c s).sec = s.sec := onlyHost_sec (onlyHost_alarmCounted c s)
  unfold alarmCounted at hsec
  unfold secAlarm alarmNoted alarmCounted; dsimp only
  rw [hsec, if_neg (by rw [h]; decide)]

theorem linkStep_alarmNoted (c : Nat) (s : State) : LinkStep s (alarmNoted c s) := by
  unfold alarmNoted
  exact ((LinkStep.of_host (onlyHost_alarmCounted c s)).withAlarms _).wrF _ _ _ _
theorem alarmNoted_enr (c : Nat) (s : State) : (alarmNoted c s).enr = s.enr := by
  unfold alarmNoted
  rw [wrF_enr, withSec_enr]
  exact onlyHost_enr (onlyHost_alarmCounted c s)
/-- An alarm touches the SEC page alone. -/
theorem regsBut_alarmNoted (c : Nat) (s : State) :
    regsBut [at' pgSEC 0x4C, at' pgSEC 0x48, irqA pgSEC] s (alarmNoted c s) := by
  have hr : regsBut [at' pgSEC 0x4C, at' pgSEC 0x48, irqA pgSEC] s (recordFirst (at' pgSEC 0x48) c s) := fun a ha =>
    (recordFirst_keeps _ c s).2 a fun h => ha (by simp at h; simp [h])
  have hc : regsBut _ s (alarmCounted c s) := regsBut_setIrq (regsBut_wrF hr (by simp) _ _ _) (by simp) 0
  unfold alarmNoted
  exact regsBut_wrF (regsBut_trans hc (regsBut_of_regs (withSec_regs _ _))) (by simp) _ _ _
/-- It is counted (R401). -/
theorem alarmNoted_count (c : Nat) (s : State) :
    rdF (alarmNoted c s) (at' pgSEC 0x4C) 0 16 = satAdd (rdF s (at' pgSEC 0x4C) 0 16) 1 65535 := by
  have hr : rd (recordFirst (at' pgSEC 0x48) c s) (at' pgSEC 0x4C) = rd s (at' pgSEC 0x4C) :=
    (recordFirst_keeps _ c s).2 _ (by decide)
  have hc : rdF (alarmCounted c s) (at' pgSEC 0x4C) 0 16 = satAdd (rdF s (at' pgSEC 0x4C) 0 16) 1 65535 := by
    unfold alarmCounted
    rw [rdF, rd_setIrq, rd_wrF_other _ (by decide), ← rdF, rdF_incF_same _ _ _ _ _ (by decide), rdF, hr]; rfl
  unfold alarmNoted
  rw [rdF_wrF_other _ _ _ _ _ _ _ (by decide) (by decide), rdF, rd_withSec]
  exact hc

end Sys2Proof.Machine
end

section
/-! A port leaves UP (R265, R266, R274, R280): the outcomes on the link, and the port that is left. -/

namespace Sys2Proof.Machine

variable {s t u : State} {p : Nat}

-- The outcomes of a lost link (R280)

/-- What ending services and discarding what was held for a peer keeps. -/
structure LossStep (s t : State) : Prop where
  rows  : t.mem.rows = s.mem.rows
  bcast : t.enr.bcast = s.enr.bcast
  regs  : queueRegs s t

namespace LossStep

theorem refl (s : State) : LossStep s s := ⟨rfl, rfl, regsWithin_refl _ s⟩
theorem trans (h : LossStep s t) (k : LossStep t u) : LossStep s u :=
  ⟨k.rows.trans h.rows, k.bcast.trans h.bcast, regsWithin_trans h.regs k.regs⟩
theorem of_flow {g : Prop} (h : FlowStep g s t) : LossStep s t := ⟨h.mem_rows, congrArg (·.enr.bcast) h.only, h.regs⟩

theorem failoverItem (v : Service) (s : State) : LossStep s (failoverItem v s) := by
  have hv : LossStep s (withSlu (fun u => { u with services := u.services.filter fun w => decide (w.id ≠ v.id) }) s) :=
    ⟨rfl, rfl, regsWithin_refl _ s⟩
  exact (hv.trans (of_flow (endService_step v s))).trans (of_flow (g := True) (.of_queue (failoverItem_step v s)))
theorem reissueWhere (q : Service → Bool) (s : State) : LossStep s (reissueWhere q s) := by
  have hitems : ∀ l : List Service, LossStep s (l.foldl (fun t v => Machine.failoverItem v t) s) := fun l =>
    l.foldlRecOn (motive := LossStep s) _ (refl s) fun t ht v _ => ht.trans (failoverItem v t)
  exact (hitems _).trans (of_flow ((FlowStep.refl _).settle))
theorem dropHeld (q : HeldOut → Bool) (s : State) : LossStep s (dropHeld q s) := by
  have hgroups : ∀ l : List Nat, LossStep s (l.foldl (fun t g => returnGroup (g / 1024) (4 * (g % 1024)) t) s) := fun l =>
    l.foldlRecOn (motive := LossStep s) _ (refl s) fun _ ht _ _ => ⟨ht.rows, ht.bcast, ht.regs⟩
  obtain ⟨hrows, hbcast, hregs⟩ := hgroups ((s.enr.held.filter q).filterMap (·.group))
  exact ⟨hrows, hbcast, hregs⟩
theorem noticesDone (l : Nat) (s : State) : LossStep s (noticesDone l s) := by
  unfold Machine.noticesDone; split
  · exact ⟨rfl, rfl, regsWithin_refl _ s⟩
  · exact refl s
theorem dropNotices (q : Nat × Nat × Nat → Bool) (s : State) : LossStep s (dropNotices q s) := by
  rw [dropNotices_eq]
  have hs : LossStep s { s with enr := { s.enr with notices := s.enr.notices.filter fun k => !q k } } := ⟨rfl, rfl, regsWithin_refl _ s⟩
  exact (List.range 32).foldlRecOn (motive := LossStep s) _ hs fun t ht l _ => ht.trans (noticesDone l t)

end LossStep

/-- The services on the peer end, and its held outputs and notices go; TIME_HOLDOVER where it is the time master. -/
def peerDropped (p : Nat) (s : State) : State :=
  let t := dropNotices (fun k => k.1 = p) (dropHeld (fun h => h.port = p)
    (reissueWhere (fun v => v.dev = (enrPort s p).peer && v.dev.toNat ≠ devIndex s) s))
  if (enrPort s p).peer.toNat = rdF t (at' pgENRG 0x40) 0 3 then setIrq pgENRG 0 t else t
/-- The peer's guests are gone, the arrivals not acknowledged are lost, and a broadcast reaches the peer no more. -/
def guestsDropped (p : Nat) (e : EnrPort) (s : State) : State :=
  { s with enr := { s.enr with
    guests := s.enr.guests.filter fun g => decide (g.port ≠ p), lost := s.enr.lost + lostArrives e
    bcast := s.enr.bcast.map fun b => { b with reached := b.reached &&& ~~~(BitVec.ofNat 8 (2 ^ e.peer.toNat)) } } }

/-- A register that a lost link writes: those of the queues, and IRQ_STAT of the ENR_G page. -/
def linkReg (a : Nat) : Bool := queueReg a || a = irqA pgENRG

theorem peerDropped_keeps (p : Nat) (s : State) :
    onlyWork s (peerDropped p s) ∧ LinkStep s (peerDropped p s) ∧ regsWithin linkReg s (peerDropped p s) := by
  unfold peerDropped; extract_lets t
  have hloss : LossStep s t := ((LossStep.reissueWhere _ s).trans (.dropHeld _ _)).trans (.dropNotices _ _)
  have hwork : onlyWork s t := onlyWork_dropNotices (onlyWork_dropHeld (onlyWork_reissueWhere (onlyWork_refl s) _) _) _
  have hlink : LinkStep s t := .of_work hwork hloss.rows hloss.bcast
  have hregs : regsWithin linkReg s t := regsWithin_mono (fun a ha => (Bool.or_eq_false_iff.1 ha).1) hloss.regs
  clear_value t
  split
  · exact ⟨onlyWork_setIrq hwork _ _ (by decide), hlink.setIrq _ _, regsWithin_setIrq hregs (by decide) _⟩
  · exact ⟨hwork, hlink, hregs⟩
theorem guestsDropped_keeps (p : Nat) (e : EnrPort) (s : State) :
    onlyWork s (guestsDropped p e s) ∧ LinkStep s (guestsDropped p e s) ∧ (guestsDropped p e s).regs = s.regs := by
  refine ⟨onlyWork_enr (onlyWork_refl s) _, ⟨rfl, rfl, fun b hb => ?_⟩, rfl⟩
  obtain ⟨c, hc, rfl⟩ := Option.map_eq_some_iff.1 hb
  exact ⟨c, hc, rfl⟩

theorem onlyWork_cfc (h : onlyWork s t) : t.cfc = s.cfc := congrArg (·.cfc) h.1
theorem onlyWork_sec (h : onlyWork s t) : t.sec = s.sec := congrArg (·.sec) h.1

/-- Where ENG_0 has no stream, a lost link ends none (R283). -/
theorem linkDown_eq (hi : s.cfc.eng0.st = .idle) : linkDown p s = guestsDropped p (enrPort s p) (peerDropped p s) := by
  have hd := (peerDropped_keeps p s).1
  have hg := (guestsDropped_keeps p (enrPort s p) (peerDropped p s)).1
  have hidle : (guestsDropped p (enrPort s p) (peerDropped p s)).cfc.eng0.st = .idle := by
    rw [onlyWork_cfc hg, onlyWork_cfc hd, hi]
  refine if_neg (?_ : ¬ ((decide ((guestsDropped p (enrPort s p) (peerDropped p s)).cfc.eng0.src = 3)
    && decide ((guestsDropped p (enrPort s p) (peerDropped p s)).cfc.eng0.st ≠ .idle)) && _) = true)
  rw [hidle]; simp

theorem linkDown_keeps (hi : s.cfc.eng0.st = .idle) (p : Nat) :
    onlyWork s (linkDown p s) ∧ LinkStep s (linkDown p s) ∧ regsWithin linkReg s (linkDown p s) := by
  obtain ⟨hwork, hlink, hregs⟩ := peerDropped_keeps p s
  obtain ⟨gwork, glink, gregs⟩ := guestsDropped_keeps p (enrPort s p) (peerDropped p s)
  rw [linkDown_eq hi]
  exact ⟨onlyWork_trans hwork gwork, hlink.trans glink, regsWithin_of_regs hregs gregs⟩

-- The port that is left (R265, R266)

theorem enrPort_updPort_other {q : Nat} (h : q ≠ p) (f : EnrPort → EnrPort) (s : State) : enrPort (updPort p f s) q = enrPort s q :=
  enrPort_setEnrPort_other h _ s
theorem rd_updPort (f : EnrPort → EnrPort) (a : Nat) : rd (updPort p f s) a = rd s a := rfl
theorem linkStep_toTrain (h : LinkStep s t) (p : Nat) : LinkStep s (toTrain p t) := h.updPort p _

/-- IRQ_STAT, ENR_CTRL and ENR_ERR of a port are no registers of a lost link. -/
theorem linkReg_enr (hp : p < 7) {o : Nat} (ho : o < 0x1000) : linkReg (at' (pgENR p) o) = false := by
  unfold linkReg queueReg at' pgENR irqA pgENRG pgSLU
  simp
  omega
theorem linkReg_sec {o : Nat} (ho : o < 0x1000) : linkReg (at' pgSEC o) = false := by
  unfold linkReg queueReg at' pgSEC irqA pgENRG pgSLU
  simp
  omega

/-- A port that leaves UP (R266, R280). -/
def upLeft (p c : Nat) (s : State) : State :=
  setIrq (pgENR p) 0 (updPort p (fun e => { e with cause := BitVec.ofNat 16 c }) (toTrain p (linkDown p s)))

theorem leaveUp_of_up (h : (enrPort s p).st = .up) (c : Nat) : leaveUp p c s = upLeft p c s := if_pos h

/-- What is left is a port in TRAIN with its cause. -/
theorem upLeft_port (p c : Nat) (s : State) : ∃ e : EnrPort, enrPort (upLeft p c s) p = { e.restart .train with cause := BitVec.ofNat 16 c } := by
  refine ⟨enrPort (linkDown p s) p, ?_⟩
  unfold upLeft
  rw [enrPort_congr (setIrq_enr _ _ _), enrPort_updPort_same]
  unfold toTrain
  rw [enrPort_updPort_same]

theorem linkStep_upLeft (hi : s.cfc.eng0.st = .idle) (p c : Nat) : LinkStep s (upLeft p c s) :=
  ((linkStep_toTrain (linkDown_keeps hi p).2.1 p).updPort p _).setIrq _ _
theorem onlyWork_updPort (h : onlyWork s t) (p : Nat) (f : EnrPort → EnrPort) : onlyWork s (updPort p f t) := onlyWork_setEnrPort h p _
theorem workPage_enr (hp : p < 7) : workPage (pgENR p) = true := by
  unfold workPage pgENR
  simp
  omega
theorem onlyWork_upLeft (hp : p < 7) (hi : s.cfc.eng0.st = .idle) (c : Nat) : onlyWork s (upLeft p c s) :=
  onlyWork_setIrq (onlyWork_updPort (onlyWork_updPort (linkDown_keeps hi p).1 p _) p _) _ _ (workPage_enr hp)
theorem upLeft_irq (p c : Nat) (s : State) : rdB (upLeft p c s) (irqA (pgENR p)) 0 = true := rdB_setIrq_same _ _ _ (by decide)
theorem rd_setIrq_congr {a : Nat} (h : rd t a = rd s a) (q b : Nat) : rd (setIrq q b t) a = rd (setIrq q b s) a := by
  rw [rd_setIrq, rd_setIrq]
  by_cases ha : a = irqA q
  · subst ha
    unfold wrF
    rw [rd_wr_same, rd_wr_same, h]
  · rw [rd_wrF_other t ha, rd_wrF_other s ha, h]
/-- Of the registers that a lost link does not write, IRQ_STAT alone changes. -/
theorem rd_upLeft (hi : s.cfc.eng0.st = .idle) {a : Nat} (ha : linkReg a = false) (c : Nat) :
    rd (upLeft p c s) a = rd (setIrq (pgENR p) 0 s) a := by
  have hr : rd (linkDown p s) a = rd s a := (linkDown_keeps hi p).2.2 a ha
  unfold upLeft toTrain
  refine rd_setIrq_congr ?_ _ _
  rw [rd_updPort, rd_updPort, hr]

end Sys2Proof.Machine
end

section
/-! A flit that passes its CRC and its tag (R263 to R265, R269, R270, R272). -/

namespace Sys2Proof.Machine

variable {s t u : State} {e e' g : EnrPort} {p c : Nat} {f : BitVec 2048} {pl : List Byte}

-- Steps of one port

/-- A step of port `p`: no other port differs, and nothing but what the flow of items touches. -/
structure PortStep (p : Nat) (s t : State) : Prop where
  others : ∀ q, q ≠ p → enrPort t q = enrPort s q
  work   : onlyWork s t
  link   : LinkStep s t

namespace PortStep

theorem refl (p : Nat) (s : State) : PortStep p s s := ⟨fun _ _ => rfl, onlyWork_refl s, .refl s⟩
theorem trans (h : PortStep p s t) (k : PortStep p t u) : PortStep p s u :=
  ⟨fun q hq => (k.others q hq).trans (h.others q hq), onlyWork_trans h.work k.work, h.link.trans k.link⟩
theorem of_sent (h : onlySent s t) (ho : ∀ q, q ≠ p → enrPort t q = enrPort s q) : PortStep p s t := ⟨ho, onlySent_onlyWork h, .of_sent h⟩
theorem setEnrPort (p : Nat) (e : EnrPort) (s : State) : PortStep p s (setEnrPort p e s) :=
  of_sent (onlySent_setEnrPort (onlySent_refl s) p e) fun _ hq => enrPort_setEnrPort_other hq e s
theorem updPort (p : Nat) (w : EnrPort → EnrPort) (s : State) : PortStep p s (updPort p w s) := setEnrPort p _ s
theorem sendFlit (p typ vc seq ack : Nat) (pl : List Byte) (s : State) : PortStep p s (sendFlit p typ vc seq ack pl s) :=
  of_sent (onlySent_sendFlit (onlySent_refl s) ..) (sentOn_sendFlit ..).2
theorem sendIdle (p : Nat) (s : State) : PortStep p s (sendIdle p s) := of_sent (onlySent_sendIdle (onlySent_refl s) p) (sentOn_sendIdle p s).2
/-- A step that leaves the ports, the broadcasts and the stored rows alone. -/
theorem of_work (h : onlyWork s t) (he : t.enr = s.enr) (hr : t.mem.rows = s.mem.rows) : PortStep p s t :=
  ⟨fun q _ => enrPort_congr he q, h, .of_work h hr (congrArg Enrus.bcast he)⟩
theorem setIrq (hp : p < 7) (b : Nat) (s : State) : PortStep p s (setIrq (pgENR p) b s) :=
  ⟨fun q _ => enrPort_congr (setIrq_enr _ _ _) q, onlyWork_setIrq (onlyWork_refl s) _ _ (workPage_enr hp), (LinkStep.refl s).setIrq _ _⟩
theorem wr (hp : p < 7) {o : Nat} (ho : o < 0x1000) (v : Reg) (s : State) : PortStep p s (wr (at' (pgENR p) o) v s) := by
  have hpage : at' (pgENR p) o / 0x1000 = pgENR p := by unfold at'; omega
  exact ⟨fun _ _ => rfl, onlyWork_wr (onlyWork_refl s) _ _ (by rw [hpage]; exact workPage_enr hp), (LinkStep.refl s).wr _ _⟩
theorem setFault (hp : p < 7) (c : Nat) (s : State) : PortStep p s (setFault (pgENR p) c s) :=
  (wr hp (o := 0x008) (by decide) _ s).trans (wr hp (o := 0x01C) (by decide) _ _)
/-- Where no stream waits, none does after a step of a port. -/
theorem streamAfter (h : PortStep p s t) (hs : streamStill s) : streamAfter t = t := h.link.streamAfter hs

end PortStep

-- The port after its acknowledgement and its credits

/-- What an accepted flit leaves in the port: its counter is the key slot's last, what it acknowledges is kept no more, its credits are
returned; nothing waits to be sent. -/
structure FlitTaken (f : BitVec 2048) (c : Nat) (k : List Kept) (e e' : EnrPort) : Prop where
  rxLast  : (keySlot e' (bit (flitHead f) 57)).rxLast = some c
  kept    : e'.kept = k
  credits : (chan e' (fld (flitHead f) 22 2)).credits = min (vcCredits (fld (flitHead f) 22 2))
    ((chan e (fld (flitHead f) 22 2)).credits + fld (flitHead f) 16 6)
  queues  : ∀ v, v < 4 → (chan e' v).txq = []

theorem FlitTaken.of_sender {k : List Kept} (h : FlitTaken f c k e e') (hg : g.sender = e'.sender) : FlitTaken f c k e g :=
  ⟨(session_rxLast (session_of_sender hg) _).trans h.rxLast, (sender_kept hg).trans h.kept, (sender_credits hg _).trans h.credits,
    fun v hv => (sender_txq hg v).trans (h.queues v hv)⟩

/-- The acknowledgement that a flit carries: a NAK names the next SEQ. -/
def ackOf (f : BitVec 2048) : Nat := if flitType f = 2 then (flitAck f + 65535) % 65536 else flitAck f
/-- The port once a flit is accepted. -/
def portAccepted (f : BitVec 2048) (c : Nat) (e : EnrPort) : EnrPort :=
  takeCredits (flitHead f) (takeAck (ackOf f) (setKeySlot e (bit (flitHead f) 57) { keySlot e (bit (flitHead f) 57) with rxLast := some c }))

theorem acceptFlit_of_open (h : openFlit (enrPort s p) f = some (c, pl)) (act : List Byte → State → State) :
    acceptFlit p f act s
      = pumpAll p (act pl (linkRekeyed p (bit (flitHead f) 57) (setEnrPort p (portAccepted f c (enrPort s p)) s))) := by
  unfold acceptFlit portAccepted ackOf; dsimp only
  rw [h]; dsimp only
  split <;> rfl

theorem keySlot_setKeySlot_same (e : EnrPort) (b : Bool) (k : KeySlot) : keySlot (setKeySlot e b k) b = k := by cases b <;> rfl
theorem chan_setKeySlot (e : EnrPort) (b : Bool) (k : KeySlot) (v : Nat) : chan (setKeySlot e b k) v = chan e v := by cases b <;> rfl
theorem keySlot_takeAck (a : Nat) (e : EnrPort) (b : Bool) : keySlot (takeAck a e) b = keySlot e b := rfl
theorem keySlot_takeCredits (h : Word) (e : EnrPort) (b : Bool) : keySlot (takeCredits h e) b = keySlot e b := keySlot_setChan ..
/-- An acknowledgement leaves a channel's queue and credits. -/
theorem chan_takeAck (a : Nat) (e : EnrPort) (v : Nat) :
    (chan (takeAck a e) v).txq = (chan e v).txq ∧ (chan (takeAck a e) v).credits = (chan e v).credits := by
  match v with
  | 0 | 1 | 2 | _ + 3 => exact ⟨rfl, rfl⟩
/-- Credits leave the queues. -/
theorem txq_takeCredits (h : Word) (e : EnrPort) (v : Nat) : (chan (takeCredits h e) v).txq = (chan e v).txq := by
  match hw : fld h 22 2, v with
  | 0, 0 | 0, 1 | 0, 2 | 0, _ + 3 | 1, 0 | 1, 1 | 1, 2 | 1, _ + 3 | 2, 0 | 2, 1 | 2, 2 | 2, _ + 3 | _ + 3, 0 | _ + 3, 1 | _ + 3, 2
  | _ + 3, _ + 3 => unfold takeCredits; rw [hw]; rfl

theorem portAccepted_taken (h : ∀ v, v < 4 → (chan e v).txq = []) : FlitTaken f c (ackKept (ackOf f) e.kept) e (portAccepted f c e) := by
  unfold portAccepted
  refine ⟨?_, ?_, ?_, fun v hv => ?_⟩
  · rw [keySlot_takeCredits, keySlot_takeAck, keySlot_setKeySlot_same]
  · rw [show ∀ h x, (takeCredits h x).kept = x.kept from fun _ _ => (setChan_rest ..).1]
    cases bit (flitHead f) 57 <;> rfl
  · unfold takeCredits
    rw [chan_setChan_same]; dsimp only
    rw [(chan_takeAck ..).2, chan_setKeySlot]
  · rw [txq_takeCredits, (chan_takeAck ..).1, chan_setKeySlot, h v hv]

/-- The state and what has been received stay. -/
theorem portAccepted_rest (f : BitVec 2048) (c : Nat) (e : EnrPort) : (portAccepted f c e).st = e.st ∧ (portAccepted f c e).seqRx = e.seqRx
    ∧ (portAccepted f c e).acked = e.acked := by
  have hset : ∀ (x : EnrPort) v y, (setChan x v y).st = x.st ∧ (setChan x v y).seqRx = x.seqRx ∧ (setChan x v y).acked = x.acked := by
    intro x v y
    match v with
    | 0 | 1 | 2 | _ + 3 => exact ⟨rfl, rfl, rfl⟩
  have hslot : ∀ (b : Bool) k, (setKeySlot e b k).st = e.st ∧ (setKeySlot e b k).seqRx = e.seqRx ∧ (setKeySlot e b k).acked = e.acked := by
    intro b k
    cases b <;> exact ⟨rfl, rfl, rfl⟩
  obtain ⟨kst, kseq, kack⟩ := hslot (bit (flitHead f) 57) { keySlot e (bit (flitHead f) 57) with rxLast := some c }
  obtain ⟨hst, hseq, hack⟩ := hset (takeAck (ackOf f) (setKeySlot e (bit (flitHead f) 57) _)) (fld (flitHead f) 22 2) _
  exact ⟨hst.trans kst, hseq.trans kseq, hack.trans kack⟩

-- The end of a rekey (R274)

theorem linkRekeyed_step (hp : p < 7) (b : Bool) (s : State) : PortStep p s (linkRekeyed p b s) := by
  unfold linkRekeyed; dsimp only; split
  · exact (PortStep.setEnrPort p _ s).trans (.setIrq hp 3 _)
  · exact .refl p s
/-- The old receive key goes where the flit is the first under the new one. -/
theorem linkRekeyed_port (p : Nat) (b : Bool) (s : State) : enrPort (linkRekeyed p b s) p = enrPort s p
    ∨ enrPort (linkRekeyed p b s) p = { setKeySlot (enrPort s p) (!b) KeySlot.zero with upd := none, peerUpd := none } := by
  unfold linkRekeyed; dsimp only; split
  · exact .inr (by rw [enrPort_congr (setIrq_enr _ _ _), enrPort_setEnrPort_same])
  · exact .inl rfl

/-- An accepted flit's port keeps what was taken of it when the old key goes. -/
theorem FlitTaken.rekeyed {k : List Kept} (h : FlitTaken f c k e (enrPort s p)) :
    FlitTaken f c k e (enrPort (linkRekeyed p (bit (flitHead f) 57) s) p) := by
  obtain ⟨hrx, hkept, hcred, hq⟩ := h
  rcases linkRekeyed_port p (bit (flitHead f) 57) s with he | he <;> rw [he]
  · exact ⟨hrx, hkept, hcred, hq⟩
  · cases hb : bit (flitHead f) 57 <;> rw [hb] at hrx <;> exact ⟨by rw [hb]; exact hrx, hkept, hcred, hq⟩
theorem linkRekeyed_rest (p : Nat) (b : Bool) (s : State) : (enrPort (linkRekeyed p b s) p).st = (enrPort s p).st
    ∧ (enrPort (linkRekeyed p b s) p).seqRx = (enrPort s p).seqRx ∧ (enrPort (linkRekeyed p b s) p).acked = (enrPort s p).acked := by
  rcases linkRekeyed_port p b s with he | he <;> rw [he]
  · exact ⟨rfl, rfl, rfl⟩
  · cases b <;> exact ⟨rfl, rfl, rfl⟩

/-- The state in which an accepted flit does what its type says. -/
def flitAccepted (p : Nat) (f : BitVec 2048) (c : Nat) (s : State) : State :=
  linkRekeyed p (bit (flitHead f) 57) (setEnrPort p (portAccepted f c (enrPort s p)) s)

theorem flitAccepted_step (hp : p < 7) (f : BitVec 2048) (c : Nat) (s : State) : PortStep p s (flitAccepted p f c s) :=
  (PortStep.setEnrPort p _ s).trans (linkRekeyed_step hp _ _)
theorem flitAccepted_taken (h : ∀ v, v < 4 → (chan (enrPort s p) v).txq = []) (f : BitVec 2048) (c : Nat) :
    FlitTaken f c (ackKept (ackOf f) (enrPort s p).kept) (enrPort s p) (enrPort (flitAccepted p f c s) p) := by
  refine FlitTaken.rekeyed ?_
  rw [enrPort_setEnrPort_same]
  exact portAccepted_taken h
theorem flitAccepted_rest (p : Nat) (f : BitVec 2048) (c : Nat) (s : State) : (enrPort (flitAccepted p f c s) p).st = (enrPort s p).st
    ∧ (enrPort (flitAccepted p f c s) p).seqRx = (enrPort s p).seqRx ∧ (enrPort (flitAccepted p f c s) p).acked = (enrPort s p).acked := by
  have h := linkRekeyed_rest p (bit (flitHead f) 57) (setEnrPort p (portAccepted f c (enrPort s p)) s)
  rw [enrPort_setEnrPort_same] at h
  obtain ⟨hst, hseq, hack⟩ := portAccepted_rest f c (enrPort s p)
  exact ⟨h.1.trans hst, h.2.1.trans hseq, h.2.2.trans hack⟩

/-- A flit of an UP port that passes, by its type. -/
theorem receiveFlit_of_open (hup : (enrPort s p).st = .up) (hcrc : flitCrcOk f = true) (hopen : openFlit (enrPort s p) f = some (c, pl))
    {typ : Nat} (ht : flitType f = typ) (h3 : typ < 3) (act : List Byte → State → State) :
    receiveFlit p typ f act s = pumpAll p (act pl (flitAccepted p f c s)) := by
  unfold receiveFlit
  rw [if_neg (by simp [hup]), hcrc, if_neg (by decide), ht, if_neg (by simp; omega), if_neg (by simp), acceptFlit_of_open hopen]; rfl

-- The bytes of a DATA flit (R270, R275)

/-- What a channel receives is not the sender's. -/
theorem sender_received (v : Nat) (e : EnrPort) (q : Option Msg) (l : List Msg) :
    (setChan e v { chan e v with part := q, ready := l }).sender = e.sender := sender_setChan v rfl

/-- A payload that joins its message leaves what the port sends. -/
theorem takeFragment_keeps (hp : p < 7) (v : Nat) (pl : List Byte) (s : State) :
    PortStep p s (takeFragment p v pl s) ∧ (enrPort (takeFragment p v pl s) p).sender = (enrPort s p).sender := by
  have hset : ∀ x : EnrPort, x.sender = (enrPort s p).sender →
      PortStep p s (setEnrPort p x s) ∧ (enrPort (setEnrPort p x s) p).sender = (enrPort s p).sender := fun x hx =>
    ⟨.setEnrPort p x s, by rw [enrPort_setEnrPort_same]; exact hx⟩
  unfold takeFragment; extract_lets h kind body e₀ c₀ start held m stale free e₁ c₁
  have howed : e₁.sender = (enrPort s p).sender := sender_oweCredits ..
  clear_value m
  cases m with
  | none => exact hset _ ((sender_oweCredits ..).trans howed)
  | some m =>
    dsimp only; split
    · exact hset _ ((sender_received v e₁ _ c₁.ready).trans howed)
    · split
      · obtain ⟨hstep, hsend⟩ := hset (oweCredits v m.flits (setChan e₁ v { c₁ with part := none }))
          ((sender_oweCredits ..).trans ((sender_received v e₁ _ c₁.ready).trans howed))
        exact ⟨hstep.trans (.setFault hp _ _), by rw [enrPort_congr (setFault_enr _ _ _)]; exact hsend⟩
      · exact hset _ (sender_queueDispatch.trans ((sender_received v e₁ _ _).trans howed))

/-- A NAK for a SEQ goes out. -/
def nakOut (p seq : Nat) (s : State) : State := sendFlit p 2 0 0 seq [] (updPort p (fun x => { x with nakSent := true }) s)

theorem nakOut_keeps (p seq : Nat) (s : State) :
    PortStep p s (nakOut p seq s) ∧ (enrPort (nakOut p seq s) p).sender = { enrPort s p with nakSent := true }.sender := by
  unfold nakOut
  exact ⟨(PortStep.updPort p _ s).trans (.sendFlit ..), by rw [sender_sendFlit, enrPort_updPort_same]⟩
/-- A request for the next SEQ leaves what the port sends but for the mark that it is out. -/
theorem sendNak_keeps (p : Nat) (s : State) :
    PortStep p s (sendNak p s) ∧ ∃ b, (enrPort (sendNak p s) p).sender = { enrPort s p with nakSent := b }.sender := by
  have hfree : PortStep p s (takeFree 1 s).2 := .of_work (onlyWork_takeFree (onlyWork_refl s) 1) rfl rfl
  unfold sendNak; dsimp only
  cases (enrPort s p).nakSent
  · exact ⟨(nakOut_keeps p _ s).1, true, (nakOut_keeps p _ s).2⟩
  · rw [if_pos rfl]; split
    · exact ⟨hfree.trans (nakOut_keeps p _ _).1, true, (nakOut_keeps p (enrPort s p).seqRx (takeFree 1 s).2).2⟩
    · exact ⟨hfree, (enrPort s p).nakSent, rfl⟩

/-- A DATA flit in order moves the expected SEQ on; out of order it is asked for again. -/
theorem takeData_keeps (hp : p < 7) (h : Word) (pl : List Byte) (s : State) : PortStep p s (takeData p h pl s) ∧ ∃ b,
    (enrPort (takeData p h pl s) p).sender = (if fld h 40 16 = (enrPort s p).seqRx then
      { enrPort s p with seqRx := (fld h 40 16 + 1) % 65536, acked := some (fld h 40 16), nakSent := false }
      else { enrPort s p with nakSent := b }).sender := by
  unfold takeData; dsimp only
  split
  · obtain ⟨hstep, hsend⟩ := takeFragment_keeps hp (fld h 58 2) pl
      (updPort p (fun x => { x with seqRx := (fld h 40 16 + 1) % 65536, acked := some (fld h 40 16), nakSent := false }) s)
    refine ⟨((PortStep.updPort p _ s).trans hstep).trans (.sendIdle p _), false, ?_⟩
    rw [sender_sendIdle, hsend, enrPort_updPort_same]
  · obtain ⟨hstep, b, hb⟩ := sendNak_keeps p s
    exact ⟨hstep, b, hb⟩

-- IDLE and DATA (R262, R265)

theorem exec_idle (p : Nat) (f : BitVec 2048) (s : State) :
    exec (.idle p f) s = .next (streamAfter (receiveFlit p 0 f (fun _ t => t) s)) := rfl
theorem exec_data (p : Nat) (f : BitVec 2048) (s : State) :
    exec (.data p f) s = .next (streamAfter (receiveFlit p 1 f (fun pl t => takeData p (flitHead f) pl t) s)) := rfl
theorem exec_nak (p : Nat) (f : BitVec 2048) (s : State) :
    exec (.nak p f) s = .next (streamAfter (receiveFlit p 2 f (fun _ t => resendFrom p (flitAck f) t) s)) := rfl

/-- An IDLE flit that passes. -/
theorem idle_accepted (hp : p < 7) (hs : streamStill s) (hup : (enrPort s p).st = .up) (hcrc : flitCrcOk f = true)
    (hopen : openFlit (enrPort s p) f = some (c, pl)) (hq : ∀ v, v < 4 → (chan (enrPort s p) v).txq = []) (ht : flitType f = 0) :
    exec (.idle p f) s = .next (flitAccepted p f c s) := by
  rw [exec_idle, receiveFlit_of_open hup hcrc hopen ht (by decide), pumpAll_of_empty (flitAccepted_taken hq f c).queues,
    (flitAccepted_step hp f c s).streamAfter hs]

/-- A DATA flit that passes. -/
theorem data_accepted (hp : p < 7) (hs : streamStill s) (hup : (enrPort s p).st = .up) (hcrc : flitCrcOk f = true)
    (hopen : openFlit (enrPort s p) f = some (c, pl)) (hq : ∀ v, v < 4 → (chan (enrPort s p) v).txq = []) (ht : flitType f = 1) :
    ∃ t, exec (.data p f) s = .next t ∧ FlitTaken f c (ackKept (ackOf f) (enrPort s p).kept) (enrPort s p) (enrPort t p)
      ∧ (enrPort t p).acked = (if fld (flitHead f) 40 16 = (enrPort s p).seqRx then some (enrPort s p).seqRx else (enrPort s p).acked)
      ∧ (enrPort t p).seqRx = (if fld (flitHead f) 40 16 = (enrPort s p).seqRx then ((enrPort s p).seqRx + 1) % 65536 else (enrPort s p).seqRx)
      ∧ PortStep p s t := by
  obtain ⟨hstep, b, hsend⟩ := takeData_keeps hp (flitHead f) pl (flitAccepted p f c s)
  obtain ⟨-, hseq, hack⟩ := flitAccepted_rest p f c s
  obtain ⟨hrx, hkept, hcred, hqueue⟩ := flitAccepted_taken hq f c
  have hall := (flitAccepted_step hp f c s).trans hstep
  have htaken : FlitTaken f c (ackKept (ackOf f) (enrPort s p).kept) (enrPort s p) (enrPort (takeData p (flitHead f) pl (flitAccepted p f c s)) p) :=
    FlitTaken.of_sender (by split <;> exact ⟨hrx, hkept, hcred, hqueue⟩) hsend
  refine ⟨_, ?_, htaken, ?_, ?_, hall⟩
  · rw [exec_data, receiveFlit_of_open hup hcrc hopen ht (by decide), pumpAll_of_empty htaken.queues, hall.streamAfter hs]
  · rw [sender_proj (·.acked) (fun _ => rfl) hsend, hseq]
    split
    · next he => rw [he]
    · exact hack
  · rw [sender_proj (·.seqRx) (fun _ => rfl) hsend, hseq]
    split
    · next he => rw [he]
    · exact hseq

end Sys2Proof.Machine
end

section
/-! Flits that are sent again, flits that fail, the width and the keys of an UP port (R265, R270, R271, R273, R274). -/

namespace Sys2Proof.Machine

variable {s t u : State} {e : EnrPort} {p c : Nat} {f : BitVec 2048} {pl : List Byte}

-- Sending again (R269 to R271)

/-- A kept flit once it is sent again. -/
def resent (s : State) (x : Kept) : Kept := { x with sends := x.sends + 1, since := some (x.since.getD s.time) }
/-- The flits that go out again from a SEQ on. -/
def resendSet (seq : Nat) (e : EnrPort) : List Kept := e.kept.dropWhile fun x => decide (x.seq ≠ seq)
/-- The port whose flits are sent again. -/
def portResent (seq : Nat) (s : State) (e : EnrPort) : EnrPort :=
  { e with resend := true, kept := e.kept.take (e.kept.length - (resendSet seq e).length) ++ (resendSet seq e).map (resent s) }

theorem resendOne_keeps (p : Nat) (l : List Kept) (s : State) : onlySent s (l.foldl (fun t k => resendOne p t k) s)
    ∧ PortStep p s (l.foldl (fun t k => resendOne p t k) s)
    ∧ (enrPort (l.foldl (fun t k => resendOne p t k) s) p).sender = (enrPort s p).sender := by
  refine l.foldlRecOn (motive := fun t => onlySent s t ∧ PortStep p s t ∧ (enrPort t p).sender = (enrPort s p).sender) _
    ⟨onlySent_refl s, .refl p s, rfl⟩ fun t ht k _ => ?_
  obtain ⟨hsent, hstep, hsend⟩ := ht
  exact ⟨onlySent_sendFlit hsent .., hstep.trans (.sendFlit ..), (sender_sendFlit ..).trans hsend⟩

/-- The state in which the flits go out again: they are counted. -/
def resendCounted (p seq : Nat) (s : State) : State :=
  incF (enrErrA p) 12 12 (resendSet seq (enrPort s p)).length (setEnrPort p (portResent seq s (enrPort s p)) s)

theorem resendCounted_keeps (hp : p < 7) (seq : Nat) (s : State) :
    enrPort (resendCounted p seq s) p = portResent seq s (enrPort s p)
      ∧ rdF (resendCounted p seq s) (enrErrA p) 12 12 = satAdd (rdF s (enrErrA p) 12 12) (resendSet seq (enrPort s p)).length 4095
      ∧ regsBut [enrErrA p] s (resendCounted p seq s) ∧ PortStep p s (resendCounted p seq s) := by
  have hset := PortStep.setEnrPort p (portResent seq s (enrPort s p)) s
  have hport := enrPort_setEnrPort_same p (portResent seq s (enrPort s p)) s
  have hregs : (setEnrPort p (portResent seq s (enrPort s p)) s).regs = s.regs := rfl
  unfold resendCounted
  generalize setEnrPort p (portResent seq s (enrPort s p)) s = v at *
  refine ⟨(enrPort_congr (wrF_enr ..) p).trans hport, ?_, regsBut_wrF (regsBut_of_regs hregs) (by simp) _ _ _,
    hset.trans (.wr hp (o := 0x48) (by decide) _ _)⟩
  rw [rdF_incF_same _ _ _ _ _ (by decide), rdF, rd_congr hregs, ← rdF, show 2 ^ 12 - 1 = 4095 from rfl]

/-- Within the budget every flit from the SEQ on goes out once more, and is counted. -/
theorem resendFrom_within (hp : p < 7) (seq : Nat) (hnow : resendSet seq (enrPort s p) ≠ [])
    (hsends : ∀ k ∈ (enrPort s p).kept.head?, k.sends < 8)
    (htime : ∀ k ∈ (enrPort s p).kept.head?, ∀ t0, k.since = some t0 → (s.time - t0).toNat < 64000) :
    (enrPort (resendFrom p seq s) p).sender = (portResent seq s (enrPort s p)).sender
      ∧ rdF (resendFrom p seq s) (enrErrA p) 12 12 = satAdd (rdF s (enrErrA p) 12 12) (resendSet seq (enrPort s p)).length 4095
      ∧ regsBut [enrErrA p] s (resendFrom p seq s) ∧ PortStep p s (resendFrom p seq s) := by
  have hspent : retrySpent s p = false := by
    unfold retrySpent
    cases hh : (enrPort s p).kept.head? with
    | none => rfl
    | some k =>
      cases ht : k.since with
      | none => simp [ht]
      | some t0 => simpa [ht] using htime k (by rw [hh]; rfl) t0 ht
  have hcount : ((enrPort s p).kept.head?.map fun k => decide (8 ≤ k.sends ∧ k.seq = seq)).getD false = false := by
    cases hh : (enrPort s p).kept.head? with
    | none => rfl
    | some k =>
      have h8 := hsends k (by rw [hh]; rfl)
      simp only [Option.map_some, Option.getD_some, decide_eq_false_iff_not]
      omega
  have heq : resendFrom p seq s = (resendSet seq (enrPort s p)).foldl (fun t k => resendOne p t k) (resendCounted p seq s) := by
    refine (if_neg hnow).trans ?_
    rw [hspent, hcount, if_neg (by decide)]; rfl
  obtain ⟨hsent, hstep, hsend⟩ := resendOne_keeps p (resendSet seq (enrPort s p)) (resendCounted p seq s)
  rw [← heq] at hsent hstep hsend
  obtain ⟨hport, hcounted, hregs, hc⟩ := resendCounted_keeps hp seq s
  refine ⟨by rw [hsend, hport], ?_, regsBut_trans hregs (regsBut_of_regs (onlySent_regs hsent)), hc.trans hstep⟩
  rw [rdF, rd_congr (onlySent_regs hsent), ← rdF, hcounted]

theorem onlyWork_time (h : onlyWork s t) : t.time = s.time := congrArg (·.time) h.1
/-- An interrupt of a port is no ENR_ERR. -/
theorem rdF_enrErr_setIrq (q b i j : Nat) (s : State) : rdF (setIrq q b s) (enrErrA p) i j = rdF s (enrErrA p) i j := by
  rw [rdF, rd_setIrq, rd_wrF_other s (by unfold enrErrA at' irqA; omega), ← rdF]

theorem rdF_enrErr_setEnrPort (q i j : Nat) (x : EnrPort) (s : State) : rdF (setEnrPort q x s) (enrErrA p) i j = rdF s (enrErrA p) i j := rfl
/-- Accepting a flit leaves ENR_ERR. -/
theorem rdF_flitAccepted (p : Nat) (f : BitVec 2048) (c i j : Nat) (s : State) :
    rdF (flitAccepted p f c s) (enrErrA p) i j = rdF s (enrErrA p) i j := by
  unfold flitAccepted linkRekeyed; dsimp only; split
  · rw [rdF_enrErr_setIrq, rdF_enrErr_setEnrPort, rdF_enrErr_setEnrPort]
  · rw [rdF_enrErr_setEnrPort]

/-- A NAK that passes (R270). -/
theorem nak_accepted (hp : p < 7) (hs : streamStill s) (hup : (enrPort s p).st = .up) (hcrc : flitCrcOk f = true)
    (hopen : openFlit (enrPort s p) f = some (c, pl)) (hq : ∀ v, v < 4 → (chan (enrPort s p) v).txq = []) (ht : flitType f = 2)
    {k now : List Kept} (hk : k = ackKept (ackOf f) (enrPort s p).kept) (hn : now = k.dropWhile fun x => decide (x.seq ≠ flitAck f))
    (hnow : now ≠ []) (hbudget : ∀ x ∈ k, x.sends < 8 ∧ ∀ t0, x.since = some t0 → (s.time - t0).toNat < 64000) :
    ∃ t, exec (.nak p f) s = .next t ∧ (enrPort t p).resend = true
      ∧ (enrPort t p).kept = k.take (k.length - now.length) ++ now.map (resent s)
      ∧ rdF t (enrErrA p) 12 12 = satAdd (rdF s (enrErrA p) 12 12) now.length 4095 ∧ PortStep p s t := by
  have hstep := flitAccepted_step hp f c s
  have herr := rdF_flitAccepted p f c 12 12 s
  obtain ⟨-, hkept, -, hqueue⟩ := flitAccepted_taken hq f c
  have hexec : exec (.nak p f) s = .next (streamAfter (pumpAll p (resendFrom p (flitAck f) (flitAccepted p f c s)))) := by
    rw [exec_nak, receiveFlit_of_open hup hcrc hopen ht (by decide)]
  rw [← hk] at hkept
  generalize flitAccepted p f c s = v at *
  have hset : resendSet (flitAck f) (enrPort v p) = now := by rw [resendSet, hkept, hn]
  have hhead : ∀ x ∈ (enrPort v p).kept.head?, x ∈ k := fun x hx => by rw [hkept] at hx; exact List.mem_of_mem_head? hx
  have htime := onlyWork_time hstep.work
  obtain ⟨hsend, hcount, -, hre⟩ := resendFrom_within hp (flitAck f) (by rw [hset]; exact hnow) (fun x hx => (hbudget x (hhead x hx)).1)
    fun x hx => by rw [htime]; exact (hbudget x (hhead x hx)).2
  have hresent : resent v = resent s := by unfold resent; rw [htime]
  have hall := hstep.trans hre
  rw [pumpAll_of_empty fun i hi => (sender_txq hsend i).trans (hqueue i hi), hall.streamAfter hs] at hexec
  refine ⟨_, hexec, sender_proj (·.resend) (fun _ => rfl) hsend, ?_, by rw [hcount, hset, herr], hall⟩
  rw [sender_kept hsend, portResent, hset, hkept, hresent]

/-- The retry timer (R271). -/
theorem retryTimer_holds (hp : p < 7) (hs : streamStill s) (hup : (enrPort s p).st = .up) {k : Kept} {r : List Kept}
    (hk : (enrPort s p).kept = k :: r) (hsends : k.sends < 8) (htime : ∀ t0, k.since = some t0 → (s.time - t0).toNat < 64000) :
    ∃ t, exec (.retryTimer p) s = .next t ∧ (enrPort t p).resend = true ∧ (enrPort t p).kept = (enrPort s p).kept.map (resent s)
      ∧ rdF t (enrErrA p) 12 12 = satAdd (rdF s (enrErrA p) 12 12) (enrPort s p).kept.length 4095
      ∧ regsBut [enrErrA p] s t ∧ PortStep p s t := by
  have hset : resendSet k.seq (enrPort s p) = (enrPort s p).kept := by simp [resendSet, hk]
  have hhead : ∀ x ∈ (enrPort s p).kept.head?, x = k := fun x hx => by rw [hk] at hx; exact (Option.some.inj hx).symm
  obtain ⟨hsend, hcount, hregs, hstep⟩ := resendFrom_within hp k.seq (by rw [hset, hk]; simp) (fun x hx => hhead x hx ▸ hsends)
    fun x hx => hhead x hx ▸ htime
  refine ⟨resendFrom p k.seq s, ?_, sender_proj (·.resend) (fun _ => rfl) hsend, ?_, by rw [hcount, hset], hregs, hstep⟩
  · change execRetryTimer p s = _
    unfold execRetryTimer; dsimp only
    rw [hk, List.head?_cons]; dsimp only
    rw [if_pos hup, hstep.streamAfter hs]
  · rw [sender_kept hsend, portResent, hset]; simp

-- Flits that fail (R265)

/-- A flit whose CRC fails, by its event. -/
theorem receiveFlit_crc (hup : (enrPort s p).st = .up) (hcrc : flitCrcOk f = false) (typ : Nat) (act : List Byte → State → State) :
    receiveFlit p typ f act s = if typ = 1 then sendNak p (crcFail p s) else crcFail p s := by
  unfold receiveFlit
  rw [if_neg (by simp [hup]), hcrc, if_pos (by decide)]

theorem crcFail_counts (p : Nat) (s : State) : rdF (crcFail p s) (enrErrA p) 0 12 = satAdd (rdF s (enrErrA p) 0 12) 1 4095
    ∧ rdF (crcFail p s) (enrErrA p) 12 20 = rdF s (enrErrA p) 12 20 ∧ regsBut [enrErrA p] s (crcFail p s) ∧ onlyRegs s (crcFail p s) :=
  ⟨rdF_incF_same _ _ _ _ _ (by decide), rdF_wrF_other _ _ _ _ _ _ _ (by decide) (by decide), regsBut_wrF (regsBut_refl _ s) (by simp) _ _ _,
    onlyRegs_wrF (onlyRegs_refl s) _ _ _ _⟩

/-- A flit whose tag fails, by its event. -/
theorem receiveFlit_tag (hup : (enrPort s p).st = .up) (hcrc : flitCrcOk f = true) (hopen : openFlit (enrPort s p) f = none)
    {typ : Nat} (ht : flitType f = typ) (h3 : typ < 3) (act : List Byte → State → State) : receiveFlit p typ f act s = tagFail p s := by
  unfold receiveFlit acceptFlit; dsimp only
  rw [if_neg (by simp [hup]), hcrc, if_neg (by decide), ht, if_neg (by simp; omega), if_neg (by simp), hopen]

/-- An alarm touches no register of a port. -/
theorem rd_alarmNoted_enr {o : Nat} (hp : p < 7) (ho : o < 0x1000) (c : Nat) (s : State) :
    rd (alarmNoted c s) (at' (pgENR p) o) = rd s (at' (pgENR p) o) := by
  refine regsBut_alarmNoted c s _ ?_
  simp only [List.mem_cons, List.not_mem_nil, or_false, not_or]
  unfold at' irqA pgENR pgSEC
  omega
/-- A register of the SEC page is no IRQ_STAT of a port. -/
theorem rd_sec_setIrq {o : Nat} (hp : p < 7) (ho : o < 0x1000) (b : Nat) (s : State) :
    rd (setIrq (pgENR p) b s) (at' pgSEC o) = rd s (at' pgSEC o) := by
  rw [rd_setIrq, rd_wrF_other s (by unfold at' irqA pgENR pgSEC; omega)]

theorem authFail_counts (p : Nat) (s : State) : rdF (authFail p s) (enrErrA p) 24 8 = satAdd (rdF s (enrErrA p) 24 8) 1 255
    ∧ rdB (authFail p s) (irqA (pgENR p)) 2 = true := by
  unfold authFail
  exact ⟨(rdF_enrErr_setIrq ..).trans (rdF_incF_same _ _ _ _ _ (by decide)), rdB_setIrq_same _ _ _ (by decide)⟩
theorem authFail_step (hp : p < 7) (s : State) : PortStep p s (authFail p s) := by
  unfold authFail
  exact (PortStep.wr hp (o := 0x48) (by decide) _ s).trans (.setIrq hp 2 _)
theorem authFail_enr (p : Nat) (s : State) : (authFail p s).enr = s.enr := (setIrq_enr ..).trans (incF_enr ..)
theorem rd_sec_authFail {o : Nat} (hp : p < 7) (ho : o < 0x1000) (s : State) : rd (authFail p s) (at' pgSEC o) = rd s (at' pgSEC o) := by
  unfold authFail incF
  rw [rd_sec_setIrq hp ho, rd_wrF_other s (by unfold enrErrA at' pgENR pgSEC; omega)]

/-- A flit whose tag fails takes the port out of UP, with an alarm (R265, R266). -/
theorem tagFail_holds (hp : p < 7) (hup : (enrPort s p).st = .up) (hi : s.cfc.eng0.st = .idle)
    (ha : (s.sec.alarms.event).activeNow 3 3 8 = false) :
    (∃ e : EnrPort, enrPort (tagFail p s) p = { e.restart .train with cause := 0x0809 })
      ∧ rdF (tagFail p s) (enrErrA p) 24 8 = satAdd (rdF s (enrErrA p) 24 8) 1 255 ∧ rdB (tagFail p s) (irqA (pgENR p)) 2 = true
      ∧ rdF (tagFail p s) (at' pgSEC 0x4C) 0 16 = satAdd (rdF s (at' pgSEC 0x4C) 0 16) 1 65535 ∧ LinkStep s (tagFail p s) := by
  have hauth := authFail_step hp s
  obtain ⟨hcount, hirq⟩ := authFail_counts p s
  have hsec0 := rd_sec_authFail hp (o := 0x4C) (by decide) s
  have hup' : (enrPort (authFail p s) p).st = .up := by rw [enrPort_congr (authFail_enr p s), hup]
  unfold tagFail
  generalize authFail p s = v at *
  have hiv : v.cfc.eng0.st = .idle := by rw [onlyWork_cfc hauth.work, hi]
  have hleft := onlyWork_upLeft hp hiv 0x0809
  have hrd := fun {a} (h : linkReg a = false) => rd_upLeft (p := p) hiv h 0x0809
  have hlink := hauth.link.trans (linkStep_upLeft hiv p 0x0809)
  obtain ⟨e, he⟩ := upLeft_port p 0x0809 v
  rw [leaveUp_of_up hup']
  generalize upLeft p 0x0809 v = w at *
  have hsec : w.sec = s.sec := (onlyWork_sec hleft).trans (onlyWork_sec hauth.work)
  rw [secAlarm_unsealed 0x0809 (by rw [hsec]; exact ha)]
  refine ⟨⟨e, by rw [enrPort_congr (alarmNoted_enr ..), he]; rfl⟩, ?_, ?_, ?_, hlink.trans (linkStep_alarmNoted _ _)⟩
  · rw [rdF, show enrErrA p = at' (pgENR p) 0x48 from rfl, rd_alarmNoted_enr hp (by decide), hrd (linkReg_enr hp (by decide)), ← rdF]
    exact (rdF_enrErr_setIrq ..).trans hcount
  · rw [rdB, show irqA (pgENR p) = at' (pgENR p) 0x14 from rfl, rd_alarmNoted_enr hp (by decide), hrd (linkReg_enr hp (by decide)), ← rdB]
    exact (rdB_setIrq_other v (p := pgENR p) rfl (by decide) (by decide)).trans hirq
  · rw [alarmNoted_count, rdF, hrd (linkReg_sec (by decide)), rd_sec_setIrq hp (by decide), hsec0, ← rdF]

-- Width (R273)

theorem sendWidth_sent (p : Nat) (m : BitVec 4) (s : State) : onlySent s (sendWidth p m s) := by
  unfold sendWidth sendEvery64
  refine onlySent_foldl _ (fun t _ _ => onlySent_txPass ?_ (show (2 : Nat) ≠ 1 by decide) _ _) (onlySent_refl s)
  exact onlySent_foldl _ (fun u l _ => onlySent_send (onlySent_refl u) _) (onlySent_refl t)
theorem sendWidth_enr (p : Nat) (m : BitVec 4) (s : State) : (sendWidth p m s).enr = s.enr := by
  unfold sendWidth sendEvery64
  refine List.foldlRecOn (motive := fun v : State => v.enr = s.enr) _ _ rfl fun v hv _ _ => (txPass_enr ..).trans ?_
  exact List.foldlRecOn (motive := fun v : State => v.enr = s.enr) _ _ hv fun _ hu _ _ => hu

/-- Nothing but the lanes differs. -/
def onlyLan (s t : State) : Prop := { t with lan := s.lan } = s

theorem narrowQuad_lan (q : Nat) (m : BitVec 4) (s : State) : onlyLan s (narrowQuad q m s) := by
  unfold narrowQuad
  refine List.foldlRecOn (motive := onlyLan s) _ _ rfl fun v hv l _ => ?_
  dsimp only; split <;> exact hv
theorem onlyLan_step (p : Nat) (h : onlyLan s t) : PortStep p s t ∧ t.regs = s.regs ∧ t.enr = s.enr := by
  have hr : t.regs = s.regs := congrArg (·.regs) h
  have he : t.enr = s.enr := congrArg (·.enr) h
  have hm : t.mem = s.mem := congrArg (·.mem) h
  refine ⟨.of_work ⟨?_, fun a _ => rd_congr hr a⟩ he (by rw [hm]), hr, he⟩
  unfold onlyLan at h
  rw [← h]

/-- Both sides go on with the two lanes that are left. -/
theorem widthBlock_holds (hp : p < 7) (hs : streamStill s) (hup : (enrPort s p).st = .up) {w : Word} {m : BitVec 4} (hw : widthOk w = true)
    (hm : m = lowestTwo ((enrPort s p).narrow.getD (enrPort s p).lanes &&& BitVec.ofNat 4 (fld w 8 4))) (h2 : 2 ≤ maskCount m)
    (hnew : (enrPort s p).narrow.isSome = true ∨ (enrPort s p).lanes ≠ m) :
    ∃ t, exec (.widthBlockReceive p w) s = .next t ∧ enrPort t p = { enrPort s p with lanes := m, narrow := none }
      ∧ rdB t (irqA (pgENR p)) 1 = true ∧ regsBut [irqA (pgENR p)] s t ∧ PortStep p s t := by
  have hsent : ∀ b : Bool, onlySent s (if b then s else sendWidth p m s) ∧ (if b then s else sendWidth p m s).enr = s.enr := fun b => by
    cases b
    · exact ⟨sendWidth_sent .., sendWidth_enr ..⟩
    · exact ⟨onlySent_refl s, rfl⟩
  obtain ⟨hfirst, henr⟩ := hsent (enrPort s p).narrow.isSome
  have heq : widthReceive p w s = setIrq (pgENR p) 1 (narrowQuad (enrQuadOf (if (enrPort s p).narrow.isSome then s else sendWidth p m s) p) m
      (updPort p (fun e => { e with lanes := m, narrow := none }) (if (enrPort s p).narrow.isSome then s else sendWidth p m s))) := by
    unfold widthReceive; dsimp only
    rw [if_neg (by simp [hup, hw]), ← hm, if_neg (by omega), if_neg ?_]
    rcases hnew with hn | hn
    · simp [← Option.not_isSome, hn]
    · simp [hn]
  generalize (if (enrPort s p).narrow.isSome then s else sendWidth p m s) = v at *
  have hstep : PortStep p s v := .of_sent hfirst fun q _ => enrPort_congr henr q
  have hport : enrPort (updPort p (fun e => { e with lanes := m, narrow := none }) v) p = { enrPort s p with lanes := m, narrow := none } := by
    rw [enrPort_updPort_same, enrPort_congr henr]
  have hupd := hstep.trans (.updPort p (fun e => { e with lanes := m, narrow := none }) v)
  have hregs : (updPort p (fun e => { e with lanes := m, narrow := none }) v).regs = s.regs := onlySent_regs hfirst
  generalize updPort p (fun e => { e with lanes := m, narrow := none }) v = x at *
  obtain ⟨hnarrow, hnregs, hnenr⟩ := onlyLan_step p (narrowQuad_lan (enrQuadOf v p) m x)
  have hall := (hupd.trans hnarrow).trans (.setIrq hp 1 _)
  rw [← heq] at hall
  refine ⟨_, ?_, ?_, ?_, ?_, hall⟩
  · change execWidthBlockReceive p w s = _
    unfold execWidthBlockReceive
    rw [hall.streamAfter hs]
  · rw [heq, enrPort_congr (setIrq_enr _ _ _), enrPort_congr hnenr, hport]
  · rw [heq]; exact rdB_setIrq_same _ _ _ (by decide)
  · rw [heq]
    exact regsBut_setIrq (regsBut_of_regs (hnregs.trans hregs)) (by simp) 1

-- The rekey and the end of the nonces (R274)

/-- A fresh KEYSHARE draws random bytes and changes nothing else. -/
theorem newShare_drawn {x : List Byte} {r : Option (BitVec 384 × List Byte)} (h : newShare s x = (r, u)) :
    ∃ n, u = withSec (fun y => { y with drbgNo := n }) s := by
  have hu : u = (drawBytes 14 s).2 := by
    unfold newShare at h; dsimp only at h
    split at h <;> exact (congrArg Prod.snd h).symm
  unfold drawBytes at hu
  split at hu
  · exact ⟨s.sec.drbgNo, hu⟩
  · exact ⟨_, hu⟩
theorem linkStep_drawn (n : Nat) (s : State) : LinkStep s (withSec (fun y => { y with drbgNo := n }) s) :=
  ⟨rfl, rfl, fun b hb => ⟨b, hb, rfl⟩⟩

/-- This side's KEY_UPDATE goes out (R274). -/
theorem linkRekey_holds (hup : (enrPort s p).st = .up) (hupd : (enrPort s p).upd = none)
    (hslot : (keySlot (enrPort s p) (!(enrPort s p).slot)).keys = none) {k : BitVec 384} {sh : List Byte}
    (hn : newShare s (transcript s (enrPort s p)) = (some (k, sh), u)) :
    (enrPort (linkRekey p s) p).session = { enrPort s p with eph := k, upd := some sh }.session
      ∧ pendingFlits (enrPort (linkRekey p s) p) 3
          = pendingFlits (enrPort s p) 3 ++ msgPayloads { kind := 10, ref := 0, body := sh, flits := 0 }
      ∧ LinkStep s (linkRekey p s) := by
  obtain ⟨n, hu⟩ := newShare_drawn hn
  have henr : u.enr = s.enr := by rw [hu]; rfl
  have hdrawn : LinkStep s u := by rw [hu]; exact linkStep_drawn n s
  have heq : linkRekey p s
      = sendMsg p { kind := 10, ref := 0, body := sh, flits := 0 } (updPort p (fun x => { x with eph := k, upd := some sh }) u) := by
    unfold linkRekey; dsimp only
    rw [if_neg (by simp [hup, hupd, hslot]), hn]
  have hport : enrPort (updPort p (fun x => { x with eph := k, upd := some sh }) u) p = { enrPort s p with eph := k, upd := some sh } := by
    rw [enrPort_updPort_same, enrPort_congr henr]
  have hlink := hdrawn.updPort p fun x => { x with eph := k, upd := some sh }
  generalize updPort p (fun x => { x with eph := k, upd := some sh }) u = v at *
  have hsess := session_sendMsg p { kind := 10, ref := 0, body := sh, flits := 0 } v
  have hpend := pendingFlits_sendMsg p { kind := 10, ref := 0, body := sh, flits := 0 } v
  rw [heq]
  rw [hport] at hsess hpend
  exact ⟨hsess, hpend, hlink.sent (onlySent_sendMsg (onlySent_refl v) p _)⟩

/-- Past the end of its nonces a port leaves UP. -/
theorem nonceEnd_holds (hs : streamStill s) (hup : (enrPort s p).st = .up) (hi : s.cfc.eng0.st = .idle)
    (hctr : 0xFFFFFF00 ≤ (keySlot (enrPort s p) (enrPort s p).slot).txCtr) : exec (.nonceEnd p) s = .next (upLeft p 0x080C s) := by
  change execNonceEnd p s = _
  unfold execNonceEnd; dsimp only
  rw [if_pos hctr, leaveUp_of_up hup, (linkStep_upLeft hi p _).streamAfter hs]

end Sys2Proof.Machine
end

section
/-! The statement of received flits, retry, width and rekeys (R262 to R265, R269 to R274). -/

namespace Sys2Proof.Machine

/-- Settles O36, by what each flit and each timer leaves of its port. -/
theorem enrusFlitsAndUpkeep : Obligations.EnrusFlitsAndUpkeep := by
  unfold Obligations.EnrusFlitsAndUpkeep
  refine ⟨fun p f s hp hs hup => ⟨?_, ?_, ?_, ?_⟩, fun p s hp hs hup => ⟨?_, ?_, ?_, ?_⟩⟩
  · intro c pl hcrc hopen hq accepted
    refine ⟨fun ht => ?_, fun ht => ?_⟩
    · obtain ⟨hrx, hkept, hcred, -⟩ := flitAccepted_taken hq f c
      have hstep := flitAccepted_step hp f c s
      obtain ⟨-, hseq, hack⟩ := flitAccepted_rest p f c s
      rw [ackOf, if_neg (by omega)] at hkept
      exact ⟨_, idle_accepted hp hs hup hcrc hopen hq ht, hrx, hkept, hcred, fun h => absurd h (by decide), fun _ => ⟨hack, hseq⟩,
        hstep.others, hstep.work⟩
    · obtain ⟨t, hexec, ⟨hrx, hkept, hcred, -⟩, hack, hseq, hstep⟩ := data_accepted hp hs hup hcrc hopen hq ht
      rw [ackOf, if_neg (by omega)] at hkept
      refine ⟨t, hexec, hrx, hkept, hcred, fun _ he => ?_, fun hne => ?_, hstep.others, hstep.work⟩
      · rw [if_pos he] at hack hseq; exact ⟨hack, hseq⟩
      · rw [if_neg (hne.resolve_left (by decide))] at hack hseq; exact ⟨hack, hseq⟩
  · intro c pl k now hcrc ht hopen hq hk hn hnow hbudget
    obtain ⟨t, hexec, hres, hkept, hcount, hstep⟩ :=
      nak_accepted hp hs hup hcrc hopen hq ht (by rw [ackOf, if_pos ht]; exact hk) hn hnow hbudget
    exact ⟨t, hexec, hres, hkept, hcount, hstep.others, hstep.work⟩
  · intro hcrc counted
    have hcounted : counted (crcFail p s) := crcFail_counts p s
    have hstep : LinkStep s (crcFail p s) := (LinkStep.refl s).incF _ _ _ _
    have hnak := hstep.trans (sendNak_keeps p (crcFail p s)).1.link
    refine ⟨⟨crcFail p s, ?_, hcounted⟩, ⟨crcFail p s, ?_, hcounted⟩, crcFail p s, hcounted, ?_⟩
    · rw [exec_idle, receiveFlit_crc hup hcrc, if_neg (by decide), hstep.streamAfter hs]
    · rw [exec_nak, receiveFlit_crc hup hcrc, if_neg (by decide), hstep.streamAfter hs]
    · rw [exec_data, receiveFlit_crc hup hcrc, if_pos rfl, hnak.streamAfter hs]
  · intro hcrc hopen hi ha failed
    obtain ⟨⟨e, he⟩, hauth, hirq, hcount, hlink⟩ := tagFail_holds hp hup hi ha
    have hfailed : failed (tagFail p s) := by
      refine ⟨?_, ?_, ?_, ?_, hauth, hirq, hcount, hlink.stores⟩ <;> rw [he] <;> rfl
    refine ⟨fun ht => ⟨_, ?_, hfailed⟩, fun ht => ⟨_, ?_, hfailed⟩, fun ht => ⟨_, ?_, hfailed⟩⟩
    · rw [exec_idle, receiveFlit_tag hup hcrc hopen ht (by decide), hlink.streamAfter hs]
    · rw [exec_data, receiveFlit_tag hup hcrc hopen ht (by decide), hlink.streamAfter hs]
    · rw [exec_nak, receiveFlit_tag hup hcrc hopen ht (by decide), hlink.streamAfter hs]
  · intro k r hk hsends htime
    obtain ⟨t, hexec, hres, hkept, hcount, hregs, hstep⟩ := retryTimer_holds hp hs hup hk hsends htime
    exact ⟨t, hexec, hres, hkept, hcount, hstep.others, hregs, hstep.work⟩
  · intro w m hw hm h2 hnew
    obtain ⟨t, hexec, hport, hirq, hregs, hstep⟩ := widthBlock_holds hp hs hup hw hm h2 hnew
    exact ⟨t, hexec, by rw [hport], by rw [hport], by rw [hport]; exact hup, hirq, hstep.others, hregs, hstep.work⟩
  · intro k sh u hctr hupd hslot hn
    obtain ⟨hsess, hpend, hlink⟩ := linkRekey_holds hup hupd hslot hn
    refine ⟨linkRekey p s, ?_, session_proj (·.upd) (fun _ => rfl) hsess, session_proj (·.eph) (fun _ => rfl) hsess, hpend, hlink.stores⟩
    change execRekeyTrigger p s = _
    unfold execRekeyTrigger; dsimp only
    rw [if_pos hctr]
  · intro hctr hi
    obtain ⟨e, he⟩ := upLeft_port p 0x080C s
    refine ⟨_, nonceEnd_holds hs hup hi hctr, ?_, ?_, ?_, ?_, upLeft_irq p _ s, (linkStep_upLeft hi p _).stores⟩ <;> rw [he] <;> rfl

end Sys2Proof.Machine
end

section
/-! The blocks that a flit takes (R222, R262). -/

namespace Sys2Proof.Machine

variable {s t u : State} {p : Nat}

/-- At least `n` things more are sent. -/
def sentMore (n : Nat) (s t : State) : Prop := s.outbox.length + n ≤ t.outbox.length

theorem sentMore_trans {m n : Nat} (h : sentMore m s t) (k : sentMore n t u) : sentMore (m + n) s u := by unfold sentMore at *; omega
/-- Each step of a fold sends `n` things more. -/
theorem sentMore_foldl {β : Type} {g : State → β → State} {n : Nat} (hg : ∀ t b, sentMore n t (g t b)) (l : List β) (s : State) :
    sentMore (n * l.length) s (l.foldl g s) := by
  induction l generalizing s with
  | nil => exact Nat.le_refl _
  | cons b l ih =>
    rw [List.length_cons, Nat.mul_succ, Nat.add_comm, List.foldl_cons]
    exact sentMore_trans (hg s b) (ih _)

theorem sentMore_txPass (f : TxForm) (g k : Nat) (s : State) : sentMore 0 s (txPass f g k s) := by
  have hmark : ∀ (u : State) (_ : Nat), sentMore 0 u (sendMarkers f u) := fun u _ => by
    have h := sentMore_foldl (n := 0) (g := fun t (x : Nat × Nat) =>
      if f.fmt = 1 then
        let b := takeFree 8 t
        send (.block x.1 2 (ieeeMarker x.2 b.1)) b.2
      else send (.block x.1 2 (rytisMarker x.2 f.mark)) t) (fun t x => by split <;> exact Nat.le_succ _) f.lanes.zipIdx u
    rw [Nat.zero_mul] at h; exact h
  unfold txPass; dsimp only
  split
  · exact Nat.le_refl _
  · have h := sentMore_foldl hmark (List.range ((txIndex s g + k) / txSpan f)) s
    rw [Nat.zero_mul] at h; exact h
theorem sentMore_sendBlock (f : TxForm) (g : Nat) (s : State) (b : Block) : sentMore 1 s (sendBlock f g s b) :=
  sentMore_trans (m := 1) (n := 0) (Nat.le_refl _) (sentMore_txPass ..)

theorem dataBlocks_length (n : Nat) (bs : List Byte) (h : bs.length / 8 < n) : (dataBlocks n bs).length = bs.length / 8 + 1 := by
  induction n generalizing bs with
  | zero => omega
  | succ n ih =>
    unfold dataBlocks
    split
    · rw [List.length_singleton]; omega
    · rw [List.length_cons, ih _ (by rw [List.length_drop]; omega), List.length_drop]; omega

/-- A flit goes out as 34 blocks. -/
theorem sentMore_putFlit (p : Nat) (f : BitVec 2048) (s : State) : sentMore 34 s (putFlit p f s) := by
  have h := sentMore_foldl (sentMore_sendBlock (enrTx s p) (4 * enrQuadOf s p)) (frameBlocks (toBytes 256 f)) s
  have hlen : (frameBlocks (toBytes 256 f)).length = 34 := by
    rw [frameBlocks, List.length_cons, dataBlocks_length _ _ (Nat.lt_succ_self _), toBytes_length]
  rw [hlen] at h
  exact h
/-- A message in the clear takes a flit for every 228 bytes. -/
theorem sentMore_sendPlain (p typ : Nat) (m : List Byte) (s : State) : sentMore (34 * ((m.length + 227) / 228)) s (sendPlain p typ m s) := by
  have h := sentMore_foldl (n := 34) (g := fun t i => putFlit p (mkFlit (flitHeader typ 0 0 0 0xFFFF 0 0 0) ((m.drop (228 * i)).take 228) []) t)
    (fun t i => sentMore_putFlit ..) (List.range ((m.length + 227) / 228)) s
  rw [List.length_range] at h; exact h
theorem sentMore_setEnrPort {n : Nat} {e : EnrPort} (h : sentMore n (setEnrPort p e s) t) : sentMore n s t := h
/-- A flit under a key takes its blocks too. -/
theorem sentMore_sendFlit (typ vc seq ack : Nat) (pl : List Byte)
    (h : (keySlot (enrPort s p) (enrPort s p).slot).keys.isSome = true) : sentMore 34 s (sendFlit p typ vc seq ack pl s) := by
  obtain ⟨ks, hk⟩ := Option.isSome_iff_exists.1 h
  unfold sendFlit; dsimp only
  rw [hk]
  exact sentMore_setEnrPort (sentMore_putFlit ..)

-- What a plaintext message and a flit leave

theorem sendPlain_keeps (p typ : Nat) (m : List Byte) (s : State) : onlySent s (sendPlain p typ m s) ∧ (sendPlain p typ m s).enr = s.enr := by
  unfold sendPlain
  refine List.foldlRecOn (motive := fun v : State => onlySent s v ∧ v.enr = s.enr) _ _ ⟨onlySent_refl s, rfl⟩ fun v hv _ _ => ?_
  exact ⟨onlySent_putFlit hv.1 _ _, (putFlit_enr ..).trans hv.2⟩

/-- The key slot that is not in use stays as it is. -/
theorem sendFlit_otherSlot (p typ vc seq ack : Nat) (pl : List Byte) (s : State) :
    keySlot (enrPort (sendFlit p typ vc seq ack pl s) p) (!(enrPort s p).slot) = keySlot (enrPort s p) (!(enrPort s p).slot) := by
  have hslot : ∀ (e : EnrPort) b k, keySlot (setKeySlot e b k) (!b) = keySlot e (!b) := fun e b k => by cases b <;> rfl
  have hchan : ∀ (e : EnrPort) v c, (setChan e v c).slot = e.slot := fun e v c => session_proj (·.slot) (fun _ => rfl) (session_setChan v c)
  unfold sendFlit; dsimp only; split
  · rfl
  · rw [enrPort_congr (putFlit_enr ..), enrPort_setEnrPort_same, hchan, hslot, keySlot_setChan]

end Sys2Proof.Machine
end

section
/-! HELLO, KEYSHARE and FINISHED (R266 to R268). -/

namespace Sys2Proof.Machine

variable {s t u : State} {p : Nat} {f : BitVec 2048}

-- What the handshake reads of the state

/-- The keys and the draws of the root of trust do not read the ports. -/
theorem newShare_updPort (w : EnrPort → EnrPort) (x : List Byte) {r : Option (BitVec 384 × List Byte)} (h : newShare s x = (r, u)) :
    newShare (updPort p w s) x = (r, updPort p w u) := by
  have hdraw : drawBytes 14 (updPort p w s) = ((drawBytes 14 s).1, updPort p w (drawBytes 14 s).2) := by
    have hcond : ((updPort p w s).sec.drbgFail || !(updPort p w s).sec.seeded || sealed (updPort p w s))
      = (s.sec.drbgFail || !s.sec.seeded || sealed s) := rfl
    unfold drawBytes
    rw [hcond]
    split <;> rfl
  have hkey : attestKey (updPort p w (drawBytes 14 s).2) = attestKey (drawBytes 14 s).2 := rfl
  unfold newShare at h ⊢
  rw [hdraw]; dsimp only at h ⊢
  rw [hkey]
  split at h <;> (obtain ⟨rfl, rfl⟩ := Prod.mk.inj h; rfl)
theorem shareOk_updPort (w : EnrPort → EnrPort) (x y : List Byte) : shareOk (updPort p w s) x y = shareOk s x y := rfl
theorem epochKeys_updPort (w : EnrPort → EnrPort) (e : EnrPort) (k : BitVec 384) (x y : List Byte) (n : Nat) :
    epochKeys (updPort p w s) e k x y n = epochKeys s e k x y n := rfl
theorem helloScript_updPort (w : EnrPort → EnrPort) (e : EnrPort) : helloScript (updPort p w s) e = helloScript s e := rfl
theorem transcript_updPort (w : EnrPort → EnrPort) (e : EnrPort) : transcript (updPort p w s) e = transcript s e := rfl

-- A port that goes to FAULT (R266)

theorem toFault_keeps (p c : Nat) (s : State) : PortStep p s (toFault p c s) ∧ (toFault p c s).regs = s.regs :=
  ⟨.updPort p _ s, rfl⟩
theorem toFault_port (p c : Nat) (s : State) :
    (enrPort (toFault p c s) p).st = .fault ∧ (enrPort (toFault p c s) p).cause = BitVec.ofNat 16 c := by
  unfold toFault
  rw [enrPort_updPort_same]
  exact ⟨rfl, rfl⟩

/-- A failing check takes the port to FAULT with an alarm. -/
theorem faultAlarm_holds (c : Nat) (hs : PortStep p s t) (hr : ∀ o, o < 0x1000 → rd t (at' pgSEC o) = rd s (at' pgSEC o))
    (ha : (s.sec.alarms.event).activeNow 3 3 8 = false) :
    (enrPort (secAlarm c (toFault p c t)) p).st = .fault ∧ (enrPort (secAlarm c (toFault p c t)) p).cause = BitVec.ofNat 16 c
      ∧ rdF (secAlarm c (toFault p c t)) (at' pgSEC 0x4C) 0 16 = satAdd (rdF s (at' pgSEC 0x4C) 0 16) 1 65535
      ∧ storesKept s (secAlarm c (toFault p c t)) := by
  obtain ⟨hfault, hregs⟩ := toFault_keeps p c t
  obtain ⟨hst, hcause⟩ := toFault_port p c t
  generalize toFault p c t = v at *
  have hv := hs.trans hfault
  rw [secAlarm_unsealed c (by rw [onlyWork_sec hv.work]; exact ha)]
  have henr := enrPort_congr (alarmNoted_enr c v) p
  refine ⟨by rw [henr, hst], by rw [henr, hcause], ?_, (hv.link.trans (linkStep_alarmNoted c v)).stores⟩
  rw [alarmNoted_count, rdF, rd_congr hregs, hr _ (by decide), ← rdF]

-- HELLO (R266, R267)

/-- A port that hears a HELLO acts on it. -/
theorem hello_taken (hcrc : flitCrcOk f = true) (hst : (enrPort s p).st = .hello) (hh : (enrPort s p).hello ≠ []) (ht : flitType f = 8) :
    exec (.hello p f) s = .next (takeHello p ((flitPayload f).take 36) s) := by
  change execHello p f s = _
  unfold execHello
  rw [if_neg (by simp [hst, hh]), hcrc, if_neg (by decide), if_pos ht]

/-- A HELLO that fails a check. -/
theorem takeHello_refused (hp : p < 7) {h : List Byte} {c : Nat} (hc : helloCheck s p h = some c) :
    (enrPort (takeHello p h s) p).st = .fault ∧ (enrPort (takeHello p h s) p).cause = BitVec.ofNat 16 c
      ∧ rdB (takeHello p h s) (irqA (pgENR p)) 0 = true ∧ regsBut [irqA (pgENR p)] s (takeHello p h s) ∧ PortStep p s (takeHello p h s) := by
  have heq : takeHello p h s = setIrq (pgENR p) 0 (toFault p c s) := by unfold takeHello; rw [hc]
  obtain ⟨hfault, hregs⟩ := toFault_keeps p c s
  obtain ⟨hst, hcause⟩ := toFault_port p c s
  rw [heq]
  generalize toFault p c s = v at *
  have henr := enrPort_congr (setIrq_enr (s := v) (pgENR p) 0) p
  exact ⟨by rw [henr, hst], by rw [henr, hcause], rdB_setIrq_same _ _ _ (by decide), regsBut_setIrq (regsBut_of_regs hregs) (by simp) 0,
    hfault.trans (.setIrq hp 0 v)⟩

/-- The port that has taken its peer's HELLO. -/
def portGreeted (h : List Byte) (e : EnrPort) : EnrPort :=
  { e with st := .keyx, peer := BitVec.ofNat 3 (leField h 0 1), peerPort := BitVec.ofNat 3 (leField h 1 1), peerHello := h, peerShare := [] }

/-- What a port sends once it has drawn its KEYSHARE. -/
def shareAnswer (p : Nat) (r : Option (BitVec 384 × List Byte) × State) : State :=
  match r.1 with
  | some (k, sh) => sendPlain p 9 sh (updPort p (fun e => { e with eph := k, share := sh }) r.2)
  | none => r.2

/-- A HELLO that passes is answered with this side's KEYSHARE. -/
theorem takeHello_answered {h : List Byte} (hc : helloCheck s p h = none) {k : BitVec 384} {sh : List Byte}
    (hn : newShare s (if devIndex s < (BitVec.ofNat 3 (leField h 0 1)).toNat then (enrPort s p).hello ++ h else h ++ (enrPort s p).hello)
      = (some (k, sh), u)) :
    enrPort (takeHello p h s) p = { portGreeted h (enrPort s p) with eph := k, share := sh }
      ∧ sentMore (34 * ((sh.length + 227) / 228)) u (takeHello p h s) ∧ LinkStep s (takeHello p h s) := by
  obtain ⟨n, hu⟩ := newShare_drawn hn
  have henr : u.enr = s.enr := by rw [hu]; rfl
  have hlink : LinkStep s u := by rw [hu]; exact linkStep_drawn n s
  have hport : enrPort (updPort p (portGreeted h) s) p = portGreeted h (enrPort s p) := enrPort_updPort_same ..
  have hscript : helloScript (updPort p (portGreeted h) s) (enrPort (updPort p (portGreeted h) s) p)
      = (if devIndex s < (BitVec.ofNat 3 (leField h 0 1)).toNat then (enrPort s p).hello ++ h else h ++ (enrPort s p).hello) := by
    rw [hport, helloScript_updPort]; rfl
  have hshare := newShare_updPort (portGreeted h) _ hn (p := p)
  rw [← hscript] at hshare
  have heq : takeHello p h s = shareAnswer p (newShare (updPort p (portGreeted h) s) (helloScript (updPort p (portGreeted h) s)
      (enrPort (updPort p (portGreeted h) s) p))) := by
    unfold takeHello; rw [hc]; rfl
  rw [hshare, shareAnswer] at heq; dsimp only at heq
  obtain ⟨hsent, hsenr⟩ := sendPlain_keeps p 9 sh (updPort p (fun e => { e with eph := k, share := sh }) (updPort p (portGreeted h) u))
  have hmore := sentMore_sendPlain p 9 sh (updPort p (fun e => { e with eph := k, share := sh }) (updPort p (portGreeted h) u))
  rw [← heq] at hsent hsenr hmore
  refine ⟨?_, sentMore_setEnrPort (sentMore_setEnrPort hmore), ((hlink.updPort p _).updPort p _).sent hsent⟩
  rw [enrPort_congr hsenr, enrPort_updPort_same, enrPort_updPort_same, enrPort_congr henr]

-- KEYSHARE (R266 to R268)

/-- The state with a peer's bytes of its KEYSHARE. -/
def shareHeard (p : Nat) (b : List Byte) (s : State) : State := updPort p (fun e => { e with peerShare := b }) s

theorem shareHeard_port (p : Nat) (b : List Byte) (s : State) : enrPort (shareHeard p b s) p = { enrPort s p with peerShare := b } :=
  enrPort_updPort_same ..
theorem keyshare_taken (hcrc : flitCrcOk f = true) (hst : (enrPort s p).st = .keyx) (ht : flitType f = 9) {b : List Byte}
    (hb : b = shareCut ((enrPort s p).peerShare ++ flitPayload f)) :
    exec (.keyshare p f) s = .next (if b.length < shareSize b then shareHeard p b s else takeShare p (shareHeard p b s)) := by
  have hexec : exec (.keyshare p f) s = .next (if (enrPort (shareHeard p b s) p).peerShare.length < shareSize (enrPort (shareHeard p b s) p).peerShare
      then shareHeard p b s else takeShare p (shareHeard p b s)) := by
    change execKeyshare p f s = _
    unfold execKeyshare
    rw [if_neg (by simp [hst]), hcrc, if_neg (by decide), if_pos ht, hb]; rfl
  rw [hexec, shareHeard_port]

/-- The port that has the keys of epoch 0. -/
def portKeyed (ks : Option KeySet) (e : EnrPort) : EnrPort :=
  { e with st := .confirm, slot := false, epoch := 0, slot0 := ⟨ks, 0, none⟩, slot1 := KeySlot.zero }

/-- FINISHED over the transcript goes out. -/
def finishedSent (p : Nat) (e : EnrPort) (s : State) : State := sendFlit p 10 0 0 0xFFFF (hashBytes (transcript s e)) s

/-- A KEYSHARE that verifies makes the keys of epoch 0, and FINISHED is sent under them. -/
theorem takeShare_verified {e : EnrPort} (he : enrPort t p = e) (hok : shareOk t (helloScript t e) e.peerShare = true)
    (hne : e.share ≠ []) {ks : Option KeySet} (hks : ks = epochKeys t e e.eph e.peerShare (transcript t e) 0) :
    (enrPort (takeShare p t) p).sender = (portKeyed ks e).sender ∧ (enrPort (takeShare p t) p).slot1 = KeySlot.zero
      ∧ (ks.isSome = true → sentMore 34 t (takeShare p t)) ∧ onlySent t (takeShare p t) := by
  have hport : enrPort (updPort p (portKeyed ks) t) p = portKeyed ks e := by rw [enrPort_updPort_same, he]
  have heq : takeShare p t = finishedSent p e (updPort p (portKeyed ks) t) := by
    unfold takeShare
    rw [he]; dsimp only
    rw [hok, if_neg (by decide), if_neg hne, ← hks]; rfl
  have hupd := onlySent_updPort (onlySent_refl t) p (portKeyed ks)
  have hmore : sentMore 0 t (updPort p (portKeyed ks) t) := Nat.le_refl _
  generalize updPort p (portKeyed ks) t = x at *
  have hsend := sender_sendFlit p 10 0 0 0xFFFF (hashBytes (transcript x e)) x
  have hother := sendFlit_otherSlot p 10 0 0 0xFFFF (hashBytes (transcript x e)) x
  rw [heq]
  rw [hport] at hsend hother
  exact ⟨hsend, hother, fun h => sentMore_trans hmore (sentMore_sendFlit _ _ _ _ _ (by rw [hport]; exact h)), onlySent_sendFlit hupd ..⟩

-- FINISHED (R266, R272)

theorem rearmEmpty_regs (s : State) : (rearmEmpty s).regs = s.regs ∧ (rearmEmpty s).mem = s.mem := by
  unfold rearmEmpty
  refine List.foldlRecOn (motive := fun v : State => v.regs = s.regs ∧ v.mem = s.mem) _ _ ⟨rfl, rfl⟩ fun v hv q _ => ?_
  split
  · refine ⟨(setFlowDyn_regs ..).trans hv.1, Eq.trans ?_ hv.2⟩
    unfold setFlowDyn; dsimp only
    split <;> split <;> rfl
  · exact hv

/-- The port that goes UP. -/
def portRisen (e : EnrPort) : EnrPort :=
  { e with
    st := .up, seqTx := 0, seqRx := 0, acked := none, nakSent := false, resend := false, kept := [], lanes := 0xF, narrow := none
    vc0 := freshChan 0 e.vc0, vc1 := freshChan 1 e.vc1, vc2 := freshChan 2 e.vc2, vc3 := freshChan 3 e.vc3 }

theorem portRisen_credits (e : EnrPort) (v : Nat) (hv : v < 4) : (chan (portRisen e) v).credits = vcCredits v := by
  match v, hv with
  | 0, _ | 1, _ | 2, _ | 3, _ => rfl

theorem goUp_keeps (hp : p < 7) (s : State) : enrPort (goUp p s) p = portRisen (enrPort s p) ∧ rdB (goUp p s) (irqA (pgENR p)) 0 = true
    ∧ regsBut [irqA (pgENR p)] s (goUp p s) ∧ PortStep p s (goUp p s) := by
  have hport : enrPort (updPort p portRisen s) p = portRisen (enrPort s p) := enrPort_updPort_same ..
  have hstep := (PortStep.updPort p portRisen s).trans (.setIrq hp 0 _)
  have hregs : regsBut [irqA (pgENR p)] s (updPort p portRisen s) := regsBut_refl _ s
  have hirq := rdB_setIrq_same (updPort p portRisen s) (pgENR p) 0 (by decide)
  have henr := setIrq_enr (s := updPort p portRisen s) (pgENR p) 0
  have hall := regsBut_setIrq hregs (p := pgENR p) (by simp) 0
  rw [show goUp p s = rearmEmpty (setIrq (pgENR p) 0 (updPort p portRisen s)) from rfl]
  generalize setIrq (pgENR p) 0 (updPort p portRisen s) = v at *
  obtain ⟨hrenr, -, -⟩ := rearmEmpty_keeps v
  obtain ⟨hrregs, hrmem⟩ := rearmEmpty_regs v
  refine ⟨by rw [enrPort_congr hrenr, enrPort_congr henr, hport], by rw [rdB, rd_congr hrregs]; exact hirq,
    regsBut_trans hall (regsBut_of_regs hrregs), hstep.trans (.of_work (onlyWork_rearmEmpty (onlyWork_refl v)) hrenr (by rw [hrmem]))⟩

theorem finished_taken (hcrc : flitCrcOk f = true) (hst : (enrPort s p).st = .confirm) (ht : flitType f = 10) :
    exec (.finished p f) s = .next (takeFinished p f s) := by
  change execFinished p f s = _
  unfold execFinished
  rw [if_neg (by simp [hst]), hcrc, if_neg (by decide), if_pos ht]

/-- A FINISHED over the transcript takes the port UP. -/
theorem takeFinished_up (hp : p < 7) {c : Nat} {pl : List Byte} (ho : openFlit (enrPort s p) f = some (c, pl))
    (hpl : pl.take 48 = hashBytes (transcript s (enrPort s p))) :
    enrPort (takeFinished p f s) p = portRisen { enrPort s p with slot0 := { (enrPort s p).slot0 with rxLast := some c } }
      ∧ rdB (takeFinished p f s) (irqA (pgENR p)) 0 = true ∧ regsBut [irqA (pgENR p)] s (takeFinished p f s)
      ∧ PortStep p s (takeFinished p f s) := by
  have heq : takeFinished p f s = goUp p (updPort p (fun x => { x with slot0 := { x.slot0 with rxLast := some c } }) s) := by
    unfold takeFinished; dsimp only
    rw [ho]; dsimp only
    rw [if_pos hpl]
  have hport : enrPort (updPort p (fun x => { x with slot0 := { x.slot0 with rxLast := some c } }) s) p = _ := enrPort_updPort_same ..
  have hregs : regsBut [irqA (pgENR p)] s (updPort p (fun x => { x with slot0 := { x.slot0 with rxLast := some c } }) s) := regsBut_refl _ s
  have hstep := PortStep.updPort p (fun x => { x with slot0 := { x.slot0 with rxLast := some c } }) s
  obtain ⟨hup, hirq, hall, hgo⟩ := goUp_keeps hp (updPort p (fun x => { x with slot0 := { x.slot0 with rxLast := some c } }) s)
  rw [heq]
  exact ⟨hup.trans (by rw [hport]), hirq, regsBut_trans hregs hall, hstep.trans hgo⟩

/-- Any other FINISHED takes it to FAULT: one that fails its tag is counted too. -/
theorem takeFinished_fails (hp : p < 7)
    (h : ∀ c pl, openFlit (enrPort s p) f = some (c, pl) → pl.take 48 ≠ hashBytes (transcript s (enrPort s p))) :
    ∃ v, takeFinished p f s = secAlarm 0x0808 (toFault p 0x0808 v) ∧ PortStep p s v
      ∧ ∀ o, o < 0x1000 → rd v (at' pgSEC o) = rd s (at' pgSEC o) := by
  unfold takeFinished; dsimp only
  cases ho : openFlit (enrPort s p) f with
  | none => exact ⟨authFail p s, rfl, authFail_step hp s, fun o ho => rd_sec_authFail hp ho s⟩
  | some x => exact ⟨s, if_neg (h x.1 x.2 ho), .refl p s, fun _ _ => rfl⟩

/-- Settles O37, message by message. -/
theorem enrusHandshake : Obligations.EnrusHandshake := by
  unfold Obligations.EnrusHandshake
  intro p f s hp hcrc
  refine ⟨fun hst hh ht h hdef => ?_, fun hst ht b e hb he => ?_, fun hst ht => ?_⟩
  · have hexec := hello_taken hcrc hst hh ht
    rw [← hdef] at hexec
    refine ⟨fun c hc => ?_, fun k sh u hc hn => ?_⟩
    · obtain ⟨hfault, hcause, hirq, hregs, hstep⟩ := takeHello_refused hp hc
      exact ⟨_, hexec, hfault, hcause, hirq, hregs, hstep.work⟩
    · obtain ⟨hport, hmore, hlink⟩ := takeHello_answered hc hn
      refine ⟨_, hexec, ?_, ?_, ?_, ?_, ?_, ?_, hmore, hlink.stores⟩ <;> rw [hport] <;> rfl
  · have hexec := keyshare_taken hcrc hst ht hb
    have hport : enrPort (shareHeard p b s) p = e := by rw [he]; exact shareHeard_port p b s
    have hstep : PortStep p s (shareHeard p b s) := .updPort p _ s
    have hbytes : e.peerShare = b := by rw [he]
    have hscript : helloScript (shareHeard p b s) e = helloScript s e := helloScript_updPort ..
    have hok : shareOk (shareHeard p b s) (helloScript (shareHeard p b s) e) e.peerShare = shareOk s (helloScript s e) b := by
      rw [hbytes, hscript]; exact shareOk_updPort ..
    refine ⟨fun hlt => ?_, fun hle hv hne => ?_, fun hle hv ha => ?_⟩
    · rw [if_pos hlt] at hexec
      exact ⟨_, hexec, hport, hstep.others, rfl⟩
    · rw [if_neg (by omega)] at hexec
      have hks : epochKeys s e e.eph b (transcript s e) 0
          = epochKeys (shareHeard p b s) e e.eph e.peerShare (transcript (shareHeard p b s) e) 0 := by
        rw [hbytes, show transcript (shareHeard p b s) e = transcript s e from transcript_updPort ..]
        exact (epochKeys_updPort ..).symm
      obtain ⟨hsend, hslot1, hmore, hsent⟩ := takeShare_verified hport (hok.trans hv) hne hks
      have hsess := session_of_sender hsend
      refine ⟨_, hexec, session_st hsess, session_keys hsess false, session_proj (·.slot) (fun _ => rfl) hsess,
        session_proj (·.epoch) (fun _ => rfl) hsess, hslot1, fun h => sentMore_setEnrPort (hmore h), onlySent_trans ?_ hsent⟩
      exact onlySent_updPort (onlySent_refl s) p _
    · rw [if_neg (by omega)] at hexec
      obtain ⟨hfault, hcause, hcount, hstores⟩ := faultAlarm_holds 0x0807 hstep (fun _ _ => rfl) ha
      refine ⟨_, hexec, ?_⟩
      have heq : takeShare p (shareHeard p b s) = secAlarm 0x0807 (toFault p 0x0807 (shareHeard p b s)) := by
        unfold takeShare
        rw [hport]; dsimp only
        rw [hok, hv, if_pos (by decide)]
      rw [heq]
      exact ⟨hfault, hcause, hcount, hstores⟩
  · have hexec := finished_taken hcrc hst ht
    refine ⟨fun c pl ho hpl => ?_, fun hbad ha => ?_⟩
    · obtain ⟨hport, hirq, hregs, hstep⟩ := takeFinished_up hp ho hpl
      refine ⟨_, hexec, ?_, ?_, ?_, ?_, ?_, ?_, ?_, fun v hv => by rw [hport]; exact portRisen_credits _ v hv, hirq, hstep.others, hregs,
        hstep.work⟩ <;> rw [hport] <;> rfl
    · obtain ⟨v, heq, hstep, hsec⟩ := takeFinished_fails hp hbad
      rw [heq] at hexec
      exact ⟨_, hexec, faultAlarm_holds 0x0808 hstep hsec ha⟩

end Sys2Proof.Machine
end

section
/-! ENR_CTRL, RETRAIN and REKEY, and the timeouts of training and of the handshake (R260, R266, R274). -/

namespace Sys2Proof.Machine

variable {s t u : State} {p q : Nat}

-- The lanes of a quad

/-- A fold that writes one lane after the other. -/
theorem laneOf_foldl {g : State → Nat → State} {v : Lane} (hg : ∀ t l j, laneOf (g t l) j = if j = l then v else laneOf t j) (ls : List Nat)
    (s : State) (j : Nat) : laneOf (ls.foldl g s) j = if j ∈ ls then v else laneOf s j := by
  induction ls generalizing s with
  | nil => simp
  | cons l ls ih =>
    rw [List.foldl_cons, ih, hg]
    by_cases hj : j ∈ ls
    · rw [if_pos hj, if_pos (List.mem_cons_of_mem l hj)]
    · rw [if_neg hj]
      exact if_congr (by simp [hj]) rfl rfl

/-- Nothing but lanes and registers differs. -/
def onlyTuned (s t : State) : Prop := { t with regs := s.regs, lan := s.lan } = s

theorem onlyTuned_refl (s : State) : onlyTuned s s := rfl
theorem onlyTuned_trans (h : onlyTuned s t) (k : onlyTuned t u) : onlyTuned s u := by
  unfold onlyTuned at *
  rw [← h, ← k]
theorem onlyTuned_wr (h : onlyTuned s t) (a : Nat) (v : Reg) : onlyTuned s (wr a v t) := h
theorem onlyTuned_lan (h : onlyTuned s t) (x : Lanes) : onlyTuned s { t with lan := x } := h
theorem onlyTuned_setLane (h : onlyTuned s t) (l : Nat) (v : Lane) : onlyTuned s (setLane l v t) := h
theorem onlyTuned_enr (h : onlyTuned s t) : t.enr = s.enr := congrArg (·.enr) h
theorem onlyTuned_hst (h : onlyTuned s t) : t.hst = s.hst := congrArg (·.hst) h
theorem onlyTuned_link (h : onlyTuned s t) : LinkStep s t := by
  have he : t.enr = s.enr := onlyTuned_enr h
  have hm : t.mem = s.mem := congrArg (·.mem) h
  refine ⟨?_, by rw [hm], fun b hb => ⟨b, he ▸ hb, rfl⟩⟩
  unfold onlyTuned at h
  rw [← h]

/-- A register that is none of those of the lanes' equalisers in a quad. -/
def noDetail (q a : Nat) : Prop := ∀ l ∈ quadLanes q, ∀ k, k < 0x200 → a ≠ detailA l k

/-- A register in the lower half of a page is no equaliser's. -/
theorem noDetail_low {r o : Nat} (ho : o < 0x800) : noDetail q (at' r o) := by
  intro l _ k hk
  unfold detailA at'
  omega

/-- A lane of a port at its rate. -/
def tunedLane (slow : Bool) : Lane := { Lane.zero with rung0 := enrRung0 slow, rung1 := enrRung1 }
/-- One lane of a port restarts with a setting. -/
def laneRetuned (v : Lane) (s : State) (l : Nat) : State := restartAdapt l (setTxIndex l 0 (setLane l v s))

theorem laneRetuned_keeps (v : Lane) (s : State) (l : Nat) :
    onlyTuned s (laneRetuned v s l) ∧ ∀ a, (∀ k, k < 0x200 → a ≠ detailA l k) → rd (laneRetuned v s l) a = rd s a := by
  refine ⟨?_, fun a ha => ?_⟩ <;> unfold laneRetuned restartAdapt
  · exact onlyTuned_wr (onlyTuned_wr (onlyTuned_wr (onlyTuned_lan (onlyTuned_setLane (onlyTuned_refl s) _ _) _) _ _) _ _) _ _
  · rw [rd_wr_other _ (ha _ (by decide)), rd_wr_other _ (ha _ (by decide)), rd_wr_other _ (ha _ (by decide))]; rfl
theorem laneOf_laneRetuned (v : Lane) (s : State) (l j : Nat) : laneOf (laneRetuned v s l) j = if j = l then v else laneOf s j := by
  unfold laneRetuned restartAdapt
  rw [laneOf_wr, laneOf_wr, laneOf_wr, laneOf_of_lanes (t := setTxIndex l 0 (setLane l v s)) (s := setLane l v s) rfl, laneOf_setLane]

/-- The lanes of a quad restart at a rate; nothing else changes but their equalisers' registers. -/
theorem retuneLanes_keeps (q : Nat) (slow : Bool) (s : State) :
    onlyTuned s (retuneLanes q slow s) ∧ (∀ a, noDetail q a → rd (retuneLanes q slow s) a = rd s a)
      ∧ ∀ l ∈ quadLanes q, laneOf (retuneLanes q slow s) l = tunedLane slow := by
  have heq : retuneLanes q slow s = (quadLanes q).foldl (laneRetuned (tunedLane slow)) s := rfl
  rw [heq]
  have hfold := (quadLanes q).foldlRecOn (motive := fun t => onlyTuned s t ∧ ∀ a, noDetail q a → rd t a = rd s a) (laneRetuned (tunedLane slow))
    ⟨onlyTuned_refl s, fun _ _ => rfl⟩ fun t ht l hl =>
      ⟨onlyTuned_trans ht.1 (laneRetuned_keeps _ t l).1, fun a ha => ((laneRetuned_keeps _ t l).2 a (ha l hl)).trans (ht.2 a ha)⟩
  exact ⟨hfold.1, hfold.2, fun l hl => by rw [laneOf_foldl (laneOf_laneRetuned _), if_pos hl]⟩

theorem idleLanes_keeps (q : Nat) (s : State) :
    onlyTuned s (idleLanes q s) ∧ (idleLanes q s).regs = s.regs ∧ ∀ l ∈ quadLanes q, laneOf (idleLanes q s) l = Lane.zero := by
  have hfold := (quadLanes q).foldlRecOn (motive := fun t => onlyTuned s t ∧ t.regs = s.regs) (fun t l => setLane l .zero t)
    ⟨onlyTuned_refl s, rfl⟩ fun t ht l _ => ⟨onlyTuned_setLane ht.1 _ _, ht.2⟩
  exact ⟨hfold.1, hfold.2, fun l hl => by unfold idleLanes; rw [laneOf_foldl (fun t l j => laneOf_setLane l j _ t), if_pos hl]⟩

-- Claims

theorem LinkStep.withHst (h : LinkStep s t) (f : HostIf → HostIf) : LinkStep s (withHst f t) := ⟨h.only, h.rows, h.bcast⟩

theorem LinkStep.release (h : LinkStep s t) (r q : Nat) : LinkStep s (release r q t) := h.withHst _

/-- A page that has released a resource does not hold it (R496). -/
theorem holderOf_release_ne (r p : Nat) (s : State) : holderOf (release r p s) r ≠ some p := by
  intro h
  obtain ⟨x, hx, hxp⟩ := Option.map_eq_some_iff.1 h
  have hmem := List.mem_of_find?_eq_some hx
  have hr : x.1.toNat = r := by simpa using List.find?_some hx
  have hf := (List.mem_filter.1 hmem).2
  simp [hr, hxp] at hf

-- A port that goes DOWN (R266)

theorem linkReg_ctrl (hp : p < 7) : linkReg (enrCtrlA p) = false := linkReg_enr hp (by decide)
theorem noDetail_ctrl (p q : Nat) : noDetail q (enrCtrlA p) := noDetail_low (by decide)

/-- The port that is DOWN. -/
def portDown (e : EnrPort) : EnrPort := { e.restart .down with slow := false, fails := 0 }

theorem toDown_keeps (hp : p < 7) (hi : s.cfc.eng0.st = .idle) :
    (enrPort (toDown p s) p).st = .down ∧ LinkStep s (toDown p s) ∧ regsWithin linkReg s (toDown p s)
      ∧ ((enrPort s p).st ≠ .down → (∃ e, enrPort (toDown p s) p = portDown e)
          ∧ ∀ l ∈ quadLanes (enrQuadOf s p), laneOf (toDown p s) l = Lane.zero) := by
  by_cases hd : (enrPort s p).st = .down
  · have heq : toDown p s = s := by unfold toDown; exact if_pos hd
    rw [heq]
    exact ⟨hd, .refl s, regsWithin_refl _ s, fun h => absurd hd h⟩
  · have hmid : ∀ b : Bool, LinkStep s (if b then linkDown p s else s) ∧ regsWithin linkReg s (if b then linkDown p s else s) := fun b => by
      cases b
      · exact ⟨.refl s, regsWithin_refl _ s⟩
      · exact (linkDown_keeps hi p).2
    obtain ⟨hlink, hregs⟩ := hmid (decide ((enrPort s p).st = .up))
    have heq : toDown p s = idleLanes (enrQuadOf (if decide ((enrPort s p).st = .up) then linkDown p s else s) p)
        (updPort p portDown (if decide ((enrPort s p).st = .up) then linkDown p s else s)) := by
      unfold toDown; dsimp only
      rw [if_neg hd]
      by_cases hup : (enrPort s p).st = .up <;> simp only [hup, decide_true, decide_false, if_true, if_false] <;> rfl
    generalize (if decide ((enrPort s p).st = .up) then linkDown p s else s) = v at *
    have hquad : enrQuadOf v p = enrQuadOf s p := by unfold enrQuadOf rdF; rw [hregs _ (linkReg_ctrl hp)]
    rw [hquad] at heq
    have hport : enrPort (updPort p portDown v) p = portDown (enrPort v p) := enrPort_updPort_same ..
    have hupd := hlink.updPort p portDown
    have hrupd : regsWithin linkReg s (updPort p portDown v) := regsWithin_of_regs hregs rfl
    generalize updPort p portDown v = x at *
    obtain ⟨hidle, hiregs, hlanes⟩ := idleLanes_keeps (enrQuadOf s p) x
    rw [heq]
    have henr : enrPort (idleLanes (enrQuadOf s p) x) p = portDown (enrPort v p) := by rw [enrPort_congr (onlyTuned_enr hidle), hport]
    exact ⟨by rw [henr]; rfl, hupd.trans (onlyTuned_link hidle), regsWithin_of_regs hrupd hiregs, fun _ => ⟨⟨_, henr⟩, hlanes⟩⟩

-- ENR_CTRL (R260)

/-- A write of ENR_CTRL that leaves the quad and gives no command. -/
theorem enrCtrlWrite_taken (hr : reaches s (pgENR p) = true) (hg : gated s (pgENR p) = false) {v w : Reg}
    (hw : writtenValue s (enrCtrlA p) v = (w, false)) (hq : fld w 1 6 = enrQuadOf s p) (hcmd : fld v 16 2 = 0) :
    exec (.enrCtrlWrite p v) s = .next (streamAfter (enrEval p (wr (enrCtrlA p) w s))) := by
  change Host.Outcome.next (enrCtrlWrite p v s) = _
  unfold enrCtrlWrite
  rw [guarded_open hr hg]; dsimp only
  rw [hw]; dsimp only
  rw [if_pos hq, hcmd]; rfl

theorem enrQuadOf_wr {w : Reg} (hq : fld w 1 6 = enrQuadOf s p) : enrQuadOf (wr (enrCtrlA p) w s) p = enrQuadOf s p := by
  rw [← hq, enrQuadOf, rdF, rd_wr_same]
/-- The role of a quad stands, also where its QUAD_CFG is the ENR_CTRL of a port that runs. -/
theorem enrusQuad_wr {w : Reg} (q : Nat) (hwant : enrWanted (wr (enrCtrlA p) w s) p = true) (hq : enrusQuad s q = true) :
    enrusQuad (wr (enrCtrlA p) w s) q = true := by
  by_cases ha : quadCfgA q = enrCtrlA p
  · unfold enrWanted at hwant
    unfold enrusQuad
    rw [ha]
    exact (Bool.and_eq_true_iff.1 (Bool.and_eq_true_iff.1 hwant).1).1
  · unfold enrusQuad rdB at *
    rw [rd_wr_other s ha]; exact hq

/-- An enabled port on a free ENRUS quad claims it and trains. -/
theorem enrCtrl_enabled (hs : streamStill s) (hr : reaches s (pgENR p) = true) (hg : gated s (pgENR p) = false) {v w : Reg}
    (hw : writtenValue s (enrCtrlA p) v = (w, false)) (hq : fld w 1 6 = enrQuadOf s p) (hcmd : fld v 16 2 = 0)
    (hwant : enrWanted (wr (enrCtrlA p) w s) p = true) (hrole : enrusQuad s (enrQuadOf s p) = true) (hdown : (enrPort s p).st = .down)
    (hfree : holderOf s (0x4000 + enrQuadOf s p) = none) :
    ∃ t, exec (.enrCtrlWrite p v) s = .next t ∧ enrPort t p = (enrPort s p).restart .train
      ∧ holderOf t (0x4000 + enrQuadOf s p) = some (pgENR p) ∧ rd t (enrCtrlA p) = w
      ∧ (∀ l ∈ quadLanes (enrQuadOf s p), laneOf t l = tunedLane false) ∧ (∀ q, q ≠ p → enrPort t q = enrPort s q)
      ∧ LinkStep s t ∧ ∀ a, a ≠ enrCtrlA p → noDetail (enrQuadOf s p) a → rd t a = rd s a := by
  have hexec := enrCtrlWrite_taken hr hg hw hq hcmd
  have hquad := enrQuadOf_wr hq
  have hrole' := enrusQuad_wr _ hwant hrole
  have hfree' : holderOf (wr (enrCtrlA p) w s) (0x4000 + enrQuadOf s p) = none := hfree
  have hlt : 0x4000 + enrQuadOf s p < 65536 := by
    have : enrQuadOf s p < 2 ^ 6 := fld_lt ..
    omega
  have hheld := holderOf_claim_free _ (pgENR p) _ hlt hfree'
  have hclaim := claim_free _ (pgENR p) _ hfree'
  have hlink : LinkStep s (claim (0x4000 + enrQuadOf s p) (pgENR p) (wr (enrCtrlA p) w s)).1 := by
    rw [hclaim]; dsimp only; exact ((LinkStep.refl s).wr _ _).withHst _
  have henr : (claim (0x4000 + enrQuadOf s p) (pgENR p) (wr (enrCtrlA p) w s)).1.enr = s.enr := by rw [hclaim]; rfl
  have hregs : ∀ a, rd (claim (0x4000 + enrQuadOf s p) (pgENR p) (wr (enrCtrlA p) w s)).1 a = rd (wr (enrCtrlA p) w s) a := fun a => by
    rw [hclaim]; rfl
  have heval : enrEval p (wr (enrCtrlA p) w s)
      = retuneLanes (enrQuadOf s p) false (toTrain p (claim (0x4000 + enrQuadOf s p) (pgENR p) (wr (enrCtrlA p) w s)).1) := by
    unfold enrEval; dsimp only
    rw [hquad, hwant, hrole', if_neg (by decide), if_neg (by decide), if_neg (by rw [hclaim]; simp), if_pos (by rw [enrPort_congr henr, hdown])]
  rw [heval] at hexec
  generalize (claim (0x4000 + enrQuadOf s p) (pgENR p) (wr (enrCtrlA p) w s)).1 = x at *
  have hport : enrPort (toTrain p x) p = (enrPort s p).restart .train := (enrPort_updPort_same ..).trans (by rw [enrPort_congr henr])
  have hother : ∀ q, q ≠ p → enrPort (toTrain p x) q = enrPort s q := fun q hqp =>
    (enrPort_updPort_other hqp _ _).trans (enrPort_congr henr q)
  have htrain := linkStep_toTrain hlink p
  have hholder : holderOf (toTrain p x) (0x4000 + enrQuadOf s p) = some (pgENR p) := hheld
  have hrtrain : ∀ a, rd (toTrain p x) a = rd (wr (enrCtrlA p) w s) a := hregs
  generalize toTrain p x = y at *
  obtain ⟨htuned, htregs, htlanes⟩ := retuneLanes_keeps (enrQuadOf s p) false y
  have hall := htrain.trans (onlyTuned_link htuned)
  rw [hall.streamAfter hs] at hexec
  refine ⟨_, hexec, by rw [enrPort_congr (onlyTuned_enr htuned), hport], ?_, ?_, htlanes,
    fun q hqp => by rw [enrPort_congr (onlyTuned_enr htuned), hother q hqp], hall, fun a ha hd => ?_⟩
  · rw [holderOf, onlyTuned_hst htuned]; exact hholder
  · rw [htregs _ (noDetail_ctrl p _), hrtrain, rd_wr_same]
  · rw [htregs a hd, hrtrain, rd_wr_other s ha]

/-- A disabled port releases its quad and is DOWN. -/
theorem enrCtrl_disabled (hp : p < 7) (hs : streamStill s) (hr : reaches s (pgENR p) = true) (hg : gated s (pgENR p) = false) {v w : Reg}
    (hw : writtenValue s (enrCtrlA p) v = (w, false)) (hq : fld w 1 6 = enrQuadOf s p) (hcmd : fld v 16 2 = 0)
    (hwant : enrWanted (wr (enrCtrlA p) w s) p = false) (hi : s.cfc.eng0.st = .idle) :
    ∃ t, exec (.enrCtrlWrite p v) s = .next t ∧ (enrPort t p).st = .down ∧ holderOf t (0x4000 + enrQuadOf s p) ≠ some (pgENR p)
      ∧ rd t (enrCtrlA p) = w ∧ LinkStep s t ∧ ((enrPort s p).st ≠ .down → (∃ e, enrPort t p = portDown e)
          ∧ ∀ l ∈ quadLanes (enrQuadOf s p), laneOf t l = Lane.zero) := by
  have hexec := enrCtrlWrite_taken hr hg hw hq hcmd
  have hlink := (LinkStep.refl s).wr (enrCtrlA p) w
  have hiw : (wr (enrCtrlA p) w s).cfc.eng0.st = .idle := hi
  have hsame : rd (wr (enrCtrlA p) w s) (enrCtrlA p) = w := rd_wr_same ..
  have hport : enrPort (wr (enrCtrlA p) w s) p = enrPort s p := enrPort_congr (wr_enr ..) p
  have heval : enrEval p (wr (enrCtrlA p) w s) = release (0x4000 + enrQuadOf s p) (pgENR p) (toDown p (wr (enrCtrlA p) w s)) := by
    unfold enrEval; dsimp only
    rw [enrQuadOf_wr hq, hwant, if_pos (by decide)]
  obtain ⟨hst, hdown, hregs, hleft⟩ := toDown_keeps hp hiw
  rw [enrQuadOf_wr hq, hport] at hleft
  generalize wr (enrCtrlA p) w s = x at *
  generalize toDown p x = y at *
  have hall := (hlink.trans hdown).release (0x4000 + enrQuadOf s p) (pgENR p)
  rw [heval, hall.streamAfter hs] at hexec
  have henr : enrPort (release (0x4000 + enrQuadOf s p) (pgENR p) y) p = enrPort y p := enrPort_congr rfl p
  refine ⟨_, hexec, by rw [henr, hst], holderOf_release_ne _ _ y, ?_, hall, fun hd => ?_⟩
  · rw [release, rd_withHst, hregs _ (linkReg_ctrl hp), hsame]
  · obtain ⟨⟨e, he⟩, hlanes⟩ := hleft hd
    exact ⟨⟨e, by rw [henr, he]⟩, hlanes⟩

-- RETRAIN (R266)

/-- RETRAIN of a port in FAULT. -/
theorem retrain_fault (hs : streamStill s) (hr : reaches s (pgENR p) = true) (hg : gated s (pgENR p) = false) (hf : (enrPort s p).st = .fault) :
    ∃ t, exec (.retrain p) s = .next t ∧ enrPort t p = (enrPort s p).restart .train ∧ LinkStep s t := by
  have hexec : exec (.retrain p) s = .next (streamAfter (retuneLanes (enrQuadOf s p) (enrPort s p).slow (toTrain p s))) := by
    change Host.Outcome.next (guarded (pgENR p) _ s) = _
    rw [guarded_open hr hg]
    unfold retrainPort; dsimp only
    rw [hf]
  have hport : enrPort (toTrain p s) p = (enrPort s p).restart .train := enrPort_updPort_same ..
  have htrain := linkStep_toTrain (LinkStep.refl s) p
  generalize toTrain p s = x at *
  obtain ⟨htuned, -, -⟩ := retuneLanes_keeps (enrQuadOf s p) (enrPort s p).slow x
  have hall := htrain.trans (onlyTuned_link htuned)
  rw [hall.streamAfter hs] at hexec
  exact ⟨_, hexec, by rw [enrPort_congr (onlyTuned_enr htuned), hport], hall⟩

/-- RETRAIN of an UP port ends the link. -/
theorem retrain_up (hs : streamStill s) (hr : reaches s (pgENR p) = true) (hg : gated s (pgENR p) = false) (hup : (enrPort s p).st = .up)
    (hi : s.cfc.eng0.st = .idle) : ∃ t e, exec (.retrain p) s = .next t ∧ enrPort t p = EnrPort.restart e .train
      ∧ rdB t (irqA (pgENR p)) 0 = true ∧ LinkStep s t := by
  have hexec : exec (.retrain p) s
      = .next (streamAfter (setIrq (pgENR p) 0 (retuneLanes (enrQuadOf s p) (enrPort s p).slow (toTrain p (linkDown p s))))) := by
    change Host.Outcome.next (guarded (pgENR p) _ s) = _
    rw [guarded_open hr hg]
    unfold retrainPort; dsimp only
    rw [hup]
  have hport : enrPort (toTrain p (linkDown p s)) p = (enrPort (linkDown p s) p).restart .train := enrPort_updPort_same ..
  have htrain := linkStep_toTrain (linkDown_keeps hi p).2.1 p
  generalize toTrain p (linkDown p s) = x at *
  obtain ⟨htuned, -, -⟩ := retuneLanes_keeps (enrQuadOf s p) (enrPort s p).slow x
  have hlink := htrain.trans (onlyTuned_link htuned)
  have henr := onlyTuned_enr htuned
  generalize retuneLanes (enrQuadOf s p) (enrPort s p).slow x = y at *
  have hall := hlink.setIrq (pgENR p) 0
  rw [hall.streamAfter hs] at hexec
  exact ⟨_, _, hexec, by rw [enrPort_congr (setIrq_enr _ _ _), enrPort_congr henr, hport], rdB_setIrq_same _ _ _ (by decide), hall⟩

-- The timeouts (R266)

/-- The port that has not trained in time: the other rate where it may fall back, else a failure is counted. -/
def portTimedOut (fallback : Bool) (e : EnrPort) : EnrPort :=
  { e with slow := fallback && !e.slow, fails := if fallback && !e.slow then e.fails else satAdd e.fails 1 15 }

theorem trainTimeout_holds (hst : (enrPort s p).st = .train) : ∃ t, exec (.trainTimeout p) s = .next t
    ∧ enrPort t p = portTimedOut (rdB s (enrCtrlA p) 12) (enrPort s p) ∧ (∀ q, q ≠ p → enrPort t q = enrPort s q)
    ∧ { t with regs := s.regs, enr := { t.enr with ports := s.enr.ports }, lan := s.lan } = s
    ∧ ∀ a, noDetail (enrQuadOf s p) a → rd t a = rd s a := by
  have hexec : exec (.trainTimeout p) s = .next (retuneLanes (enrQuadOf s p) (rdB s (enrCtrlA p) 12 && !(enrPort s p).slow)
      (setEnrPort p (portTimedOut (rdB s (enrCtrlA p) 12) (enrPort s p)) s)) := by
    change execTrainTimeout p s = _
    unfold execTrainTimeout portTimedOut; dsimp only
    rw [if_neg (by simp [hst])]
    cases hfall : rdB s (enrCtrlA p) 12 && !(enrPort s p).slow <;> rfl
  have hport := enrPort_setEnrPort_same p (portTimedOut (rdB s (enrCtrlA p) 12) (enrPort s p)) s
  have hother := fun q (hq : q ≠ p) => enrPort_setEnrPort_other hq (portTimedOut (rdB s (enrCtrlA p) 12) (enrPort s p)) s
  have hregs : (setEnrPort p (portTimedOut (rdB s (enrCtrlA p) 12) (enrPort s p)) s).regs = s.regs := rfl
  have honly : { setEnrPort p (portTimedOut (rdB s (enrCtrlA p) 12) (enrPort s p)) s with enr := s.enr } = s := rfl
  have hrest : { (setEnrPort p (portTimedOut (rdB s (enrCtrlA p) 12) (enrPort s p)) s).enr with ports := s.enr.ports } = s.enr := rfl
  generalize setEnrPort p (portTimedOut (rdB s (enrCtrlA p) 12) (enrPort s p)) s = x at *
  obtain ⟨htuned, htregs, -⟩ := retuneLanes_keeps (enrQuadOf s p) (rdB s (enrCtrlA p) 12 && !(enrPort s p).slow) x
  generalize retuneLanes (enrQuadOf s p) (rdB s (enrCtrlA p) 12 && !(enrPort s p).slow) x = y at *
  have henr := onlyTuned_enr htuned
  refine ⟨_, hexec, by rw [enrPort_congr henr, hport], fun q hq => by rw [enrPort_congr henr, hother q hq], ?_,
    fun a ha => (htregs a ha).trans (rd_congr hregs a)⟩
  unfold onlyTuned at htuned
  rw [henr, hrest, ← honly, ← htuned]

/-- The port whose handshake has taken too long. -/
def portLate (e : EnrPort) : EnrPort := { e.restart .train with cause := 0x080D }

/-- Nothing but the ports differs. -/
def onlyPorts (s t : State) : Prop := { t with enr := { t.enr with ports := s.enr.ports } } = s

theorem onlyPorts_refl (s : State) : onlyPorts s s := rfl
theorem onlyPorts_updPort (h : onlyPorts s t) (p : Nat) (w : EnrPort → EnrPort) : onlyPorts s (updPort p w t) := h

theorem handshakeTimeout_holds (h : (enrPort s p).st = .hello ∨ (enrPort s p).st = .keyx ∨ (enrPort s p).st = .confirm) :
    ∃ t, exec (.handshakeTimeout p) s = .next t ∧ enrPort t p = portLate (enrPort s p) ∧ (∀ q, q ≠ p → enrPort t q = enrPort s q)
      ∧ { t with enr := { t.enr with ports := s.enr.ports } } = s := by
  have hexec : exec (.handshakeTimeout p) s = .next (updPort p (fun x => { x with cause := 0x080D }) (toTrain p s)) := by
    change execHandshakeTimeout p s = _
    unfold execHandshakeTimeout; dsimp only
    rw [if_pos (by rcases h with h | h | h <;> simp [h])]
  refine ⟨_, hexec, ?_, fun q hq => ?_, onlyPorts_updPort (onlyPorts_updPort (onlyPorts_refl s) p _) p _⟩
  · unfold toTrain
    rw [enrPort_updPort_same, enrPort_updPort_same]; rfl
  · exact (enrPort_updPort_other hq _ _).trans (enrPort_updPort_other hq _ _)

end Sys2Proof.Machine
end

section
/-! Time, key updates and broadcasts over the link (R274, R281, R283, R311). -/

namespace Sys2Proof.Machine

variable {s t u : State} {p : Nat} {m : Msg}

theorem onlySent_time (h : onlySent s t) : t.time = s.time := congrArg (·.time) h
theorem onlySent_cfc (h : onlySent s t) : t.cfc = s.cfc := congrArg (·.cfc) h

-- What a message that is taken leaves of its port

theorem session_dropMsg (p k : Nat) (s : State) : (enrPort (dropMsg p k s) p).session = (enrPort s p).session :=
  session_of_sender (sender_dropMsg p k s)

-- TIME_SYNC (R281)

/-- Nothing differs but the time base, registers and what an interrupt sends. -/
def onlyClock (s t : State) : Prop :=
  { t with time := s.time, regs := s.regs, outbox := s.outbox, hst := { t.hst with msixPend := s.hst.msixPend } } = s

theorem onlyClock_refl (s : State) : onlyClock s s := rfl
theorem onlyClock_wr (h : onlyClock s t) (a : Nat) (v : Reg) : onlyClock s (wr a v t) := h
theorem onlyClock_wrF (h : onlyClock s t) (a lo n x : Nat) : onlyClock s (wrF a lo n x t) := h
theorem onlyClock_setFault (h : onlyClock s t) (q c : Nat) : onlyClock s (setFault q c t) :=
  onlyClock_wr (onlyClock_wrF h _ _ _ _) _ _
theorem onlyClock_time (h : onlyClock s t) (x : BitVec 64) : onlyClock s { t with time := x } := h
theorem onlyClock_setIrq (h : onlyClock s t) (q b : Nat) : onlyClock s (setIrq q b t) := by
  have hx : ∀ v : State, onlyClock s v → onlyClock s (sendVector (pageVector q) v) := fun v hv => by
    unfold sendVector; split
    · exact hv
    · exact hv
  unfold setIrq risen; split
  · exact hx _ h
  · exact h

theorem onlyClock_trans (h : onlyClock s t) (k : onlyClock t u) : onlyClock s u := by
  unfold onlyClock at *
  rw [← h, ← k]
theorem onlySent_of_clock (h : onlySent s t) (k : onlyClock t u) :
    onlySent s { u with time := s.time, regs := s.regs, hst := { u.hst with msixPend := s.hst.msixPend } } := by
  unfold onlySent onlyClock at *
  rw [← h, ← k]

/-- A time base that is late on a running device faults and interrupts. -/
def lateRaised (late : Bool) (s : State) : State := if late then setIrq pgENRG 1 (setFault pgENRG 0x0810 s) else s

theorem lateRaised_keeps (late : Bool) (s : State) : regsBut [irqA pgENRG, statA pgENRG, errA pgENRG] s (lateRaised late s)
    ∧ (lateRaised late s).time = s.time ∧ onlyClock s (lateRaised late s) := by
  unfold lateRaised; split
  · refine ⟨regsBut_setIrq (regsBut_setFault (regsBut_refl _ s) (by simp) (by simp) _) (by simp) 1, by rw [setIrq_time, setFault_time],
      onlyClock_setIrq (onlyClock_setFault (onlyClock_refl s) _ _) _ _⟩
  · exact ⟨regsBut_refl _ s, rfl, onlyClock_refl s⟩

/-- The offset of the time base is recorded; one that is late on a running device is flagged, and interrupts where it was not. -/
def syncNoted (late : Bool) (off : Int) (s : State) : State :=
  let t := wr (at' pgENRG 0x48) (sat32 off) s
  wrF (at' pgENRG 0x44) 8 1 (b2n late) (lateRaised (late && !rdB t (at' pgENRG 0x44) 8) t)

theorem syncNoted_keeps (late : Bool) (off : Int) (s : State) :
    rd (syncNoted late off s) (at' pgENRG 0x48) = sat32 off ∧ rdB (syncNoted late off s) (at' pgENRG 0x44) 8 = late
      ∧ rd (syncNoted late off s) (at' pgSLU 0x40) = rd s (at' pgSLU 0x40) ∧ (syncNoted late off s).time = s.time
      ∧ onlyClock s (syncNoted late off s) := by
  unfold syncNoted; dsimp only
  have hoff : rd (wr (at' pgENRG 0x48) (sat32 off) s) (at' pgENRG 0x48) = sat32 off := rd_wr_same ..
  have hslu : rd (wr (at' pgENRG 0x48) (sat32 off) s) (at' pgSLU 0x40) = rd s (at' pgSLU 0x40) := rd_wr_other s (by decide) _
  have htime : (wr (at' pgENRG 0x48) (sat32 off) s).time = s.time := rfl
  have hclock := onlyClock_wr (onlyClock_refl s) (at' pgENRG 0x48) (sat32 off)
  generalize wr (at' pgENRG 0x48) (sat32 off) s = v at *
  obtain ⟨hregs, hmtime, hmclock⟩ := lateRaised_keeps (late && !rdB v (at' pgENRG 0x44) 8) v
  have hmclock := onlyClock_trans hclock hmclock
  generalize lateRaised (late && !rdB v (at' pgENRG 0x44) 8) v = y at *
  refine ⟨?_, ?_, ?_, hmtime.trans htime, onlyClock_wrF hmclock _ _ _ _⟩
  · rw [rd_wrF_other _ (by decide), hregs _ (by decide), hoff]
  · rw [rdB_wrF_same _ _ _ _ _ _ (by decide) (by decide)]
    cases late <;> decide
  · rw [rd_wrF_other _ (by decide), hregs _ (by decide), hslu]

/-- The time base once the offset is known: stepped where nothing runs, else slewed by at most 80 units. -/
def timeSynced (run : Bool) (now : Nat) (off : Int) (x : BitVec 64) : BitVec 64 :=
  if run then x - BitVec.ofInt 64 (max (-80) (min 80 off)) else BitVec.ofNat 64 now
/-- The state that has taken the master's time. -/
def syncTaken (run : Bool) (now : Nat) (off : Int) (s : State) : State :=
  let t := syncNoted (run && decide (16000 < off.natAbs)) off s
  { t with time := timeSynced run now off t.time }

theorem takeSync_eq (hm : rdF s (at' pgENRG 0x40) 0 3 ≠ devIndex s) (hpeer : rdF s (at' pgENRG 0x40) 0 3 = (enrPort s p).peer.toNat) {now : Nat}
    {off : Int} (hnow : now = bodyNat m 0 8 + (rd s (enrDelayA p)).toNat) (hoff : off = (s.time.toNat : Int) - (now : Int)) :
    takeSync p m s = syncTaken (rdB s (at' pgSLU 0x40) 0) now off s := by
  have hrun : rdB (wr (at' pgENRG 0x48) (sat32 off) s) (at' pgSLU 0x40) 0 = rdB s (at' pgSLU 0x40) 0 := by
    rw [rdB, rd_wr_other s (by decide), ← rdB]
  unfold takeSync syncTaken syncNoted timeSynced; dsimp only
  rw [if_neg (by rw [← hpeer]; simp [hm]), ← hnow, ← hoff, hrun]
  split <;> rfl

theorem syncTaken_keeps (run : Bool) (now : Nat) (off : Int) (s : State) :
    rd (syncTaken run now off s) (at' pgENRG 0x48) = sat32 off ∧ (syncTaken run now off s).time = timeSynced run now off s.time
      ∧ rd (syncTaken run now off s) (at' pgSLU 0x40) = rd s (at' pgSLU 0x40)
      ∧ rdB (syncTaken run now off s) (at' pgENRG 0x44) 8 = (run && decide (16000 < off.natAbs)) ∧ onlyClock s (syncTaken run now off s) := by
  obtain ⟨hrec, hflag, hslu, htime, hclock⟩ := syncNoted_keeps (run && decide (16000 < off.natAbs)) off s
  unfold syncTaken; dsimp only
  generalize syncNoted (run && decide (16000 < off.natAbs)) off s = y at *
  exact ⟨hrec, by rw [htime], hslu, hflag, onlyClock_time hclock _⟩

/-- TIME_SYNC of the master. -/
theorem timeSync_holds (hm : nextMsg s p 7 = some m) (hmaster : rdF s (at' pgENRG 0x40) 0 3 ≠ devIndex s)
    (hpeer : rdF s (at' pgENRG 0x40) 0 3 = (enrPort s p).peer.toNat) {now : Nat} {off : Int}
    (hnow : now = bodyNat m 0 8 + (rd s (enrDelayA p)).toNat) (hoff : off = (s.time.toNat : Int) - (now : Int)) :
    ∃ t, exec (.timeSync p) s = .next t ∧ rd t (at' pgENRG 0x48) = sat32 off ∧ t.time = timeSynced (rdB s (at' pgSLU 0x40) 0) now off s.time
      ∧ rd t (at' pgSLU 0x40) = rd s (at' pgSLU 0x40)
      ∧ rdB t (at' pgENRG 0x44) 8 = (rdB s (at' pgSLU 0x40) 0 && decide (16000 < off.natAbs))
      ∧ onlySent s { t with time := s.time, regs := s.regs, hst := { t.hst with msixPend := s.hst.msixPend } } := by
  have hexec : exec (.timeSync p) s = .next (takeSync p m (dropMsg p 7 s)) := by
    change execTimeSync p s = _
    unfold execTimeSync; rw [hm]
  have hsent := onlySent_refl_dropMsg p 7 s
  have hp : (enrPort (dropMsg p 7 s) p).peer = (enrPort s p).peer := session_proj (·.peer) (fun _ => rfl) (session_dropMsg p 7 s)
  generalize dropMsg p 7 s = v at *
  have hrd := fun a => rd_congr (onlySent_regs hsent) a
  have htime := onlySent_time hsent
  have hdev : devIndex v = devIndex s := by unfold devIndex rdF; rw [hrd]
  have hmas : rdF v (at' pgENRG 0x40) 0 3 = rdF s (at' pgENRG 0x40) 0 3 := by rw [rdF, hrd, ← rdF]
  have hrun : rdB v (at' pgSLU 0x40) 0 = rdB s (at' pgSLU 0x40) 0 := by rw [rdB, hrd, ← rdB]
  rw [← hmas, ← hdev] at hmaster
  rw [← hmas, ← hp] at hpeer
  rw [← hrd] at hnow
  rw [← htime] at hoff
  rw [takeSync_eq hmaster hpeer hnow hoff, hrun] at hexec
  obtain ⟨hrec, hbase, hslu, hflag, hclock⟩ := syncTaken_keeps (rdB s (at' pgSLU 0x40) 0) now off v
  exact ⟨_, hexec, hrec, by rw [hbase, htime], hslu.trans (hrd _), hflag, onlySent_of_clock hsent hclock⟩

theorem tickNow_of_time {now : Nat} (ht : t.time = BitVec.ofNat 64 now) (hr : rd t (at' pgSLU 0x40) = rd s (at' pgSLU 0x40)) (hlt : now < 2 ^ 64) :
    tickNow t = BitVec.ofNat 48 (now / (160 * 2 ^ rdF s (at' pgSLU 0x40) 1 5)) := by
  unfold tickNow tickLen rdF
  rw [ht, hr, BitVec.toNat_ofNat, Nat.mod_eq_of_lt hlt]

-- The master's messages, and the delay (R281)

theorem timeSyncSend_holds (s : State) : ∃ t, exec .timeSyncSend s = .next t
    ∧ (∀ q, q < 7 → (enrPort s q).st = .up → rdF s (at' pgENRG 0x40) 0 3 = devIndex s →
        pendingFlits (enrPort t q) 3 = pendingFlits (enrPort s q) 3 ++ msgPayloads { kind := 7, ref := 0, body := timeBytes s, flits := 0 })
    ∧ (rdF s (at' pgENRG 0x40) 0 3 ≠ devIndex s → t = s) ∧ onlySent s t := by
  by_cases hm : rdF s (at' pgENRG 0x40) 0 3 = devIndex s
  · have hexec : exec .timeSyncSend s = .next (sendAll { kind := 7, ref := 0, body := timeBytes s, flits := 0 } s) :=
      congrArg Host.Outcome.next (if_pos hm)
    obtain ⟨hin, -⟩ := sendMsg_ports { kind := 7, ref := 0, body := timeBytes s, flits := 0 } (upPorts s) (List.nodup_range.filter _) s
    exact ⟨_, hexec, fun q hq hup _ => hin q (mem_upPorts.2 ⟨hq, hup⟩), fun h => absurd hm h, onlySent_sendAll (onlySent_refl s) _⟩
  · have hexec : exec .timeSyncSend s = .next s := congrArg Host.Outcome.next (if_neg hm)
    exact ⟨s, hexec, fun _ _ _ h => absurd h hm, fun _ => rfl, onlySent_refl s⟩

theorem delayReq_holds (hm : nextMsg s p 8 = some m) : ∃ t, exec (.delayReq p) s = .next t
    ∧ pendingFlits (enrPort t p) 3 = pendingFlits (enrPort s p) 3
        ++ msgPayloads { kind := 9, ref := 0, body := m.body.take 8 ++ timeBytes s ++ timeBytes s, flits := 0 }
    ∧ onlySent s t := by
  have hexec : exec (.delayReq p) s
      = .next (sendMsg p { kind := 9, ref := 0, body := m.body.take 8 ++ timeBytes s ++ timeBytes s, flits := 0 } (dropMsg p 8 s)) := by
    change execDelayReq p s = _
    unfold execDelayReq; rw [hm]
  have hpend := pendingFlits_sendMsg p { kind := 9, ref := 0, body := m.body.take 8 ++ timeBytes s ++ timeBytes s, flits := 0 } (dropMsg p 8 s)
  refine ⟨_, hexec, ?_, onlySent_sendMsg (onlySent_refl_dropMsg p 8 s) _ _⟩
  rw [← sender_pendingFlits (sender_dropMsg p 8 s) 3]
  exact hpend

theorem delayReqSend_holds (hup : (enrPort s p).st = .up) : ∃ t, exec (.delayReqSend p) s = .next t ∧ (enrPort t p).reqTime = s.time
    ∧ pendingFlits (enrPort t p) 3 = pendingFlits (enrPort s p) 3 ++ msgPayloads { kind := 8, ref := 0, body := timeBytes s, flits := 0 }
    ∧ onlySent s t := by
  have hexec : exec (.delayReqSend p) s
      = .next (sendMsg p { kind := 8, ref := 0, body := timeBytes s, flits := 0 } (updPort p (fun e => { e with reqTime := s.time }) s)) :=
    congrArg Host.Outcome.next (if_pos hup)
  have hport : enrPort (updPort p (fun e => { e with reqTime := s.time }) s) p = { enrPort s p with reqTime := s.time } := enrPort_updPort_same ..
  have hsess := session_sendMsg p { kind := 8, ref := 0, body := timeBytes s, flits := 0 } (updPort p (fun e => { e with reqTime := s.time }) s)
  have hpend := pendingFlits_sendMsg p { kind := 8, ref := 0, body := timeBytes s, flits := 0 } (updPort p (fun e => { e with reqTime := s.time }) s)
  rw [hport] at hsess hpend
  exact ⟨_, hexec, session_proj (·.reqTime) (fun _ => rfl) hsess, hpend, onlySent_sendMsg (onlySent_updPort (onlySent_refl s) p _) _ _⟩

/-- Beside what is sent, a register is written. -/
theorem onlySent_wr (h : onlySent s t) (a : Nat) (v : Reg) : onlySent s { wr a v t with regs := s.regs } := by
  have hr := onlySent_regs h
  unfold onlySent at *
  rw [← hr]; exact h

theorem delayResp_holds (hm : nextMsg s p 9 = some m) (hreq : bodyNat m 0 8 = (enrPort s p).reqTime.toNat) :
    ∃ t, exec (.delayResp p) s = .next t
      ∧ rd t (enrDelayA p) = BitVec.ofInt 32 (((s.time.toNat : Int) - (bodyNat m 0 8 : Int)
          - ((bodyNat m 16 8 : Int) - (bodyNat m 8 8 : Int))) / 2)
      ∧ regsBut [enrDelayA p] s t ∧ onlySent s { t with regs := s.regs } := by
  have hreq' : bodyNat m 0 8 = (enrPort (dropMsg p 9 s) p).reqTime.toNat := by
    rw [session_proj (·.reqTime) (fun _ => rfl) (session_dropMsg p 9 s)]; exact hreq
  have hexec : exec (.delayResp p) s = .next (wr (enrDelayA p) (BitVec.ofInt 32 (((s.time.toNat : Int) - (bodyNat m 0 8 : Int)
      - ((bodyNat m 16 8 : Int) - (bodyNat m 8 8 : Int))) / 2)) (dropMsg p 9 s)) := by
    change execDelayResp p s = _
    unfold execDelayResp; rw [hm]; dsimp only
    rw [if_pos hreq']
  have hsent := onlySent_refl_dropMsg p 9 s
  generalize dropMsg p 9 s = v at *
  refine ⟨_, hexec, rd_wr_same .., regsBut_wr (regsBut_of_regs (onlySent_regs hsent)) (by simp) _, onlySent_wr hsent _ _⟩

end Sys2Proof.Machine
end

section
/-! Key updates and broadcasts over the link (R274, R283, R311), and the statement of ENR_CTRL, time and broadcasts. -/

namespace Sys2Proof.Machine

variable {s t u : State} {p : Nat} {m : Msg}

-- What the handshake reads is not what is sent

theorem shareOk_sent (h : onlySent s t) (x y : List Byte) : shareOk t x y = shareOk s x y := by
  unfold onlySent at h; rw [← h]; rfl
theorem epochKeys_sent (h : onlySent s t) (e : EnrPort) (k : BitVec 384) (x y : List Byte) (n : Nat) :
    epochKeys t e k x y n = epochKeys s e k x y n := by
  unfold onlySent at h; rw [← h]; rfl
theorem ordered_sent (h : onlySent s t) (e : EnrPort) (x y : List Byte) : ordered t e x y = ordered s e x y := by
  unfold onlySent at h; rw [← h]; rfl
theorem transcript_sent (h : onlySent s t) (e : EnrPort) : transcript t e = transcript s e := by
  unfold onlySent at h; rw [← h]; rfl

section
variable {e f : EnrPort} (h : f.session = e.session)
include h

theorem session_transcript (s : State) : transcript s f = transcript s e := session_proj (fun x => transcript s x) (fun _ => rfl) h
theorem session_ordered (s : State) (x y : List Byte) : ordered s f x y = ordered s e x y := session_proj (fun z => ordered s z x y) (fun _ => rfl) h
theorem session_epochKeys (s : State) (k : BitVec 384) (x y : List Byte) (n : Nat) : epochKeys s f k x y n = epochKeys s e k x y n :=
  session_proj (fun z => epochKeys s z k x y n) (fun _ => rfl) h

end

-- KEY_UPDATE (R274)

/-- The port that has both KEY_UPDATEs: it sends under the keys of the next epoch. -/
def portSwitched (ks : Option KeySet) (e : EnrPort) : EnrPort :=
  { setKeySlot e (!e.slot) ⟨ks, 0, none⟩ with slot := !e.slot, epoch := (e.epoch + 1) % 65536 }

theorem portSwitched_keys (ks : Option KeySet) (e : EnrPort) : (keySlot (portSwitched ks e) (!e.slot)).keys = ks := by
  unfold portSwitched
  cases e.slot <;> rfl

/-- The keys that both KEY_UPDATEs make. -/
def switchKeys (s : State) (e : EnrPort) (a b : List Byte) : Option KeySet :=
  epochKeys s e e.eph b (ordered s e a b) ((e.epoch + 1) % 65536)

theorem linkRekeySwitch_both {e : EnrPort} (he : enrPort s p = e) {a b : List Byte} (ha : e.upd = some a) (hb : e.peerUpd = some b)
    (hk : (keySlot e (!e.slot)).keys = none) : linkRekeySwitch p s = setEnrPort p (portSwitched (switchKeys s e a b) e) s := by
  unfold linkRekeySwitch; dsimp only
  rw [he, ha, hb]; dsimp only
  rw [hk, if_neg (by decide)]; rfl

theorem keyUpdate_taken (hm : nextMsg s p 10 = some m) : exec (.keyUpdate p) s = .next (takeUpdate p m (dropMsg p 10 s)) := by
  change execKeyUpdate p s = _
  unfold execKeyUpdate; rw [hm]

/-- A KEY_UPDATE that verifies after this side's own. -/
theorem takeUpdate_verified {a b : List Byte} (hb : b = shareCut m.body) (hok : shareOk s (transcript s (enrPort s p)) b = true)
    (ha : (enrPort s p).upd = some a) (hk : (keySlot (enrPort s p) (!(enrPort s p).slot)).keys = none) :
    (enrPort (takeUpdate p m s) p).session
        = (portSwitched (switchKeys s (enrPort s p) a b) { enrPort s p with peerUpd := some b }).session
      ∧ onlySent s (takeUpdate p m s) := by
  have hport : enrPort (updPort p (fun e => { e with peerUpd := some b }) s) p = { enrPort s p with peerUpd := some b } := enrPort_updPort_same ..
  have hsent := onlySent_updPort (onlySent_refl s) p fun e => { e with peerUpd := some b }
  have heq : takeUpdate p m s = sendIdle p (linkRekeySwitch p (linkRekey p (updPort p (fun e => { e with peerUpd := some b }) s))) := by
    unfold takeUpdate; dsimp only
    rw [← hb, if_pos hok]
  generalize updPort p (fun e => { e with peerUpd := some b }) s = x at *
  have hown : linkRekey p x = x := by
    unfold linkRekey; dsimp only
    rw [if_pos (by rw [hport]; simp [ha])]
  have hkeys : switchKeys x { enrPort s p with peerUpd := some b } a b = switchKeys s (enrPort s p) a b := by
    unfold switchKeys
    rw [ordered_sent hsent, epochKeys_sent hsent]; rfl
  rw [hown, linkRekeySwitch_both hport ha rfl hk, hkeys] at heq
  rw [heq]
  refine ⟨?_, onlySent_sendIdle (onlySent_setEnrPort hsent _ _) _⟩
  rw [session_of_sender (sender_sendIdle ..), enrPort_setEnrPort_same]

/-- A peer's KEY_UPDATE that verifies makes the keys of the next epoch. -/
theorem keyUpdate_verified (hm : nextMsg s p 10 = some m) {a b : List Byte} (hb : b = shareCut m.body)
    (hok : shareOk s (transcript s (enrPort s p)) b = true) (ha : (enrPort s p).upd = some a)
    (hk : (keySlot (enrPort s p) (!(enrPort s p).slot)).keys = none) :
    ∃ t, exec (.keyUpdate p) s = .next t ∧ (enrPort t p).slot = !(enrPort s p).slot ∧ (enrPort t p).epoch = ((enrPort s p).epoch + 1) % 65536
      ∧ (keySlot (enrPort t p) (!(enrPort s p).slot)).keys = switchKeys s (enrPort s p) a b ∧ onlySent s t := by
  have hexec := keyUpdate_taken hm
  have hsent := onlySent_refl_dropMsg p 10 s
  have hsess := session_dropMsg p 10 s
  generalize dropMsg p 10 s = v at *
  have hslot : (enrPort v p).slot = (enrPort s p).slot := session_proj (·.slot) (fun _ => rfl) hsess
  have hepoch : (enrPort v p).epoch = (enrPort s p).epoch := session_proj (·.epoch) (fun _ => rfl) hsess
  have hok' : shareOk v (transcript v (enrPort v p)) b = true := by
    rw [shareOk_sent hsent, transcript_sent hsent, session_transcript hsess]; exact hok
  have hupd : (enrPort v p).upd = some a := (session_proj (·.upd) (fun _ => rfl) hsess).trans ha
  have hkeys : switchKeys v (enrPort v p) a b = switchKeys s (enrPort s p) a b := by
    unfold switchKeys
    rw [session_proj (·.eph) (fun _ => rfl) hsess, hepoch, session_ordered hsess, session_epochKeys hsess, ordered_sent hsent, epochKeys_sent hsent]
  obtain ⟨htaken, hall⟩ := takeUpdate_verified hb hok' hupd (by rw [hslot, session_keys hsess]; exact hk)
  refine ⟨_, hexec, ?_, ?_, ?_, onlySent_trans hsent hall⟩
  · rw [session_proj (·.slot) (fun _ => rfl) htaken, ← hslot]; rfl
  · rw [session_proj (·.epoch) (fun _ => rfl) htaken, ← hepoch]; rfl
  · rw [session_keys htaken, ← hslot, ← hkeys]
    exact portSwitched_keys _ _

/-- One that does not verify raises the alarm and is ignored. -/
theorem keyUpdate_refused (hm : nextMsg s p 10 = some m) (hbad : shareOk s (transcript s (enrPort s p)) (shareCut m.body) = false)
    (ha : (s.sec.alarms.event).activeNow 3 3 8 = false) :
    ∃ t, exec (.keyUpdate p) s = .next t ∧ (enrPort t p).session = (enrPort s p).session
      ∧ rdF t (at' pgSEC 0x4C) 0 16 = satAdd (rdF s (at' pgSEC 0x4C) 0 16) 1 65535 ∧ storesKept s t := by
  have hexec := keyUpdate_taken hm
  have hsent := onlySent_refl_dropMsg p 10 s
  have hsess := session_dropMsg p 10 s
  generalize dropMsg p 10 s = v at *
  have hbad' : shareOk v (transcript v (enrPort v p)) (shareCut m.body) = false := by
    rw [shareOk_sent hsent, transcript_sent hsent, session_transcript hsess]; exact hbad
  have heq : takeUpdate p m v = alarmNoted 0x0807 v := by
    unfold takeUpdate; dsimp only
    rw [hbad', if_neg (by decide), secAlarm_unsealed _ (by rw [onlyWork_sec (onlySent_onlyWork hsent)]; exact ha)]
  rw [heq] at hexec
  refine ⟨_, hexec, ?_, ?_, ((LinkStep.of_sent hsent).trans (linkStep_alarmNoted _ v)).stores⟩
  · rw [enrPort_congr (alarmNoted_enr ..), hsess]
  · rw [alarmNoted_count, rdF, rd_congr (onlySent_regs hsent), ← rdF]

-- Broadcasts (R283, R311)

theorem fromLeader_dropMsg (p k : Nat) (s : State) : fromLeader (dropMsg p k s) p = fromLeader s p := by
  unfold fromLeader
  rw [rd_congr (onlySent_regs (onlySent_refl_dropMsg p k s)), session_proj (·.peer) (fun _ => rfl) (session_dropMsg p k s)]

/-- What an engine is given changes no stored bit. -/
theorem storesKept_setEng (h : storesKept s t) (e : Bool) (g : Engine) : storesKept s (setEng e g t) := h

theorem storesKept_opened (h : storesKept s t) (src : Nat) (bs : List Byte) : storesKept s (openEngine false src bs t) := h
theorem streamStill_setEng (h : streamStill s) (g : Engine) : streamStill (setEng false g s) := h
theorem engOf_setEng (g : Engine) (s : State) : engOf (setEng false g s) false = g := rfl

/-- The first bytes of a leader's broadcast open ENG_0. -/
theorem cfgData_first (hm : nextMsg s p 11 = some m) (hl : fromLeader s p = true) (h0 : bodyNat m 2 4 = 0) (hi : s.cfc.eng0.st = .idle)
    (hb : cfgBytes s m ≠ []) : ∃ t, exec (.cfgData p) s = .next t ∧ t.cfc.eng0.st = .header ∧ t.cfc.eng0.src = 3
      ∧ t.cfc.eng0.seen = cfgBytes s m ∧ rd t (engBytesA false) = 0 ∧ regsBut [engBytesA false] s t
      ∧ t.cfc.eng1 = s.cfc.eng1 ∧ storesKept s t := by
  have hlead := (fromLeader_dropMsg p 11 s).trans hl
  have hsent := onlySent_refl_dropMsg p 11 s
  have hexec : exec (.cfgData p) s = .next (takeCfgData p m (dropMsg p 11 s)) := by
    change execCfgData p s = _
    unfold execCfgData; rw [hm]
  generalize dropMsg p 11 s = v at *
  have hcfc := onlySent_cfc hsent
  have hbytes : cfgBytes v m = cfgBytes s m := by unfold cfgBytes; rw [hcfc]
  have heq : takeCfgData p m v = openEngine false 3 (cfgBytes s m) v := by
    unfold takeCfgData; dsimp only
    rw [hlead, if_neg (by decide), hcfc, hi, h0, if_neg (by simp), if_pos (by simp), hbytes]
    unfold feedBytes; dsimp only
    rw [if_neg hb]
    have hst : (engOf v false).st = .idle := by
      change v.cfc.eng0.st = _
      rw [hcfc, hi]
    rw [hst]
  rw [heq] at hexec
  refine ⟨_, hexec, rfl, rfl, rfl, rd_wr_same .., ?_, ?_, ?_⟩
  · exact regsBut_wr (regsBut_of_regs (onlySent_regs hsent)) (by simp) _
  · exact congrArg (·.eng1) hcfc
  · exact storesKept_opened (LinkStep.of_sent hsent).stores 3 _

/-- The end of a broadcast that was discarded closes ENG_0. -/
theorem cfgEnd_discarded (hm : nextMsg s p 12 = some m) (hs : streamStill s) (hl : fromLeader s p = true) (hd : s.cfc.eng0.st = .discard)
    (hsrc : s.cfc.eng0.src = 3) (hheld : s.cfc.eng0.held = []) : ∃ t, exec (.cfgEnd p) s = .next t
      ∧ t.cfc.eng0 = { Engine.zero with src := 3 } ∧ t.cfc.eng1 = s.cfc.eng1 ∧ t.regs = s.regs ∧ storesKept s t := by
  have hlead := (fromLeader_dropMsg p 12 s).trans hl
  have hsent := onlySent_refl_dropMsg p 12 s
  have hlink : LinkStep s (dropMsg p 12 s) := .of_sent hsent
  have hcfc := onlySent_cfc hsent
  have hregs := onlySent_regs hsent
  have hexec : exec (.cfgEnd p) s = .next (streamAfter (sourceEnds false (dropMsg p 12 s))) := by
    change execCfgEnd p s = _
    unfold execCfgEnd; rw [hm]; dsimp only
    rw [hlead, hcfc, hd, hsrc, if_pos (by decide)]
  generalize dropMsg p 12 s = v at *
  have heq : sourceEnds false v
      = setEng false { Engine.zero with src := 3 } (setEng false { v.cfc.eng0 with ended := true, started := false } v) := by
    have hg : engOf v false = v.cfc.eng0 := rfl
    unfold sourceEnds; dsimp only
    rw [hg, hcfc, hd]; dsimp only
    unfold closeEngine; dsimp only
    rw [engOf_setEng, if_neg (by simp)]
    dsimp only
    rw [hheld, hsrc, if_neg (by simp), if_neg (by simp)]; rfl
  rw [heq, streamAfter_of_still (streamStill_setEng (streamStill_setEng (hlink.still hs) _) _)] at hexec
  exact ⟨_, hexec, rfl, congrArg (·.eng1) hcfc, hregs, storesKept_setEng (storesKept_setEng hlink.stores _ _) _ _⟩

end Sys2Proof.Machine
end

section
/-! The statement of ENR_CTRL, RETRAIN, REKEY, time and broadcasts (R260, R266, R274, R281, R283). -/

namespace Sys2Proof.Machine

/-- Settles O35, command by command. -/
theorem enrusPortAndTime : Obligations.EnrusPortAndTime := by
  unfold Obligations.EnrusPortAndTime
  refine ⟨fun p s hp hs => ⟨fun v w hr hg hw hq hcmd => ⟨?_, ?_⟩, fun hr hg => ⟨?_, ?_⟩, ?_, ?_⟩,
    fun p m s hp => ⟨?_, ?_, ?_, ?_, ?_, ?_, ?_, ?_⟩⟩
  · intro hwant hrole hdown hfree
    obtain ⟨t, hexec, hport, hheld, hreg, hlanes, hothers, hlink, hregs⟩ := enrCtrl_enabled hs hr hg hw hq hcmd hwant hrole hdown hfree
    refine ⟨t, hexec, ?_, ?_, hheld, hreg, hlanes, hothers, hlink.stores,
      fun a ha hd => hregs a ha fun l hl k _ => hd l hl k⟩ <;> rw [hport] <;> rfl
  · intro hwant hi
    obtain ⟨t, hexec, hst, hheld, hreg, hlink, hleft⟩ := enrCtrl_disabled hp hs hr hg hw hq hcmd hwant hi
    refine ⟨t, hexec, hst, hheld, hreg, fun hd => ?_, hlink.stores⟩
    obtain ⟨⟨e, he⟩, hlanes⟩ := hleft hd
    refine ⟨?_, ?_, ?_, hlanes⟩ <;> rw [he] <;> rfl
  · rintro (hf | ⟨hup, hi⟩)
    · obtain ⟨t, hexec, hport, hlink⟩ := retrain_fault hs hr hg hf
      refine ⟨t, hexec, ?_, ?_, ?_, ?_, fun hup => absurd (hf.symm.trans hup) (by decide), hlink.stores⟩ <;> rw [hport] <;> rfl
    · obtain ⟨t, e, hexec, hport, hirq, hlink⟩ := retrain_up hs hr hg hup hi
      refine ⟨t, hexec, ?_, ?_, ?_, ?_, fun _ => hirq, hlink.stores⟩ <;> rw [hport] <;> rfl
  · intro k sh u hup hupd hslot hn
    obtain ⟨hsess, hpend, hlink⟩ := linkRekey_holds hup hupd hslot hn
    refine ⟨linkRekey p s, ?_, session_proj (·.upd) (fun _ => rfl) hsess, session_proj (·.eph) (fun _ => rfl) hsess,
      (session_st hsess).trans hup, by rw [session_proj (·.epoch) (fun _ => rfl) hsess], hpend, hlink.stores⟩
    change Host.Outcome.next (guarded (pgENR p) (linkRekey p) s) = _
    rw [guarded_open hr hg]
  · intro hst
    obtain ⟨t, hexec, hport, hothers, honly, hregs⟩ := trainTimeout_holds hst
    exact ⟨t, hexec, by rw [hport]; exact hst, by rw [hport]; rfl, by rw [hport]; rfl, hothers, honly,
      fun a ha => hregs a fun l hl k _ => ha l hl k⟩
  · intro hst
    obtain ⟨t, hexec, hport, hothers, honly⟩ := handshakeTimeout_holds hst
    exact ⟨t, hexec, by rw [hport]; rfl, by rw [hport]; rfl, hothers, honly⟩
  · intro hm hmaster hpeer now off hnow hoff
    obtain ⟨t, hexec, hrec, htime, hslu, hflag, hsent⟩ := timeSync_holds hm hmaster hpeer hnow hoff
    refine ⟨t, hexec, hrec, fun hrun => ?_, fun hrun => ?_, hflag, hsent⟩
    · rw [hrun] at htime
      exact ⟨htime, tickNow_of_time htime hslu⟩
    · rw [hrun] at htime
      exact htime
  · exact timeSyncSend_holds s
  · exact delayReq_holds
  · exact delayReqSend_holds
  · exact delayResp_holds
  · intro hm b a hb hup
    refine ⟨fun hok hupd hslot => keyUpdate_verified hm hb hok hupd hslot, fun hbad ha => ?_⟩
    obtain ⟨t, hexec, hsess, hcount, hstores⟩ := keyUpdate_refused hm (hb ▸ hbad) ha
    exact ⟨t, hexec, session_proj (·.slot) (fun _ => rfl) hsess, session_proj (·.epoch) (fun _ => rfl) hsess, hcount, hstores⟩
  · exact cfgData_first
  · exact fun hm hs hl hd hsrc hheld => cfgEnd_discarded hm hs hl hd hsrc hheld

end Sys2Proof.Machine
end

section
/-! The last release phase and a stream from the leader (R280, R283, R299, R306): a port that leaves UP ends the stream that it carries. -/

namespace Sys2Proof.Machine

/-- The last phase of the release is to come. ENG_0 takes a stream of the leader by port 0, which is UP while its EN is 0; plane 0 of basin 0
is PENDING under that stream, and one word of it is not 0. -/
def leaderFed : State :=
  setEnrPort 0 { EnrPort.zero with st := .up }
    (setPlaneInfo 0 0 ⟨.pending, 0, some 0⟩ (setPlaneCode 0 0 0 1
      (withCfc (fun c => { c with phases := [3], eng0 := { Engine.zero with st := .sections, src := 3, planes := [(0, 0)] } })
        (wrF modeStatA 4 4 10 State.reset))))

/-- The same after SR's hold has ended. -/
def leaderFedFree : State := withCfc (fun c => { c with phases := [] }) (endHold 3 leaderFed)

theorem leaderFed_released : exec .releasePhase leaderFed = .next (bootDone leaderFedFree) := by
  have hstep : inStep leaderFed 10 = true := by decide +kernel
  have hphases : leaderFed.cfc.phases = [3] := rfl
  show execReleasePhase leaderFed = _
  unfold execReleasePhase
  rw [if_pos hstep, hphases]
  dsimp only
  rw [if_pos rfl, if_neg (by decide), leaderFedFree]

/-- What follows the identifier that MODE takes when the boot is done (R307). -/
def enterService (s : State) : State :=
  let s := if s.cfc.dispatch then wrF (at' pgSLU 0x40) 0 1 1 s else s
  let s := withMod (fun m => { m with warmBoot := false }) (withCfc (fun c => { c with booted := true, dispatch := false }) (wrF 0x040 0 1 1 s))
  emberCheck (settle (enrEvalAll (lanesSettle (setMode mSERVICE s))))

theorem bootDone_eq (s : State) :
    bootDone s = enterService (wr (at' pgMODE 0x50) (takeFree 32 s).1 (setStep 11 (takeFree 32 s).2)) := rfl

/-- A register is no longer listed, or listed in its place, as the value written is its reset value or another. -/
theorem wr_cases (a : Nat) (v : Reg) (s : State) :
    wr a v s = { s with regs := terase a s.regs } ∨ wr a v s = { s with regs := tins a v (terase a s.regs) } := by
  unfold wr tput
  split
  · exact .inl rfl
  · exact .inr rfl

/-- Port 0 goes DOWN at the entry into SERVICE, its stream is cut off, and the plane is cleared, whatever the free identifier is. -/
theorem leaderFed_cleared : (bootDone leaderFedFree).fab.planes = [] := by
  rw [bootDone_eq]
  obtain h | h := wr_cases (at' pgMODE 0x50) (takeFree 32 leaderFedFree).1 (setStep 11 (takeFree 32 leaderFedFree).2)
  · rw [h]
    decide +kernel
  · rw [h]
    decide +kernel

/-- Refutes O40: the last phase evaluates the Enrus ports, and the statement does not ask that no port which goes DOWN then carries a stream of
the leader. In `leaderFed` one does: the stream ends early, and the plane that it has written is cleared, where the statement keeps the planes. -/
theorem not_bootAndRelease : ¬ Obligations.BootAndRelease := by
  unfold Obligations.BootAndRelease
  intro h
  obtain ⟨-, -, -, -, hphase, -⟩ := h leaderFed
  obtain ⟨t, ht, -, -, -, -, -, -, hplanes, -⟩ := hphase 3 [] (by decide +kernel) rfl (by decide) (by decide)
  have ht' : t = bootDone leaderFedFree := Host.Outcome.next.inj (ht.symm.trans leaderFed_released)
  rw [ht', leaderFed_cleared] at hplanes
  exact absurd hplanes (by decide +kernel)

end Sys2Proof.Machine
end

section
/-! The stream engines (R299, R300, R313, R314): reading and writing one, what their commands leave alone, and the ends of a stream. -/

namespace Sys2Proof.Machine

variable {s t u : State} {e : Bool} {c : Nat}

-- An engine read and written

theorem engOf_congr (h : t.cfc = s.cfc) (e : Bool) : engOf t e = engOf s e := by unfold engOf; rw [h]
@[simp] theorem engOf_wr (a : Nat) (v : Reg) (s : State) (e : Bool) : engOf (wr a v s) e = engOf s e := rfl
@[simp] theorem engOf_setEng_same (e : Bool) (g : Engine) (s : State) : engOf (setEng e g s) e = g := by cases e <;> rfl
@[simp] theorem engOf_setEng_other (e : Bool) (g : Engine) (s : State) : engOf (setEng e g s) (!e) = engOf s (!e) := by cases e <;> rfl
@[simp] theorem rd_setEng (e : Bool) (g : Engine) (s : State) (a : Nat) : rd (setEng e g s) a = rd s a := rfl
@[simp] theorem setEng_boot (e : Bool) (g : Engine) (s : State) : (setEng e g s).cfc.boot = s.cfc.boot := by cases e <;> rfl

-- The registers of an engine's page

theorem engBytesA_ne (e : Bool) : engBytesA e ≠ engStatA e ∧ engBytesA e ≠ irqA (engPage e) ∧ engBytesA e ≠ at' (engPage e) 0x50
    ∧ engBytesA e ≠ at' (engPage e) 0x4C ∧ engBytesA e ≠ statA pgIRP := by cases e <;> decide
theorem engStatA_ne (e : Bool) : engStatA e ≠ irqA (engPage e) ∧ engStatA e ≠ at' (engPage e) 0x50 ∧ engStatA e ≠ at' (engPage e) 0x4C
    ∧ engStatA e ≠ statA pgIRP := by cases e <;> decide
theorem irqA_ne_engine (e : Bool) : irqA (engPage e) ≠ at' (engPage e) 0x50 ∧ irqA (engPage e) ≠ statA pgIRP := by cases e <;> decide

-- What a command of an engine leaves alone

/-- Nothing differs but the engines, registers, the messages sent and the host interface's own record. -/
def onlyEngines (s t : State) : Prop :=
  { t with
    regs := s.regs, outbox := s.outbox, hst := s.hst, cfc := { t.cfc with eng0 := s.cfc.eng0, eng1 := s.cfc.eng1 } } = s

theorem onlyEngines_refl (s : State) : onlyEngines s s := rfl
theorem onlyEngines_trans (h : onlyEngines s t) (k : onlyEngines t u) : onlyEngines s u := by
  unfold onlyEngines at *; rw [← h, ← k]
theorem onlyEngines_of_onlyHost (h : onlyHost s t) : onlyEngines s t := by
  unfold onlyHost at h; unfold onlyEngines; rw [← h]
theorem onlyEngines_wr (h : onlyEngines s t) (a : Nat) (v : Reg) : onlyEngines s (wr a v t) := h
theorem onlyEngines_wrF (h : onlyEngines s t) (a lo n x : Nat) : onlyEngines s (wrF a lo n x t) := h
theorem onlyEngines_setEng (h : onlyEngines s t) (e : Bool) (g : Engine) : onlyEngines s (setEng e g t) := by cases e <;> exact h

theorem onlyEngines_enr (h : onlyEngines s t) : t.enr = s.enr := congrArg (·.enr) h
theorem onlyEngines_boot (h : onlyEngines s t) : t.cfc.boot = s.cfc.boot := congrArg (·.cfc.boot) h
theorem onlyEngines_stores (h : onlyEngines s t) : storesKept s t := by
  unfold onlyEngines at h; rw [← h]; exact ⟨rfl, rfl, rfl, rfl, rfl, rfl, rfl, rfl, rfl⟩
theorem onlyEngines_still (h : onlyEngines s t) (hs : streamStill s) : streamStill t := by
  unfold streamStill; rw [onlyEngines_enr h, onlyEngines_boot h]; exact hs
/-- Where no stream waits, nothing is left to be done after it (R303, R311). -/
theorem onlyEngines_streamAfter (h : onlyEngines s t) (hs : streamStill s) : streamAfter t = t :=
  streamAfter_of_still (onlyEngines_still h hs)

-- A stream closes

/-- An engine with no bytes that wait, back in IDLE. -/
def engineFreed (e : Bool) (s : State) : State :=
  let v := setEng e { Engine.zero with src := (engOf s e).src, started := (engOf s e).started } s
  if e then setBusy pgIRP false v else v

theorem engOf_engineFreed (e : Bool) (s : State) :
    engOf (engineFreed e s) e = { Engine.zero with src := (engOf s e).src, started := (engOf s e).started } := by cases e <;> rfl
theorem engOf_engineFreed_other (e : Bool) (s : State) : engOf (engineFreed e s) (!e) = engOf s (!e) := by cases e <;> rfl
theorem onlyEngines_engineFreed (e : Bool) (s : State) : onlyEngines s (engineFreed e s) := by cases e <;> rfl
theorem regsBut_engineFreed (e : Bool) (s : State) : regsBut [statA pgIRP] s (engineFreed e s) := by
  cases e
  · exact regsBut_of_regs rfl
  · exact regsBut_wrF (regsBut_of_regs (t := setEng true _ s) rfl) (by simp) _ _ _

/-- BUSY written as it was. -/
theorem rd_setBusy_of_free {p : Nat} (h : busy s p = false) (a : Nat) : rd (setBusy p false s) a = rd s a := by
  have hkept : setFld (rd s (statA p)) 0 1 0 = rd s (statA p) := by
    refine BitVec.eq_of_toNat_eq (Nat.eq_of_testBit_eq fun i => ?_)
    rw [setFld_testBit _ _ _ _ _ (by decide)]
    split
    · next hi =>
      obtain rfl : i = 0 := by omega
      exact h.symm
    · rfl
  unfold setBusy wrF
  rw [b2n_false, hkept, rd_wr]
  split
  · next ha => rw [ha]
  · rfl

theorem rd_engineFreed (h : busy s (engPage e) = false) (a : Nat) : rd (engineFreed e s) a = rd s a := by
  cases e
  · rfl
  · exact rd_setBusy_of_free (s := setEng true _ s) h a

theorem closeEngine_nil (hh : (engOf s e).held = []) : closeEngine e [] s = engineFreed e s := by
  unfold closeEngine engineFreed
  dsimp only
  rw [hh, if_neg (by simp), if_neg (by simp)]
  rfl
/-- Bytes left over begin the next stream. -/
theorem closeEngine_of_rest (hh : (engOf s e).held = []) {rest : List Byte} (hr : rest ≠ []) : closeEngine e rest s
    = setEng e { engOf (openEngine e (engOf s e).src rest (engineFreed e s)) e with ended := (engOf s e).ended }
        (openEngine e (engOf s e).src rest (engineFreed e s)) := by
  unfold closeEngine engineFreed
  dsimp only
  rw [hh, if_pos hr]
  rfl

theorem openEngine_keeps (e : Bool) (src : Nat) (bs : List Byte) (s : State) : onlyEngines s (openEngine e src bs s)
    ∧ regsBut [engBytesA e] s (openEngine e src bs s) ∧ (engOf (openEngine e src bs s) e).st = .header := by
  unfold openEngine
  dsimp only
  exact ⟨onlyEngines_wr (onlyEngines_setEng (onlyEngines_refl s) e _) _ _,
    regsBut_wr (regsBut_of_regs (t := setEng e _ s) rfl) (by simp) _, by rw [engOf_wr, engOf_setEng_same]⟩

theorem closeEngine_keeps (hh : (engOf s e).held = []) (rest : List Byte) : onlyEngines s (closeEngine e rest s)
    ∧ regsBut [engBytesA e, statA pgIRP] s (closeEngine e rest s) ∧ (engOf (closeEngine e rest s) e).st ≠ .sections := by
  have hfreed : regsBut [engBytesA e, statA pgIRP] s (engineFreed e s) := fun a ha => regsBut_engineFreed e s a fun h => ha (by simp_all)
  by_cases hr : rest = []
  · rw [hr, closeEngine_nil hh, engOf_engineFreed]
    exact ⟨onlyEngines_engineFreed e s, hfreed, by simp [Engine.zero]⟩
  · rw [closeEngine_of_rest hh hr]
    obtain ⟨honly, hregs, hst⟩ := openEngine_keeps e (engOf s e).src rest (engineFreed e s)
    refine ⟨onlyEngines_setEng (onlyEngines_trans (onlyEngines_engineFreed e s) honly) e _, fun a ha => ?_, ?_⟩
    · rw [rd_setEng]
      exact (hregs a fun h => ha (by simp_all)).trans (hfreed a ha)
    · rw [engOf_setEng_same]
      exact fun h => EngSt.noConfusion (hst.symm.trans h)

-- The end of a stream is recorded (R313, R314)

/-- ENG_STAT and IRQ_STAT tell of a stream that ended with a cause, or well with 0. -/
structure EndMarked (e : Bool) (c : Nat) (t : State) : Prop where
  cause : rdF t (engStatA e) 16 16 = c
  done  : rdB t (engStatA e) 4 = decide (c = 0)
  irq   : rdB t (irqA (engPage e)) (if c = 0 then 0 else 1) = true

theorem EndMarked.of_regs {l : List Nat} (h : EndMarked e c s) (hr : regsBut l s t) (hstat : engStatA e ∉ l) (hirq : irqA (engPage e) ∉ l) :
    EndMarked e c t := by
  obtain ⟨hcause, hdone, hset⟩ := h
  refine ⟨?_, ?_, ?_⟩
  · rw [rdF, hr _ hstat]; exact hcause
  · rw [rdB, hr _ hstat]; exact hdone
  · rw [rdB, hr _ hirq]; exact hset

theorem streamEnd_marked (e : Bool) (hc : c < 65536) (s : State) : EndMarked e c (streamEnd e c s) := by
  obtain ⟨hne, -⟩ := engStatA_ne e
  unfold streamEnd
  refine ⟨?_, ?_, ?_⟩
  · rw [rdF, rd_setIrq, rd_wrF_other _ hne]
    exact (rdF_wrF_same _ _ _ _ _ (by decide)).trans (Nat.mod_eq_of_lt hc)
  · rw [rdB, rd_setIrq, rd_wrF_other _ hne, ← rdB, rdB_wrF_other _ _ _ _ _ _ (by decide) (by decide),
      rdB_wrF_same _ _ _ _ _ _ (by decide) (by decide)]
    by_cases h : c = 0 <;> simp [h]
  · exact rdB_setIrq_same _ _ _ (by split <;> decide)
theorem onlyHost_streamEnd (e : Bool) (c : Nat) (s : State) : onlyHost s (streamEnd e c s) :=
  onlyHost_setIrq (onlyHost_wrF (onlyHost_wrF (onlyHost_refl s) _ _ _ _) _ _ _ _) _ _
theorem streamEnd_cfc (e : Bool) (c : Nat) (s : State) : (streamEnd e c s).cfc = s.cfc := congrArg (·.cfc) (onlyHost_streamEnd e c s)

-- A stream ends early (R295, R299)

theorem dropStream_bare (hp : (engOf s e).planes = []) (hk : (engOf s e).st = .header ∨ hKind (engOf s e).seen ≠ 3) (cause : Option Nat) :
    dropStream e cause s = s := by
  unfold dropStream
  dsimp only
  rw [hp, List.foldl_nil, if_neg]
  rcases hk with hk | hk <;> simp [hk]

theorem bootSourceFailed_of_none (hb : s.cfc.boot = none) (e : Bool) (src c : Nat) : bootSourceFailed e src c s = s := by
  unfold bootSourceFailed; rw [hb]

/-- The end of a stream that has written no plane is recorded. -/
def endNoted (e : Bool) (c : Nat) (s : State) : State := streamEnd e c (wr (at' (engPage e) 0x50) 0 s)

theorem endNoted_marked (e : Bool) (hc : c < 65536) (s : State) : EndMarked e c (endNoted e c s) := streamEnd_marked e hc _
theorem onlyEngines_endNoted (e : Bool) (c : Nat) (s : State) : onlyEngines s (endNoted e c s) :=
  onlyEngines_trans (onlyEngines_wr (onlyEngines_refl s) _ _) (onlyEngines_of_onlyHost (onlyHost_streamEnd e c _))
theorem engOf_endNoted (e f : Bool) (c : Nat) (s : State) : engOf (endNoted e c s) f = engOf s f := engOf_congr (streamEnd_cfc e c _) f

/-- The engine of a stream that ended early, with so many bytes of it still to come. -/
def Engine.discarding (g : Engine) (left : Option Nat) : Engine :=
  { g with
    st := .discard, seen := [], recs := [], planes := [], key := none, verdict := none, begun := false, left := left }

/-- The bytes to come of a stream that ended early are discarded. -/
def endDiscarding (e : Bool) (c : Nat) (left : Option Nat) (s : State) : State :=
  wr (engBytesA e) (BitVec.ofNat 32 (engOf s e).seen.length) (setEng e ((engOf s e).discarding left) (endNoted e c s))

theorem endDiscarding_marked (hc : c < 65536) (left : Option Nat) : EndMarked e c (endDiscarding e c left s) := by
  obtain ⟨hstat, hirq, -⟩ := engBytesA_ne e
  have hregs : regsBut [engBytesA e] (endNoted e c s) (endDiscarding e c left s) :=
    regsBut_wr (regsBut_of_regs (t := setEng e _ (endNoted e c s)) rfl) (by simp) _
  exact (endNoted_marked e hc s).of_regs hregs (by simpa using hstat.symm) (by simpa using hirq.symm)
theorem onlyEngines_endDiscarding (c : Nat) (left : Option Nat) : onlyEngines s (endDiscarding e c left s) :=
  onlyEngines_wr (onlyEngines_setEng (onlyEngines_endNoted e c s) e _) _ _
theorem engOf_endDiscarding (c : Nat) (left : Option Nat) : engOf (endDiscarding e c left s) e = (engOf s e).discarding left
    ∧ engOf (endDiscarding e c left s) (!e) = engOf s (!e) := by
  unfold endDiscarding
  rw [engOf_wr, engOf_wr, engOf_setEng_same, engOf_setEng_other, engOf_endNoted]
  exact ⟨rfl, rfl⟩

section
variable (hp : (engOf s e).planes = []) (hk : (engOf s e).st = .header ∨ hKind (engOf s e).seen ≠ 3) (hb : s.cfc.boot = none)
include hp hk hb

theorem endNoted_eq (c : Nat) :
    bootSourceFailed e (engOf s e).src c (streamEnd e c (wr (at' (engPage e) 0x50) 0 (dropStream e none s))) = endNoted e c s := by
  rw [dropStream_bare hp hk]
  exact bootSourceFailed_of_none ((onlyEngines_boot (onlyEngines_endNoted e c s)).trans hb) e _ c

/-- The three ways in which a stream without planes ends early: its source has ended, its bytes are there, or they are still to come. -/
theorem endEarly_cases (c : Nat) : endEarly e c s = closeEngine e [] (endNoted e c s)
    ∨ endEarly e c s = closeEngine e ((engOf s e).seen.drop (hTotal (engOf s e).seen))
        (wr (engBytesA e) (BitVec.ofNat 32 (hTotal (engOf s e).seen)) (endNoted e c s))
    ∨ ∃ left, endEarly e c s = endDiscarding e c left s := by
  unfold endEarly
  dsimp only
  rw [endNoted_eq hp hk hb]
  split
  · exact .inl rfl
  · split
    · exact .inr (.inl rfl)
    · exact .inr (.inr ⟨_, rfl⟩)

/-- A stream whose header is not whole ends early while its source is open. -/
theorem endEarly_of_short (hsrc : 1 < (engOf s e).src) (hend : (engOf s e).ended = false) (hlen : (engOf s e).seen.length < 256) (c : Nat) :
    endEarly e c s = endDiscarding e c none s := by
  have hshort : ¬ 256 ≤ (engOf s e).seen.length := by omega
  unfold endEarly
  dsimp only
  rw [endNoted_eq hp hk hb, if_neg (by simp [hend]; omega), if_neg (by simp [hshort]), if_neg (by simp [hshort])]
  rfl

/-- However a stream without planes ends early, its end is recorded and its sections are over. -/
theorem endEarly_ends (hh : (engOf s e).held = []) (hc : c < 65536) :
    onlyEngines s (endEarly e c s) ∧ EndMarked e c (endEarly e c s) ∧ (engOf (endEarly e c s) e).st ≠ .sections := by
  obtain ⟨hbytes, hbytesIrq, -⟩ := engBytesA_ne e
  obtain ⟨-, -, -, hstat⟩ := engStatA_ne e
  obtain ⟨-, hirq⟩ := irqA_ne_engine e
  have closed : ∀ (rest : List Byte) (v : State), onlyEngines s v → EndMarked e c v → (engOf v e).held = [] →
      onlyEngines s (closeEngine e rest v) ∧ EndMarked e c (closeEngine e rest v) ∧ (engOf (closeEngine e rest v) e).st ≠ .sections := by
    intro rest v honly hmark hheld
    obtain ⟨kept, kregs, kst⟩ := closeEngine_keeps hheld rest
    exact ⟨onlyEngines_trans honly kept, hmark.of_regs kregs (by simp [hbytes.symm, hstat]) (by simp [hbytesIrq.symm, hirq]), kst⟩
  have hnoted := onlyEngines_endNoted e c s
  have hmark := endNoted_marked e hc s
  have hheld : (engOf (endNoted e c s) e).held = [] := by rw [engOf_endNoted]; exact hh
  obtain h | h | ⟨left, h⟩ := endEarly_cases hp hk hb c
  · rw [h]; exact closed _ _ hnoted hmark hheld
  · rw [h]
    refine closed _ _ (onlyEngines_wr hnoted _ _) ?_ hheld
    exact hmark.of_regs (regsBut_wr (regsBut_refl _ _) (List.mem_singleton_self _) _) (by simpa using hbytes.symm) (by simpa using hbytesIrq.symm)
  · rw [h]
    refine ⟨onlyEngines_endDiscarding c left, endDiscarding_marked hc left, ?_⟩
    rw [(engOf_endDiscarding c left).1]
    exact fun k => EngSt.noConfusion k

end

end Sys2Proof.Machine
end

section
/-! The commands of a stream's source (R299, R300, R313, R314): START, IRP_DATA, IRP_MASTER, END, ABORT and the stall. -/

namespace Sys2Proof.Machine

variable {s : State} {e : Bool}

-- START (R300, R314)

theorem execEngStart_open (hr : reaches s pgIRP = true) (hg : gated s pgIRP = false) (hb : busy s pgIRP = false) (src : BitVec 2) :
    exec (.engStart true src) s = .next (irpStart src.toNat s) := by
  change Host.Outcome.next (posted pgIRP (fun s => irpStart src.toNat s) s) = _
  rw [posted_open hr hg hb]

theorem irpStart_of_closed {src : Nat} (hsrc : src < 2) (hready : devReady s = true) (hopen : streamOpen s.cfc.eng1 = false) :
    irpStart src s = setEng true (if s.cfc.eng1.src = 4 + src then { s.cfc.eng1 with started := true }
      else { Engine.zero with started := true, src := 4 + src }) s := by
  unfold irpStart
  dsimp only
  rw [if_neg (by omega), hready, hopen, if_neg (by decide), if_neg (by decide), apply_ite (setEng true · s)]
theorem irpStart_of_unready {src : Nat} (hsrc : src < 2) (hready : devReady s = false) : irpStart src s = setFault pgIRP 0x0416 s := by
  unfold irpStart
  dsimp only
  rw [if_neg (by omega), hready]; rfl

section
variable (hr : reaches s pgIRP = true) (hg : gated s pgIRP = false) (hb : busy s pgIRP = false) {src : BitVec 2} (hsrc : src.toNat < 2)
include hr hg hb hsrc

theorem engStart_opens (hready : devReady s = true) (hopen : streamOpen s.cfc.eng1 = false) : ∃ t, exec (.engStart true src) s = .next t
    ∧ t.cfc.eng1 = (if s.cfc.eng1.src = 4 + src.toNat then { s.cfc.eng1 with started := true }
        else { Engine.zero with started := true, src := 4 + src.toNat })
    ∧ { t with cfc := { t.cfc with eng1 := s.cfc.eng1 } } = s := by
  rw [execEngStart_open hr hg hb, irpStart_of_closed hsrc hready hopen]
  exact ⟨_, rfl, rfl, rfl⟩
theorem engStart_refused (hready : devReady s = false) : ∃ t, exec (.engStart true src) s = .next t ∧ rd t (errA pgIRP) = 0x0416
    ∧ regsBut [statA pgIRP, errA pgIRP] s t ∧ onlyRegs s t := by
  rw [execEngStart_open hr hg hb, irpStart_of_unready hsrc hready]
  obtain ⟨herr, -, hregs, honly⟩ := setFault_notes pgIRP 0x0416 s
  exact ⟨_, rfl, herr, hregs, honly⟩

end

-- IRP_DATA and IRP_MASTER (R313)

theorem execIrpDataWrite_open (hr : reaches s pgIRP = true) (hg : gated s pgIRP = false) (hb : busy s pgIRP = false)
    (hstarted : s.cfc.eng1.started = true) (hsrc : s.cfc.eng1.src = 4) (v : Reg) :
    exec (.irpDataWrite v) s = .next (feedBytes true 4 (toBytes 4 v) s) := by
  change Host.Outcome.next (irpDataWrite v s) = _
  unfold irpDataWrite
  rw [posted_open hr hg hb, hstarted, hsrc]; rfl

theorem toBytes4_ne_nil (v : Reg) : toBytes 4 v ≠ [] := List.ne_nil_of_length_pos (by rw [toBytes_length]; decide)

theorem bcastTake_of_none (hb : s.enr.bcast = none) (src : Nat) (bs : List Byte) : bcastTake src bs s = s := by
  unfold bcastTake; rw [hb]

/-- The bytes of an open stream are appended. -/
theorem feedBytes_appends {src : Nat} {bs : List Byte} (hbs : bs ≠ []) (hst : (engOf s e).st = .header ∨ (engOf s e).st = .sections)
    (hsrc : (engOf s e).src = src) (hb : s.enr.bcast = none) :
    feedBytes e src bs s = setEng e { engOf s e with seen := (engOf s e).seen ++ bs } s := by
  unfold feedBytes
  dsimp only
  rw [if_neg hbs]
  obtain hst | hst := hst
  · rw [hst]; exact (if_pos hsrc).trans (bcastTake_of_none (s := setEng e _ s) hb src bs)
  · rw [hst]; exact (if_pos hsrc).trans (bcastTake_of_none (s := setEng e _ s) hb src bs)

theorem feedBytes_begins {src : Nat} {bs : List Byte} (hbs : bs ≠ []) (hst : (engOf s e).st = .idle) :
    feedBytes e src bs s = openEngine e src bs s := by
  unfold feedBytes
  dsimp only
  rw [if_neg hbs, hst]

section
variable (hr : reaches s pgIRP = true) (hg : gated s pgIRP = false) (hb : busy s pgIRP = false) (hstarted : s.cfc.eng1.started = true)
  (hsrc : s.cfc.eng1.src = 4)
include hr hg hb hstarted hsrc

theorem irpDataWrite_appends (v : Reg) (hcast : s.enr.bcast = none) (hst : s.cfc.eng1.st = .header ∨ s.cfc.eng1.st = .sections) :
    ∃ t, exec (.irpDataWrite v) s = .next t ∧ t.cfc.eng1 = { s.cfc.eng1 with seen := s.cfc.eng1.seen ++ toBytes 4 v }
      ∧ { t with cfc := { t.cfc with eng1 := s.cfc.eng1 } } = s := by
  rw [execIrpDataWrite_open hr hg hb hstarted hsrc, feedBytes_appends (s := s) (e := true) (toBytes4_ne_nil v) hst hsrc hcast]
  exact ⟨_, rfl, rfl, rfl⟩
theorem irpDataWrite_begins (v : Reg) (hst : s.cfc.eng1.st = .idle) :
    ∃ t, exec (.irpDataWrite v) s = .next t ∧ t.cfc.eng1.st = .header ∧ t.cfc.eng1.seen = toBytes 4 v ∧ t.cfc.eng1.started = true
      ∧ rd t (engBytesA true) = 0 ∧ regsBut [engBytesA true] s t
      ∧ { t with regs := s.regs, cfc := { t.cfc with eng1 := s.cfc.eng1 } } = s := by
  rw [execIrpDataWrite_open hr hg hb hstarted hsrc, feedBytes_begins (s := s) (e := true) (toBytes4_ne_nil v) hst]
  exact ⟨_, rfl, rfl, rfl, hstarted, rd_wr_same _ _ _, (openEngine_keeps true 4 (toBytes 4 v) s).2.1, rfl⟩

end

theorem irpMasterWrite_holds {v w : Reg} (hr : reaches s pgIRP = true) (hg : gated s pgIRP = false)
    (hw : writtenValue s (at' pgIRP 0x64) v = (w, false)) (hopen : ¬(streamOpen s.cfc.eng1 = true ∧ s.cfc.eng1.src = 5)) :
    ∃ t, exec (.irpMasterWrite v) s = .next t ∧ rd t (at' pgIRP 0x64) = w ∧ regsBut [at' pgIRP 0x64] s t ∧ onlyRegs s t := by
  have heq : irpMasterWrite v s = wr (at' pgIRP 0x64) w s := by
    unfold irpMasterWrite
    rw [guarded_open hr hg, if_neg (by simpa using hopen), writeReg, hw]; rfl
  refine ⟨_, congrArg Host.Outcome.next heq, rd_wr_same _ _ _, regsBut_wr (regsBut_refl _ s) (by simp) w, onlyRegs_wr (onlyRegs_refl s) _ _⟩

-- END, ABORT and the stall (R299, R314)

theorem sourceEnds_idle (h : (engOf s e).st = .idle) : sourceEnds e s = setEng e { engOf s e with ended := false, started := false } s := by
  unfold sourceEnds
  dsimp only
  rw [h]
theorem sourceEnds_discard (h : (engOf s e).st = .discard) :
    sourceEnds e s = closeEngine e [] (setEng e { engOf s e with ended := true, started := false } s) := by
  unfold sourceEnds
  dsimp only
  rw [h]

/-- An engine without an open stream is left with its source closed. -/
theorem sourceEnds_closed (hh : (engOf s e).held = []) (hst : (engOf s e).st = .idle ∨ (engOf s e).st = .discard)
    (hb : busy s (engPage e) = false) :
    (engOf (sourceEnds e s) e).st = .idle ∧ (engOf (sourceEnds e s) e).started = false ∧ engOf (sourceEnds e s) (!e) = engOf s (!e)
      ∧ (∀ a, rd (sourceEnds e s) a = rd s a) ∧ onlyEngines s (sourceEnds e s) := by
  obtain hst | hst := hst
  · rw [sourceEnds_idle hst, engOf_setEng_same, engOf_setEng_other]
    exact ⟨hst, rfl, rfl, fun _ => rfl, onlyEngines_setEng (onlyEngines_refl s) e _⟩
  · rw [sourceEnds_discard hst, closeEngine_nil (by rw [engOf_setEng_same]; exact hh), engOf_engineFreed, engOf_engineFreed_other,
      engOf_setEng_same, engOf_setEng_other]
    exact ⟨rfl, rfl, rfl, fun a => rd_engineFreed (s := setEng e _ s) hb a,
      onlyEngines_trans (onlyEngines_setEng (onlyEngines_refl s) e _) (onlyEngines_engineFreed e _)⟩

theorem execEngEnd_open (hr : reaches s (engPage e) = true) (hg : gated s (engPage e) = false) (hb : busy s (engPage e) = false)
    (h1 : 1 < (engOf s e).src) (h3 : (engOf s e).src ≠ 3) : exec (.engEnd e) s = .next (streamAfter (sourceEnds e s)) := by
  change Host.Outcome.next (posted (engPage e) (engEndCmd e) s) = _
  rw [posted_open hr hg hb, engEndCmd, if_neg (by simp [h3]; omega)]

/-- END of an engine without an open stream closes its source. -/
theorem engEnd_holds (hs : streamStill s) (hh : (engOf s e).held = []) (hr : reaches s (engPage e) = true) (hg : gated s (engPage e) = false)
    (hb : busy s (engPage e) = false) (hst : (engOf s e).st = .idle ∨ (engOf s e).st = .discard) (h1 : 1 < (engOf s e).src)
    (h3 : (engOf s e).src ≠ 3) :
    ∃ t, exec (.engEnd e) s = .next t ∧ (engOf t e).st = .idle ∧ (engOf t e).started = false ∧ engOf t (!e) = engOf s (!e)
      ∧ (∀ a, rd t a = rd s a) ∧ storesKept s t := by
  obtain ⟨hidle, hstarted, hother, hregs, honly⟩ := sourceEnds_closed hh hst hb
  refine ⟨sourceEnds e s, ?_, hidle, hstarted, hother, hregs, onlyEngines_stores honly⟩
  rw [execEngEnd_open hr hg hb h1 h3, onlyEngines_streamAfter honly hs]

section
variable (hs : streamStill s) (hst : (engOf s e).st = .header) (hsrc : 1 < (engOf s e).src) (hend : (engOf s e).ended = false)
  (hlen : (engOf s e).seen.length < 256) (hp : (engOf s e).planes = []) (hb : s.cfc.boot = none)
include hs hst hsrc hend hlen hp hb

theorem streamAfter_endEarly_of_short (c : Nat) : streamAfter (endEarly e c s) = endDiscarding e c none s := by
  rw [endEarly_of_short hp (.inl hst) hb hsrc hend hlen, onlyEngines_streamAfter (onlyEngines_endDiscarding c none) hs]

/-- ABORT ends a stream whose header is not whole. -/
theorem execEngAbort_of_short (hr : reaches s (engPage e) = true) (hg : gated s (engPage e) = false) (hbusy : busy s (engPage e) = false) :
    exec (.engAbort e) s = .next (endDiscarding e 0x040F none s) := by
  change Host.Outcome.next (posted (engPage e) (engAbortCmd e) s) = _
  have hshort : trailerIn (engOf s e) = false := by simp [trailerIn, show ¬ 256 ≤ (engOf s e).seen.length by omega]
  rw [posted_open hr hg hbusy, engAbortCmd, hst, hshort]
  exact congrArg Host.Outcome.next (streamAfter_endEarly_of_short hs hst hsrc hend hlen hp hb _)

/-- A second without a byte does the same. -/
theorem execStreamStall_of_short : exec (.streamStall e) s = .next (endDiscarding e 0x040B none s) := by
  change execStreamStall e s = _
  unfold execStreamStall
  dsimp only
  rw [if_neg (by simp; omega), hst]
  dsimp only
  rw [if_pos hlen, streamAfter_endEarly_of_short hs hst hsrc hend hlen hp hb]

end

theorem execStreamStall_discard (hs : streamStill s) (hh : (engOf s e).held = []) (hst : (engOf s e).st = .discard) (hsrc : 1 < (engOf s e).src) :
    exec (.streamStall e) s = .next (engineFreed e s) := by
  change execStreamStall e s = _
  unfold execStreamStall
  dsimp only
  rw [if_neg (by simp; omega), hst]
  dsimp only
  rw [closeEngine_nil hh, onlyEngines_streamAfter (onlyEngines_engineFreed e s) hs]

theorem engAbort_holds (hs : streamStill s) (hsrc : 1 < (engOf s e).src) (hr : reaches s (engPage e) = true)
    (hg : gated s (engPage e) = false) (hbusy : busy s (engPage e) = false) (hst : (engOf s e).st = .header)
    (hend : (engOf s e).ended = false) (hlen : (engOf s e).seen.length < 256) (hp : (engOf s e).planes = []) (hb : s.cfc.boot = none) :
    ∃ t, exec (.engAbort e) s = .next t ∧ (engOf t e).st = .discard
      ∧ (engOf t e).left = none ∧ (engOf t e).seen = [] ∧ rdF t (engStatA e) 16 16 = 0x040F ∧ rdB t (engStatA e) 4 = false
      ∧ rdB t (irqA (engPage e)) 1 = true ∧ (engOf t (!e)) = engOf s (!e) ∧ storesKept s t := by
  obtain ⟨heng, hother⟩ := engOf_endDiscarding (s := s) (e := e) 0x040F none
  obtain ⟨hcause, hdone, hirq⟩ := endDiscarding_marked (s := s) (e := e) (c := 0x040F) (by decide) none
  refine ⟨_, execEngAbort_of_short hs hst hsrc hend hlen hp hb hr hg hbusy, ?_, ?_, ?_, hcause, hdone, hirq, hother,
    onlyEngines_stores (onlyEngines_endDiscarding _ _)⟩ <;> rw [heng] <;> rfl

theorem streamStall_holds (hs : streamStill s) (hh : (engOf s e).held = []) (hsrc : 1 < (engOf s e).src) :
    ((engOf s e).st = .header → (engOf s e).ended = false → (engOf s e).seen.length < 256 →
        (engOf s e).planes = [] → s.cfc.boot = none → ∃ t, exec (.streamStall e) s = .next t ∧ (engOf t e).st = .discard
          ∧ rdF t (engStatA e) 16 16 = 0x040B ∧ rdB t (irqA (engPage e)) 1 = true ∧ storesKept s t)
      ∧ ((engOf s e).st = .discard → ∃ t, exec (.streamStall e) s = .next t ∧ (engOf t e).st = .idle
          ∧ regsBut [statA pgIRP] s t ∧ storesKept s t) := by
  refine ⟨fun hst hend hlen hp hb => ?_, fun hst => ?_⟩
  · obtain ⟨hcause, -, hirq⟩ := endDiscarding_marked (s := s) (e := e) (c := 0x040B) (by decide) none
    refine ⟨_, execStreamStall_of_short hs hst hsrc hend hlen hp hb, ?_, hcause, hirq, onlyEngines_stores (onlyEngines_endDiscarding _ _)⟩
    rw [(engOf_endDiscarding _ none).1]; rfl
  · refine ⟨_, execStreamStall_discard hs hh hst hsrc, ?_, regsBut_engineFreed e s, onlyEngines_stores (onlyEngines_engineFreed e s)⟩
    rw [engOf_engineFreed]; rfl

end Sys2Proof.Machine
end

section
/-! The header of a stream (R295): what its checks read, and what stands where it is accepted or refused. -/

namespace Sys2Proof.Machine

variable {s t : State} {e : Bool}

-- What the checks of a header read

/-- The registers that the checks of a header read: SYS_STAT, CFG_BOOT_STAT, OTP_RESOLVED and MGMT_MODE. -/
def headerRegs : List Nat := [0x040, bootStatA, at' pgOTP 0x44, 0x1040]

/-- Both states give a header's checks the same. -/
structure SameChecks (s t : State) : Prop where
  boot   : t.cfc.boot = s.cfc.boot
  booted : t.cfc.booted = s.cfc.booted
  sec    : t.sec = s.sec
  regs   : ∀ a ∈ headerRegs, rd t a = rd s a

namespace SameChecks

variable (h : SameChecks s t)
include h

theorem rdB_eq {a : Nat} (ha : a ∈ headerRegs) (i : Nat) : rdB t a i = rdB s a i := by rw [rdB, h.regs a ha]; rfl
theorem rdF_eq {a : Nat} (ha : a ∈ headerRegs) (lo n : Nat) : rdF t a lo n = rdF s a lo n := by
  rw [rdF, h.regs a ha]; rfl
theorem devIndex_eq : devIndex t = devIndex s := h.rdF_eq (by decide) _ _
theorem sealed_eq : sealed t = sealed s := by
  unfold sealed modeOf
  rw [h.rdF_eq (by decide)]
theorem otpRead_eq (w : Nat) : otpRead t w = otpRead s w := by unfold otpRead otpCode; rw [h.sec]
theorem otpWord_eq (w : Nat) : otpWord t w = otpWord s w := by unfold otpWord; rw [h.otpRead_eq]
theorem genValid_eq (b g : Nat) : genValid t b g = genValid s b g := by
  unfold genValid
  simp only [h.otpRead_eq, funext h.otpWord_eq]
theorem otpData_eq (b k : Nat) (d : Word) : otpData t b k d = otpData s b k d := by
  unfold otpData otpGen
  rw [h.rdB_eq (by decide), h.rdF_eq (by decide)]
  simp only [h.otpWord_eq]
theorem signerHash_eq (k : Nat) : signerHash t k = signerHash s k := by
  unfold signerHash
  simp only [h.otpData_eq]
theorem signerSet_eq (k : Nat) : signerSet t k = signerSet s k := by unfold signerSet; rw [h.signerHash_eq]
theorem signerRevoked_eq (k : Nat) : signerRevoked t k = signerRevoked s k := by
  unfold signerRevoked
  simp only [h.genValid_eq, h.otpWord_eq]
theorem versionNow_eq : versionNow t = versionNow s := by
  unfold versionNow versionCount otpBlank otpCode
  rw [h.sec]
theorem hiddenKey_eq (base : Nat) : hiddenKey t base = hiddenKey s base := by
  unfold hiddenKey
  rw [funext h.otpRead_eq]
theorem storeKey_eq : storeKey t = storeKey s := by
  unfold storeKey fromDus dus
  rw [h.sealed_eq, h.hiddenKey_eq]
theorem usableKey_eq (base : Nat) : usableKey t base = usableKey s base := by
  unfold usableKey keySet otpBlank otpCode
  rw [h.hiddenKey_eq, h.sec]
theorem fleetKey_eq : fleetKey t = fleetKey s := by
  unfold fleetKey
  rw [h.sealed_eq, h.usableKey_eq]
theorem streamKey_eq (bs : List Byte) : streamKey t bs = streamKey s bs := by
  unfold streamKey
  rw [h.fleetKey_eq]
theorem kindOk_eq (e : Bool) (src kind : Nat) : kindOk t e src kind = kindOk s e src kind := by
  unfold kindOk devReady bootFailed
  rw [h.boot, h.booted, h.rdB_eq (by decide), h.rdB_eq (by decide), h.rdB_eq (by decide)]
theorem headerCheck_eq (e : Bool) (src : Nat) (bs : List Byte) : headerCheck t e src bs = headerCheck s e src bs := by
  unfold headerCheck
  dsimp only
  rw [h.devIndex_eq, h.kindOk_eq, h.signerSet_eq, h.signerHash_eq, h.signerRevoked_eq, h.versionNow_eq, h.fleetKey_eq, h.streamKey_eq]

end SameChecks

theorem sameChecks_refl (s : State) : SameChecks s s := ⟨rfl, rfl, rfl, fun _ _ => rfl⟩
theorem SameChecks.wr (h : SameChecks s t) {a : Nat} (ha : a ∉ headerRegs) (v : Reg) : SameChecks s (wr a v t) :=
  ⟨h.boot, h.booted, h.sec, fun b hb => (rd_wr_other t (by rintro rfl; exact ha hb) v).trans (h.regs b hb)⟩
theorem SameChecks.setEng (h : SameChecks s t) (e : Bool) (g : Engine) : SameChecks s (setEng e g t) := by
  obtain ⟨hboot, hbooted, hsec, hregs⟩ := h
  cases e <;> exact ⟨hboot, hbooted, hsec, hregs⟩
theorem SameChecks.onlyFab {u : State} (h : SameChecks s t) (hu : onlyFab t u) : SameChecks s u := by
  obtain ⟨hboot, hbooted, hsec, hregs⟩ := h
  have hcfc : u.cfc = t.cfc := congrArg (·.cfc) hu
  have hrd : u.regs = t.regs := congrArg (·.regs) hu
  have hsec' : u.sec = t.sec := congrArg (·.sec) hu
  exact ⟨by rw [hcfc, hboot], by rw [hcfc, hbooted], hsec'.trans hsec, fun a ha => (rd_congr hrd a).trans (hregs a ha)⟩

-- The header taken

theorem reach_of_held {n : Nat} (h : n ≤ (engOf s e).seen.length) : reach e n s = (s, true) := by
  unfold reach
  exact if_pos h

theorem planBcast_of_follower (h : e = true ∨ rdF s (at' pgENRG 0x40) 3 3 ≠ devIndex s) : planBcast e s = s := by
  unfold planBcast
  dsimp only
  rw [if_neg]
  rcases h with h | h <;> simp [h]

/-- The registers that tell of a header: the kind, the version and the tag, the bytes taken. -/
def headerNoted (e : Bool) (s : State) : State :=
  wr (engBytesA e) 256 (wr (at' (engPage e) 0x4C)
    (BitVec.ofNat 32 (leField ((engOf s e).seen.take 256) 0x18 2 * 2 ^ 16 + leField ((engOf s e).seen.take 256) 0x16 2))
    (wrF (engStatA e) 5 3 (hKind ((engOf s e).seen.take 256)) s))
theorem headerNoted_cfc (e : Bool) (s : State) : (headerNoted e s).cfc = s.cfc := by
  unfold headerNoted
  rw [wr_cfc, wr_cfc, wrF_cfc]

theorem regsBut_headerNoted (e : Bool) (s : State) : regsBut [engStatA e, at' (engPage e) 0x4C, engBytesA e] s (headerNoted e s) := by
  unfold headerNoted
  exact regsBut_wr (regsBut_wr (regsBut_wrF (regsBut_refl _ s) (by simp) _ _ _) (by simp) _) (by simp) _
theorem onlyEngines_headerNoted (e : Bool) (s : State) : onlyEngines s (headerNoted e s) :=
  onlyEngines_wr (onlyEngines_wr (onlyEngines_wrF (onlyEngines_refl s) _ _ _ _) _ _) _ _
theorem engOf_headerNoted (e f : Bool) (s : State) : engOf (headerNoted e s) f = engOf s f :=
  engOf_congr (headerNoted_cfc e s) f
theorem rd_headerNoted_engBytes (e : Bool) (s : State) : rd (headerNoted e s) (engBytesA e) = 256 := by
  unfold headerNoted
  exact rd_wr_same _ _ _
theorem rdF_headerNoted_kind (e : Bool) (s : State) :
    rdF (headerNoted e s) (engStatA e) 5 3 = hKind ((engOf s e).seen.take 256) % 8 := by
  obtain ⟨hbytes, -⟩ := engBytesA_ne e
  obtain ⟨-, -, htag, -⟩ := engStatA_ne e
  unfold headerNoted
  rw [rdF, rd_wr_other _ hbytes.symm, rd_wr_other _ htag, ← rdF]
  exact rdF_wrF_same _ _ _ _ _ (by decide)
theorem sameChecks_headerNoted (e : Bool) (s : State) : SameChecks s (headerNoted e s) := by
  have hnot : ∀ f, engStatA f ∉ headerRegs ∧ at' (engPage f) 0x4C ∉ headerRegs ∧ engBytesA f ∉ headerRegs := by decide
  obtain ⟨hstat, htag, hbytes⟩ := hnot e
  exact (((sameChecks_refl s).wr hstat _).wr htag _).wr hbytes _

/-- The engine of a stream whose header is accepted. -/
def Engine.accepted (g : Engine) (key : Option (BitVec 256)) : Engine := { g with st := .sections, pos := 256, key := key }

section
variable (hlen : 256 ≤ (engOf s e).seen.length) (hboot : s.cfc.boot = none)
  (hfollow : e = true ∨ rdF s (at' pgENRG 0x40) 3 3 ≠ devIndex s)
include hfollow

theorem planBcast_headerNoted : planBcast e (headerNoted e s) = headerNoted e s := by
  refine planBcast_of_follower (hfollow.imp_right fun h => ?_)
  have hne : ∀ f, at' pgENRG 0x40 ∉ [engStatA f, at' (engPage f) 0x4C, engBytesA f] := by decide
  rw [rdF, regsBut_headerNoted e s _ (hne e), (sameChecks_headerNoted e s).devIndex_eq]
  exact h

include hlen hboot

theorem takeHeader_refused {c : Nat} (hc : headerCheck s e (engOf s e).src ((engOf s e).seen.take 256) = some c) (h409 : c ≠ 0x0409) :
    takeHeader e s = endEarly e c (headerNoted e s) := by
  unfold takeHeader
  rw [reach_of_held hlen]
  dsimp only
  rw [if_neg (by decide), ← headerNoted, headerNoted_cfc, hboot, if_neg (by simp), planBcast_headerNoted hfollow,
    (sameChecks_headerNoted e s).headerCheck_eq, hc]
  exact congrArg (endEarly e c) (if_neg h409)

theorem takeHeader_accepted (hc : headerCheck s e (engOf s e).src ((engOf s e).seen.take 256) = none)
    (hkind : hKind ((engOf s e).seen.take 256) = 2) :
    takeHeader e s = setEng e ((engOf s e).accepted
        (if hEncrypted ((engOf s e).seen.take 256) then streamKey s ((engOf s e).seen.take 256) else none))
      (wr (at' (engPage e) 0x50) 0 (headerNoted e s)) := by
  unfold takeHeader
  rw [reach_of_held hlen]
  dsimp only
  have hnot : ∀ f, at' (engPage f) 0x50 ∉ headerRegs := by decide
  rw [if_neg (by decide), ← headerNoted, headerNoted_cfc, hboot, if_neg (by simp), planBcast_headerNoted hfollow,
    (sameChecks_headerNoted e s).headerCheck_eq, hc]
  dsimp only
  rw [hkind, if_neg (by simp), if_neg (by decide), ((sameChecks_headerNoted e s).wr (hnot e) 0).streamKey_eq]
  rfl

end

/-- Where the header of a stream is there, its sections open or it ends with the first failing check. -/
theorem streamHeader_holds (hs : streamStill s) (hboot : s.cfc.boot = none) (hh : (engOf s e).held = []) (hst : (engOf s e).st = .header)
    (hlen : 256 ≤ (engOf s e).seen.length) (hfollow : e = true ∨ rdF s (at' pgENRG 0x40) 3 3 ≠ devIndex s) :
    (headerCheck s e (engOf s e).src ((engOf s e).seen.take 256) = none → hKind ((engOf s e).seen.take 256) = 2 →
        ∃ t, exec (.streamHeader e) s = .next t
          ∧ engOf t e = (engOf s e).accepted
              (if hEncrypted ((engOf s e).seen.take 256) then streamKey s ((engOf s e).seen.take 256) else none)
          ∧ rd t (engBytesA e) = 256 ∧ rdF t (engStatA e) 5 3 = 2 ∧ engOf t (!e) = engOf s (!e) ∧ storesKept s t)
      ∧ ∀ c, headerCheck s e (engOf s e).src ((engOf s e).seen.take 256) = some c → c < 65536 → c ≠ 0x0409 → (engOf s e).planes = [] →
          ∃ t, exec (.streamHeader e) s = .next t ∧ EndMarked e c t ∧ (engOf t e).st ≠ .sections ∧ storesKept s t := by
  have hexec : ∀ t, takeHeader e s = t → onlyEngines s t → exec (.streamHeader e) s = .next t := fun t ht honly => by
    change execStreamHeader e s = _
    rw [execStreamHeader, if_pos hst, ht, onlyEngines_streamAfter honly hs]
  refine ⟨fun hc hkind => ?_, fun c hc hlt h409 hp => ?_⟩
  · have honly := onlyEngines_setEng (onlyEngines_wr (onlyEngines_headerNoted e s) (at' (engPage e) 0x50) 0) e ((engOf s e).accepted
      (if hEncrypted ((engOf s e).seen.take 256) then streamKey s ((engOf s e).seen.take 256) else none))
    obtain ⟨-, -, hbytes, -⟩ := engBytesA_ne e
    obtain ⟨-, hstat, -⟩ := engStatA_ne e
    refine ⟨_, hexec _ (takeHeader_accepted hlen hboot hfollow hc hkind) honly, engOf_setEng_same _ _ _, ?_, ?_, ?_,
      onlyEngines_stores honly⟩
    · rw [rd_setEng, rd_wr_other _ hbytes, rd_headerNoted_engBytes]
    · rw [rdF, rd_setEng, rd_wr_other _ hstat, ← rdF, rdF_headerNoted_kind, hkind]
    · rw [engOf_setEng_other, engOf_wr, engOf_headerNoted]
  · have hnoted := engOf_headerNoted e e s
    obtain ⟨honly, hmark, hsec⟩ := endEarly_ends (s := headerNoted e s) (e := e) (c := c) (by rw [hnoted]; exact hp)
      (by rw [hnoted]; exact .inl hst) (by rw [headerNoted_cfc]; exact hboot) (by rw [hnoted]; exact hh) hlt
    have honly := onlyEngines_trans (onlyEngines_headerNoted e s) honly
    exact ⟨_, hexec _ (takeHeader_refused hlen hboot hfollow hc h409) honly, hmark, hsec, onlyEngines_stores honly⟩

end Sys2Proof.Machine
end

section
/-! The sections of a stream (R289 to R293, R296): where one begins and ends, and its records and blocks. -/

namespace Sys2Proof.Machine

variable {s t : State} {e : Bool} {h : List Byte} {ty : Nat}

/-- A section stands whole at the place that the stream has reached, with the header `h`. -/
structure SectionHere (g : Engine) (h : List Byte) : Prop where
  st    : g.st = .sections
  begun : g.begun = false
  fits  : g.pos + 32 ≤ trailerAt g
  head  : h = regionBytes g g.pos 32
  good  : badSection (hKind g.seen) g.count h = false
  ends  : g.pos + 32 + secLen h ≤ trailerAt g
  held  : g.pos + 32 + secLen h ≤ g.seen.length

/-- An engine whose section has begun. -/
def Engine.inSection (g : Engine) : Engine := { g with begun := true, count := g.count + 1 }
/-- An engine past its section of `len` bytes of payload. -/
def Engine.pastSection (g : Engine) (len : Nat) : Engine := { g with begun := false, pos := g.pos + 32 + len }
/-- An engine whose section enters a plane, which is one of the stream's. -/
def Engine.entering (g : Engine) (n p : Nat) : Engine :=
  { g with into := n, planes := if g.planes.contains (n, p) then g.planes else g.planes ++ [(n, p)] }
/-- An engine with the records of a section, taken for this device or passed over. -/
def Engine.withRecords (g : Engine) (mine : Bool) (l : List (Nat × Reg)) : Engine :=
  { g with regs := g.regs + l.length, recs := if mine then g.recs ++ l else g.recs }

/-- The section at the engine's place has begun. -/
def sectionBegun (e : Bool) (s : State) : State :=
  wr (engBytesA e) (BitVec.ofNat 32 ((engOf s e).pos + 32)) (setEng e (engOf s e).inSection s)
/-- It has ended, with a payload of `len` bytes. -/
def sectionEnded (e : Bool) (len : Nat) (s : State) : State :=
  wr (engBytesA e) (BitVec.ofNat 32 ((engOf s e).pos + 32 + len)) (setEng e ((engOf s e).pastSection len) s)

theorem engOf_sectionBegun (e : Bool) (s : State) :
    engOf (sectionBegun e s) e = (engOf s e).inSection := by
  unfold sectionBegun; rw [engOf_wr, engOf_setEng_same]
theorem engOf_sectionEnded (e : Bool) (len : Nat) (s : State) :
    engOf (sectionEnded e len s) e = (engOf s e).pastSection len := by
  unfold sectionEnded; rw [engOf_wr, engOf_setEng_same]
theorem onlyEngines_sectionBegun (e : Bool) (s : State) : onlyEngines s (sectionBegun e s) :=
  onlyEngines_wr (onlyEngines_setEng (onlyEngines_refl s) e _) _ _
theorem onlyEngines_sectionEnded (e : Bool) (len : Nat) (s : State) : onlyEngines s (sectionEnded e len s) :=
  onlyEngines_wr (onlyEngines_setEng (onlyEngines_refl s) e _) _ _
theorem regsBut_sectionBegun (e : Bool) (s : State) : regsBut [engBytesA e] s (sectionBegun e s) :=
  regsBut_wr (regsBut_of_regs (t := setEng e _ s) rfl) (by simp) _
theorem regsBut_sectionEnded (e : Bool) (len : Nat) (s : State) : regsBut [engBytesA e] s (sectionEnded e len s) :=
  regsBut_wr (regsBut_of_regs (t := setEng e _ s) rfl) (by simp) _
theorem sameChecks_sectionBegun (e : Bool) (s : State) : SameChecks s (sectionBegun e s) := by
  have hnot : ∀ f, engBytesA f ∉ headerRegs := by decide
  exact ((sameChecks_refl s).setEng e _).wr (hnot e) _

/-- The place that an ended section leaves is its engine's own. -/
theorem wr_setEng_eq_sectionEnded {pos : Nat} (hpos : (engOf t e).pos = pos) {len : Nat} :
    wr (engBytesA e) (BitVec.ofNat 32 (pos + 32 + len)) (setEng e { engOf t e with begun := false, pos := pos + 32 + len } t)
      = sectionEnded e len t := by
  subst hpos; rfl

-- A section begins

section
variable (hh : SectionHere (engOf s e) h) (hty : leField h 0 1 = ty)
include hh hty

theorem beginSection_of_skipped (hskip : 2 < ty ∨ (leField h 8 1).testBit (devIndex s) = false) : beginSection e ty s = sectionBegun e s := by
  obtain ⟨-, -, hfits, rfl, hgood, hends, hheld⟩ := hh
  unfold beginSection
  dsimp only
  rw [if_neg (by omega), if_neg (by omega), reach_of_held (by omega)]
  dsimp only
  rw [if_neg (by decide), if_neg (by simp [hty]), if_neg (by simp [hgood]; omega), if_pos (by rcases hskip with hs | hs <;> simp [hs])]
  rfl

theorem beginSection_of_plane {n p : Nat} {u : State} (hlow : ¬ 2 < ty) (hmine : (leField h 8 1).testBit (devIndex s) = true)
    (hn : n = physOf s (leField h 3 1)) (hp : p = if ty = 2 then 16 else leField h 2 1) (hclear : (basinOf s n).mapClear = false)
    (hu : beginPlane (b2n e) n p s = some u) (heng : engOf u e = engOf s e) :
    beginSection e ty s = sectionBegun e (setEng e ((engOf s e).entering n p) u) := by
  obtain ⟨-, -, hfits, rfl, hgood, hends, hheld⟩ := hh
  subst hn hp
  unfold beginSection
  dsimp only
  rw [if_neg (by omega), if_neg (by omega), reach_of_held (by omega)]
  dsimp only
  rw [if_neg (by decide), if_neg (by simp [hty]), if_neg (by simp [hgood]; omega), if_neg (by simp [hlow, hmine]), if_neg (by simp [hclear]), hu]
  dsimp only
  rw [engOf_setEng_same, heng]
  unfold sectionBegun
  rw [engOf_setEng_same]
  rfl

end

/-- A section that begins and is whole ends in the same step. -/
theorem takeSection_of_begun (hst : (engOf s e).st = .sections) (hbegun : (engOf s e).begun = false) {v : State} (hv : beginSection e ty s = v)
    (hvst : (engOf v e).st = .sections) (hvbegun : (engOf v e).begun = true) : takeSection e ty s = finishSection e ty v := by
  unfold takeSection
  rw [if_neg (by simp [hst]), hbegun, if_neg Bool.false_ne_true, hv]
  rw [if_pos (by simp [hvst, hvbegun])]

-- A section ends

section
variable (hheld : (engOf s e).pos + 32 + secLen h ≤ (engOf s e).seen.length) (hhead : h = regionBytes (engOf s e) (engOf s e).pos 32)
include hheld hhead

theorem finishSection_reg (hty : leField h 0 1 = 3) {l : List (Nat × Reg)}
    (hl : l = regRecords (regionBytes (engOf s e) ((engOf s e).pos + 32) (secLen h))) (hgood : badRecord (engOf s e).regs l = none) :
    finishSection e 3 s = sectionEnded e (secLen h)
      (setEng e ((engOf s e).withRecords ((leField h 8 1).testBit (devIndex s)) l) s) := by
  subst hhead hl
  unfold finishSection
  dsimp only
  rw [if_neg (by simp [hty]), reach_of_held hheld]
  dsimp only
  rw [if_neg (by decide), hgood]
  exact wr_setEng_eq_sectionEnded (congrArg Engine.pos (engOf_setEng_same e (Engine.withRecords _ _ _) s))

theorem finishSection_store (hty : leField h 0 1 = 4) {payload : List Byte}
    (hp : payload = regionBytes (engOf s e) ((engOf s e).pos + 32) (secLen h)) :
    finishSection e 4 s = sectionEnded e (secLen h) (writeSlot (hSlot (engOf s e).seen) payload s) := by
  subst hhead hp
  unfold finishSection
  dsimp only
  rw [if_neg (by simp [hty]), reach_of_held hheld]
  dsimp only
  rw [if_neg (by decide)]
  rfl

theorem finishSection_plane (hty : leField h 0 1 = ty) (hlow : ty = 1 ∨ ty = 2) {payload : List Byte}
    (hp : payload = regionBytes (engOf s e) ((engOf s e).pos + 32) (secLen h)) {p : Nat} (hplane : p = if ty = 2 then 16 else leField h 2 1)
    (hmine : (leField h 8 1).testBit (devIndex s) = true) (heng : engOf (finishPlane (engOf s e).into p h payload s) e = engOf s e) :
    finishSection e ty s = sectionEnded e (secLen h) (finishPlane (engOf s e).into p h payload s) := by
  have hwritten : (if (leField h 8 1).testBit (devIndex s) = true then finishPlane (engOf s e).into p h payload s else s)
      = finishPlane (engOf s e).into p h payload s := if_pos hmine
  subst hhead hp hplane
  unfold finishSection
  dsimp only
  rw [if_neg (by simp [hty]), reach_of_held hheld]
  dsimp only
  rw [if_neg (by decide), hwritten]
  obtain rfl | rfl := hlow
  · exact wr_setEng_eq_sectionEnded (congrArg Engine.pos heng)
  · exact wr_setEng_eq_sectionEnded (congrArg Engine.pos heng)

end

-- Records (R292)

section
variable (hh : SectionHere (engOf s e) h)
include hh

/-- A section that is not stored in a plane begins and ends in one step. -/
theorem takeSection_of_skipped (hty : leField h 0 1 = ty) (hskip : 2 < ty ∨ (leField h 8 1).testBit (devIndex s) = false) :
    takeSection e ty s = finishSection e ty (sectionBegun e s) := by
  have heng := engOf_sectionBegun e s
  exact takeSection_of_begun hh.st hh.begun (beginSection_of_skipped hh hty hskip) (by rw [heng]; exact hh.st) (by rw [heng]; rfl)

theorem takeSection_reg {l : List (Nat × Reg)} (hty : leField h 0 1 = 3)
    (hl : l = regRecords (regionBytes (engOf s e) ((engOf s e).pos + 32) (secLen h))) (hgood : badRecord (engOf s e).regs l = none) :
    takeSection e 3 s = sectionEnded e (secLen h)
      (setEng e ((engOf s e).inSection.withRecords ((leField h 8 1).testBit (devIndex s)) l) (sectionBegun e s)) := by
  have heng := engOf_sectionBegun e s
  have hfinish := finishSection_reg (s := sectionBegun e s) (e := e) (h := h) (by rw [heng]; exact hh.held) (by rw [heng]; exact hh.head) hty
    (l := l) (by rw [heng]; exact hl) (by rw [heng]; exact hgood)
  rw [takeSection_of_skipped hh hty (.inl (by decide)), hfinish, heng, (sameChecks_sectionBegun e s).devIndex_eq]

theorem takeSection_store {payload : List Byte} (hty : leField h 0 1 = 4)
    (hp : payload = regionBytes (engOf s e) ((engOf s e).pos + 32) (secLen h)) :
    takeSection e 4 s = sectionEnded e (secLen h) (writeSlot (hSlot (engOf s e).seen) payload (sectionBegun e s)) := by
  have heng := engOf_sectionBegun e s
  have hfinish := finishSection_store (s := sectionBegun e s) (e := e) (h := h) (by rw [heng]; exact hh.held) (by rw [heng]; exact hh.head) hty
    (payload := payload) (by rw [heng]; exact hp)
  rw [takeSection_of_skipped hh hty (.inl (by decide)), hfinish, heng]
  rfl

theorem regSection_holds (hs : streamStill s) {l : List (Nat × Reg)} (hty : leField h 0 1 = 3)
    (hl : l = regRecords (regionBytes (engOf s e) ((engOf s e).pos + 32) (secLen h))) (hgood : badRecord (engOf s e).regs l = none) :
    ∃ t, exec (.regSection e) s = .next t
      ∧ (engOf t e).recs = (if (leField h 8 1).testBit (devIndex s) then (engOf s e).recs ++ l else (engOf s e).recs)
      ∧ (engOf t e).regs = (engOf s e).regs + l.length ∧ (engOf t e).pos = (engOf s e).pos + 32 + secLen h
      ∧ (engOf t e).count = (engOf s e).count + 1 ∧ regsBut [engBytesA e] s t ∧ storesKept s t := by
  have htake := takeSection_reg hh hty hl hgood
  generalize hv : setEng e ((engOf s e).inSection.withRecords ((leField h 8 1).testBit (devIndex s)) l) (sectionBegun e s) = v at htake
  have honly : onlyEngines s v := hv ▸ onlyEngines_setEng (onlyEngines_sectionBegun e s) e _
  have hregs : regsBut [engBytesA e] s v := hv ▸ regsBut_sectionBegun e s
  have heng : engOf (sectionEnded e (secLen h) v) e
      = ((engOf s e).inSection.withRecords ((leField h 8 1).testBit (devIndex s)) l).pastSection (secLen h) := by
    rw [engOf_sectionEnded, ← hv, engOf_setEng_same]
  have honly := onlyEngines_trans honly (onlyEngines_sectionEnded e (secLen h) v)
  exact ⟨_, congrArg Host.Outcome.next ((congrArg Machine.streamAfter htake).trans (onlyEngines_streamAfter honly hs)), congrArg Engine.recs heng,
    congrArg Engine.regs heng, congrArg Engine.pos heng, congrArg Engine.count heng,
    regsBut_trans hregs (regsBut_sectionEnded e _ v), onlyEngines_stores honly⟩

end

-- Blocks (R293, R385)

theorem mem_tins_self {α : Type} (k : Nat) (v : α) (t : Tab α) : (k, v) ∈ tins k v t := by
  induction t with
  | nil => exact List.mem_singleton_self _
  | cons q t ih =>
    unfold tins
    split
    · exact List.mem_cons_self
    · exact List.mem_cons_of_mem _ ih
theorem mem_tins_of_mem {α : Type} {q : Nat × α} {t : Tab α} (h : q ∈ t) (k : Nat) (v : α) : q ∈ tins k v t := by
  induction t with
  | nil => cases h
  | cons r t ih =>
    unfold tins
    split
    · exact List.mem_cons_of_mem _ h
    · obtain rfl | h := List.mem_cons.1 h
      · exact List.mem_cons_self
      · exact List.mem_cons_of_mem _ (ih h)
theorem mem_terase_of_ne {α : Type} {q : Nat × α} {t : Tab α} (h : q ∈ t) {k : Nat} (hk : q.1 ≠ k) : q ∈ terase k t := by
  induction t with
  | nil => cases h
  | cons r t ih =>
    unfold terase
    obtain rfl | h := List.mem_cons.1 h
    · rw [if_neg (Ne.symm hk)]; exact List.mem_cons_self
    · split
      · exact ih h
      · exact List.mem_cons_of_mem _ (ih h)

/-- Each block of an image stands in its slot, sealed. -/
theorem mem_writeSlot {slot b : Nat} {bs : List Byte} (hb : b < (bs.length + 4095) / 4096) (s : State) :
    (blockKey slot b, sealBlock s slot b ((bs.drop (4096 * b)).take 4096)) ∈ (writeSlot slot bs s).cfc.blocks := by
  refine foldl_of_hit (P := fun m => (blockKey slot b, sealBlock s slot b ((bs.drop (4096 * b)).take 4096)) ∈ m)
    (List.mem_range.2 hb) (fun m => mem_tins_self _ _ _) (fun m i _ hi hm => ?_) s.cfc.blocks
  exact mem_tins_of_mem (mem_terase_of_ne hm (by unfold blockKey; omega)) _ _

theorem engOf_writeSlot (slot : Nat) (bs : List Byte) (s : State) (e : Bool) : engOf (writeSlot slot bs s) e = engOf s e := by
  cases e <;> rfl
theorem storesKept_trans {u : State} (h : storesKept s t) (k : storesKept t u) : storesKept s u := by
  unfold storesKept at *; simp_all
theorem storesKept_writeSlot (slot : Nat) (bs : List Byte) (s : State) : storesKept s (writeSlot slot bs s) :=
  ⟨rfl, rfl, rfl, rfl, rfl, rfl, rfl, rfl, rfl⟩
theorem streamStill_writeSlot (slot : Nat) (bs : List Byte) (hs : streamStill s) : streamStill (writeSlot slot bs s) := hs
theorem sectionEnded_blocks (e : Bool) (len : Nat) (s : State) : (sectionEnded e len s).cfc.blocks = s.cfc.blocks := by cases e <;> rfl
theorem sectionBegun_counts (e : Bool) (s : State) : (sectionBegun e s).cfc.counts = s.cfc.counts := by cases e <;> rfl

theorem sealBlock_congr (hc : SameChecks s t) (hcounts : t.cfc.counts = s.cfc.counts) (slot b : Nat) (bs : List Byte) :
    sealBlock t slot b bs = sealBlock s slot b bs := by
  unfold sealBlock blockIv
  rw [hc.storeKey_eq, hcounts]

theorem storeImageSection_holds (hs : streamStill s) (hh : SectionHere (engOf s e) h) {payload : List Byte} (hty : leField h 0 1 = 4)
    (hp : payload = regionBytes (engOf s e) ((engOf s e).pos + 32) (secLen h)) :
    ∃ t, exec (.storeImageSection e) s = .next t ∧ (engOf t e).pos = (engOf s e).pos + 32 + secLen h
      ∧ (engOf t e).count = (engOf s e).count + 1
      ∧ (∀ b, b < (payload.length + 4095) / 4096 →
          (blockKey (hSlot (engOf s e).seen) b, sealBlock s (hSlot (engOf s e).seen) b ((payload.drop (4096 * b)).take 4096)) ∈ t.cfc.blocks)
      ∧ regsBut [engBytesA e] s t ∧ storesKept s t := by
  have htake := takeSection_store hh hty hp
  have hbegun := onlyEngines_sectionBegun e s
  have hseal := sealBlock_congr (sameChecks_sectionBegun e s) (sectionBegun_counts e s) (hSlot (engOf s e).seen)
  have hblock := fun b hb => mem_writeSlot (slot := hSlot (engOf s e).seen) (b := b) (bs := payload) hb (sectionBegun e s)
  have hstill := streamStill_writeSlot (hSlot (engOf s e).seen) payload (onlyEngines_still hbegun hs)
  have hstores := storesKept_trans (onlyEngines_stores hbegun) (storesKept_writeSlot (hSlot (engOf s e).seen) payload (sectionBegun e s))
  have hregs : regsBut [engBytesA e] s (writeSlot (hSlot (engOf s e).seen) payload (sectionBegun e s)) := regsBut_sectionBegun e s
  have heng := engOf_writeSlot (hSlot (engOf s e).seen) payload (sectionBegun e s) e
  generalize writeSlot (hSlot (engOf s e).seen) payload (sectionBegun e s) = v at *
  have honly := onlyEngines_sectionEnded e (secLen h) v
  have heng : engOf (sectionEnded e (secLen h) v) e = (engOf s e).inSection.pastSection (secLen h) := by
    rw [engOf_sectionEnded, heng, engOf_sectionBegun]
  refine ⟨_, congrArg Host.Outcome.next ((congrArg Machine.streamAfter htake).trans (onlyEngines_streamAfter honly hstill)),
    congrArg Engine.pos heng, congrArg Engine.count heng, fun b hb => ?_, regsBut_trans hregs (regsBut_sectionEnded e _ v),
    storesKept_trans hstores (onlyEngines_stores honly)⟩
  rw [sectionEnded_blocks, ← hseal]
  exact hblock b hb

end Sys2Proof.Machine
end

section
/-! The images of a section written into a basin's planes (R111, R112, R290, R291, R296). -/

namespace Sys2Proof.Machine

variable {s t u : State} {e : Bool} {h : List Byte} {n p : Nat}

-- What writing a plane leaves alone

theorem onlyFab_still (h : onlyFab s t) (hs : streamStill s) : streamStill t := by unfold onlyFab at h; rw [← h] at hs; exact hs
theorem onlyFab_engOf (h : onlyFab s t) (e : Bool) : engOf t e = engOf s e := engOf_congr (congrArg (·.cfc) h) e
theorem onlyEngines_fab (h : onlyEngines s t) : t.fab = s.fab := congrArg (·.fab) h
theorem onlyEngines_mem (h : onlyEngines s t) : t.mem = s.mem := congrArg (·.mem) h
theorem onlyEngines_drm (h : onlyEngines s t) : t.drm = s.drm := congrArg (·.drm) h

/-- Nothing differs but the planes' codewords and states. -/
def onlyPlanes (s t : State) : Prop := { t with fab := { t.fab with planes := s.fab.planes, planeSt := s.fab.planeSt } } = s

theorem onlyPlanes_refl (s : State) : onlyPlanes s s := rfl
theorem onlyPlanes_onlyFab (h : onlyPlanes s t) : onlyFab s t := by unfold onlyPlanes at h; unfold onlyFab; rw [← h]
theorem onlyPlanes_frames (h : onlyPlanes s t) : t.fab.frames = s.fab.frames := congrArg (·.fab.frames) h
theorem onlyPlanes_withPlanes (h : onlyPlanes s t) (u : Tab Code → Tab Code) :
    onlyPlanes s (withFab (fun f => { f with planes := u f.planes }) t) := h
theorem onlyPlanes_setPlaneCode (h : onlyPlanes s t) (k p w : Nat) (c : Code) : onlyPlanes s (setPlaneCode k p w c t) :=
  onlyPlanes_withPlanes h (tput 0 _ c)
theorem onlyPlanes_clearPlane (h : onlyPlanes s t) (n p : Nat) : onlyPlanes s (clearPlane n p t) :=
  onlyPlanes_withPlanes h (List.filter _)

/-- Nothing differs but the frame codewords and what is lost without power: basins, crystals, ports, tags, lane and spine registers. -/
def onlyFrames (s t : State) : Prop :=
  { t with fab := { t.fab with
      frames := s.fab.frames, basins := s.fab.basins, crystals := s.fab.crystals, rows := s.fab.rows, lanes := s.fab.lanes
      tagRegs := s.fab.tagRegs, spines := s.fab.spines } } = s

theorem onlyFrames_refl (s : State) : onlyFrames s s := rfl
theorem onlyFrames_onlyFab (h : onlyFrames s t) : onlyFab s t := by unfold onlyFrames at h; unfold onlyFab; rw [← h]
theorem onlyFrames_planes (h : onlyFrames s t) : t.fab.planes = s.fab.planes := congrArg (·.fab.planes) h
theorem onlyFrames_withFrames (h : onlyFrames s t) (u : Tab Code → Tab Code) :
    onlyFrames s (withFab (fun f => { f with frames := u f.frames }) t) := h
theorem onlyFrames_clearFrame (h : onlyFrames s t) (n : Nat) : onlyFrames s (clearFrame n t) :=
  onlyFrames_withFrames h (tclear (512 * n) (512 * n + 512))
theorem onlyFrames_setBasin (h : onlyFrames s t) (n : Nat) (b : Basin) : onlyFrames s (setBasin n b t) := h
theorem onlyFrames_of_onlyVolatile (h : onlyVolatile s t) : onlyFrames s t := by
  unfold onlyVolatile at h; unfold onlyFrames; rw [← h]

/-- The states that a plane enters under a stream. -/
def underStream (v : PlaneInfo) : Prop := v.st = .loading ∨ v.st = .pending

theorem setPlaneInfo_of_stream {v : PlaneInfo} (hv : underStream v) (n p : Nat) (s : State) :
    setPlaneInfo n p v s = withFab (fun f => { f with planeSt := tput .zero (16 * n + p) v f.planeSt }) s := by
  unfold setPlaneInfo
  dsimp only
  rw [if_neg (by rcases hv with hv | hv <;> simp [hv])]
theorem setFrameInfo_of_stream {v : PlaneInfo} (hv : underStream v) (n : Nat) (s : State) :
    setFrameInfo n v s = setBasin n { basinOf s n with frame := v } s := by
  unfold setFrameInfo
  dsimp only
  rw [if_neg (by rcases hv with hv | hv <;> simp [hv])]
theorem onlyPlanes_setPlaneInfo {v : PlaneInfo} (hv : underStream v) (h : onlyPlanes s t) (n p : Nat) : onlyPlanes s (setPlaneInfo n p v t) := by
  rw [setPlaneInfo_of_stream hv]; exact h
theorem onlyFrames_setFrameInfo {v : PlaneInfo} (hv : underStream v) (h : onlyFrames s t) (n : Nat) : onlyFrames s (setFrameInfo n v t) := by
  rw [setFrameInfo_of_stream hv]; exact onlyFrames_setBasin h n _
theorem setPlaneInfo_planes {v : PlaneInfo} (hv : underStream v) (n p : Nat) (s : State) :
    (setPlaneInfo n p v s).fab.planes = s.fab.planes := by rw [setPlaneInfo_of_stream hv]; rfl
theorem setFrameInfo_frames {v : PlaneInfo} (hv : underStream v) (n : Nat) (s : State) :
    (setFrameInfo n v s).fab.frames = s.fab.frames := by rw [setFrameInfo_of_stream hv]; rfl

-- The crystals of a section

/-- A pan's part of the list lies in the pan. -/
theorem pan_of_mem {b : Prop} [Decidable b] {f : Nat → Bool} {p x : Nat}
    (hx : x ∈ if b then ((List.range 32).filter f).map (32 * p + ·) else []) : x / 32 = p := by
  split at hx
  · obtain ⟨c, hc, rfl⟩ := List.mem_map.1 hx
    have hc := List.mem_range.1 (List.mem_filter.1 hc).1
    omega
  · cases hx

theorem mem_sectionCrystals {h : List Byte} {x : Nat} (hx : x ∈ sectionCrystals h) : x < 512 := by
  unfold sectionCrystals at hx
  obtain ⟨p, hp, hx⟩ := List.mem_flatMap.1 hx
  have hp := List.mem_range.1 hp
  have hx := pan_of_mem hx
  omega

theorem nodup_sectionCrystals (h : List Byte) : (sectionCrystals h).Nodup := by
  unfold sectionCrystals
  refine List.nodup_flatMap.2 ⟨fun p _ => ?_, List.pairwise_lt_range.imp fun {p q} hpq x hx hy => ?_⟩
  · split
    · exact (List.nodup_range.filter _).map fun a b hab => by simpa using hab
    · exact List.nodup_nil
  · have hx := pan_of_mem hx
    have hy := pan_of_mem hy
    omega

-- A codeword written

theorem planeCode_setPlaneCode {k j q w v : Nat} (hp : p < 16) (hq : q < 16) (hw : w < 64) (hv : v < 64) (c : Code) (s : State) :
    planeCode (setPlaneCode j q v c s) k p w = if k = j ∧ p = q ∧ w = v then c else planeCode s k p w := by
  change tget 0 _ (tput 0 _ c s.fab.planes) = _
  rw [tget_tput]
  exact if_congr (by omega) rfl rfl

/-- Codeword `w` of an image, with its check bits (R290). -/
def imageCode (img : List Byte) (w : Nat) : Code := encCode (ofBytes 64 ((img.drop (8 * w)).take 8))

theorem planeCode_words {j q w m : Nat} (hp : p < 16) (hq : q < 16) (hw : w < 64) (c : Nat → Code) (k : Nat) (s : State) (hm : m ≤ 64) :
    planeCode ((List.range m).foldl (fun t v => setPlaneCode j p v (c v) t) s) k q w
      = if k = j ∧ q = p ∧ w < m then c w else planeCode s k q w := by
  induction m with
  | zero => simp
  | succ m ih =>
    rw [List.range_succ, List.foldl_append, List.foldl_cons, List.foldl_nil, planeCode_setPlaneCode hq hp hw (by omega), ih (by omega)]
    by_cases hwm : w = m
    · subst hwm; by_cases hk : k = j ∧ q = p <;> simp [hk]
    · rw [if_neg (by simp [hwm])]
      exact if_congr (by omega) rfl rfl

theorem writeImage_plane (hp : p < 16) (x : Nat) (img : List Byte) (s : State) : writeImage n p x img s
    = (List.range 36).foldl (fun t w => setPlaneCode (xk n x) p w (imageCode img w) t) s := if_neg (by omega)
theorem planeCode_writeImage {x q w k : Nat} (hp : p < 16) (hq : q < 16) (hw : w < 64) (img : List Byte) (s : State) :
    planeCode (writeImage n p x img s) k q w = if k = xk n x ∧ q = p ∧ w < 36 then imageCode img w else planeCode s k q w := by
  rw [writeImage_plane hp, planeCode_words hp hq hw _ k s (by decide)]
theorem frames_writeImage (n x : Nat) (img : List Byte) (s : State) :
    (writeImage n 16 x img s).fab.frames = tput 0 (xk n x) (encCode (ofBytes 64 (img.take 8))) s.fab.frames := by
  unfold writeImage
  rw [if_pos rfl]
  rfl
theorem onlyPlanes_writeImage (hp : p < 16) (hs : onlyPlanes s t) (x : Nat) (img : List Byte) : onlyPlanes s (writeImage n p x img t) := by
  unfold writeImage
  rw [if_neg (by omega)]
  exact List.foldlRecOn (motive := onlyPlanes s) _ _ hs fun _ hu w _ => onlyPlanes_setPlaneCode hu _ _ w _
theorem onlyFrames_writeImage (hs : onlyFrames s t) (x : Nat) (img : List Byte) : onlyFrames s (writeImage n 16 x img t) := by
  unfold writeImage
  rw [if_pos rfl]
  exact onlyFrames_withFrames hs (tput 0 (xk n x) _)

-- The images of a section

/-- Image `i` of a section, of `len` bytes; REPEAT gives every crystal the payload (R290). -/
def sectionImage (h payload : List Byte) (len i : Nat) : List Byte :=
  if bit (h.getD 1 0) 0 then payload else (payload.drop (len * i)).take len
/-- Images written into the crystals of a list. -/
def imagesWritten (n p : Nat) (img : Nat → List Byte) (l : List Nat) (s : State) : State :=
  l.zipIdx.foldl (fun t q => writeImage n p q.1 (img q.2) t) s

section
variable {img : Nat → List Byte} {l : List Nat} {i x : Nat}

theorem eq_of_zipIdx (hl : l.Nodup) (hi : l[i]? = some x) {q : Nat × Nat} (hq : q ∈ l.zipIdx) (hx : q.1 = x) : q = (x, i) := by
  have hq := List.mem_zipIdx_iff_getElem?.1 hq
  have hlt : i < l.length := (List.getElem?_eq_some_iff.1 hi).1
  exact Prod.ext hx ((List.getElem?_inj hlt hl).1 (hi.trans (hx ▸ hq.symm))).symm

theorem planeCode_imagesWritten {w : Nat} (hp : p < 16) (hw : w < 36) (hl : l.Nodup) (hi : l[i]? = some x) (s : State) :
    planeCode (imagesWritten n p img l s) (xk n x) p w = imageCode (img i) w := by
  refine foldl_of_hit (P := fun t => planeCode t (xk n x) p w = imageCode (img i) w) ((List.mem_zipIdx_iff_getElem? (x := (x, i))).2 hi)
    (fun t => ?_) (fun t q hq hne ht => ?_) s
  · rw [planeCode_writeImage hp hp (by omega), if_pos ⟨rfl, rfl, hw⟩]
  · rw [planeCode_writeImage hp hp (by omega), if_neg, ht]
    exact fun hk => hne (eq_of_zipIdx hl hi hq (by have := hk.1; unfold xk at this; omega))
theorem planeCode_imagesWritten_other {k q w : Nat} (hp : p < 16) (hq : q < 16) (hw : w < 64) (hl : ∀ x ∈ l, x < 512) (hk : k / 512 ≠ n ∨ q ≠ p)
    (s : State) : planeCode (imagesWritten n p img l s) k q w = planeCode s k q w := by
  refine List.foldlRecOn (motive := fun t => planeCode t k q w = planeCode s k q w) _ _ rfl fun t ht y hy => ?_
  have hlt := hl _ (List.fst_mem_of_mem_zipIdx hy)
  rw [planeCode_writeImage hp hq hw, if_neg, ht]
  rintro ⟨rfl, hqp, -⟩
  unfold xk at hk
  omega
theorem frames_imagesWritten (hl : l.Nodup) (hi : l[i]? = some x) (s : State) :
    tget 0 (xk n x) (imagesWritten n 16 img l s).fab.frames = encCode (ofBytes 64 ((img i).take 8)) := by
  refine foldl_of_hit (P := fun t : State => tget 0 (xk n x) t.fab.frames = encCode (ofBytes 64 ((img i).take 8)))
    ((List.mem_zipIdx_iff_getElem? (x := (x, i))).2 hi) (fun t => ?_) (fun t q hq hne ht => ?_) s
  · rw [frames_writeImage, tget_tput_same]
  · rw [frames_writeImage, tget_tput_other, ht]
    exact fun hk => hne (eq_of_zipIdx hl hi hq (by unfold xk at hk; omega))
theorem onlyPlanes_imagesWritten (hp : p < 16) (s : State) : onlyPlanes s (imagesWritten n p img l s) :=
  List.foldlRecOn (motive := onlyPlanes s) _ _ (onlyPlanes_refl s) fun _ ht _ _ => onlyPlanes_writeImage hp ht _ _
theorem onlyFrames_imagesWritten (s : State) : onlyFrames s (imagesWritten n 16 img l s) :=
  List.foldlRecOn (motive := onlyFrames s) _ _ (onlyFrames_refl s) fun _ ht _ _ => onlyFrames_writeImage ht _ _

end

-- A plane entered and filled

theorem beginPlane_blank (hp : p < 16) (hst : (planeInfo s n p).st = .blank) (e : Nat) :
    beginPlane e n p s = some (setPlaneInfo n p ⟨.loading, (planeInfo s n p).cause, some e⟩ (clearPlane n p s)) := by
  have hne : p ≠ 16 := by omega
  unfold beginPlane
  dsimp only
  rw [if_neg hne, hst, if_neg (by simp [hne])]
  simp [hne]
theorem beginPlane_frame_blank (hhalt : halted s n = true) (hst : (basinOf s n).frame.st = .blank) (e : Nat) :
    beginPlane e n 16 s = some (setFrameInfo n ⟨.loading, (basinOf s n).frame.cause, some e⟩ (clearFrame n (noTags n s))) := by
  unfold beginPlane
  dsimp only
  rw [if_pos rfl, hst, hhalt]
  rfl

theorem finishPlane_plane (hp : p < 16) (h payload : List Byte) (s : State) : finishPlane n p h payload s
    = setPlaneInfo n p { planeInfo (imagesWritten n p (sectionImage h payload 288) (sectionCrystals h) s) n p with st := .pending }
        (imagesWritten n p (sectionImage h payload 288) (sectionCrystals h) s) := by
  have hne : p ≠ 16 := by omega
  unfold finishPlane
  dsimp only
  rw [if_neg hne, imageLen, if_neg hne]
  rfl
theorem finishPlane_frame (h payload : List Byte) (s : State) : finishPlane n 16 h payload s
    = setFrameInfo n { (basinOf (imagesWritten n 16 (sectionImage h payload 8) (sectionCrystals h) s) n).frame with st := .pending }
        (imagesWritten n 16 (sectionImage h payload 8) (sectionCrystals h) s) := rfl

theorem planeCode_clearPlane {k q w : Nat} (hq : q < 16) (hw : w < 64) (hk : k / 512 ≠ n ∨ q ≠ p) (s : State) :
    planeCode (clearPlane n p s) k q w = planeCode s k q w := by
  refine (tget_filter 0 (fun a => !(512 * n ≤ a / 1024 && a / 1024 < 512 * n + 512 && a / 64 % 16 = p)) _ s.fab.planes).trans ?_
  rw [if_pos]
  · rfl
  · have hcrystal : (64 * (16 * k + q) + w) / 1024 = k := by omega
    have hplane : (64 * (16 * k + q) + w) / 64 % 16 = q := by omega
    simp only [hcrystal, hplane]
    simp
    omega

end Sys2Proof.Machine
end

section
/-! A section stored in a plane or a frame plane (R290, R291, R296), from its header to its last word. -/

namespace Sys2Proof.Machine

variable {s t u : State} {e : Bool} {h payload : List Byte} {n p ty : Nat}

/-- The plane of a section lies in the basin (R290). -/
theorem planeField_lt {kind count : Nat} (hgood : badSection kind count h = false) (hty : leField h 0 1 = 1) : leField h 2 1 < 16 := by
  unfold badSection at hgood
  simp [hty] at hgood
  omega

/-- The engine's section has begun, and enters a plane. -/
def sectionEntered (e : Bool) (n p : Nat) (u : State) : State := sectionBegun e (setEng e ((engOf u e).entering n p) u)
/-- The section is stored in the plane. -/
def sectionStored (e : Bool) (n p : Nat) (h payload : List Byte) (u : State) : State :=
  sectionEnded e (secLen h) (finishPlane n p h payload (sectionEntered e n p u))

theorem onlyEngines_sectionEntered (e : Bool) (n p : Nat) (u : State) : onlyEngines u (sectionEntered e n p u) :=
  onlyEngines_trans (onlyEngines_setEng (onlyEngines_refl u) e _) (onlyEngines_sectionBegun e (setEng e _ u))
theorem engOf_sectionEntered (e : Bool) (n p : Nat) (u : State) :
    engOf (sectionEntered e n p u) e = ((engOf u e).entering n p).inSection := by
  unfold sectionEntered
  rw [engOf_sectionBegun, engOf_setEng_same]
theorem sameChecks_sectionEntered (e : Bool) (n p : Nat) (hc : SameChecks s u) : SameChecks s (sectionEntered e n p u) := by
  have hnot : ∀ f, engBytesA f ∉ headerRegs := by decide
  exact ((hc.setEng e _).setEng e _).wr (hnot e) _
theorem mem_entering_planes (g : Engine) (n p : Nat) : (n, p) ∈ (g.entering n p).planes := by
  unfold Engine.entering
  dsimp only
  split
  · next hin => exact List.contains_iff_mem.1 hin
  · simp

section
variable (hfin : ∀ v, onlyFab v (finishPlane n p h payload v))
include hfin

theorem takeSection_of_plane (hh : SectionHere (engOf s e) h) (hty : leField h 0 1 = ty) (hlow : ty = 1 ∨ ty = 2)
    (hmine : (leField h 8 1).testBit (devIndex s) = true) (hn : n = physOf s (leField h 3 1)) (hp : p = if ty = 2 then 16 else leField h 2 1)
    (hclear : (basinOf s n).mapClear = false) (hpayload : payload = regionBytes (engOf s e) ((engOf s e).pos + 32) (secLen h))
    (hu : beginPlane (b2n e) n p s = some u) (hfab : onlyFab s u) : takeSection e ty s = sectionStored e n p h payload u := by
  have hengu := onlyFab_engOf hfab e
  have heng := engOf_sectionEntered e n p u
  have hbegin : beginSection e ty s = sectionEntered e n p u := by
    rw [beginSection_of_plane hh hty (by omega) hmine hn hp hclear hu hengu, ← hengu]; rfl
  have hsame := sameChecks_sectionEntered e n p ((sameChecks_refl s).onlyFab hfab)
  have hinto : (engOf (sectionEntered e n p u) e).into = n := by rw [heng]; rfl
  rw [hengu] at heng
  rw [takeSection_of_begun hh.st hh.begun hbegin (by rw [heng]; exact hh.st) (by rw [heng]; rfl),
    finishSection_plane (by rw [heng]; exact hh.held) (by rw [heng]; exact hh.head) hty hlow (payload := payload) (by rw [heng]; exact hpayload)
      hp (by rw [hsame.devIndex_eq]; exact hmine) (onlyFab_engOf (by rw [hinto]; exact hfin _) e), hinto]
  rfl

theorem sectionStored_engOf : engOf (sectionStored e n p h payload u) e = ((engOf u e).entering n p).inSection.pastSection (secLen h) := by
  unfold sectionStored
  rw [engOf_sectionEnded, onlyFab_engOf (hfin _), engOf_sectionEntered]
theorem sectionStored_still (hs : streamStill u) : streamStill (sectionStored e n p h payload u) :=
  onlyEngines_still (onlyEngines_sectionEnded e _ _) (onlyFab_still (hfin _) (onlyEngines_still (onlyEngines_sectionEntered e n p u) hs))
theorem sectionStored_kept : (sectionStored e n p h payload u).mem = u.mem ∧ (sectionStored e n p h payload u).drm = u.drm := by
  have hended := onlyEngines_sectionEnded e (secLen h) (finishPlane n p h payload (sectionEntered e n p u))
  have hentered := onlyEngines_sectionEntered e n p u
  have hfinished := hfin (sectionEntered e n p u)
  exact ⟨(onlyEngines_mem hended).trans ((congrArg (·.mem) hfinished).trans (onlyEngines_mem hentered)),
    (onlyEngines_drm hended).trans ((congrArg (·.drm) hfinished).trans (onlyEngines_drm hentered))⟩

end

theorem sectionStored_fab (e : Bool) (n p : Nat) (h payload : List Byte) (u : State) :
    (sectionStored e n p h payload u).fab = (finishPlane n p h payload (sectionEntered e n p u)).fab :=
  onlyEngines_fab (onlyEngines_sectionEnded e _ _)

-- A plane (R111, R290)

theorem onlyPlanes_finishPlane (hp : p < 16) (h payload : List Byte) (v : State) : onlyPlanes v (finishPlane n p h payload v) := by
  rw [finishPlane_plane hp]
  exact onlyPlanes_setPlaneInfo (.inr rfl) (onlyPlanes_imagesWritten hp v) n p
theorem planeInfo_finishPlane (hp : p < 16) (h payload : List Byte) (v : State) :
    (planeInfo (finishPlane n p h payload v) n p).st = .pending := by
  rw [finishPlane_plane hp, planeInfo_setPlaneInfo, if_pos rfl]
theorem planes_finishPlane (hp : p < 16) (h payload : List Byte) (v : State) : (finishPlane n p h payload v).fab.planes
    = (imagesWritten n p (sectionImage h payload 288) (sectionCrystals h) v).fab.planes := by
  rw [finishPlane_plane hp]
  exact setPlaneInfo_planes (.inr rfl) n p _
theorem planeCode_congr (ht : t.fab.planes = s.fab.planes) (k q w : Nat) : planeCode t k q w = planeCode s k q w := by
  unfold planeCode; rw [ht]

/-- A blank plane entered by a stream. -/
def planeEntered (e : Bool) (n p : Nat) (s : State) : State :=
  setPlaneInfo n p ⟨.loading, (planeInfo s n p).cause, some (b2n e)⟩ (clearPlane n p s)
theorem onlyPlanes_planeEntered (e : Bool) (n p : Nat) (s : State) : onlyPlanes s (planeEntered e n p s) :=
  onlyPlanes_setPlaneInfo (.inl rfl) (onlyPlanes_clearPlane (onlyPlanes_refl s) n p) n p
theorem planeCode_planeEntered {k q w : Nat} (hq : q < 16) (hw : w < 64) (hk : k / 512 ≠ n ∨ q ≠ p) (s : State) :
    planeCode (planeEntered e n p s) k q w = planeCode s k q w := by
  unfold planeEntered
  rw [planeCode_congr (setPlaneInfo_planes (.inl rfl) n p (clearPlane n p s)), planeCode_clearPlane hq hw hk]

section
variable (hp : p < 16)
include hp

theorem planeCode_sectionStored {i x w : Nat} (hi : (sectionCrystals h)[i]? = some x) (hw : w < 36) :
    planeCode (sectionStored e n p h payload u) (xk n x) p w = imageCode (sectionImage h payload 288 i) w := by
  rw [planeCode_congr ((congrArg Fabric.planes (sectionStored_fab e n p h payload u)).trans (planes_finishPlane hp h payload _)),
    planeCode_imagesWritten hp hw (nodup_sectionCrystals h) hi]
theorem planeCode_sectionStored_other {k q w : Nat} (hq : q < 16) (hw : w < 64) (hk : k / 512 ≠ n ∨ q ≠ p) :
    planeCode (sectionStored e n p h payload (planeEntered e n p s)) k q w = planeCode s k q w := by
  rw [planeCode_congr ((congrArg Fabric.planes (sectionStored_fab e n p h payload _)).trans (planes_finishPlane hp h payload _)),
    planeCode_imagesWritten_other hp hq hw (fun x hx => mem_sectionCrystals hx) hk,
    planeCode_congr (congrArg Fabric.planes (onlyEngines_fab (onlyEngines_sectionEntered e n p _))), planeCode_planeEntered hq hw hk]
theorem frames_sectionStored (s : State) :
    (sectionStored e n p h payload (planeEntered e n p s)).fab.frames = s.fab.frames := by
  rw [sectionStored_fab, onlyPlanes_frames (onlyPlanes_finishPlane hp h payload _), onlyEngines_fab (onlyEngines_sectionEntered e n p _),
    onlyPlanes_frames (onlyPlanes_planeEntered e n p s)]

end

section
variable (hs : streamStill s) (hh : SectionHere (engOf s e) h) (hmine : (leField h 8 1).testBit (devIndex s) = true)
  (hn : n = physOf s (leField h 3 1)) (hclear : (basinOf s n).mapClear = false)
  (hpayload : payload = regionBytes (engOf s e) ((engOf s e).pos + 32) (secLen h))
include hs hh hmine hn hclear hpayload

theorem planeSection_holds (hty : leField h 0 1 = 1) (hp : p = leField h 2 1) (hblank : (planeInfo s n p).st = .blank) :
    ∃ t, exec (.planeSection e) s = .next t
      ∧ (planeInfo t n p).st = .pending ∧ (engOf t e).pos = (engOf s e).pos + 32 + secLen h ∧ (engOf t e).count = (engOf s e).count + 1
      ∧ (n, p) ∈ (engOf t e).planes ∧ (engOf t e).begun = false
      ∧ (∀ i x w, (sectionCrystals h)[i]? = some x → w < 36 → planeCode t (xk n x) p w = imageCode (sectionImage h payload 288 i) w)
      ∧ (∀ k q w, q < 16 → w < 64 → (k / 512 ≠ n ∨ q ≠ p) → planeCode t k q w = planeCode s k q w)
      ∧ t.fab.frames = s.fab.frames ∧ t.mem = s.mem ∧ t.drm = s.drm := by
  have hlt : p < 16 := hp ▸ planeField_lt hh.good hty
  have hfin := fun v => onlyPlanes_onlyFab (onlyPlanes_finishPlane (n := n) hlt h payload v)
  have hfab := onlyPlanes_onlyFab (onlyPlanes_planeEntered e n p s)
  have htake : takeSection e 1 s = sectionStored e n p h payload (planeEntered e n p s) :=
    takeSection_of_plane hfin hh hty (.inl rfl) hmine hn hp hclear hpayload (beginPlane_blank hlt hblank _) hfab
  have heng := sectionStored_engOf (e := e) (u := planeEntered e n p s) hfin
  obtain ⟨hmem, hdrm⟩ := sectionStored_kept (e := e) (u := planeEntered e n p s) hfin
  rw [onlyFab_engOf hfab] at heng
  refine ⟨_, congrArg Host.Outcome.next ((congrArg Machine.streamAfter htake).trans
    (streamAfter_of_still (sectionStored_still hfin (onlyFab_still hfab hs)))), ?_, congrArg Engine.pos heng, congrArg Engine.count heng, ?_,
    congrArg Engine.begun heng, fun i x w hi hw => planeCode_sectionStored hlt hi hw,
    fun k q w hq hw hk => planeCode_sectionStored_other hlt hq hw hk, frames_sectionStored hlt s,
    hmem.trans (congrArg (·.mem) hfab), hdrm.trans (congrArg (·.drm) hfab)⟩
  · rw [planeInfo_congr (congrArg Fabric.planeSt (sectionStored_fab e n p h payload _)), planeInfo_finishPlane hlt]
  · exact (congrArg Engine.planes heng).symm ▸ mem_entering_planes (engOf s e) n p

end

-- A frame plane (R112, R290)

theorem onlyFrames_finishPlane (n : Nat) (h payload : List Byte) (v : State) : onlyFrames v (finishPlane n 16 h payload v) := by
  rw [finishPlane_frame]
  exact onlyFrames_setFrameInfo (.inr rfl) (onlyFrames_imagesWritten v) n
theorem frame_finishPlane (n : Nat) (h payload : List Byte) (v : State) : (basinOf (finishPlane n 16 h payload v) n).frame.st = .pending := by
  rw [finishPlane_frame, basinOf_setFrameInfo]
theorem frames_finishPlane (n : Nat) (h payload : List Byte) (v : State) : (finishPlane n 16 h payload v).fab.frames
    = (imagesWritten n 16 (sectionImage h payload 8) (sectionCrystals h) v).fab.frames := by
  rw [finishPlane_frame]
  exact setFrameInfo_frames (.inr rfl) n _

/-- A blank frame plane entered by a stream. -/
def frameEntered (e : Bool) (n : Nat) (s : State) : State :=
  setFrameInfo n ⟨.loading, (basinOf s n).frame.cause, some (b2n e)⟩ (clearFrame n (noTags n s))
theorem onlyFrames_frameEntered (e : Bool) (n : Nat) (s : State) : onlyFrames s (frameEntered e n s) :=
  onlyFrames_setFrameInfo (.inl rfl) (onlyFrames_clearFrame (onlyFrames_of_onlyVolatile (onlyVolatile_noTags (onlyVolatile_refl s) n)) n) n

section
variable (hs : streamStill s) (hh : SectionHere (engOf s e) h) (hmine : (leField h 8 1).testBit (devIndex s) = true)
  (hn : n = physOf s (leField h 3 1)) (hclear : (basinOf s n).mapClear = false)
  (hpayload : payload = regionBytes (engOf s e) ((engOf s e).pos + 32) (secLen h))
include hs hh hmine hn hclear hpayload

theorem frameSection_holds (hty : leField h 0 1 = 2) (hblank : (basinOf s n).frame.st = .blank) (hhalt : halted s n = true) :
    ∃ t, exec (.frameSection e) s = .next t
      ∧ (basinOf t n).frame.st = .pending ∧ (engOf t e).pos = (engOf s e).pos + 32 + secLen h ∧ (engOf t e).count = (engOf s e).count + 1
      ∧ (n, 16) ∈ (engOf t e).planes
      ∧ (∀ i x, (sectionCrystals h)[i]? = some x →
          tget 0 (xk n x) t.fab.frames = encCode (ofBytes 64 ((sectionImage h payload 8 i).take 8)))
      ∧ t.fab.planes = s.fab.planes ∧ t.mem = s.mem ∧ t.drm = s.drm := by
  have hfin := fun v => onlyFrames_onlyFab (onlyFrames_finishPlane n h payload v)
  have hfab := onlyFrames_onlyFab (onlyFrames_frameEntered e n s)
  have htake : takeSection e 2 s = sectionStored e n 16 h payload (frameEntered e n s) :=
    takeSection_of_plane hfin hh hty (.inr rfl) hmine hn rfl hclear hpayload (beginPlane_frame_blank hhalt hblank _) hfab
  have heng := sectionStored_engOf (e := e) (u := frameEntered e n s) hfin
  have hstored := sectionStored_fab e n 16 h payload (frameEntered e n s)
  obtain ⟨hmem, hdrm⟩ := sectionStored_kept (e := e) (u := frameEntered e n s) hfin
  rw [onlyFab_engOf hfab] at heng
  refine ⟨_, congrArg Host.Outcome.next ((congrArg Machine.streamAfter htake).trans
    (streamAfter_of_still (sectionStored_still hfin (onlyFab_still hfab hs)))), ?_, congrArg Engine.pos heng, congrArg Engine.count heng, ?_,
    fun i x hi => ?_, ?_, hmem.trans (congrArg (·.mem) hfab), hdrm.trans (congrArg (·.drm) hfab)⟩
  · rw [basinOf_congr hstored, frame_finishPlane]
  · exact (congrArg Engine.planes heng).symm ▸ mem_entering_planes (engOf s e) n 16
  · rw [hstored, frames_finishPlane, frames_imagesWritten (nodup_sectionCrystals h) hi]
  · rw [hstored, onlyFrames_planes (onlyFrames_finishPlane n h payload _), onlyEngines_fab (onlyEngines_sectionEntered e n 16 _),
      onlyFrames_planes (onlyFrames_frameEntered e n s)]

end

end Sys2Proof.Machine
end

section
/-! The trailer of a stream and the end of its signature check (R297, R298): a failing check, and what a verdict leaves. -/

namespace Sys2Proof.Machine

variable {s t : State} {e : Bool} {c : Nat}

-- The clock settings

theorem engBytesA_not_clock (e : Bool) : engBytesA e ∉ clockRegs := by cases e <;> decide
theorem statA_not_clock : statA pgIRP ∉ clockRegs := by decide
theorem irqA_not_clock (p : Nat) : irqA p ∉ clockRegs := fun h => by
  have hoff : ∀ a ∈ clockRegs, a % 0x1000 ≠ 0x14 := by decide
  refine hoff _ h ?_
  unfold irqA
  omega
theorem not_work_of_clock {a : Nat} (ha : a ∈ clockRegs) : workPage (a / 0x1000) = false := by
  have hall : ∀ a ∈ clockRegs, workPage (a / 0x1000) = false := by decide
  exact hall a ha

-- The trailer

/-- The trailer's bytes are taken. -/
def trailerTaken (e : Bool) (s : State) : State :=
  wr (engBytesA e) (BitVec.ofNat 32 (hTotal (engOf s e).seen - 96)) (setEng e { engOf s e with st := .verify } s)

theorem engOf_trailerTaken (e : Bool) (s : State) : engOf (trailerTaken e s) e = { engOf s e with st := .verify } := by
  unfold trailerTaken; rw [engOf_wr, engOf_setEng_same]
theorem onlyEngines_trailerTaken (e : Bool) (s : State) : onlyEngines s (trailerTaken e s) :=
  onlyEngines_wr (onlyEngines_setEng (onlyEngines_refl s) e _) _ _
theorem regsBut_trailerTaken (e : Bool) (s : State) : regsBut [engBytesA e] s (trailerTaken e s) :=
  regsBut_wr (regsBut_of_regs (t := setEng e _ s) rfl) (by simp) _
theorem rd_trailerTaken (e : Bool) (s : State) : rd (trailerTaken e s) (engBytesA e) = BitVec.ofNat 32 (hTotal (engOf s e).seen - 96) :=
  rd_wr_same _ _ _

/-- A stream without planes has failed its checks. -/
def trailerFailed (e : Bool) (c : Nat) (s : State) : State :=
  streamEnd e c (setEng e { engOf s e with planes := [], recs := [], verdict := some c } (wr (at' (engPage e) 0x50) 0 s))

theorem failStream_bare (hp : (engOf s e).planes = []) (hk : hKind (engOf s e).seen ≠ 3) (hb : s.cfc.boot = none) (c : Nat) :
    failStream e c s = trailerFailed e c s := by
  have hboot : (trailerFailed e c s).cfc.boot = none := by
    unfold trailerFailed
    rw [streamEnd_cfc, setEng_boot]; exact hb
  unfold failStream
  dsimp only
  rw [dropStream_bare hp (.inr hk), hp]
  exact bootSourceFailed_of_none hboot e _ c
theorem onlyEngines_trailerFailed (e : Bool) (c : Nat) (s : State) : onlyEngines s (trailerFailed e c s) :=
  onlyEngines_trans (onlyEngines_setEng (onlyEngines_wr (onlyEngines_refl s) _ _) e _) (onlyEngines_of_onlyHost (onlyHost_streamEnd e c _))
theorem trailerFailed_marked (e : Bool) (hc : c < 65536) (s : State) : EndMarked e c (trailerFailed e c s) := streamEnd_marked e hc _
theorem verdict_trailerFailed (e : Bool) (c : Nat) (s : State) : (engOf (trailerFailed e c s) e).verdict = some c := by
  unfold trailerFailed
  rw [engOf_congr (streamEnd_cfc e c _), engOf_setEng_same]

section
variable (hst : (engOf s e).st = .sections) (hbegun : (engOf s e).begun = false) (hpos : (engOf s e).pos = trailerAt (engOf s e))
  (hlen : hTotal (engOf s e).seen - 96 ≤ (engOf s e).seen.length)
include hst hbegun hpos hlen

theorem takeTrailer_good (hcheck : trailerCheck (engOf s e) = none) : takeTrailer e s = trailerTaken e s := by
  have hcheck : trailerCheck { engOf s e with st := .verify } = none := hcheck
  unfold takeTrailer
  dsimp only
  rw [if_neg (by simp [hst, hbegun, hpos]), reach_of_held hlen]
  dsimp only
  rw [if_neg (by decide), hcheck]
  rfl
theorem takeTrailer_count (hcheck : trailerCheck (engOf s e) = some 0x040A) (hsrc : 1 < (engOf s e).src) :
    takeTrailer e s = failStream e 0x040A (trailerTaken e s) := by
  have hcheck : trailerCheck { engOf s e with st := .verify } = some 0x040A := hcheck
  unfold takeTrailer
  dsimp only
  rw [if_neg (by simp [hst, hbegun, hpos]), reach_of_held hlen]
  dsimp only
  rw [if_neg (by decide), hcheck]
  dsimp only
  rw [if_pos rfl, if_neg (by omega)]
  rfl

/-- Where the trailer is there, the stream awaits its verification, or fails with the wrong count of sections. -/
theorem trailer_holds (hs : streamStill s) (hsrc : 1 < (engOf s e).src) :
    (trailerCheck (engOf s e) = none → ∃ t, exec (.trailer e) s = .next t ∧ engOf t e = { engOf s e with st := .verify }
        ∧ rd t (engBytesA e) = BitVec.ofNat 32 (hTotal (engOf s e).seen - 96) ∧ regsBut [engBytesA e] s t ∧ storesKept s t)
      ∧ (trailerCheck (engOf s e) = some 0x040A → (engOf s e).planes = [] → hKind (engOf s e).seen ≠ 3 → s.cfc.boot = none →
        ∃ t, exec (.trailer e) s = .next t ∧ (engOf t e).verdict = some 0x040A ∧ EndMarked e 0x040A t ∧ storesKept s t) := by
  have hexec : ∀ t, takeTrailer e s = t → onlyEngines s t → exec (.trailer e) s = .next t := fun t ht honly => by
    change Host.Outcome.next (Machine.streamAfter (takeTrailer e s)) = _
    rw [ht, onlyEngines_streamAfter honly hs]
  have htaken := onlyEngines_trailerTaken e s
  refine ⟨fun hcheck => ?_, fun hcheck hp hk hb => ?_⟩
  · exact ⟨_, hexec _ (takeTrailer_good hst hbegun hpos hlen hcheck) htaken, engOf_trailerTaken e s, rd_trailerTaken e s,
      regsBut_trailerTaken e s, onlyEngines_stores htaken⟩
  · have heng := engOf_trailerTaken e s
    have hfail := failStream_bare (s := trailerTaken e s) (e := e) (by rw [heng]; exact hp) (by rw [heng]; exact hk)
      ((onlyEngines_boot htaken).trans hb) 0x040A
    have honly := onlyEngines_trans htaken (onlyEngines_trailerFailed e 0x040A (trailerTaken e s))
    exact ⟨_, hexec _ ((takeTrailer_count hst hbegun hpos hlen hcheck hsrc).trans hfail) honly, verdict_trailerFailed _ _ _,
      trailerFailed_marked e (by decide) _, onlyEngines_stores honly⟩

end

-- The signature check ends

/-- The last byte of the stream is taken. -/
def streamWhole (e : Bool) (s : State) : State := wr (engBytesA e) (BitVec.ofNat 32 (hTotal (engOf s e).seen)) s

section
variable (hst : (engOf s e).st = .verify) (hlen : hTotal (engOf s e).seen = (engOf s e).seen.length)
include hlen

theorem beyond_of_whole (hsrc : 1 < (engOf s e).src) : beyond (engOf s e) = [] := by
  unfold beyond
  rw [if_neg (by omega), hlen, List.drop_length]

include hst

theorem takeSignature_of_verdict (hv : (engOf s e).verdict = some c) : takeSignature e s = closeEngine e (beyond (engOf s e)) (streamWhole e s) := by
  unfold takeSignature streamWhole
  rw [reach_of_held hlen.le]
  dsimp only
  rw [if_neg (by simp [hst]; omega), hv, if_pos Option.isSome_some, min_eq_left hlen.le]
theorem takeSignature_of_good (hv : (engOf s e).verdict = none) (hok : signatureOk (engOf s e) = true) :
    takeSignature e s = applyStream e (streamWhole e s) := by
  unfold takeSignature streamWhole
  rw [reach_of_held hlen.le]
  dsimp only
  rw [if_neg (by simp [hst]; omega), hv, if_neg (by simp), if_pos hok, min_eq_left hlen.le]

/-- A stream that has failed already ends, and leaves its engine idle. -/
theorem signatureVerified_of_verdict (hs : streamStill s) (hh : (engOf s e).held = []) (hsrc : 1 < (engOf s e).src)
    (hv : (engOf s e).verdict = some c) : ∃ t, exec (.signatureVerified e) s = .next t ∧ (engOf t e).st = .idle
      ∧ rd t (engBytesA e) = BitVec.ofNat 32 (hTotal (engOf s e).seen) ∧ regsBut [engBytesA e, statA pgIRP] s t ∧ storesKept s t := by
  obtain ⟨-, -, -, -, hbytes⟩ := engBytesA_ne e
  have honly : onlyEngines s (engineFreed e (streamWhole e s)) :=
    onlyEngines_trans (onlyEngines_wr (onlyEngines_refl s) _ _) (onlyEngines_engineFreed e _)
  have htake : takeSignature e s = engineFreed e (streamWhole e s) := by
    rw [takeSignature_of_verdict hst hlen hv, beyond_of_whole hlen hsrc]
    exact closeEngine_nil (s := streamWhole e s) hh
  have hfreed := regsBut_engineFreed e (streamWhole e s)
  have hregs : regsBut [engBytesA e, statA pgIRP] s (engineFreed e (streamWhole e s)) :=
    regsBut_trans (regsBut_wr (regsBut_refl _ s) (by simp) _) fun a ha => hfreed a fun h => ha (by simp_all)
  refine ⟨_, ?_, ?_, ?_, hregs, onlyEngines_stores honly⟩
  · change clocked s (Machine.streamAfter (takeSignature e s)) = _
    rw [htake, onlyEngines_streamAfter honly hs]
    refine clocked_of_regs fun a ha => hregs a fun h => ?_
    obtain rfl | h := List.mem_cons.1 h
    · exact engBytesA_not_clock e ha
    · exact statA_not_clock (List.mem_singleton.1 h ▸ ha)
  · rw [engOf_engineFreed]; rfl
  · rw [hfreed _ (by simpa using hbytes)]
    exact rd_wr_same _ _ _

end

end Sys2Proof.Machine
end

section
/-! A verified stream admits its plane (R52, R111, R136, R298, R531). -/

namespace Sys2Proof.Machine

variable {s t u : State} {e : Bool} {n p : Nat}

-- What admission leaves alone

/-- The planes' codewords, the memory die, the DRAM, Enrus, the configuration controller and the clock settings are as before. -/
structure AdmissionStep (s t : State) : Prop where
  planes : t.fab.planes = s.fab.planes
  frames : t.fab.frames = s.fab.frames
  mem    : t.mem = s.mem
  drm    : t.drm = s.drm
  enr    : t.enr = s.enr
  cfc    : t.cfc = s.cfc
  regs   : ∀ a ∈ clockRegs, rd t a = rd s a

namespace AdmissionStep

theorem refl (s : State) : AdmissionStep s s := ⟨rfl, rfl, rfl, rfl, rfl, rfl, fun _ _ => rfl⟩

theorem of_onlyVolatile (h : onlyVolatile s t) : AdmissionStep s t := by
  unfold onlyVolatile at h
  rw [← h]
  exact ⟨rfl, rfl, rfl, rfl, rfl, rfl, fun _ _ => rfl⟩

section
variable (h : AdmissionStep s t)
include h

theorem trans (k : AdmissionStep t u) : AdmissionStep s u where
  planes := k.planes.trans h.planes
  frames := k.frames.trans h.frames
  mem := k.mem.trans h.mem
  drm := k.drm.trans h.drm
  enr := k.enr.trans h.enr
  cfc := k.cfc.trans h.cfc
  regs a ha := (k.regs a ha).trans (h.regs a ha)
/-- A change of the fabric's other tables. -/
theorem fabric {f : Fabric → Fabric} (hplanes : (f t.fab).planes = t.fab.planes) (hframes : (f t.fab).frames = t.fab.frames) :
    AdmissionStep s (withFab f t) where
  planes := hplanes.trans h.planes
  frames := hframes.trans h.frames
  mem := h.mem
  drm := h.drm
  enr := h.enr
  cfc := h.cfc
  regs := h.regs
theorem wr {a : Nat} (ha : a ∉ clockRegs) (v : Reg) : AdmissionStep s (wr a v t) := by
  obtain ⟨hplanes, hframes, hmem, hdrm, henr, hcfc, hregs⟩ := h
  exact ⟨hplanes, hframes, hmem, hdrm, henr, hcfc, fun b hb => (rd_wr_other t (by rintro rfl; exact ha hb) v).trans (hregs b hb)⟩
theorem setIrq (p b : Nat) : AdmissionStep s (setIrq p b t) := by
  have hhost : onlyHost t (Machine.setIrq p b t) := onlyHost_setIrq (onlyHost_refl t) p b
  refine h.trans ⟨?_, ?_, ?_, ?_, ?_, ?_, fun a ha => ?_⟩
  · exact congrArg (·.fab.planes) hhost
  · exact congrArg (·.fab.frames) hhost
  · exact congrArg (·.mem) hhost
  · exact congrArg (·.drm) hhost
  · exact congrArg (·.enr) hhost
  · exact congrArg (·.cfc) hhost
  · rw [rd_setIrq, rd_wrF_other _ (by rintro rfl; exact irqA_not_clock p ha)]
theorem logDecoded (kind addr cause : Nat) (d : Decoded) (sweep : Bool) (hk : kind < 16) :
    AdmissionStep s (logDecoded kind addr cause d sweep t) := by
  have logged : ∀ syn ue, AdmissionStep s (logErr kind addr syn cause ue sweep t) := fun syn ue => by
    have hlogs := onlyLogs_logErr (onlyLogs_refl t) kind addr syn cause ue sweep
    obtain ⟨-, hregs⟩ := onlyWork_logErr (onlyWork_refl t) kind addr syn cause ue sweep hk
    refine h.trans ⟨?_, ?_, onlyLogs_mem hlogs, congrArg (·.drm) hlogs, onlyLogs_enr hlogs, congrArg (·.cfc) hlogs, fun a ha => ?_⟩
    · rw [onlyLogs_fab hlogs]
    · rw [onlyLogs_fab hlogs]
    · exact hregs a (not_work_of_clock ha)
  cases d with
  | clean _ => exact h
  | corrected _ syn => exact logged syn false
  | uncorrectable syn => exact logged syn true

-- The steps of admission

theorem logWords (n p : Nat) (xs ws : List Nat) : AdmissionStep s (logWords n p xs ws t) :=
  List.foldlRecOn (motive := AdmissionStep s) _ _ h fun _ hx _ _ =>
    List.foldlRecOn (motive := AdmissionStep s) _ _ hx fun _ hw _ _ => hw.logDecoded _ _ _ _ _ (by decide)
theorem latchLanes (n p : Nat) : AdmissionStep s (latchLanes n p t) := (h.fabric rfl rfl).logWords _ _ _ _
theorem coldFabric (n : Nat) : AdmissionStep s (coldFabric n t) := h.trans (of_onlyVolatile (onlyVolatile_coldFabric (onlyVolatile_refl t) n))
theorem loadInitialAt (x : Nat) : AdmissionStep s (loadInitialAt n x p t).1 := by
  unfold Machine.loadInitialAt
  extract_lets k d d32 d33 d34 v1 v2 v3 bank w v4 fl v5 v6
  have h1 : AdmissionStep s v1 := ((h.logDecoded _ _ _ _ _ (by decide)).logDecoded _ _ _ _ _ (by decide)).logDecoded _ _ _ _ _ (by decide)
  have h2 : AdmissionStep s v2 := by
    unfold v2; split
    · exact h1
    · exact h1.fabric rfl rfl
  have h3 : AdmissionStep s v3 := by
    unfold v3; split
    · exact h2
    · exact h2.fabric rfl rfl
  have h4 : AdmissionStep s v4 := by
    unfold v4; split
    · exact h3
    · have hw : AdmissionStep s w := h3.logDecoded _ _ _ _ _ (by decide)
      split
      · exact hw
      · exact hw.fabric rfl rfl
  have h5 : AdmissionStep s v5 := h4.logDecoded _ _ _ _ _ (by decide)
  show AdmissionStep s v6
  unfold v6; split
  · exact h5
  · exact h5.fabric rfl rfl
theorem loadInitial (n p : Nat) : AdmissionStep s (loadInitial n p t).1 :=
  List.foldlRecOn (motive := fun a : State × List Nat => AdmissionStep s a.1) _ _ h fun _ ha x _ => ha.loadInitialAt x
theorem setPlaneInfo (n p : Nat) (v : PlaneInfo) : AdmissionStep s (setPlaneInfo n p v t) := by
  have hst := h.fabric (f := fun f => { f with planeSt := tput .zero (16 * n + p) v f.planeSt }) rfl rfl
  unfold Machine.setPlaneInfo
  dsimp only
  split
  · exact hst.setIrq _ _
  · exact hst
theorem rearmEmpty : AdmissionStep s (rearmEmpty t) := by
  obtain ⟨hregs, hmem⟩ := rearmEmpty_regs t
  obtain ⟨henr, -, -⟩ := rearmEmpty_keeps t
  obtain ⟨hwork, -⟩ := onlyWork_rearmEmpty (onlyWork_refl t)
  exact h.trans ⟨congrArg (·.fab.planes) hwork, congrArg (·.fab.frames) hwork, hmem, congrArg (·.drm) hwork, henr, congrArg (·.cfc) hwork,
    fun a _ => rd_congr hregs a⟩

end

end AdmissionStep

-- A plane admitted

theorem rearmEmpty_fab (t : State) : (rearmEmpty t).fab = t.fab := onlyWork_fab (onlyWork_rearmEmpty (onlyWork_refl t))

theorem admission_congr (h : t.fab = s.fab) (n p : Nat) : admission t n p = admission s n p := by
  have hdec : ∀ q x w, planeDec t n x q w = planeDec s n x q w := fun q x w => by
    unfold planeDec planeCode; rw [h]
  unfold admission contends doubleDrive claims portCfg setsDrv validPlanes planeInfo
  simp only [hdec, h]

/-- An admitted plane is VALID (R111, R298). -/
theorem admitPlane_admitted (ha : admission s n p = none) :
    AdmissionStep s (admitPlane n p s) ∧ (planeInfo (admitPlane n p s) n p).st = .valid := by
  have hlatched := ((AdmissionStep.refl s).logWords n p (List.range 512) [27, 35]).latchLanes n p
  unfold admitPlane
  dsimp only
  rw [ha]
  dsimp only
  refine ⟨(AdmissionStep.setPlaneInfo (AdmissionStep.loadInitial ?_ n p) n p _).rearmEmpty, ?_⟩
  · split
    · exact hlatched.coldFabric n
    · exact hlatched
  · rw [planeInfo_congr (congrArg Fabric.planeSt (rearmEmpty_fab _)), planeInfo_setPlaneInfo, if_pos rfl]

theorem measure_keeps (g : Engine) (q : Nat × Nat) (s : State) : AdmissionStep s (measure g q s) ∧ (measure g q s).fab = s.fab := by
  unfold measure
  split
  · split
    · exact ⟨⟨rfl, rfl, rfl, rfl, rfl, rfl, fun _ _ => rfl⟩, rfl⟩
    · exact ⟨.refl s, rfl⟩
  · exact ⟨.refl s, rfl⟩

-- The planes of a stream

theorem flatMap_of_single {α β : Type} {l : List α} {b : α} (hl : l.Nodup) (hb : b ∈ l) {f : α → List β} (hf : ∀ a ∈ l, a ≠ b → f a = []) :
    l.flatMap f = f b := by
  obtain ⟨l1, l2, rfl⟩ := List.append_of_mem hb
  obtain ⟨-, h2, hdis⟩ := List.nodup_append.1 hl
  have hb2 := (List.nodup_cons.1 h2).1
  rw [List.flatMap_append, List.flatMap_cons, List.flatMap_eq_nil_iff.2 fun a ha => hf a (by simp [ha]) (hdis a ha b (by simp)),
    List.flatMap_eq_nil_iff.2 fun a ha => hf a (by simp [ha]) (by rintro rfl; exact hb2 ha), List.nil_append, List.append_nil]

theorem streamPlanes_of_single {g : Engine} (hg : g.planes = [(n, p)]) (hn : n < 34) (hp : p < 17) : streamPlanes g = [(n, p)] := by
  unfold streamPlanes
  rw [hg, flatMap_of_single List.nodup_range (List.mem_range.2 hn)]
  · have hin : (List.range 17).filter (fun q => [(n, p)].contains (n, q)) = (List.range 17).filter (· = p) :=
      List.filter_congr fun q _ => by simp
    rw [hin, List.filter_eq, List.count_eq_one_of_mem List.nodup_range (List.mem_range.2 hp)]
    rfl
  · intro m _ hm
    rw [List.filter_eq_nil_iff.2 fun q _ => by simp [hm]]
    rfl

-- The stream applied (R298)

/-- The end of a stream that admitted one plane and brought no records. -/
def streamApplied (e : Bool) (s : State) : State :=
  wr (at' (engPage e) 0x50) (BitVec.ofNat 32 (2 ^ 12)) (streamEnd e 0 (sysUpdateWrite 0xFFFF s))

theorem onlyEngines_streamApplied (e : Bool) (s : State) : onlyEngines s (streamApplied e s) := by
  have hupdate : onlyEngines s (sysUpdateWrite 0xFFFF s) := rfl
  exact onlyEngines_wr (onlyEngines_trans hupdate (onlyEngines_of_onlyHost (onlyHost_streamEnd e 0 _))) _ _
theorem engOf_streamApplied (e : Bool) (s : State) : engOf (streamApplied e s) e = engOf s e :=
  engOf_congr (streamEnd_cfc e 0 (sysUpdateWrite 0xFFFF s)) e
theorem streamApplied_marked (e : Bool) (s : State) : EndMarked e 0 (streamApplied e s) := by
  obtain ⟨-, hstat, -⟩ := engStatA_ne e
  obtain ⟨hirq, -⟩ := irqA_ne_engine e
  exact (streamEnd_marked e (by decide) (sysUpdateWrite 0xFFFF s)).of_regs (regsBut_wr (regsBut_refl _ _) (List.mem_singleton_self _) _)
    (by simpa using hstat) (by simpa using hirq)
theorem streamApplied_updActive (e : Bool) (s : State) : (streamApplied e s).hst.updActive = true := by
  unfold streamApplied streamEnd
  rw [wr_hst, setIrq_hst_proj _ HostIf.updActive fun _ _ => rfl]
  rfl
theorem engineFreed_hst (e : Bool) (s : State) : (engineFreed e s).hst = s.hst := by cases e <;> rfl
theorem rd_streamApplied_clock (e : Bool) (s : State) {a : Nat} (ha : a ∈ clockRegs) : rd (streamApplied e s) a = rd s a := by
  have hnot : ∀ f, at' (engPage f) 0x50 ∉ clockRegs ∧ engStatA f ∉ clockRegs := by decide
  obtain ⟨hcount, hstat⟩ := hnot e
  have hne : ∀ {b}, b ∉ clockRegs → a ≠ b := fun hb h => hb (h ▸ ha)
  unfold streamApplied streamEnd
  rw [rd_wr_other _ (hne hcount), rd_setIrq, rd_wrF_other _ (hne (irqA_not_clock _)), rd_wrF_other _ (hne hstat),
    rd_wrF_other _ (hne hstat)]
  rfl

section
variable (hplanes : (engOf s e).planes = [(n, p)]) (hn : n < 34) (hp : p < 16) (hpend : (planeInfo s n p).st = .pending)
  (hadm : admission s n p = none) (hrecs : (engOf s e).recs = []) (hkind : hKind (engOf s e).seen = 2)
include hplanes hn hp hpend hadm hrecs hkind

theorem applyStream_of_single (hbeyond : beyond (engOf s e) = []) :
    applyStream e s = closeEngine e [] (streamApplied e (measure (engOf s e) (n, p) (admitPlane n p s))) := by
  have hne : p ≠ 16 := by omega
  obtain ⟨hadmitted, hvalid⟩ := admitPlane_admitted hadm
  obtain ⟨hmeasured, -⟩ := measure_keeps (engOf s e) (n, p) (admitPlane n p s)
  have hcount : min 1023 0 * 2 ^ 22 + min 1023 1 * 2 ^ 12 + min 4095 0 = 2 ^ 12 := rfl
  unfold applyStream
  dsimp only
  rw [streamPlanes_of_single hplanes hn (by omega)]
  simp only [List.foldl_cons, List.foldl_nil, List.filter_cons, List.filter_nil, planeStOf, hne, hpend, hvalid, hkind, hrecs, applyRecords,
    if_false, if_true, decide_true, decide_false, reduceCtorEq, Bool.false_eq_true, Nat.reduceEqDiff, Bool.and_false, List.length_nil,
    List.length_singleton]
  rw [hcount, ← streamApplied, engOf_streamApplied, engOf_congr (hmeasured.cfc.trans hadmitted.cfc), hbeyond]

end

/-- A stream that verifies makes its admitted plane VALID, and ends well (R297, R298). -/
theorem signatureVerified_admits (hs : streamStill s) (hh : (engOf s e).held = [])
    (hsrc : 1 < (engOf s e).src) (hst : (engOf s e).st = .verify) (hlen : hTotal (engOf s e).seen = (engOf s e).seen.length)
    (hv : (engOf s e).verdict = none) (hok : signatureOk (engOf s e) = true) (hplanes : (engOf s e).planes = [(n, p)]) (hn : n < 34)
    (hp : p < 16) (hpend : (planeInfo s n p).st = .pending) (hadm : admission s n p = none) (hrecs : (engOf s e).recs = [])
    (hkind : hKind (engOf s e).seen = 2) :
    ∃ t, exec (.signatureVerified e) s = .next t ∧ (planeInfo t n p).st = .valid ∧ (engOf t e).st = .idle ∧ EndMarked e 0 t
      ∧ t.hst.updActive = true ∧ t.fab.planes = s.fab.planes ∧ t.fab.frames = s.fab.frames ∧ t.mem = s.mem ∧ t.drm = s.drm := by
  have hwhole : AdmissionStep s (streamWhole e s) := (AdmissionStep.refl s).wr (engBytesA_not_clock e) _
  have hadm : admission (streamWhole e s) n p = none := (admission_congr rfl n p).trans hadm
  obtain ⟨hadmitted, hvalid⟩ := admitPlane_admitted hadm
  obtain ⟨hmeasured, hfab⟩ := measure_keeps (engOf s e) (n, p) (admitPlane n p (streamWhole e s))
  have htake : takeSignature e s
      = closeEngine e [] (streamApplied e (measure (engOf s e) (n, p) (admitPlane n p (streamWhole e s)))) := by
    rw [takeSignature_of_good hst hlen hv hok]
    exact applyStream_of_single (s := streamWhole e s) hplanes hn hp hpend hadm hrecs hkind (beyond_of_whole hlen hsrc)
  have hvalid := (congrArg PlaneInfo.st (planeInfo_congr (congrArg Fabric.planeSt hfab) n p)).trans hvalid
  have hstep := hwhole.trans (hadmitted.trans hmeasured)
  generalize measure (engOf s e) (n, p) (admitPlane n p (streamWhole e s)) = m at *
  have hend := onlyEngines_trans (onlyEngines_streamApplied e m) (onlyEngines_engineFreed e _)
  have hfree : closeEngine e [] (streamApplied e m) = engineFreed e (streamApplied e m) :=
    closeEngine_nil (by rw [engOf_streamApplied, engOf_congr hstep.cfc]; exact hh)
  have hstill : streamStill m := by
    unfold streamStill
    rw [hstep.enr, hstep.cfc]
    exact hs
  have hregs := regsBut_engineFreed e (streamApplied e m)
  have hclock : ∀ a ∈ clockRegs, rd (engineFreed e (streamApplied e m)) a = rd s a := fun a ha =>
    (hregs a fun h => statA_not_clock (List.mem_singleton.1 h ▸ ha)).trans ((rd_streamApplied_clock e m ha).trans (hstep.regs a ha))
  have hfabEnd := onlyEngines_fab hend
  obtain ⟨-, -, -, hstat⟩ := engStatA_ne e
  obtain ⟨-, hirq⟩ := irqA_ne_engine e
  refine ⟨engineFreed e (streamApplied e m), ?_, ?_, ?_, ?_, ?_, ?_, ?_, ?_, ?_⟩
  · change clocked s (Machine.streamAfter (takeSignature e s)) = _
    rw [htake, hfree, onlyEngines_streamAfter hend hstill]
    exact clocked_of_regs hclock
  · rw [planeInfo_congr (congrArg Fabric.planeSt hfabEnd), hvalid]
  · rw [engOf_engineFreed]; rfl
  · exact (streamApplied_marked e m).of_regs hregs (by simpa using hstat) (by simpa using hirq)
  · rw [engineFreed_hst, streamApplied_updActive]
  · rw [hfabEnd, hstep.planes]
  · rw [hfabEnd, hstep.frames]
  · rw [onlyEngines_mem hend, hstep.mem]
  · rw [onlyEngines_drm hend, hstep.drm]

end Sys2Proof.Machine
end

section
/-! O39: the sources of a stream engine and the parts of a stream. -/

namespace Sys2Proof.Machine

/-- Settles O39, each command of a source and each part of a stream by its own lemma. -/
theorem streamEngines : Obligations.StreamEngines := by
  unfold Obligations.StreamEngines
  refine ⟨fun s hs => ⟨fun src hr hg hb => ⟨?_, ?_⟩, fun v hr hg hb hstarted hsrc hcast => ⟨?_, ?_⟩, ?_,
    fun e hheld => ⟨fun hr hg hb => ⟨?_, ?_⟩, ?_, ?_⟩⟩, ?_⟩
  · exact engStart_opens hr hg hb
  · exact engStart_refused hr hg hb
  · exact irpDataWrite_appends hr hg hb hstarted hsrc v hcast
  · exact irpDataWrite_begins hr hg hb hstarted hsrc v
  · exact fun v w => irpMasterWrite_holds
  · exact engEnd_holds hs hheld hr hg hb
  · exact fun hst hsrc => engAbort_holds hs hsrc hr hg hb hst
  · exact fun hst hsrc => (streamStall_holds hs hheld hsrc).1 hst
  · exact fun hst hsrc => (streamStall_holds hs hheld hsrc).2 hst
  · rintro e s _ rfl hs hboot hcast hsrc hheld
    refine ⟨fun hst hlen hfollow => ?_, fun h payload hst hbegun hfits hhead hgood hends hlen hpayload => ?_,
      fun hst hbegun hpos hlen => ?_, fun hst hlen hrecs hkind => ⟨?_, ?_⟩⟩
    · obtain ⟨haccepted, hrefused⟩ := streamHeader_holds hs hboot hheld hst hlen hfollow
      refine ⟨haccepted, fun c hc hlt h409 h0 hp => ?_⟩
      obtain ⟨t, hexec, ⟨hcause, -, hirq⟩, hsec, hstores⟩ := hrefused c hc hlt h409 hp
      exact ⟨t, hexec, hcause, by rwa [if_neg h0] at hirq, hsec, hstores⟩
    · have hh : SectionHere (engOf s e) h := ⟨hst, hbegun, hfits, hhead, hgood, hends, hlen⟩
      refine ⟨fun n hty hmine hn hclear hblank => ?_, fun n hty hmine hn hclear hblank hhalt => ?_, fun hty hrec => ?_, fun hty => ?_⟩
      · exact planeSection_holds hs hh hmine hn hclear hpayload hty rfl hblank
      · exact frameSection_holds hs hh hmine hn hclear hpayload hty hblank hhalt
      · exact regSection_holds hh hs hty (congrArg regRecords hpayload) hrec
      · obtain ⟨t, hexec, hpos, hcount, hblocks, hregs, hstores⟩ := storeImageSection_holds hs hh hty hpayload
        exact ⟨t, hexec, hpos, hcount, fun b hb _ => hblocks b hb, hregs, hstores⟩
    · obtain ⟨hgood, hfail⟩ := trailer_holds hst hbegun hpos hlen hs hsrc
      refine ⟨hgood, fun hcheck hp hk => ?_⟩
      obtain ⟨t, hexec, hverdict, ⟨hcause, -, hirq⟩, hstores⟩ := hfail hcheck hp hk hboot
      exact ⟨t, hexec, hverdict, hcause, hirq, hstores⟩
    · exact fun c hv => signatureVerified_of_verdict hst hlen hs hheld hsrc hv
    · intro n p hv hok hplanes hn hp hpend hadm
      obtain ⟨t, hexec, hvalid, hidle, ⟨hcause, hdone, hirq⟩, hupdate, hkept⟩ :=
        signatureVerified_admits hs hheld hsrc hst hlen hv hok hplanes hn hp hpend hadm hrecs hkind
      exact ⟨t, hexec, hvalid, hidle, hcause, hdone, hirq, hupdate, hkept⟩

end Sys2Proof.Machine
end
